-- ==== Sys2Proof/Word.lean ====
section
/-! DEFINITION. The word types of the TP4 and their plainest arithmetic: bytes, 32- and 64-bit words, partition
addresses, and fields of a number read as bits (spec/00_scope.md, Notation: ranges are written [msb:lsb]). -/

namespace Sys2Proof

/-- One byte. -/
abbrev Byte := BitVec 8

/-- A 32-bit register or word (R6). -/
abbrev W32 := BitVec 32

/-- A 64-bit register (R6). -/
abbrev W64 := BitVec 64

/-- A partition address or a local physical address: 44 bits (R43, R52). -/
abbrev Pa := BitVec 44

/-- The `w` bits of `x` from bit `lo` upward, as a number. -/
def bits (x lo w : Nat) : Nat := (x >>> lo) % 2 ^ w

/-- Bit `n` of `x`. -/
def bit (x n : Nat) : Bool := x.testBit n

/-- `x` with the `w` bits from bit `lo` upward replaced by the low `w` bits of `v`. -/
def putBits (x lo w v : Nat) : Nat :=
  x - (bits x lo w) <<< lo + (v % 2 ^ w) <<< lo

/-- 1 for true, 0 for false. -/
def b2n (b : Bool) : Nat := if b then 1 else 0

/-- The number `x` of `w` bits read as two's complement. -/
def toSigned (w x : Nat) : Int :=
  let y := x % 2 ^ w
  if 2 * y < 2 ^ w then (y : Int) else (y : Int) - (2 ^ w : Nat)

/-- The integer `i` modulo 2^w, as a number of `w` bits. -/
def ofSigned (w : Nat) (i : Int) : Nat := (i % ((2 ^ w : Nat) : Int)).toNat

/-- The low `n` bytes of `x`, least significant first (R6: little-endian). -/
def leBytes : Nat → Nat → List Byte
  | 0, _ => []
  | n + 1, x => BitVec.ofNat 8 x :: leBytes n (x >>> 8)

/-- The number whose little-endian bytes are `l` (R6). -/
def ofLeBytes : List Byte → Nat
  | [] => 0
  | b :: l => b.toNat + ofLeBytes l <<< 8

/-- Number of set bits among the low `n` bits of `x`. -/
def popcount : Nat → Nat → Nat
  | 0, _ => 0
  | n + 1, x => x % 2 + popcount n (x / 2)

end Sys2Proof
end

