-- ==== Sys2Proof/Records.lean ====
section
/-! DEFINITION. The operands that commands carry: instruction fields, register addresses and what arrives from outside. -/

namespace Sys2Proof

/-- The block kinds of R65 by number. -/
inductive Kind where
  | cat | hub | unit | arr | vec | cmem | slc | hbm | xfe | ctr | fen | str | obj | prt | glp | xch | snp | eth | pcx | hku
  | dom | bol | id | prog
  deriving DecidableEq, Repr

/-- KIND as BLK_ID gives it (R65). Progress blocks (R11) have no KIND of R65; their number here is the model's own. -/
def Kind.code : Kind → Nat
  | .cat => 0x01 | .hub => 0x02 | .unit => 0x03 | .arr => 0x04 | .vec => 0x05 | .cmem => 0x06 | .slc => 0x07 | .hbm => 0x08
  | .xfe => 0x09 | .ctr => 0x0A | .fen => 0x0B | .str => 0x0C | .obj => 0x0D | .prt => 0x0E | .glp => 0x0F | .xch => 0x10
  | .snp => 0x11 | .eth => 0x12 | .pcx => 0x13 | .hku => 0x14 | .dom => 0x15 | .bol => 0x16 | .id => 0x17 | .prog => 0x18

/-- A register: its block's kind, the partition whose pages present it (R48), the block's instance (R17, R18) and the byte
offset in the block (R6). -/
structure RegAddr where
  kind : Kind
  part : Nat
  inst : Nat
  off : Nat
  deriving DecidableEq, Repr

/-- One Mujan instruction at issue: the unit (0-127 compute, 128-131 housekeeping) and the group slot that issue it, the fields
of its word (R202), its extension word (R201), the lanes that are not ready because a result is still within its latency (R180), and the other
group slots of the unit whose instruction the collectors, the bank ports or a latency hold back (R172). The opcode is the command's
constructor. -/
structure Mi where
  unit : Fin 132
  slot : Fin 32
  pred : BitVec 3
  pneg : Bool
  dst : BitVec 8
  a : BitVec 8
  b : BitVec 8
  c : BitVec 8
  reuse : BitVec 3
  usel : BitVec 3
  udst : Bool
  mod : BitVec 12
  ext : Option W64
  stall : W32
  busy : W32 := 0
  deriving DecidableEq, Repr

/-- The vop instruction at issue: the fields of its words (R230), and what holds lanes and other slots back as in `Mi`. -/
structure Vi where
  unit : Fin 132
  slot : Fin 32
  pred : BitVec 3
  pneg : Bool
  vop : BitVec 6
  lane : BitVec 4
  round : BitVec 2
  dst : BitVec 8
  a : BitVec 8
  b : BitVec 8
  c : BitVec 8
  relu : Bool
  maskout : Bool
  lse : Bool
  signal : Bool
  link : Bool
  rsv : BitVec 3
  repeatN : BitVec 11
  rows : BitVec 9
  mask : BitVec 8
  counter : BitVec 12
  srcfmt : BitVec 4
  rsvExt : BitVec 20
  stall : W32
  busy : W32 := 0
  deriving DecidableEq, Repr

/-- What the ECC of a read finds: the words corrected and the words found uncorrectable for the first time, one bit per word
(R236, R250). It comes from the physics of the memory, so a command carries it. -/
structure Ecc where
  corr : Nat
  uncorr : Nat
  deriving DecidableEq, Repr

/-- What a control frame on an Ethernet port carries (R441): its VLAN identifier where it is tagged, the address that it asks for, and its data. -/
structure ControlFrame where
  vlan : Option (BitVec 12)
  asked : BitVec 128
  data : List Byte
  deriving DecidableEq, Repr

/-- The sender of a connection request (R442, R444): its queue pair, and the path MTU as 1,024 * 2 ^ `mtu` bytes. -/
structure CmPeer where
  qp : W32
  mtu : Fin 3
  deriving DecidableEq, Repr

/-- A message that comes on a queue pair, and whether its packet is marked Congestion Experienced (R450). -/
structure QpArrival where
  qp : Nat
  ce : Bool
  deriving DecidableEq, Repr

/-- The body of a response capsule of a store target (R454): the bytes that it carries, and whether its packet is marked Congestion Experienced. -/
structure CapsuleBody where
  data : List Byte
  ce : Bool
  deriving DecidableEq, Repr

/-- A queue pair whose packets are not acknowledged, and how often it has sent them again since the last acknowledgement (R442). -/
structure Unanswered where
  qp : Nat
  tries : Fin 8
  deriving DecidableEq, Repr

/-- An access that arrives at its point: an operation of a thread or of an array's output by its number, or the read of a line by another agent
(an engine, a sequencer, a remote agent) of a partition, which reaches a cluster memory through port `port` of R40. -/
inductive LineAccess where
  | op (id : Nat)
  | agent (port : Fin 8) (part : Fin 4) (lpa : BitVec 44)
  deriving DecidableEq, Repr

/-- A register block as the catalogue publishes it (R64): its LPA base, its size in 64 KiB pages, its kind, the partition whose pages
present it (0xFF package-wide) and its instance; for a progress block its number. -/
structure Block where
  base : Nat
  pages : Nat
  kind : Kind
  part : Nat
  inst : Nat
  deriving DecidableEq, Repr

/-- What the work of a start-up stage finds (R468 to R474), of which each stage uses its own part: the size of a boot flash with a valid SFDP
table; the entry LPA of the firmware group of each housekeeping unit; the number of self-test records (in stage 3, of those that matched on every
cluster before the first mismatch) and the first mismatch (cluster, record); how often the training of each HBM stack failed; for each PCIe/CXL
port the capacity of its CXL device, the mask of links trained, the widths of its four links (4 * port + link), whether it trained below 64 GT/s,
and the failed enumerations (port, link, NVMe status); the mask of Ethernet ports up; and the places of the register blocks. -/
structure StartWork where
  flashBytes : Option Nat
  hku : List Nat
  records : Nat
  mismatch : Option (Nat × Nat)
  fails : List Nat
  capacity : List Nat
  links : List Nat
  width : List Nat
  slow : List Bool
  nvme : List (Nat × Nat × Nat)
  eth : Nat
  blocks : List Block
  deriving DecidableEq, Repr

/-- A request of the BMC by MCTP (R496): its SEQ and arguments. -/
structure Bmc where
  seq : BitVec 16
  a0 : W32
  a1 : W32
  a2 : W32
  deriving DecidableEq, Repr

end Sys2Proof
end

