-- ==== Sys2Proof/Syntax.lean ====
section
/-! DEFINITION. The commands of the TP4: one constructor per row of spec/opcode_table.json, in its order. An operand names
the subject of the command (a unit and group slot, a cluster, a slice, a port, a partition and stream) or carries what arrives
from outside the package. -/

namespace Sys2Proof

/-- One command of the block (one row of spec/opcode_table.json). -/
inductive Instr where
  /-- LOW_WORD_READ (R9): A read of the low word of a 64-bit register returns it and latches the high word in the register's shared latch. -/
  | lowWordRead (a : RegAddr)
  /-- LOW_WORD_WRITE (R9): A write of the low word of a 64-bit register is held until the high word is written, replacing any value already held. -/
  | lowWordWrite (a : RegAddr) (w : W32)
  /-- HIGH_WORD_WRITE (R9): A write of the high word of a 64-bit register takes effect together with the held low word, or with the current low word if none is held. -/
  | highWordWrite (a : RegAddr) (w : W32)
  /-- PROG_STATE_READ (R13): A read of PROG_STATE latches PROG_DONE, PROG_TOTAL and PROG_PERMILLE for later reads. -/
  | progStateRead (n : Nat)
  /-- REGISTER_WRITE (R8): A write to a register that has no behaviour of its own acts by the field's access type: RW stores, W1C clears, RWL stores until the lock, RO and reserved fields ignore it. -/
  | registerWrite (a : RegAddr) (w : W32)
  /-- EXTENT_PERM_WRITE (R54): A write of PRT_EXT_PERM of an extent entry 8-63 checks the entry, sets VALID and ERR, or records CONTEXT_EXISTS while a context exists. -/
  | extentPermWrite (p : Fin 4) (e : Fin 64) (w : W32)
  /-- EXTENT_RANGE_WRITE (R54): A write of BASE, LIMIT or TARGET of an extent entry 8-63 stores the value and clears VALID while the partition has no context, and is ignored otherwise. -/
  | extentRangeWrite (p : Fin 4) (e : Fin 64) (field : Fin 3) (v : W64)
  /-- CTR_ENTRY_WRITE (R275): A write of a counter's VALUE, FLOOR or CEIL is applied in arrival order with signals, or refused with its cause recorded in CTR_LAST_ERROR; a write that meets a wait target releases the waiters. -/
  | ctrEntryWrite (r : Fin 4) (n : Fin 4096) (field : Fin 3) (w : W32)
  /-- CTR_DBG_SEL_WRITE (R278): A write of CTR_DBG_SEL latches a one-cycle snapshot of the selected counter, its waiters and its last signaller. -/
  | ctrDbgSelWrite (r : Fin 4) (w : W32)
  /-- FEN_CTL_RESET (R287): A write of 1 to RESET returns a FAULTED fence to service, or records the fence in FEN_LAST_ERROR if the fence is not FAULTED. -/
  | fenCtlReset (r : Fin 4) (f : Fin 1024)
  /-- DBG_HALT (R195): A write of 1 to HALT halts the groups given by SCOPE while debug halting is enabled. -/
  | dbgHalt (u : Fin 132)
  /-- DBG_RESUME (R197): A write of 1 to RESUME releases every halted group of the unit. -/
  | dbgResume (u : Fin 132)
  /-- DBG_STEP (R197): A write of 1 to STEP lets STEP_GROUP issue one instruction and then halt again with cause STEP. -/
  | dbgStep (u : Fin 132) (k : Fin 32)
  /-- ID_REQ_WRITE (R529): A write of a new SEQ to ID_REQ starts an attestation report for the nonce in ID_NONCE; the write is ignored while BUSY. -/
  | idReqWrite (p : Fin 4) (seq : BitVec 16)
  /-- ID_REPORT_READY (R529): The attestation report is complete; it is placed in ID_REPORT and ID_STATUS shows VALID with the request's SEQ. -/
  | idReportReady
  /-- BOL_READ_SEQ_READ (R521): A read of BOL_READ_SEQ latches the other BOL_ registers as a consistent set. -/
  | bolReadSeqRead (p : Fin 4)
  /-- NOP_INSTRUCTION (R209): The nop instruction does nothing. -/
  | nopInstruction (mi : Mi)
  /-- BRA (R209): The executing threads branch to PA + 8 times the offset. -/
  | bra (mi : Mi)
  /-- BRX (R209): Each executing thread branches to the PA held in a register pair, with a MISALIGNED fault for a target that is not a multiple of 8. -/
  | brx (mi : Mi)
  /-- CALL (R209): The executing threads branch as bra does and write the return PA to a register pair. -/
  | call (mi : Mi)
  /-- EXIT (R171): The executing threads end, which may end their group, their team and their launch. -/
  | exit (mi : Mi)
  /-- DIV (R175): On a housekeeping unit, pushes the join and else entries on the mask stack and narrows the active mask; on a compute unit it is a no-operation. -/
  | div (mi : Mi)
  /-- JOIN (R175): On a housekeeping unit, pops the mask stack and continues at the popped target; on a compute unit it is a no-operation. -/
  | join (mi : Mi)
  /-- BRK (R195): The debug breakpoint halts the unit when debug halting is enabled, and is a no-operation otherwise. -/
  | brk (mi : Mi)
  /-- TFENCE (R211): The group waits until every tile instruction it issued has completed. -/
  | tfence (mi : Mi)
  /-- VFENCE (R211): The group waits until every vector instruction it issued has completed. -/
  | vfence (mi : Mi)
  /-- ADD (R212): Integer addition, wrapping modulo 2^32. -/
  | add (mi : Mi)
  /-- SUB (R212): Integer subtraction, wrapping modulo 2^32. -/
  | sub (mi : Mi)
  /-- MUL (R212): The low 32 bits of the product. -/
  | mul (mi : Mi)
  /-- MULHI_S (R212): The high 32 bits of the signed product. -/
  | mulhiS (mi : Mi)
  /-- MULHI_U (R212): The high 32 bits of the unsigned product. -/
  | mulhiU (mi : Mi)
  /-- MAD (R212): The low 32 bits of a times b plus c. -/
  | mad (mi : Mi)
  /-- MIN_S (R212): The signed minimum. -/
  | minS (mi : Mi)
  /-- MIN_U (R212): The unsigned minimum. -/
  | minU (mi : Mi)
  /-- MAX_S (R212): The signed maximum. -/
  | maxS (mi : Mi)
  /-- MAX_U (R212): The unsigned maximum. -/
  | maxU (mi : Mi)
  /-- ABS (R212): The integer absolute value, with -2^31 giving -2^31. -/
  | abs (mi : Mi)
  /-- ADD64 (R212): 64-bit addition on register pairs. -/
  | add64 (mi : Mi)
  /-- SUB64 (R212): 64-bit subtraction on register pairs. -/
  | sub64 (mi : Mi)
  /-- POPC (R212): The count of set bits. -/
  | popc (mi : Mi)
  /-- CLZ (R212): The count of leading zero bits. -/
  | clz (mi : Mi)
  /-- AND (R212):  -/
  | and (mi : Mi)
  /-- OR (R212):  -/
  | or (mi : Mi)
  /-- XOR (R212): Bitwise exclusive or. -/
  | xor (mi : Mi)
  /-- ANDN (R212):  -/
  | andn (mi : Mi)
  /-- NOT (R212):  -/
  | not (mi : Mi)
  /-- SHL (R212): Left shift; an amount of 32 or more gives 0. -/
  | shl (mi : Mi)
  /-- SHR (R212): Logical right shift; an amount of 32 or more gives 0. -/
  | shr (mi : Mi)
  /-- SAR (R212): Arithmetic right shift; an amount of 32 or more gives sign fill. -/
  | sar (mi : Mi)
  /-- BFE_U (R212): Zero-extended bit-field extract. -/
  | bfeU (mi : Mi)
  /-- BFE_S (R212): Sign-extended bit-field extract. -/
  | bfeS (mi : Mi)
  /-- BFI (R212): Bit-field insert. -/
  | bfi (mi : Mi)
  /-- FADD (R213): Floating-point addition in FP32 or packed FP16 or BF16. -/
  | fadd (mi : Mi)
  /-- FSUB (R213): Floating-point subtraction. -/
  | fsub (mi : Mi)
  /-- FMUL (R213): Floating-point multiplication. -/
  | fmul (mi : Mi)
  /-- FFMA (R213): Fused multiply-add with one rounding. -/
  | ffma (mi : Mi)
  /-- FMIN (R212): Floating-point minimum under R157. -/
  | fmin (mi : Mi)
  /-- FMAX (R212): Floating-point maximum under R157. -/
  | fmax (mi : Mi)
  /-- FABS (R212): Clears the sign bit; NaN gives the canonical NaN. -/
  | fabs (mi : Mi)
  /-- FNEG (R212): Inverts the sign bit; NaN gives the canonical NaN. -/
  | fneg (mi : Mi)
  /-- DADD (R212): FP64 addition on register pairs. -/
  | dadd (mi : Mi)
  /-- DSUB (R212): FP64 subtraction. -/
  | dsub (mi : Mi)
  /-- DMUL (R212): FP64 multiplication. -/
  | dmul (mi : Mi)
  /-- DFMA (R212): FP64 fused multiply-add. -/
  | dfma (mi : Mi)
  /-- DMIN (R212): FP64 minimum. -/
  | dmin (mi : Mi)
  /-- DMAX (R212): FP64 maximum. -/
  | dmax (mi : Mi)
  /-- ISETP (R214): Sets a predicate from an integer comparison. -/
  | isetp (mi : Mi)
  /-- FSETP (R214): Sets a predicate from a floating-point comparison. -/
  | fsetp (mi : Mi)
  /-- DSETP (R214): Sets a predicate from an FP64 comparison. -/
  | dsetp (mi : Mi)
  /-- PSETP (R214): Sets a predicate from a logical combination of two predicates. -/
  | psetp (mi : Mi)
  /-- SEL (R214): Selects a or b by a predicate. -/
  | sel (mi : Mi)
  /-- VOTE_ALL (R214): Sets a predicate if the predicate holds in every executing thread. -/
  | voteAll (mi : Mi)
  /-- VOTE_ANY (R214): Sets a predicate if the predicate holds in any executing thread. -/
  | voteAny (mi : Mi)
  /-- VOTE_BALLOT (R214): Writes the mask of executing threads in which the predicate holds. -/
  | voteBallot (mi : Mi)
  /-- MOV (R214): Moves a 32-bit value or immediate. -/
  | mov (mi : Mi)
  /-- MOV64 (R214): Moves a 64-bit pair or immediate. -/
  | mov64 (mi : Mi)
  /-- CVT (R217): Converts between thread formats under R81. -/
  | cvt (mi : Mi)
  /-- NDEC (R218): Decodes an Ndoum element with its scale code to FP32. -/
  | ndec (mi : Mi)
  /-- MXIMP (R219): Imports an MX element code unchanged. -/
  | mximp (mi : Mi)
  /-- MXSIMP (R219): Converts an E8M0 scale to the E6M2 code of R82 for a whole group. -/
  | mxsimp (mi : Mi)
  /-- MXEXP (R219): Exports an FP32 value as an MX element code under a shared exponent. -/
  | mxexp (mi : Mi)
  /-- MXSEXP (R219): Computes the E8M0 shared exponent of 32 FP32 values. -/
  | mxsexp (mi : Mi)
  /-- S2R (R216): Reads a special register; a read of CLOCK_LO latches CLOCK_HI. -/
  | s2r (mi : Mi)
  /-- SHFL (R215): Shuffles values between lanes. -/
  | shfl (mi : Mi)
  /-- LD (R222): A load from memory, after the checks of R221. -/
  | ld (mi : Mi)
  /-- ST (R222): A store to memory, after the checks of R221. -/
  | st (mi : Mi)
  /-- LDC (R188): A load through the constant cache. -/
  | ldc (mi : Mi)
  /-- PF (R222): A prefetch hint for a line into its L2 slice. -/
  | pf (mi : Mi)
  /-- DEAD (R222): A dead hint for a 128-byte line. -/
  | dead (mi : Mi)
  /-- ACCL (R222): A memory-side FP32 accumulate into a 128-byte line. -/
  | accl (mi : Mi)
  /-- ATOM (R225): An atomic operation; OP, TYPE and SCOPE are parameters. -/
  | atom (mi : Mi)
  /-- FENCE_INSTRUCTION (R226): The memory fence instruction: orders the thread's memory operations at a scope and invalidates the L1 at cluster scope or wider. -/
  | fenceInstruction (mi : Mi)
  /-- GBAR (R181): A thread arrives at the group barrier; the instance completes and releases the threads when its mask is satisfied. -/
  | gbar (mi : Mi)
  /-- CSIG (R227): Signals a sync counter with a release at SCOPE. -/
  | csig (mi : Mi)
  /-- CWAIT (R227): The thread waits until a counter reaches a target, then acquires. -/
  | cwait (mi : Mi)
  /-- CGET (R227): Reads a counter value without ordering. -/
  | cget (mi : Mi)
  /-- TILE (R229): Issues a tile instruction from a tile descriptor, stalling while two are unaccepted. -/
  | tile (mi : Mi)
  /-- VOP (R230): Issues a vector instruction to the cluster's vector engine. -/
  | vop (vi : Vi)
  /-- LDP (R233): A privileged load at an LPA. -/
  | ldp (mi : Mi)
  /-- STP (R233): A privileged store at an LPA. -/
  | stp (mi : Mi)
  /-- CSRR (R233): Reads a register of the unit's HKU_ block. -/
  | csrr (mi : Mi)
  /-- CSRW (R233): Writes a register of the unit's HKU_ block. -/
  | csrw (mi : Mi)
  /-- WDKICK (R233): Restarts the Dome's watchdog for the housekeeping unit. -/
  | wdkick (mi : Mi)
  /-- WFE (R233): The group waits until an event source of its HKU_ block is pending. -/
  | wfe (mi : Mi)
  /-- SEV (R233): Raises an event source in a housekeeping unit. -/
  | sev (mi : Mi)
  /-- BARRIER_STALL (R182): A group barrier instance not complete within 2^GBAR_LOG2 cycles raises BARRIER_STALL. -/
  | barrierStall (u : Fin 128) (k : Fin 32)
  /-- CONTEXT_KILL (R295): The first fault of a context reaches the hub; streams stop, units stop issuing, fences fault with CONTEXT_KILLED and CONTEXT_KILLED is posted. -/
  | contextKill (p : Fin 4)
  /-- TILE_ACCEPT (R115): The array accepts a pending tile instruction when a stationary buffer is free, checks it and loads and streams it. -/
  | tileAccept (c : Fin 32)
  /-- TILE_COMPLETE (R119): The last result of a tile instruction is visible at its destination; COUNTER is signalled if SIGNAL is set. -/
  | tileComplete (c : Fin 32)
  /-- PORT_IMAGE_DELIVER (R153): The array delivers the next result image into the port-bound vector register once the previous one has been released. -/
  | portImageDeliver (c : Fin 32)
  /-- VOP_ADD (R156): Vector addition. -/
  | vopAdd (c : Fin 32)
  /-- VOP_SUB (R156): Vector subtraction. -/
  | vopSub (c : Fin 32)
  /-- VOP_MUL (R156): Vector multiplication. -/
  | vopMul (c : Fin 32)
  /-- VOP_FMA (R156): Vector fused multiply-add. -/
  | vopFma (c : Fin 32)
  /-- VOP_MIN (R157): Vector minimum. -/
  | vopMin (c : Fin 32)
  /-- VOP_MAX (R157): Vector maximum. -/
  | vopMax (c : Fin 32)
  /-- VOP_ABS (R156): Vector absolute value. -/
  | vopAbs (c : Fin 32)
  /-- VOP_NEG (R156): Vector negation. -/
  | vopNeg (c : Fin 32)
  /-- VOP_CMP (R157): Vector compare giving all-ones or zero lanes; the relation is a parameter. -/
  | vopCmp (c : Fin 32)
  /-- VOP_SEL (R156): Vector select. -/
  | vopSel (c : Fin 32)
  /-- VOP_SHL (R157): Vector left shift. -/
  | vopShl (c : Fin 32)
  /-- VOP_SHR (R157): Vector logical right shift. -/
  | vopShr (c : Fin 32)
  /-- VOP_SAR (R157): Vector arithmetic right shift. -/
  | vopSar (c : Fin 32)
  /-- VOP_AND (R156):  -/
  | vopAnd (c : Fin 32)
  /-- VOP_OR (R156):  -/
  | vopOr (c : Fin 32)
  /-- VOP_XOR (R156): Vector exclusive or. -/
  | vopXor (c : Fin 32)
  /-- VOP_ANDN (R156): Vector and-not. -/
  | vopAndn (c : Fin 32)
  /-- VOP_CVT (R151): Vector conversion between lane formats. -/
  | vopCvt (c : Fin 32)
  /-- RNDBITS (R156): Writes the hashed stochastic-rounding bits of R80 per lane. -/
  | rndbits (c : Fin 32)
  /-- EXP2 (R162): Vector base-2 exponential. -/
  | exp2 (c : Fin 32)
  /-- LOG2 (R162): Vector base-2 logarithm. -/
  | log2 (c : Fin 32)
  /-- RCP (R162): Vector reciprocal. -/
  | rcp (c : Fin 32)
  /-- RSQRT (R162): Vector reciprocal square root. -/
  | rsqrt (c : Fin 32)
  /-- TANH (R162): Vector hyperbolic tangent. -/
  | tanh (c : Fin 32)
  /-- SIGMOID (R162): Vector logistic sigmoid. -/
  | sigmoid (c : Fin 32)
  /-- ROWSUM (R159): Row sum reduction into destination lanes. -/
  | rowsum (c : Fin 32)
  /-- ROWMAX (R159): Row maximum reduction. -/
  | rowmax (c : Fin 32)
  /-- ROWDOT (R159): Row dot-product reduction of two sources. -/
  | rowdot (c : Fin 32)
  /-- SM_STAT (R160): Softmax statistics: the row maximum and the special-value flags. -/
  | smStat (c : Fin 32)
  /-- SM_EXP (R160): Softmax exponentials. -/
  | smExp (c : Fin 32)
  /-- SM_NORM (R160): Softmax normalisation, or log-sum-exp with LSE. -/
  | smNorm (c : Fin 32)
  /-- PACK (R156): Packs non-zero elements to mask bits. -/
  | pack (c : Fin 32)
  /-- UNPACK (R156): Unpacks mask bits to 0 or 1. -/
  | unpack (c : Fin 32)
  /-- VECTOR_COMPLETE (R155): A vector instruction's last result is written; COUNTER is signalled if SIGNAL is set. -/
  | vectorComplete (c : Fin 32)
  /-- CMEM_BANK_ACCESS (R234): An access arrives at a cluster-memory bank and is served, with ECC correction or poison. -/
  | cmemBankAccess (a : LineAccess) (e : Ecc)
  /-- CLUSTER_POWER_UP (R26): A cluster domain finishes powering up and scrubbing, and the waiting launch or access proceeds. -/
  | clusterPowerUp (c : Fin 32)
  /-- SLICE_LOAD (R239): A load arrives at its L2 slice; on a hit it is answered, on a miss it allocates and sends an unmerged read to HBM. -/
  | sliceLoad (a : LineAccess)
  /-- SLICE_STORE (R244): A store arrives at its slice and is written to the line, allocating it with only the written bytes valid. -/
  | sliceStore (id : Nat)
  /-- SLICE_ATOMIC (R240): An atomic arrives at its location, locks the line and is applied in arrival order. -/
  | sliceAtomic (id : Nat)
  /-- SLICE_ACCUMULATE (R241): An FP32 accumulate arrives at its slice and is applied to the line in arrival order. -/
  | sliceAccumulate (id : Nat)
  /-- SLICE_DEAD_HINT (R242): A dead hint invalidates its line without write-back and records it in the recent-dead list. -/
  | sliceDeadHint (id : Nat)
  /-- SLICE_PREFETCH (R243): A prefetch allocates and fetches an absent line, or is dropped when the miss entries are busy. -/
  | slicePrefetch (id : Nat)
  /-- HBM_FILL_RETURN (R239): An HBM read returns and fills only the invalid bytes of its line; an uncorrectable word is poisoned and reported. -/
  | hbmFillReturn (a : LineAccess) (e : Ecc)
  /-- PATROL_SCRUB (R252): The patrol scrub reads and corrects the words of the stack once per INTERVAL. -/
  | patrolScrub (lpa : BitVec 44) (e : Ecc)
  /-- XFE_COMPLETE (R247): Every write of a transfer-engine command has been accepted; its signals are released. -/
  | xfeComplete (e : Fin 16)
  /-- COUNTER_SIGNAL_ARRIVAL (R272): A signal arrives at a counter bank, is applied within FLOOR and CEIL or kills the context, and releases the waiters whose targets it meets. -/
  | counterSignalArrival (r : Fin 4) (k : Nat)
  /-- COUNTER_WAIT_ARRIVAL (R274): A wait arrives at a counter bank and is released at once if its target is met. -/
  | counterWaitArrival (r : Fin 4) (k : Nat)
  /-- EVENT_RING_SET (R320): Names the partition's event ring and writes CONSUMED. -/
  | eventRingSet (p : Fin 4)
  /-- CONTEXT_CREATE (R292): Checks the parameters and creates the partition's context. -/
  | contextCreate (p : Fin 4)
  /-- CONTEXT_DESTROY (R296): Kills the context if it is active, frees every object and returns the partition to NONE. -/
  | contextDestroy (p : Fin 4)
  /-- QUERY (R289): Reports the current context without changing anything. -/
  | query (p : Fin 4)
  /-- REG_WRITE (R290): Writes one register of the partition's register pages from a management request. -/
  | regWrite (p : Fin 4)
  /-- LINK_SLOT_WAKE (R298): A write to the line of a parked link slot wakes the sequencer, which rereads the slot and follows it if SEQ matches. -/
  | linkSlotWake (p : Fin 4) (st : Fin 4)
  /-- COMMAND_PARSE (R302): The sequencer parses the next command when fewer than 16 are in flight, assigning an index and taking references and fence OWED. -/
  | commandParse (p : Fin 4) (st : Fin 4)
  /-- NOP (R306): The NOP command completes at start. -/
  | nopCommand (p : Fin 4) (st : Fin 4)
  /-- LAUNCH (R309): Starts one team per named cluster once its clusters are free, after any admission by the interleave table. -/
  | launch (p : Fin 4) (st : Fin 4)
  /-- TILE_INTERLEAVE (R328): Once both F and B reach it and earlier launches have completed, installs an interleave table. -/
  | tileInterleave (p : Fin 4) (st : Fin 4)
  /-- COPY (R308): Gives a copy to a transfer engine. -/
  | copy (p : Fin 4) (st : Fin 4)
  /-- FILL (R307): Gives a pattern fill to a transfer engine. -/
  | fill (p : Fin 4) (st : Fin 4)
  /-- COMPRESS (R131): Compresses a dense tensor into 2:4 tiles in EXACT or PRUNE mode. -/
  | compress (p : Fin 4) (st : Fin 4)
  /-- SIGNAL (R310): Signals a counter at completion. -/
  | signal (p : Fin 4) (st : Fin 4)
  /-- WAIT (R284): Waits on a counter or a fence target; a FAULTED fence fails it with UPSTREAM. -/
  | wait (p : Fin 4) (st : Fin 4)
  /-- FENCE (R310): The FENCE command completes when every earlier command of its stream has completed or failed. -/
  | fence (p : Fin 4) (st : Fin 4)
  /-- REGWRITE (R310): Writes a register of the partition's register pages at completion. -/
  | regwrite (p : Fin 4) (st : Fin 4)
  /-- EVENT (R307): Posts a SOFTWARE event. -/
  | event (p : Fin 4) (st : Fin 4)
  /-- REDO_BEGIN (R96): Opens a redo span with its slots, formats, staging and borrowed counters. -/
  | redoBegin (p : Fin 4) (st : Fin 4)
  /-- REDO_COMMIT (R96): Waits for the span's commands, then commits, redoes with promoted formats or fails with REDO_EXHAUSTED. -/
  | redoCommit (p : Fin 4) (st : Fin 4)
  /-- REDO_END (R311): Closes the span's bookkeeping and makes the borrowed-counter check. -/
  | redoEnd (p : Fin 4) (st : Fin 4)
  /-- EXCHANGE (R376): Starts the gradient exchange of the wide buffer over DIMS and sends READY. -/
  | exchange (p : Fin 4)
  /-- GATHER (R395): Checks the version tag and all-gathers a layer's shards over DIMS. -/
  | gather (p : Fin 4)
  /-- PERMUTE (R400): Starts moving shards between devices by the permutation table. -/
  | permute (p : Fin 4)
  /-- SNAPSHOT_SAVE (R407): Saves the image and blob to the named layers. -/
  | snapshotSave (p : Fin 4) (far : List Nat)
  /-- SNAPSHOT_FILL (R415): Restores an image from the first layer that holds a surviving copy. -/
  | snapshotFill (p : Fin 4)
  /-- OBJECT_CREATE (R314): Allocates an object from the heap and writes its handle and base. -/
  | objectCreate (p : Fin 4) (st : Fin 4)
  /-- OBJECT_HOLD (R315): Adds references to an object. -/
  | objectHold (p : Fin 4) (st : Fin 4)
  /-- OBJECT_RELEASE (R315): Removes references from an object, freeing it at zero. -/
  | objectRelease (p : Fin 4) (st : Fin 4)
  /-- COMMAND_COMPLETE (R301): A command completes or fails: the completion word is written, then the fence signal or error attachment, the counter signal and the reference releases. -/
  | commandComplete (p : Fin 4) (st : Fin 4) (idx : W32)
  /-- EVENT_RING_RECHECK (R323): While record delivery is blocked, the hub rereads CONSUMED at least every 10 µs and writes the queued records, any OVERRUN first. -/
  | eventRingRecheck (p : Fin 4)
  /-- FLIT_RECEIVE (R349): A flit arrives: it is CRC-checked and sequence-checked, acknowledgements and credits are taken, and its transactions are passed on. -/
  | flitReceive (g : Fin 8) (f : BitVec 2048)
  /-- FLIT_SEND (R356): The port sends its next flit, choosing the channel by priority and link share when credit is held. -/
  | flitSend (g : Fin 8)
  /-- RETRY_REPEAT (R349): The receiver repeats RETRY every 2 µs until the expected SEQ arrives. -/
  | retryRepeat (g : Fin 8)
  /-- ACK_TIMER (R349): An acknowledgement is sent at least every 1 µs. -/
  | ackTimer (g : Fin 8)
  /-- RECORD (R368): A neighbour record is received and checked; coordinates may be derived and the port may go UP or DOWN. -/
  | record (g : Fin 8)
  /-- RETRY (R349): A received RETRY makes the sender replay from the requested SEQ, with DOWN after 16 replays of one SEQ. -/
  | retry (g : Fin 8)
  /-- DOWN (R366): A received DOWN message takes the port DOWN with cause PEER_RESET. -/
  | down (g : Fin 8)
  /-- LANES (R364): A received LANES proposal moves the port to the largest lane count both sides allow. -/
  | lanes (g : Fin 8)
  /-- LANE_FAILURE (R364): A lane loses lock or exceeds its error rate, and lane sparing begins. -/
  | laneFailure (g : Fin 8) (mask : BitVec 12)
  /-- GRIWALD_PORT_FAULT (R37): A hardware fault takes the port DOWN with cause FAULT. -/
  | griwaldPortFault (g : Fin 8)
  /-- PORT_TRAINING_END (R365): Electrical training ends and the port enters NEGOTIATE. -/
  | portTrainingEnd (g : Fin 8) (good : BitVec 12)
  /-- NEGOTIATE_RECORD_SEND (R365): In NEGOTIATE, the neighbour record is sent every 1 ms. -/
  | negotiateRecordSend (g : Fin 8)
  /-- NO_PEER (R366): TRAINING or NEGOTIATE runs out of time and the port goes DOWN with cause NO_PEER. -/
  | noPeer (g : Fin 8)
  /-- LOST (R366): No valid flit arrives for 10 µs and the port goes DOWN with cause LOST. -/
  | lost (g : Fin 8)
  /-- RETRAIN (R366): A DOWN port with a retrainable cause starts TRAINING again every RETRAIN_MS. -/
  | retrain (g : Fin 8)
  /-- TXN_WRITE (R353): A remote WRITE arrives: it is forwarded, or translated, performed and ACKed, or refused with NAK. -/
  | txnWrite (k : Nat)
  /-- WRITE_FINAL (R269): A remote WRITE_FINAL arrives and is performed after every earlier write of its source. -/
  | writeFinal (k : Nat)
  /-- TXN_READ (R353): A remote READ arrives and is answered with READ_DATA or NAK. -/
  | txnRead (k : Nat)
  /-- READ_DATA (R353): Read data arrive for a local request and complete it. -/
  | readData (k : Nat)
  /-- ACK (R353): An ACK arrives: the write is accepted and its TAG is freed. -/
  | ack (k : Nat)
  /-- NAK (R353): A NAK arrives: the requesting command fails with its CODE, or the thread takes an EXTENT fault. -/
  | nak (k : Nat)
  /-- RESP_TIMEOUT (R354): A request unanswered after RESP_TIMEOUT fails with LINK_DOWN and its TAG is withheld. -/
  | respTimeout (g : Fin 8) (tag : Fin 4096)
  /-- TAG_WITHHOLD_END (R354): A withheld TAG becomes free again 4 ms after its timeout. -/
  | tagWithholdEnd (g : Fin 8) (tag : Fin 4096)
  /-- READY (R385): A neighbour's READY arrives; it is matched with the local command, held, or causes an abort. -/
  | ready (k : Nat)
  /-- EXPONENT (R379): Exponent bytes arrive for max-reduction or as agreed exponents. -/
  | exponent (k : Nat)
  /-- DATA (R381): A G16 block arrives; the transit adder adds the local contribution and forwards it, or the owner keeps the sum. -/
  | data (k : Nat)
  /-- CHECKSUM (R382): Checksums arrive and are added in transit or compared at the owner. -/
  | checksum (k : Nat)
  /-- VERDICT (R383): A verdict arrives; mismatched halves are retransmitted and clean contributions are freed. -/
  | verdict (k : Nat)
  /-- ABORT (R390): An ABORT arrives; it is forwarded and the local command fails with its code. -/
  | abort (k : Nat)
  /-- CLOSE (R387): A closing tuple arrives and is reduced; at the end the shard is decoded or the step is declared void. -/
  | close (k : Nat)
  /-- GATHER_DATA (R395): A gathered piece arrives, is written at its owner's offset and is forwarded while hops remain. -/
  | gatherData (k : Nat)
  /-- BUCKET_STAGE_START (R377): A bucket enters its next stage once the previous stage has ended and fewer than four buckets are in it. -/
  | bucketStageStart (p : Fin 4) (b : Nat)
  /-- XCH_TIMEOUT (R386): A command that waits on a port for TIMEOUT fails with LINK_DOWN and sends ABORT. -/
  | xchTimeout (p : Fin 4) (idx : W32) (g : Fin 8)
  /-- PERMUTE_CHUNK_SEND (R400): A source writes its next chunk when room allows and then writes READY. -/
  | permuteChunkSend (p : Fin 4) (e : Fin 4096)
  /-- PERMUTE_CHUNK_COMMIT (R400): A destination commits a ready chunk from its slot to PA and writes FREE. -/
  | permuteChunkCommit (p : Fin 4) (e : Fin 4096)
  /-- SNAPSHOT_LAYER_END (R407): A snapshot layer ends COMPLETED, FAILED or SKIPPED; capture is signalled and the command completes when every layer has ended. -/
  | snapshotLayerEnd (p : Fin 4) (idx : W32) (l : Fin 3)
  /-- SNAPSHOT_QUEUED_START (R418): A queued SAVE layer or FILL starts when the earlier one completes. -/
  | snapshotQueuedStart (p : Fin 4)
  /-- ARBITRATION_ROUND (R426): At the start of each round, an arbitration point computes the grants from demand, floors and weights. -/
  | arbitrationRound (res : Fin 5) (pt : Fin 256) (d0 d1 d2 d3 : W32)
  /-- L2_SHARE_RECOMPUTE (R428): Every 65,536 slice cycles, each slice recomputes its way targets. -/
  | l2ShareRecompute (slice : Fin 192)
  /-- L2_SHED (R430): Every 256 slice cycles, a slice writes back one line of a partition above its target. -/
  | l2Shed (slice : Fin 192)
  /-- PARTITION_DRAIN_END (R432): The drain limit expires or no parsed command remains; the remaining commands are aborted and scrubbing begins. -/
  | partitionDrainEnd (p : Fin 4)
  /-- PARTITION_SCRUB_END (R432): The scrub ends; a disabled partition becomes DISABLED, or a reset partition is formed READY. -/
  | partitionScrubEnd (p : Fin 4)
  /-- REGION_UNCORRECTABLE_ERROR (R435): An uncorrectable error in a region fabric, counter bank, fence bank or transfer engine makes the Dome reset the partition. -/
  | regionUncorrectableError (r : Fin 4)
  /-- HUB_UNCORRECTABLE_ERROR (R36): An uncorrectable error in hub state, a fabric, a crossbar or an HBM controller makes the Dome perform a package warm reset. -/
  | hubUncorrectableError
  /-- HKU_WATCHDOG_EXPIRY (R36): A housekeeping unit silent for 100 ms makes the Dome perform a package warm reset. -/
  | hkuWatchdogExpiry (h : Fin 4)
  /-- ETH_CONTROL_FRAME (R441): An ARP, IPv6 neighbour-discovery or ICMP echo frame is received and answered; other non-RoCE frames are discarded. -/
  | ethControlFrame (port : Fin 4) (kind : Fin 5) (data : ControlFrame)
  /-- CM_REQ (R444): A Communication Manager REQ is answered with REP, connecting a queue pair, or with REJ. -/
  | cmReq (port : Fin 4) (svc : W64) (peer : CmPeer)
  /-- CM_DREQ (R446): A DREQ moves its queue pair to error and frees it. -/
  | cmDreq (n : Nat)
  /-- ROCE_SEND (R445): A SEND is received on a management or store queue pair, or is refused with NAK on any other. -/
  | roceSend (n : Nat) (msg : BitVec 2048) (ce : Bool)
  /-- RDMA_WRITE (R447): An RDMA WRITE is translated line by line through the partition window and performed, or refused. -/
  | rdmaWrite (n : Nat) (rkey : W32) (va : W64) (data : List Byte) (ce : Bool)
  /-- RDMA_WRITE_WITH_IMMEDIATE (R447): An RDMA WRITE with immediate is performed as RDMA WRITE. -/
  | rdmaWriteWithImmediate (n : Nat) (rkey : W32) (va : W64) (data : List Byte) (imm : W32) (ce : Bool)
  /-- RDMA_READ (R447): An RDMA READ is translated and answered, or ends with NAK on refusal or poison. -/
  | rdmaRead (n : Nat) (rkey : W32) (va : W64) (len : W32) (ce : Bool)
  /-- ATOMIC_VERB (R442): An atomic verb is refused with NAK Invalid Request. -/
  | atomicVerb (n : QpArrival)
  /-- CNP (R450): A received Congestion Notification Packet is counted for the queue pair's current epoch. -/
  | cnp (n : Nat)
  /-- CNP_EPOCH (R450): At the end of each 64 µs epoch, each queue pair adjusts its sending rate. -/
  | cnpEpoch
  /-- PFC_PAUSE (R451): A received PFC PAUSE frame pauses the configured priority. -/
  | pfcPause (port : Fin 4) (prio : Fin 8) (quanta : BitVec 16)
  /-- ROCE_NAK (R446): A NAK received for a TP4 request moves the queue pair to error and posts QP_ERROR. -/
  | roceNak (n : Nat)
  /-- ROCE_RETRY_EXHAUSTED (R446): Transport retries are exhausted and the queue pair enters error. -/
  | roceRetryExhausted (n : Nat)
  /-- ETH_LINK_DOWN (R453): The Ethernet link goes down; its queue pairs hold their state for HOLD_MS. -/
  | ethLinkDown (port : Fin 4)
  /-- ETH_LINK_UP (R453): The Ethernet link comes up and held queue pairs resume. -/
  | ethLinkUp (port : Fin 4)
  /-- ETH_HOLD_EXPIRY (R453): HOLD_MS expires with the link still down; the held queue pairs enter error. -/
  | ethHoldExpiry (port : Fin 4)
  /-- STORE_RESPONSE_CAPSULE (R454): An NVMe-oF response capsule arrives and completes a store command. -/
  | storeResponseCapsule (n : Nat) (status : BitVec 16) (data : CapsuleBody)
  /-- STORE_TIMEOUT (R455): A store target does not answer within 2 s; the running layer fails with LINK_DOWN. -/
  | storeTimeout (p : Fin 4) (t : Fin 16)
  /-- NVME_COMPLETION (R458): A local NVMe SSD completes a command of the flash layer. -/
  | nvmeCompletion (port : Fin 4) (link : Fin 4) (status : BitVec 16) (data : List Byte)
  /-- NVME_TIMEOUT (R458): An SSD silent for 2 s fails the running flash layer and posts NVME_ERROR. -/
  | nvmeTimeout (port : Fin 4) (link : Fin 4)
  /-- PCIE_LINK_DOWN (R458): A PCIe-role link goes down, failing the running flash layer. -/
  | pcieLinkDown (port : Fin 4) (link : Fin 4)
  /-- CXL_LINK_DOWN (R457): A CXL link goes down: loads return poison, writes are dropped and CXL_LINK_DOWN is posted. -/
  | cxlLinkDown (port : Fin 4)
  /-- CXL_RETRAIN (R457): Firmware retrains a down CXL link every 1 s and posts CXL_LINK_UP when it returns. -/
  | cxlRetrain (port : Fin 4) (returns : Bool)
  /-- COLD_RST_N_LOW (R540): COLD_RST_N held low for at least 1 ms causes a cold reset. -/
  | coldRstNLow
  /-- START_UP (R461): COLD_RST_N rises with VDD_DOME in regulation; the Dome runs its ROM and start-up begins. -/
  | startUp
  /-- STARTUP_PORT_TIMEOUT (R468): Stage 6 ends when PCIe/CXL training is given up after 1 s or the Ethernet ports are not UP after 5 s. -/
  | startupPortTimeout (w : StartWork)
  /-- RAIL_REGULATION_TIMEOUT (R537): A rail not in regulation within 50 ms of stage 2 stops start-up with cause POWER. -/
  | railRegulationTimeout (pmbus : BitVec 7)
  /-- RAIL_FAULT (R537): A rail fault or out-of-tolerance telemetry drives VR_OFF_N low and causes a package warm reset. -/
  | railFault
  /-- REFCLK_LOSS (R539): REFCLK is lost: the SerDes links go down and DOM_TIME continues uncalibrated. -/
  | refclkLoss
  /-- REFCLK_RETURN (R539): REFCLK returns: the links retrain and DOM_TIME is recalibrated. -/
  | refclkReturn
  /-- PLDM_FIRMWARE_UPDATE (R479): The BMC writes a whole image by PLDM for Firmware Update. -/
  | pldmFirmwareUpdate (image : List Byte)
  /-- IMAGE_WRITE_END (R480): An image write ends; the header is written only if the checks pass, and in RECOVERY stage 1 restarts. -/
  | imageWriteEnd
  /-- RECOVERY_HELLO (R481): Returns the boot cause and serial number. -/
  | recoveryHello (seq : BitVec 16)
  /-- RECOVERY_BEGIN (R481): Starts an image update, or is refused as BUSY. -/
  | recoveryBegin (seq : BitVec 16) (len : W32)
  /-- RECOVERY_DATA (R481): Writes image bytes at an offset, in order. -/
  | recoveryData (seq : BitVec 16) (off : W64) (data : List Byte)
  /-- RECOVERY_END (R481): Runs the image checks and reports the result. -/
  | recoveryEnd (seq : BitVec 16)
  /-- RECOVERY_PROGRESS (R481): Returns the update progress. -/
  | recoveryProgress (seq : BitVec 16)
  /-- SET_MODE (R489): A mailbox request that changes the power mode. -/
  | setMode (b : Option Bmc)
  /-- MODE_CHANGE_END (R489): The mode change ends within 1 ms and MODE_CHANGED is posted. -/
  | modeChangeEnd
  /-- SET_CAP (R490): A mailbox request that sets or removes the package power cap. -/
  | setCap (b : Option Bmc)
  /-- SET_SHARE (R425): A mailbox request that changes a share weight and floor within bounds. -/
  | setShare (b : Option Bmc)
  /-- SET_QUOTA (R430): A mailbox request that changes a partition's memory quota. -/
  | setQuota (b : Option Bmc)
  /-- PARTITION_RESET (R436): A mailbox request that resets a partition: announce, stop, refuse, scrub and form. -/
  | partitionReset (b : Option Bmc)
  /-- PARTITION_DISABLE (R432): A mailbox request that disables a partition: announce and drain. -/
  | partitionDisable (b : Option Bmc)
  /-- PARTITION_ENABLE (R434): A mailbox request that forms a DISABLED partition again. -/
  | partitionEnable (b : Option Bmc)
  /-- WARM_RESET (R462): A package warm reset: every domain off, then start-up from stage 1. -/
  | warmReset (b : Option Bmc)
  /-- COLD_RESET (R461): A mailbox cold reset from the BMC; the Dome restarts. -/
  | coldReset (b : Option Bmc)
  /-- CORRELATE (R487): Latches every powered island's cycle count together with DOM_TIME. -/
  | correlate (b : Option Bmc)
  /-- SET_CAL (R501): Sets the user calibration offset and gain of a sensor class. -/
  | setCal (b : Option Bmc)
  /-- CLEAR_CAL (R498): Returns a sensor class's user calibration to zero. -/
  | clearCal (b : Option Bmc)
  /-- POWER_EVALUATION (R490): Every 100 µs the Dome measures draw, recomputes the POWER grants and applies the budget limit. -/
  | powerEvaluation (draw shared : BitVec 16) (draws demands : List (BitVec 16))
  /-- THERMAL_READING (R492): Every 100 µs the Dome reads the sensors and throttles, limits or trips. -/
  | thermalReading (t : List (BitVec 16))
  /-- TRIP_COOLDOWN_END (R493): After a trip, every sensor below 85 °C for 1 s starts a package warm reset. -/
  | tripCooldownEnd
  /-- DOM_OSC_CALIBRATION (R486): Every 10 ms the Dome calibrates its oscillator against REFCLK. -/
  | domOscCalibration
  /-- SUPPLY_SAG (R494): Three consecutive feed samples below FEED_THRESH indicate a sag. -/
  | supplySag (a b c : BitVec 16)
  /-- PFW_N_ASSERT (R540): PFW_N goes low, indicating a sag. -/
  | pfwNAssert (mv : BitVec 16)
  /-- SUPPLY_RESTORED (R494): PFW_N deasserted and the feed above threshold plus 0.5 V for 100 ms clear the sag. -/
  | supplyRestored (mv : BitVec 16)
  /-- BOL_COMMIT (R510): Once per second the Bolometer commits its registers and log atomically and sends a reading to the Dome. -/
  | bolCommit
  /-- BOL_SAG_ASSERT (R511): The sag line asserts and the Bolometer defers commits and log writes. -/
  | bolSagAssert
  /-- BOL_SAG_CLEAR (R511): The sag line clears; the Bolometer commits once and writes SAG_DEFERRED. -/
  | bolSagClear
  /-- BOL_AUX_LOSS (R512): The auxiliary supply is removed and the Bolometer stops. -/
  | bolAuxLoss
  /-- AUX_RESTORE (R512): The auxiliary supply returns; the Bolometer restores the last commit and logs AUX_RESTORE. -/
  | auxRestore
  /-- OVER_RANGE (R507): Current enters or leaves Kelvin clipping and an OVER_RANGE entry is logged. -/
  | overRange (start : Bool)
  /-- REVERSE (R508): Reverse current flow starts or ends and a REVERSE entry is logged. -/
  | reverse (start : Bool)
  /-- CHAIN_FAULT (R515): A converter fails its self-check; readings carry CHAIN_FAULT and the seal output goes low. -/
  | chainFault (start : Bool)
  /-- BOL_SILENCE_TIMEOUT (R521): No reading arrives at the Dome for 3 s and BOL_STATUS.VALID reads 0. -/
  | bolSilenceTimeout
  /-- UART_FRAME_TIMEOUT (R518): A 10 ms silence discards a partial UART frame. -/
  | uartFrameTimeout (partial_ : List Byte)
  /-- READ (R518): Returns a signed reading carrying the requester's nonce. -/
  | read (payload : List Byte)
  /-- LOG (R518): Returns seal-event log entries. -/
  | log (payload : List Byte)
  /-- IDENTITY (R518): Returns the Bolometer's public key and certificate. -/
  | identity (payload : List Byte)
  /-- SHUNT_SET (R514): Sets the shunt coefficient before sealing, or is refused and logged after it. -/
  | shuntSet (payload : List Byte)
  /-- SHUNT_SEAL (R514): Blows the seal fuse and fixes the shunt coefficient. -/
  | shuntSeal (payload : List Byte)
  /-- CAL_SET (R513): Sets the user calibration of the operational readings. -/
  | calSet (payload : List Byte)
  /-- ENROL (R526): Fuses the first owner key into slot 0. -/
  | enrol (key : BitVec 256)
  /-- CHALLENGE (R527): Issues a challenge for a purpose and argument. -/
  | challenge (jtag : Bool) (purpose : W32) (arg : BitVec 256)
  /-- TRANSFER (R526): With a valid response, revokes the active owner slot and enrols a new key. -/
  | transfer (sig : BitVec 512)
  /-- SVN_COMMIT (R526): With a valid response, raises the fused minimum SVN. -/
  | svnCommit (sig : BitVec 512)
  /-- ATTEST (R528): Returns a signed attestation report for a nonce. -/
  | attest (nonce : BitVec 256)
  /-- CHALLENGE_EXPIRY (R527): An outstanding challenge ends after 60 s of DOM_TIME. -/
  | challengeExpiry
  /-- JTAG_RESPONSE (R530): A valid challenge response through the TAP opens debug access at owner or vendor level. -/
  | jtagResponse (sig : BitVec 512)
  /-- TRST_N (R540): TRST_N resets the TAP to its locked state without closing access already opened. -/
  | trstN
  /-- START_UP_STAGE_END (R468): The work of a start-up stage (image read, housekeeping units answering, self-test, HBM training and zeroing, partition forming, coordinates known) ends and the next stage begins, or start-up stops with a cause. -/
  | startUpStageEnd (w : StartWork)
  /-- SUPPLY_DROOP (R484): An island's supply falls more than 4 % below its set point and its clock drive starts stretching cycles. -/
  | supplyDroop (n : Fin 74)
  /-- SUPPLY_DROOP_END (R484): The island supply recovers and the clock drive stops stretching cycles. -/
  | supplyDroopEnd (n : Fin 74)
  /-- PFW_N_DEASSERT (R494): PFW_N returns high, which lets a boot-flash page program under way complete and starts the 100 ms wait before the sag clears. -/
  | pfwNDeassert
  /-- BOL_SAMPLE (R506): At 32,000 samples per second the Bolometer samples Kelvin and feed voltage and adds the sample's energy to its accumulator, legal register or reverse register. -/
  | bolSample (k f : BitVec 24) (t : BitVec 16)
  /-- CM_REP (R444): A store target's REP arrives for a REQ that the TP4 sent as active side, connecting the store queue pairs. -/
  | cmRep (n : Nat) (peer : W32)
  /-- CM_REJ (R455): A store target rejects the TP4's connection request, failing the running layer with LINK_DOWN and posting STORE_ERROR. -/
  | cmRej (n : Nat)
  /-- LOCAL_ACK_TIMEOUT (R442): A queue pair's local ACK timeout expires and the unacknowledged packets are retransmitted, counted in ETH_RETRY. -/
  | localAckTimeout (n : Unanswered)
  /-- PFC_PAUSE_END (R451): The pause time received in a PFC PAUSE frame runs out and transmission of that priority resumes. -/
  | pfcPauseEnd (port : Fin 4)
  /-- PCIE_LINK_RETRAIN (R540): Firmware pulses PERST_N and retrains a down PCIe-role link, which returns to service with its SSD. -/
  | pcieLinkRetrain (port : Fin 4) (link : Fin 4)
  deriving DecidableEq, Repr

end Sys2Proof
end

