-- ==== Sys2Proof/Decode.lean ====
section
/-! DEFINITION. Instruction words: the fields of R202 and R230, the opcode families of R208, and the instruction that a word in memory spells.
Command words: the table gives no row any bits, so no word of the table's kind spells a command. -/

namespace Sys2Proof

/-! ### Opcodes (R208, R209, R212, R214, R222, R225 to R230, R233) -/

/-- OPCODE of an instruction word (R202). -/
def opcodeOf (w : Nat) : Nat := bits w 4 8

/-- The operations of a family of R208 in the order of their numbers; those after the last are reserved, as are families 0xD and 0xF. Family 0xC
has the one operation `vop`, whose word is of the form of R230. -/
def familyOps (family : Nat) : List (Mi → Instr) :=
  match family with
  | 0x0 => [.nopInstruction, .bra, .brx, .call, .exit, .div, .join, .brk, .tfence, .vfence]
  | 0x1 => [.add, .sub, .mul, .mulhiS, .mulhiU, .mad, .minS, .minU, .maxS, .maxU, .abs, .add64, .sub64, .popc, .clz]
  | 0x2 => [.and, .or, .xor, .andn, .not, .shl, .shr, .sar, .bfeU, .bfeS, .bfi]
  | 0x3 => [.fadd, .fsub, .fmul, .ffma, .fmin, .fmax, .fabs, .fneg]
  | 0x4 => [.dadd, .dsub, .dmul, .dfma, .dmin, .dmax]
  | 0x5 => [.isetp, .fsetp, .dsetp, .psetp, .sel, .voteAll, .voteAny, .voteBallot]
  | 0x6 => [.mov, .mov64, .cvt, .ndec, .mximp, .mxsimp, .mxexp, .mxsexp, .s2r, .shfl]
  | 0x7 => [.ld, .st, .ldc, .pf, .dead, .accl]
  | 0x8 => [.atom]
  | 0x9 => [.fenceInstruction]
  | 0xA => [.gbar, .csig, .cwait, .cget]
  | 0xB => [.tile]
  | 0xE => [.ldp, .stp, .csrr, .csrw, .wdkick, .wfe, .sev]
  | _ => []

/-- Whether an OPCODE is that of an operation; another is undefined (R207). -/
def opDefined (op : Nat) : Bool := op == 0xC0 || decide (op % 16 < (familyOps (op / 16)).length)

/-! ### Fields -/

/-- The fields of an instruction word of the general form (R202) with its extension word, at issue in a group slot. -/
def miOfWord (unit : Fin 132) (slot : Fin 32) (w x : Nat) : Mi :=
  { unit := unit, slot := slot, pred := .ofNat 3 w, pneg := bit w 3, dst := .ofNat 8 (bits w 12 8), a := .ofNat 8 (bits w 20 8),
    b := .ofNat 8 (bits w 28 8), c := .ofNat 8 (bits w 36 8), reuse := .ofNat 3 (bits w 44 3), usel := .ofNat 3 (bits w 47 3),
    udst := bit w 51, mod := .ofNat 12 (bits w 52 12), ext := if bit w 50 then some (.ofNat 64 x) else none, stall := 0 }

/-- The fields of the two words of `vop` (R230). -/
def viOfWord (unit : Fin 132) (slot : Fin 32) (w x : Nat) : Vi :=
  { unit := unit, slot := slot, pred := .ofNat 3 w, pneg := bit w 3, vop := .ofNat 6 (bits w 12 6), lane := .ofNat 4 (bits w 18 4),
    round := .ofNat 2 (bits w 22 2), dst := .ofNat 8 (bits w 24 8), a := .ofNat 8 (bits w 32 8), b := .ofNat 8 (bits w 40 8),
    c := .ofNat 8 (bits w 48 8), relu := bit w 56, maskout := bit w 57, lse := bit w 58, signal := bit w 59, link := bit w 60,
    rsv := .ofNat 3 (bits w 61 3), repeatN := .ofNat 11 x, rows := .ofNat 9 (bits x 11 9), mask := .ofNat 8 (bits x 20 8),
    counter := .ofNat 12 (bits x 28 12), srcfmt := .ofNat 4 (bits x 40 4), rsvExt := .ofNat 20 (bits x 44 20), stall := 0 }

/-- The instruction that a word and its extension word spell at issue in a group slot; none where its OPCODE is undefined (R207, R208). -/
def decodeInstr (unit : Fin 132) (slot : Fin 32) (w x : Nat) : Option Instr :=
  let op := opcodeOf w
  if op = 0xC0 then some (.vop (viOfWord unit slot w x))
  else ((familyOps (op / 16))[op % 16]?).map (fun c => c (miOfWord unit slot w x))

/-- The bytes that an instruction occupies (R201): 16 with an extension word, which every `vop` has. -/
def instrBytes (w : Nat) : Nat := if opcodeOf w = 0xC0 || bit w 50 then 16 else 8

/-! ### Command words -/

/-- The command that the word `w` of `nbits` bits spells: none, since no row of the table has bits. -/
def decodeTableWord (_nbits _w : Nat) : Option Instr := none

end Sys2Proof
end

