-- ==== Sys2Proof/Machine/Numbers.lean ====
section
/-! DEFINITION. Number formats, rounding, conversion, the collimator and the accumulation order (spec/03_number_formats.md,
R66 to R95). Finite values are exact: a sign, a natural number and a power of two. -/

namespace Sys2Proof

/-! ### Formats -/

/-- A floating-point format: exponent width, fraction width, bias, and whether the all-ones exponent holds Inf and NaN. -/
structure FpFmt where
  ew : Nat
  fw : Nat
  bias : Nat
  special : Bool
  deriving DecidableEq, Repr

/-- binary64 (R66). -/
def fp64 : FpFmt := ⟨11, 52, 1023, true⟩
/-- binary32 (R66). -/
def fp32 : FpFmt := ⟨8, 23, 127, true⟩
/-- binary16 (R66). -/
def fp16 : FpFmt := ⟨5, 10, 15, true⟩
/-- bfloat16 (R66). -/
def bf16 : FpFmt := ⟨8, 7, 127, true⟩
/-- The N8 element, E4M3 (R68). -/
def n8 : FpFmt := ⟨4, 3, 7, false⟩
/-- The N8e element, E5M2 (R68). -/
def n8e : FpFmt := ⟨5, 2, 15, false⟩
/-- The N6 element, E3M2 (R68). -/
def n6 : FpFmt := ⟨3, 2, 3, false⟩
/-- The N6m element, E2M3 (R68). -/
def n6m : FpFmt := ⟨2, 3, 1, false⟩
/-- The N4 element, E2M1 (R68). -/
def n4 : FpFmt := ⟨2, 1, 1, false⟩

namespace FpFmt

/-- Bits of a value. -/
def width (f : FpFmt) : Nat := 1 + f.ew + f.fw

/-- The exponent of the unit of a subnormal value. -/
def quantum (f : FpFmt) : Int := 1 - (f.bias : Int) - (f.fw : Int)

/-- The largest magnitude code that is finite. -/
def maxCode (f : FpFmt) : Nat :=
  if f.special then (2 ^ f.ew - 1) * 2 ^ f.fw - 1 else 2 ^ (f.ew + f.fw) - 1

/-- The magnitude code of Inf. -/
def infCode (f : FpFmt) : Nat := (2 ^ f.ew - 1) * 2 ^ f.fw

/-- The canonical positive quiet NaN (R67). -/
def nan (f : FpFmt) : Nat := f.infCode + 2 ^ (f.fw - 1)

/-- The sign bit in place. -/
def signBit (f : FpFmt) (neg : Bool) : Nat := if neg then 2 ^ (f.ew + f.fw) else 0

end FpFmt

/-- The formats of R73 by code, with code 0xE and 0xF reserved. -/
inductive Fmt where
  | fp (f : FpFmt)
  | int (w : Nat) (signed : Bool)
  | nd (f : FpFmt)
  | g16
  deriving DecidableEq, Repr

/-- The format that a 4-bit code names (R73). -/
def fmtOfCode : Nat → Option Fmt
  | 0 => some (.fp fp32)
  | 1 => some (.fp fp16)
  | 2 => some (.fp bf16)
  | 3 => some (.fp fp64)
  | 4 => some (.int 8 true)
  | 5 => some (.int 8 false)
  | 6 => some (.int 16 true)
  | 7 => some (.int 32 true)
  | 8 => some (.nd n8)
  | 9 => some (.nd n8e)
  | 10 => some (.nd n6)
  | 11 => some (.nd n6m)
  | 12 => some (.nd n4)
  | 13 => some .g16
  | _ => none

/-- Bits of one element of a format. -/
def Fmt.width : Fmt → Nat
  | .fp f => f.width
  | .int w _ => w
  | .nd f => f.width
  | .g16 => 16

/-- Whether a format is an Ndoum block format. -/
def Fmt.isNd : Fmt → Bool
  | .nd _ => true
  | _ => false

/-- The Ndoum block size of a 2-bit code (R73). -/
def blockOfCode (c : Nat) : Nat := 16 <<< (c % 4)

/-! ### Flags (R95) -/

/-- OVERFLOW. -/
def flOverflow : Nat := 0x1
/-- UNDERFLOW. -/
def flUnderflow : Nat := 0x2
/-- NONFINITE. -/
def flNonfinite : Nat := 0x4
/-- INVALID. -/
def flInvalid : Nat := 0x8
/-- SCALE_SAT. -/
def flScaleSat : Nat := 0x10
/-- RESERVED_SCALE. -/
def flReservedScale : Nat := 0x20
/-- CLAMP. -/
def flClamp : Nat := 0x40
/-- EMPTY. -/
def flEmpty : Nat := 0x80
/-- INDEX_RANGE. -/
def flIndexRange : Nat := 0x100

/-- `x` if the condition holds, else 0: a flag raised on a condition. -/
def flagIf (c : Bool) (x : Nat) : Nat := if c then x else 0

/-! ### Exact values -/

/-- A value: NaN, an infinity, or the exact number (-1)^neg * m * 2^e. -/
inductive Fv where
  | nan
  | inf (neg : Bool)
  | fin (neg : Bool) (m : Nat) (e : Int)
  deriving DecidableEq, Repr

/-- The value of a code of a floating-point or Ndoum element format (R66 to R68). -/
def decodeFp (f : FpFmt) (x : Nat) : Fv :=
  let neg := bit x (f.ew + f.fw)
  let ex := bits x f.fw f.ew
  let fr := bits x 0 f.fw
  if f.special && ex == 2 ^ f.ew - 1 then
    if fr == 0 then .inf neg else .nan
  else if ex == 0 then .fin neg fr f.quantum
  else .fin neg (fr + 2 ^ f.fw) (f.quantum + (ex : Int) - 1)

namespace Fv

/-- m * 2^e with e at least `lo`, as a multiple of 2^lo. -/
def scaleTo (m : Nat) (e lo : Int) : Nat := m <<< (e - lo).toNat

/-- The sign. -/
def neg : Fv → Bool
  | .nan => false
  | .inf n => n
  | .fin n _ _ => n

/-- The value with its sign inverted. -/
def negate : Fv → Fv
  | .nan => .nan
  | .inf n => .inf (!n)
  | .fin n m e => .fin (!n) m e

/-- The value with a clear sign. -/
def abs : Fv → Fv
  | .nan => .nan
  | .inf _ => .inf false
  | .fin _ m e => .fin false m e

/-- Whether the value is a zero of either sign. -/
def isZero : Fv → Bool
  | .fin _ m _ => m == 0
  | _ => false

/-- Whether the value is finite. -/
def isFin : Fv → Bool
  | .fin .. => true
  | _ => false

/-- Whether the value is a NaN. -/
def isNan : Fv → Bool
  | .nan => true
  | _ => false

/-- The integer `i` times 2^e. -/
def ofInt (i e : Int) : Fv := .fin (decide (i < 0)) i.natAbs e

/-- The exact product, and whether the operation is invalid (R84: 0 x Inf). -/
def mul : Fv → Fv → Fv × Bool
  | .nan, _ => (.nan, false)
  | _, .nan => (.nan, false)
  | .inf a, .inf b => (.inf (a != b), false)
  | .inf a, .fin b m _ => if m = 0 then (.nan, true) else (.inf (a != b), false)
  | .fin a m _, .inf b => if m = 0 then (.nan, true) else (.inf (a != b), false)
  | .fin a m e, .fin b n g => (.fin (a != b) (m * n) (e + g), false)

/-- The exact sum, and whether the operation is invalid (Inf - Inf). A sum that is exactly zero is -0 only where both
addends are negative (IEEE 754-2019, R66, RNE and RZ alike). -/
def add : Fv → Fv → Fv × Bool
  | .nan, _ => (.nan, false)
  | _, .nan => (.nan, false)
  | .inf a, .inf b => if a = b then (.inf a, false) else (.nan, true)
  | .inf a, _ => (.inf a, false)
  | _, .inf b => (.inf b, false)
  | .fin a m e, .fin b n g =>
    let lo := min e g
    let x : Int := scaleTo m e lo
    let y : Int := scaleTo n g lo
    let t : Int := (if a then -x else x) + (if b then -y else y)
    if t = 0 then (.fin (a && b) 0 lo, false) else (.fin (decide (t < 0)) t.natAbs lo, false)

/-- Comparison of magnitudes m * 2^e against n * 2^g. -/
def cmpMag (m : Nat) (e : Int) (n : Nat) (g : Int) : Ordering :=
  let lo := min e g
  compare (scaleTo m e lo) (scaleTo n g lo)

/-- The order of two values that are not NaN; zeros of either sign are equal. -/
def cmp : Fv → Fv → Ordering
  | .nan, _ => .eq
  | _, .nan => .eq
  | .inf a, .inf b => if a = b then .eq else if a then .lt else .gt
  | .inf a, _ => if a then .lt else .gt
  | _, .inf b => if b then .gt else .lt
  | .fin a m e, .fin b n g =>
    let lo := min e g
    let x : Int := scaleTo m e lo
    let y : Int := scaleTo n g lo
    compare (if a then -x else x) (if b then -y else y)

end Fv

/-! ### Rounding (R79, R80) -/

/-- A rounding mode; SR carries the 32 random bits of the element (R80). -/
inductive Rm where
  | rne
  | rz
  | sr (r : Nat)
  deriving DecidableEq, Repr

/-- The 64-bit finaliser of R80. -/
def mix64 (z : Nat) : Nat :=
  let z := ((z ^^^ (z >>> 30)) * 0xBF58476D1CE4E5B9) % 2 ^ 64
  let z := ((z ^^^ (z >>> 27)) * 0x94D049BB133111EB) % 2 ^ 64
  z ^^^ (z >>> 31)

/-- The random bits of an element (R80). -/
def srBits (seed tensor index : Nat) : Nat :=
  let h := mix64 ((seed % 2 ^ 64) ^^^ ((tensor * 0x9E3779B97F4A7C15) % 2 ^ 64))
  mix64 (h ^^^ (index % 2 ^ 64)) >>> 32

/-- The rounding mode of a 2-bit code (R74) for the element with the given random bits; code 3 is reserved. -/
def rmOfCode (c r : Nat) : Option Rm :=
  match c with
  | 0 => some .rne
  | 1 => some .rz
  | 2 => some (.sr r)
  | _ => none

/-- Whether the value n + r/d, between the adjacent representable n and n + 1, rounds away from zero. -/
def roundsUp (rm : Rm) (n r d : Nat) : Bool :=
  match rm with
  | .rne => decide (d < 2 * r) || (2 * r == d && n % 2 == 1)
  | .rz => false
  | .sr x => decide (2 ^ 32 ≤ r * 2 ^ 32 / d + x % 2 ^ 32)

/-- num * 2^e / den as a pair: whole multiples of 2^q and the remainder over its denominator. -/
def divAt (num : Nat) (e : Int) (den : Nat) (q : Int) : Nat × Nat × Nat :=
  let n := num <<< (e - q).toNat
  let d := den <<< (q - e).toNat
  (n / d, n % d, d)

/-- floor(log2 (num * 2^e / den)) for num and den above 0. -/
def log2Quot (num : Nat) (e : Int) (den : Nat) : Int :=
  let k : Int := (Nat.log2 num : Int) - (Nat.log2 den : Int) + e
  let n := num <<< (e - k).toNat
  let d := den <<< (k - e).toNat
  if d ≤ n then k else k - 1

/-- The magnitude num * 2^e / den rounded to format `f` as if its exponent range were unbounded above: the code of the
magnitude, which rises with the magnitude, and whether the rounding was exact. -/
def roundCode (f : FpFmt) (rm : Rm) (num : Nat) (e : Int) (den : Nat) : Nat × Bool :=
  if num = 0 then (0, true) else
  let k := log2Quot num e den
  let q := max (k - (f.fw : Int)) f.quantum
  let (n, r, d) := divAt num e den q
  let base := (q - f.quantum).toNat <<< f.fw
  (base + n + (if r ≠ 0 && roundsUp rm n r d then 1 else 0), r == 0)

/-- Overflow into a floating-point format: Inf by RNE, the largest finite value by RZ and SR (R81). -/
def overflowCode (f : FpFmt) (rm : Rm) : Nat :=
  match rm with
  | .rne => if f.special then f.infCode else f.maxCode
  | _ => f.maxCode

/-- An exact value written in a format with special values: the code and the flags (R67, R79 to R81). -/
def encodeQuot (f : FpFmt) (rm : Rm) (neg : Bool) (num : Nat) (e : Int) (den : Nat) : Nat × Nat :=
  let (c, _) := roundCode f rm num e den
  if f.maxCode < c then (f.signBit neg + overflowCode f rm, flOverflow) else (f.signBit neg + c, 0)

/-- An exact value or special written in a format with special values: the code and the flags, OVERFLOW only. -/
def encodeFp (f : FpFmt) (rm : Rm) : Fv → Nat × Nat
  | .nan => (f.nan, 0)
  | .inf n => (f.signBit n + f.infCode, 0)
  | .fin n m e => encodeQuot f rm n m e 1

/-- The magnitude m * 2^e rounded to an integer. -/
def roundInt (rm : Rm) (m : Nat) (e : Int) : Nat :=
  let (n, r, d) := divAt m e 1 0
  n + (if r ≠ 0 && roundsUp rm n r d then 1 else 0)

/-- The least and the largest integer of a width. -/
def intRange (w : Nat) (signed : Bool) : Int × Int :=
  if signed then (-(2 ^ (w - 1) : Nat), (2 ^ (w - 1) : Nat) - 1) else (0, (2 ^ w : Nat) - 1)

/-- An integer saturated to a width: the bits and the OVERFLOW flag (R81). -/
def satInt (w : Nat) (signed : Bool) (i : Int) : Nat × Nat :=
  let (lo, hi) := intRange w signed
  if i < lo then (ofSigned w lo, flOverflow) else if hi < i then (ofSigned w hi, flOverflow) else (ofSigned w i, 0)

/-- A value converted to an integer (R81). -/
def encodeInt (w : Nat) (signed : Bool) (rm : Rm) : Fv → Nat × Nat
  | .nan => (0, flInvalid)
  | .inf n => let (lo, hi) := intRange w signed; (ofSigned w (if n then lo else hi), flOverflow)
  | .fin n m e => let i : Int := roundInt rm m e; satInt w signed (if n then -i else i)

/-- The value of the bits of an element in a format; an Ndoum element's value is unscaled. -/
def decodeElem : Fmt → Nat → Fv
  | .fp f, x => decodeFp f x
  | .nd f, x => decodeFp f x
  | .int w true, x => Fv.ofInt (toSigned w x) 0
  | .int w false, x => Fv.ofInt (x % 2 ^ w : Nat) 0
  | .g16, x => Fv.ofInt (toSigned 16 x) 0

/-- The bits of a value kept in its own floating-point format: a NaN becomes the canonical NaN (R67, R81). -/
def canonical (f : FpFmt) (x : Nat) : Nat := if decodeFp f x = .nan then f.nan else x % 2 ^ f.width

/-- Conversion of an exact value to a format that is no block format (R81): the bits and the flags. -/
def convertTo (dst : Fmt) (rm : Rm) (v : Fv) : Nat × Nat :=
  match dst with
  | .fp f =>
    match v with
    | .nan => (f.nan, flInvalid)
    | v => encodeFp f rm v
  | .int w s => encodeInt w s rm v
  | .nd f =>
    match v with
    | .fin n m e => let c := min (roundCode f rm m e 1).1 f.maxCode; (f.signBit n + c, 0)
    | _ => (0, flNonfinite)
  | .g16 => encodeInt 16 true rm v

/-- Conversion between formats that are no block formats (R81). A value written in the format it already holds is not
converted. -/
def convert (src dst : Fmt) (rm : Rm) (x : Nat) : Nat × Nat :=
  if src = dst then
    match src with
    | .fp f => (canonical f x, 0)
    | f => (x % 2 ^ f.width, 0)
  else convertTo dst rm (decodeElem src x)

/-! ### Arithmetic of one operation with one rounding (R79) -/

/-- The flags of an operation: INVALID where it is an invalid operation, and those of the rounding. -/
def finish (f : FpFmt) (rm : Rm) (r : Fv × Bool) : Nat × Nat :=
  let (x, fl) := encodeFp f rm r.1
  (x, fl ||| flagIf r.2 flInvalid)

/-- a + b. -/
def fAdd (f : FpFmt) (rm : Rm) (a b : Nat) : Nat × Nat := finish f rm ((decodeFp f a).add (decodeFp f b))
/-- a - b. -/
def fSub (f : FpFmt) (rm : Rm) (a b : Nat) : Nat × Nat := finish f rm ((decodeFp f a).add (decodeFp f b).negate)
/-- a * b. -/
def fMul (f : FpFmt) (rm : Rm) (a b : Nat) : Nat × Nat := finish f rm ((decodeFp f a).mul (decodeFp f b))

/-- The exact a * b + c of values. -/
def Fv.mulAdd (a b c : Fv) : Fv × Bool :=
  let p := a.mul b
  let r := p.1.add c
  (r.1, p.2 || r.2)

/-- a * b + c with one rounding. -/
def fFma (f : FpFmt) (rm : Rm) (a b c : Nat) : Nat × Nat :=
  finish f rm (Fv.mulAdd (decodeFp f a) (decodeFp f b) (decodeFp f c))

/-! ### Scales (R70) -/

/-- Whether a scale byte marks a block that reads as non-finite: 0xFF or a reserved code (R70). -/
def scaleNonfinite (s : Nat) : Bool := decide (0xFC ≤ s % 256)

/-- The flags that reading a block with scale `s` raises (R70). -/
def scaleFlags (s : Nat) : Nat :=
  if s % 256 = 0xFF then flNonfinite else if 0xFC ≤ s % 256 then flNonfinite ||| flReservedScale else 0

/-- The value of a finite scale code: (4 + m) * 2^(e - 42) (R70). -/
def scaleFv (s : Nat) : Fv := .fin false (4 + s % 4) ((bits s 2 6 : Int) - 42)

/-- The value of an Ndoum element under its scale (R71). -/
def ndValue (f : FpFmt) (scale code : Nat) : Fv :=
  if scaleNonfinite scale then .nan else ((decodeFp f code).mul (scaleFv scale)).1

/-- Element `j` of an element plane, given the plane's byte at each position (R69). -/
def planeElem (w j : Nat) (byteAt : Nat → Nat) : Nat :=
  match w with
  | 4 => bits (byteAt (j / 2)) (4 * (j % 2)) 4
  | 6 =>
    let g := j / 4 * 3
    bits (byteAt g + byteAt (g + 1) * 256 + byteAt (g + 2) * 65536) (6 * (j % 4)) 6
  | 8 => byteAt j
  | 16 => byteAt (2 * j) + byteAt (2 * j + 1) * 256
  | _ => byteAt (4 * j) + byteAt (4 * j + 1) * 256 + byteAt (4 * j + 2) * 65536 + byteAt (4 * j + 3) * 16777216

/-- Elements packed in ascending order into bytes, little-endian (R66, R69). A last partial byte is filled with zeros. -/
def packElems (w : Nat) (l : List Nat) : List Byte :=
  let x := l.foldr (fun e acc => (acc <<< w) + e % 2 ^ w) 0
  leBytes ((l.length * w + 7) / 8) x

/-- G16 element q under exponent byte E, as FP32 (R72). -/
def g16Value (q e : Nat) : Fv :=
  if e % 256 = 0xFF then .nan else Fv.ofInt (toSigned 16 q) ((e % 256 : Nat) - 142)

/-! ### The collimator (R75 to R78) -/

/-- Which of the three outcomes of R78 a block met. -/
inductive BlockOutcome where
  | plain | saturated | flushed | nonfinite
  deriving DecidableEq, Repr

/-- The exact magnitudes' maximum over the finite values of a list, as m * 2^e. -/
def amaxOf (l : List Fv) : Nat × Int :=
  l.foldl (fun a v => match v with
    | .fin _ m e => if Fv.cmpMag a.1 a.2 m e = .lt then (m, e) else a
    | _ => a) (0, 0)

/-- The exact value of the largest element of an Ndoum format. -/
def ndMax (f : FpFmt) : Nat × Int :=
  match decodeFp f f.maxCode with
  | .fin _ m e => (m, e)
  | _ => (0, 0)

/-- amax at most scale code `c` times the largest element. -/
def fitsScale (f : FpFmt) (amax : Nat × Int) (c : Nat) : Bool :=
  match scaleFv c with
  | .fin _ m e => Fv.cmpMag amax.1 amax.2 (m * (ndMax f).1) (e + (ndMax f).2) != .gt
  | _ => false

/-- The scale code of a block of FP32 values, and the outcome (R75, R78). -/
def chooseScale (f : FpFmt) (l : List Fv) : Nat × BlockOutcome :=
  if l.any (fun v => !v.isFin) then (0xFF, .nonfinite) else
  let a := amaxOf l
  if a.1 = 0 then (0x00, .plain) else
  match (List.range 0xFC).find? (fitsScale f a) with
  | none => (0xFB, .saturated)
  | some 0 => if Fv.cmpMag a.1 a.2 1 (f.quantum - 40) = .lt then (0x00, .flushed) else (0x00, .plain)
  | some c => (c, .plain)

/-- One element of a block under its scale code: the quotient rounded, clamped to the largest element (R75, R77, R78). -/
def scaledCode (f : FpFmt) (rm : Rm) (scale : Nat) (o : BlockOutcome) (v : Fv) : Nat :=
  match o, v with
  | .nonfinite, _ => 0
  | .flushed, v => f.signBit v.neg
  | _, .fin n m e => f.signBit n + min (roundCode f rm m (e + 42 - (bits scale 2 6 : Int)) (4 + scale % 4)).1 f.maxCode
  | _, _ => 0

/-- The flags of a block's outcome (R78). -/
def BlockOutcome.flags : BlockOutcome → Nat
  | .plain => 0
  | .saturated => flOverflow
  | .flushed => flUnderflow
  | .nonfinite => flNonfinite

/-- A block written by the collimator: its scale code, its element codes and the outcome. `rm i` is the rounding of element `i`
of the block. -/
def collimate (f : FpFmt) (rm : Nat → Rm) (l : List Nat) : Nat × List Nat × BlockOutcome :=
  let vs := l.map (decodeFp fp32)
  let (s, o) := chooseScale f vs
  (s, (vs.zipIdx).map (fun p => scaledCode f (rm p.2) s o p.1), o)

/-! ### Accumulation (R84 to R91) -/

/-- One addition to an FP32 accumulator: the exact term, one RNE rounding (R84). -/
def accAdd (acc : Nat × Nat) (t : Fv × Bool) : Nat × Nat :=
  let s := (decodeFp fp32 acc.1).add t.1
  let (x, fl) := encodeFp fp32 .rne s.1
  (x, acc.2 ||| fl ||| flagIf (s.2 || t.2) flInvalid)

/-- The dot product of R85 over the products in ascending k. -/
def dot85 (acc : Nat × Nat) (ps : List (Fv × Fv)) : Nat × Nat :=
  ps.foldl (fun a p => accAdd a (p.1.mul p.2)) acc

/-- One segment of R87: the scales of the two blocks and the unscaled element values of the positions present. -/
structure Segment where
  sa : Nat
  sb : Nat
  ps : List (Fv × Fv)
  deriving DecidableEq, Repr

/-- The accumulator after one segment (R87); a non-finite block gives NaN and NONFINITE. -/
def segAdd (acc : Nat × Nat) (g : Segment) : Nat × Nat :=
  if scaleNonfinite g.sa || scaleNonfinite g.sb then
    (fp32.nan, acc.2 ||| scaleFlags g.sa ||| scaleFlags g.sb)
  else
    let s := g.ps.foldl (fun a p => (a.add (p.1.mul p.2).1).1) (Fv.fin false 0 0)
    let s := if s.isZero then Fv.fin false 0 0 else s
    let t := ((s.mul (scaleFv g.sa)).1.mul (scaleFv g.sb)).1
    accAdd acc (t, false)

/-- The dot product of R87 over its segments in ascending order. -/
def dot87 (acc : Nat × Nat) (gs : List Segment) : Nat × Nat := gs.foldl segAdd acc

/-- The hi and lo parts of an FP32 operand of F32x3 (R90), as BF16 bits. -/
def f32x3Split (x : Nat) : Nat × Nat :=
  match decodeFp fp32 x with
  | .fin n m e =>
    let hi := bits x 16 16
    match decodeFp bf16 hi with
    | .fin n' m' e' =>
      let lo := ((Fv.fin n m e).add (Fv.fin (!n') m' e')).1
      (hi, (encodeFp bf16 .rne lo).1)
    | _ => (hi, 0)
  | .nan => (bf16.nan, 0)
  | .inf n => (bf16.signBit n + bf16.infCode, 0)

/-- A saturating addition to an INT32 accumulator (R91). -/
def accInt (acc : Nat × Nat) (t : Int) : Nat × Nat :=
  let (x, fl) := satInt 32 true (toSigned 32 acc.1 + t)
  (x, acc.2 ||| fl)

/-- The low and high bytes of an INT16 operand: the high byte signed, the low byte unsigned (R91). -/
def int16Hi (x : Nat) : Int := toSigned 8 (bits x 8 8)
/-- The low byte, unsigned (R91). -/
def int16Lo (x : Nat) : Int := (bits x 0 8 : Nat)

/-- The four passes of an INT16 dot product over all k (R91). -/
def dotInt16 (acc : Nat × Nat) (ps : List (Nat × Nat)) : Nat × Nat :=
  let pass (f : Nat × Nat → Int) (a : Nat × Nat) : Nat × Nat := ps.foldl (fun a p => accInt a (f p)) a
  pass (fun p => int16Lo p.1 * int16Lo p.2)
    (pass (fun p => int16Lo p.1 * int16Hi p.2 * 256)
      (pass (fun p => int16Hi p.1 * int16Lo p.2 * 256)
        (pass (fun p => int16Hi p.1 * int16Hi p.2 * 65536) acc)))

/-! ### Minimum, maximum and comparison (R157) -/

/-- Whether a is the smaller of two values that are not NaN, with -0 below +0. -/
def Fv.below (a b : Fv) : Bool :=
  match a.cmp b with
  | .lt => true
  | .gt => false
  | .eq => a.neg && !b.neg

/-- The minimum: the canonical NaN if either operand is NaN. -/
def fMin (f : FpFmt) (a b : Nat) : Nat :=
  let x := decodeFp f a
  let y := decodeFp f b
  if x.isNan || y.isNan then f.nan else if y.below x then b % 2 ^ f.width else a % 2 ^ f.width

/-- The maximum: the canonical NaN if either operand is NaN. -/
def fMax (f : FpFmt) (a b : Nat) : Nat :=
  let x := decodeFp f a
  let y := decodeFp f b
  if x.isNan || y.isNan then f.nan else if x.below y then b % 2 ^ f.width else a % 2 ^ f.width

/-- A relation by its code: 0 EQ, 1 NE, 2 LT, 3 LE, 4 GT, 5 GE (R214), on an order. -/
def relHolds (rel : Nat) (o : Ordering) : Bool :=
  match rel with
  | 0 => o == .eq
  | 1 => o != .eq
  | 2 => o == .lt
  | 3 => o != .gt
  | 4 => o == .gt
  | _ => o != .lt

/-- A floating-point relation: false for unordered operands except NE (R157, R214). -/
def fRel (f : FpFmt) (rel a b : Nat) : Bool :=
  let x := decodeFp f a
  let y := decodeFp f b
  if x.isNan || y.isNan then rel == 1 else relHolds rel (x.cmp y)

/-- The largest finite value of a format as an exact value, for R97: an integer format counts its largest value. -/
def Fmt.largest : Fmt → Nat × Int
  | .fp f => match decodeFp f f.maxCode with
    | .fin _ m e => (m, e)
    | _ => (0, 0)
  | .int w s => ((intRange w s).2.toNat, 0)
  | .nd f => let (m, e) := ndMax f; (m * 7, e + 20)
  | .g16 => (0, 0)

end Sys2Proof
end

