-- ==== Sys2Proof/Config.lean ====
section
/-! DEFINITION. What a part fixes and what the spec leaves open: uninterpreted constants. None has a body, so nothing in Lean
can evaluate one; a claim about the model holds whatever they are (notes/assumptions/4.md, 10.md, 11.md). -/

namespace Sys2Proof.Config

/-- The free values, numbered in the order in which they are drawn (notes/assumptions/4.md). -/
opaque freeValue : Nat → Nat

/-- Table c0, c1 or c2 (first argument) of transcendental function `f` at entry `i` (R163: the tables are not in the manual). -/
opaque transTable : (f i : Nat) → Nat → Int

/-- The element code that mxexp writes for a NaN under a finite exponent, by format and exponent: R83 states none
(notes/assumptions/16.md). -/
opaque mxNanCode : (fmt exponent : Nat) → BitVec 8

/-- The fused seeds of the identity key and of the Bolometer's (R523). -/
opaque identitySeed : BitVec 256
/-- The fused seed of the Bolometer. -/
opaque bolometerSeed : BitVec 256

/-- The public keys in the Dome ROM (R522): the vendor key, and the debug key. -/
opaque vendorKey : BitVec 256
/-- The public debug key. -/
opaque debugKey : BitVec 256

/-- Emsabry's secret keys that sign certificates (R522, R524): the issuing key, and the root key. -/
opaque issuingSecret : BitVec 256
/-- The secret root key. -/
opaque rootSecret : BitVec 256

/-- The SHA-512 digest of the Bolometer ROM that was certified at test (R524). -/
opaque bolRomDigest : BitVec 512

/-- The byte that stands for an owner slot's state in FUSE_DIGEST (R528 gives no codes): 0 UNUSED, 1 ACTIVE, 2 REVOKED. -/
opaque slotByte : Nat → Byte

/-- The part's 64-bit serial number. -/
opaque serial : BitVec 64
/-- The host NQN of the store connections, derived from the serial number (R454 names no form). -/
opaque hostNqn : BitVec 64 → List (BitVec 8)

/-- The silicon stepping. -/
opaque stepping : BitVec 8

/-- The mapped-out site of the west half, 0-16 (R29). -/
opaque westSite : Fin 17

/-- The mapped-out site of the east half, as an offset from site 17 (R29). -/
opaque eastSite : Fin 17

/-- Whether the west and the east mapped-out site failed at test (R29, R64). -/
opaque westFailed : Bool
/-- Whether the east mapped-out site failed at test. -/
opaque eastFailed : Bool

/-- The fused trim of the cluster voltage by power mode, as an offset from -30 mV (R535: within ±30 mV). -/
opaque clusterTrim : Nat → Fin 61

/-- The SMBus address straps SMB_ADDR[1:0] (R534). -/
opaque smbStraps : BitVec 2

/-- Whether an NVMe drive's namespace has LBAs of 4,096 bytes, not 512 (R412: one or the other, a property of the drive). -/
opaque lba4k : (drive nsid : Nat) → Bool

/-- The Kelvin voltage in V that a converter code stands for at a temperature of the Bolometer die: the die-chain coefficients are fused at test
(R506, R513). -/
opaque bolKelvin : (code temperature : Nat) → Rat

/-- The feed voltage in V that a converter code stands for at a temperature of the Bolometer die (R506, R513). -/
opaque bolFeed : (code temperature : Nat) → Rat

end Sys2Proof.Config
end

