-- ==== Sys2Proof/Machine/RegTable.lean ====
section
/-! DEFINITION. The register tables of the spec (R11, R53, R61, R144, R166, R198, R256, R280, R288, R317, R324, R332, R370,
R402, R422, R440, R460, R476, R503, R521, R531): for every register of a block its offset, how often and at what stride it
repeats, whether it is 64 bits wide, which bits each access type of R8 covers, and its reset value. -/

namespace Sys2Proof

/-- One line of a register table. -/
structure RegDef where
  off : Nat
  stride : Nat
  count : Nat
  wide : Bool
  rw : Nat
  w1c : Nat
  rwl : Nat
  wo : Nat
  reset : Nat
  deriving DecidableEq, Repr

/-- A performance counter (R10): COUNT read-only, WRAPPED write one to clear. -/
def perf (off : Nat) : RegDef := ⟨off, 0, 1, true, 0, 0x8000000000000000, 0, 0, 0⟩

/-- A read-only register. -/
def ro (off : Nat) (wide : Bool) (reset : Nat) : RegDef := ⟨off, 0, 1, wide, 0, 0, 0, 0, reset⟩

/-- Registers of the PROG_ blocks. -/
def regDefsProg : List RegDef :=
  [ ro 0x0 false 0 /- PROG_STATE -/,
    ro 0x8 true 0 /- PROG_DONE -/,
    ro 0x10 true 0 /- PROG_TOTAL -/,
    ro 0x18 false 0 /- PROG_PERMILLE -/ ]

/-- Registers of the PRT_ blocks. -/
def regDefsPrt : List RegDef :=
  [ ⟨0x1000, 32, 64, true, 0xFFFFFFF0000, 0x0, 0x0, 0x0, 0x0⟩ /- PRT_EXT_BASE -/,
    ⟨0x1008, 32, 64, true, 0xFFFFFFF0000, 0x0, 0x0, 0x0, 0x0⟩ /- PRT_EXT_LIMIT -/,
    ⟨0x1010, 32, 64, true, 0xFFFFFFF0000, 0x0, 0x0, 0x0, 0x0⟩ /- PRT_EXT_TARGET -/,
    ⟨0x1018, 32, 64, false, 0x8000003F, 0x0, 0x0, 0x0, 0x0⟩ /- PRT_EXT_PERM -/,
    ro 0x10 false 0 /- PRT_STATE -/,
    ro 0x14 false 0xa /- PRT_DRAIN_LIMIT -/,
    ro 0x18 false 0 /- PRT_QUOTA -/,
    ro 0x1C false 0 /- PRT_LIVE -/,
    ro 0x20 false 0 /- PRT_POWER -/,
    ⟨0x40, 4, 5, false, 0x0, 0x0, 0x0, 0x0, 0x0⟩ /- PRT_SHARE -/,
    perf 0x100 /- PRT_L2_SHED -/,
    perf 0x108 /- PRT_DISABLES -/,
    perf 0x110 /- PRT_ABORTED -/,
    perf 0x118 /- PRT_THROTTLE -/ ]

/-- Registers of the CAT_ blocks. -/
def regDefsCat : List RegDef :=
  [ ro 0x0 false 0 /- CAT_MAGIC -/,
    ro 0x4 false 0 /- CAT_FORMAT -/,
    ro 0x8 false 0 /- CAT_LENGTH -/,
    ro 0xC false 0 /- CAT_COUNT -/,
    ro 0x10 false 0 /- CAT_STATE -/,
    ro 0x14 false 0 /- CAT_CRC -/,
    ro 0x18 true 0 /- CAT_EPOCH -/ ]

/-- Registers of the ARR_ blocks. -/
def regDefsArr : List RegDef :=
  [ ro 0x10 false 0 /- ARR_STATUS -/,
    ⟨0x14, 0, 1, false, 0x7FF, 0x0, 0x0, 0x0, 0x200⟩ /- ARR_DENSITY_THRESH -/,
    ro 0x18 false 0 /- ARR_LAST_ERROR -/,
    perf 0x100 /- ARR_FILLS -/,
    perf 0x108 /- ARR_STREAM_CYCLES -/,
    perf 0x110 /- ARR_LOAD_STALL -/,
    perf 0x118 /- ARR_OUT_STALL -/,
    perf 0x120 /- ARR_SPARSE_FILLS -/,
    perf 0x128 /- ARR_FINDER_SPARSE -/,
    perf 0x130 /- ARR_FINDER_DENSE -/,
    perf 0x138 /- ARR_CMP_DENSE -/,
    perf 0x140 /- ARR_CMP_DROPPED -/,
    perf 0x148 /- ARR_COL_OVERFLOW -/,
    perf 0x150 /- ARR_COL_UNDERFLOW -/,
    perf 0x158 /- ARR_COL_NONFINITE -/,
    perf 0x160 /- ARR_INDEX_RANGE -/,
    perf 0x168 /- ARR_FAILED -/ ]

/-- Registers of the VEC_ blocks. -/
def regDefsVec : List RegDef :=
  [ ro 0x10 false 0 /- VEC_STATUS -/,
    ro 0x14 false 0 /- VEC_LAST_ERROR -/,
    perf 0x100 /- VEC_INSTR -/,
    perf 0x108 /- VEC_BUSY_CYCLES -/,
    perf 0x110 /- VEC_STREAM_STALL -/,
    perf 0x118 /- VEC_DEP_STALL -/,
    perf 0x120 /- VEC_PORT_WAIT -/,
    perf 0x128 /- VEC_INT_SAT -/,
    perf 0x130 /- VEC_FAILED -/ ]

/-- Registers of the UNIT_ blocks. -/
def regDefsUnit : List RegDef :=
  [ ro 0x10 false 0 /- UNIT_STATUS -/,
    ⟨0x14, 0, 1, false, 0xFFFF1F, 0x0, 0x0, 0x0, 0x4001A⟩ /- UNIT_CONFIG -/,
    ⟨0x18, 0, 1, false, 0x7C7, 0x0, 0x0, 0x38, 0x0⟩ /- UNIT_DBG_CTL -/,
    ro 0x1C false 0 /- UNIT_DBG_STATUS -/,
    ⟨0x20, 0, 1, false, 0x3FF, 0x0, 0x0, 0x0, 0x0⟩ /- UNIT_DBG_SEL -/,
    ⟨0x30, 8, 4, true, 0x80000FFFFFFFFFFF, 0x0, 0x0, 0x0, 0x0⟩ /- UNIT_BP -/,
    ⟨0x80, 4, 8, false, 0x0, 0x0, 0x0, 0x0, 0x0⟩ /- UNIT_FAULT -/,
    perf 0x100 /- UNIT_ISSUED -/,
    perf 0x108 /- UNIT_BANK_CONFLICT -/,
    perf 0x110 /- UNIT_RC_HIT -/,
    perf 0x118 /- UNIT_RC_MISS -/,
    perf 0x120 /- UNIT_L1_HIT -/,
    perf 0x128 /- UNIT_L1_MISS -/,
    perf 0x130 /- UNIT_CONST_MISS -/,
    perf 0x138 /- UNIT_ATOM_COMBINED -/,
    perf 0x140 /- UNIT_STARVE_FORCED -/,
    perf 0x148 /- UNIT_GBAR_MISMATCH -/,
    ⟨0x1000, 4, 255, false, 0xFFFFFFFF, 0x0, 0x0, 0x0, 0x0⟩ /- UNIT_DBG_G -/,
    ⟨0x1400, 0, 1, false, 0x7F, 0x0, 0x0, 0x0, 0x0⟩ /- UNIT_DBG_P -/,
    ⟨0x1408, 0, 1, true, 0xFFFFFFFFFFF, 0x0, 0x0, 0x0, 0x0⟩ /- UNIT_DBG_PC -/,
    ⟨0x1800, 4, 63, false, 0xFFFFFFFF, 0x0, 0x0, 0x0, 0x0⟩ /- UNIT_DBG_U -/ ]

/-- Registers of the CMEM_ blocks. -/
def regDefsCmem : List RegDef :=
  [ perf 0x100 /- CMEM_ECC_CORR -/,
    perf 0x108 /- CMEM_ECC_UNCORR -/,
    perf 0x110 /- CMEM_BANK_WAIT -/ ]

/-- Registers of the SLC_ blocks. -/
def regDefsSlc : List RegDef :=
  [ ro 0x10 false 0 /- SLC_STATUS -/,
    perf 0x100 /- SLC_HIT -/,
    perf 0x108 /- SLC_MISS -/,
    perf 0x110 /- SLC_MISS_DUP -/,
    perf 0x118 /- SLC_WRITEBACK -/,
    perf 0x120 /- SLC_ATOMIC -/,
    perf 0x128 /- SLC_ACCUM -/,
    perf 0x130 /- SLC_ACC_NONFINITE -/,
    perf 0x138 /- SLC_DEAD -/,
    perf 0x140 /- SLC_DEAD_REREAD -/,
    perf 0x148 /- SLC_LOCK_WAIT -/,
    perf 0x150 /- SLC_PREFETCH_DROP -/,
    perf 0x158 /- SLC_POISON_READ -/,
    perf 0x160 /- SLC_CXL_DROP -/ ]

/-- Registers of the HBM_ blocks. -/
def regDefsHbm : List RegDef :=
  [ ro 0x10 false 0 /- HBM_STATUS -/,
    ⟨0x14, 0, 1, false, 0x0, 0x0, 0xFF, 0x0, 0x18⟩ /- HBM_SCRUB_CTL -/,
    ro 0x18 true 0 /- HBM_POISON_LAST -/,
    perf 0x100 /- HBM_ECC_CORR -/,
    perf 0x108 /- HBM_ECC_UNCORR -/,
    perf 0x110 /- HBM_READ_BYTES -/,
    perf 0x118 /- HBM_WRITE_BYTES -/ ]

/-- Registers of the XFE_ blocks. -/
def regDefsXfe : List RegDef :=
  [ ro 0x10 false 0 /- XFE_STATUS -/,
    ro 0x14 false 0 /- XFE_LAST_ERROR -/,
    ro 0x18 true 0 /- XFE_ERR_ADDR -/,
    perf 0x100 /- XFE_BYTES -/,
    perf 0x108 /- XFE_STALL -/ ]

/-- Registers of the CTR_ blocks. -/
def regDefsCtr : List RegDef :=
  [ ⟨0x10, 0, 1, false, 0xFFF, 0x0, 0x0, 0x0, 0x0⟩ /- CTR_DBG_SEL -/,
    ro 0x14 false 0 /- CTR_DBG_VALUE -/,
    ro 0x18 false 0 /- CTR_DBG_FLOOR -/,
    ro 0x1C false 0 /- CTR_DBG_CEIL -/,
    ro 0x20 false 0 /- CTR_DBG_WAITERS -/,
    ro 0x24 false 0xffff /- CTR_DBG_LAST_AGENT -/,
    ro 0x28 false 0 /- CTR_DBG_LAST_AMOUNT -/,
    ro 0x2C false 0 /- CTR_DBG_LAST_CMD -/,
    ⟨0x40, 16, 8, false, 0x0, 0x0, 0x0, 0x0, 0xFFFF⟩ /- CTR_DBG_WAIT -/,
    ⟨0x44, 16, 8, false, 0x0, 0x0, 0x0, 0x0, 0x0⟩ /- CTR_DBG_WAIT4 -/,
    ⟨0x48, 16, 8, false, 0x0, 0x0, 0x0, 0x0, 0x0⟩ /- CTR_DBG_WAIT8 -/,
    ⟨0x4C, 16, 8, false, 0x0, 0x0, 0x0, 0x0, 0x0⟩ /- CTR_DBG_WAITc -/,
    ro 0x100 false 0 /- CTR_LAST_ERROR -/,
    perf 0x200 /- CTR_SIGNALS -/,
    perf 0x208 /- CTR_WAITS -/,
    perf 0x210 /- CTR_DISCARD -/,
    perf 0x218 /- CTR_DRIFT -/,
    ⟨0x10000, 16, 4096, false, 0xFFFFFFFF, 0x0, 0x0, 0x0, 0x0⟩ /- CTR_VALUE -/,
    ⟨0x10004, 16, 4096, false, 0xFFFFFFFF, 0x0, 0x0, 0x0, 0x0⟩ /- CTR_FLOOR -/,
    ⟨0x10008, 16, 4096, false, 0xFFFFFFFF, 0x0, 0x0, 0x0, 0xFFFFFFFF⟩ /- CTR_CEIL -/ ]

/-- Registers of the FEN_ blocks. -/
def regDefsFen : List RegDef :=
  [ ro 0x10 false 0 /- FEN_LAST_ERROR -/,
    perf 0x100 /- FEN_SIGNALS -/,
    perf 0x108 /- FEN_RETRO_COUNT -/,
    perf 0x110 /- FEN_FAULTS -/,
    perf 0x118 /- FEN_FAULT_DROP -/,
    ⟨0x10000, 32, 1024, true, 0x0, 0x0, 0x0, 0x0, 0x0⟩ /- FEN_VALUE -/,
    ⟨0x10008, 32, 1024, false, 0x0, 0x0, 0x0, 0x0, 0x0⟩ /- FEN_STATE -/,
    ⟨0x1000C, 32, 1024, false, 0x0, 0x0, 0x0, 0x0, 0x0⟩ /- FEN_OWED -/,
    ⟨0x10010, 32, 1024, false, 0x0, 0x0, 0x0, 0x0, 0x0⟩ /- FEN_FAULT_CMD -/,
    ⟨0x10014, 32, 1024, false, 0x0, 0x0, 0x0, 0x0, 0x0⟩ /- FEN_FAULT_SRC -/,
    ⟨0x10018, 32, 1024, false, 0x0, 0x0, 0x0, 0x0, 0x0⟩ /- FEN_LAST_CMD -/,
    ⟨0x1001C, 32, 1024, false, 0x0, 0x0, 0x0, 0x1, 0x0⟩ /- FEN_CTL -/ ]

/-- Registers of the OBJ_ blocks. -/
def regDefsObj : List RegDef :=
  [ ro 0x10 false 0 /- OBJ_LIVE -/,
    ro 0x18 true 0 /- OBJ_HEAP_FREE -/,
    perf 0x100 /- OBJ_CREATED -/,
    perf 0x108 /- OBJ_STALE -/,
    ⟨0x10000, 16, 65536, false, 0x0, 0x0, 0x0, 0x0, 0x0⟩ /- OBJ_BASE -/,
    ⟨0x10004, 16, 65536, false, 0x0, 0x0, 0x0, 0x0, 0x0⟩ /- OBJ_SIZE -/,
    ⟨0x10008, 16, 65536, false, 0x0, 0x0, 0x0, 0x0, 0x1⟩ /- OBJ_GEN -/,
    ⟨0x1000C, 16, 65536, false, 0x0, 0x0, 0x0, 0x0, 0x0⟩ /- OBJ_REFS -/ ]

/-- Registers of the STR_ blocks. -/
def regDefsStr : List RegDef :=
  [ ro 0x10 false 0 /- STR_CTX -/,
    ro 0x14 false 0 /- STR_NUMLOG_WR -/,
    ro 0x18 false 0 /- STR_EVT_SEQ -/,
    ro 0x1C false 0 /- STR_EVT_QUEUED -/,
    perf 0x20 /- STR_EVT_DROPPED -/,
    ⟨0x80, 4, 8, false, 0x0, 0x0, 0x0, 0x0, 0x0⟩ /- STR_FIRST_FAULT -/,
    ⟨0x100, 64, 4, false, 0x0, 0x0, 0x0, 0x0, 0x0⟩ /- STR_STATE -/,
    ⟨0x108, 64, 4, true, 0x0, 0x0, 0x0, 0x0, 0x0⟩ /- STR_PARK -/,
    ⟨0x110, 64, 4, false, 0x0, 0x0, 0x0, 0x0, 0x0⟩ /- STR_SEQ -/,
    ⟨0x114, 64, 4, false, 0x0, 0x0, 0x0, 0x0, 0x0⟩ /- STR_PARSED -/,
    ⟨0x118, 64, 4, false, 0x0, 0x0, 0x0, 0x0, 0x0⟩ /- STR_ERRFENCE -/,
    ⟨0x120, 64, 4, true, 0x0, 0x8000000000000000, 0x0, 0x0, 0x0⟩ /- STR_WAKEUPS -/,
    ⟨0x128, 64, 4, true, 0x0, 0x8000000000000000, 0x0, 0x0, 0x0⟩ /- STR_COMPLETED -/,
    ⟨0x130, 64, 4, true, 0x0, 0x8000000000000000, 0x0, 0x0, 0x0⟩ /- STR_FAILED -/,
    ro 0x40 false 0 /- STR_ILV_STATE -/,
    ro 0x44 false 0 /- STR_ILV_ENTRIES -/,
    ro 0x48 true 0 /- STR_ILV_TABLE -/,
    perf 0x50 /- STR_ILV_SERVED -/,
    perf 0x58 /- STR_ILV_SKIPPED -/,
    perf 0x60 /- STR_EVAL_DROP -/ ]

/-- Registers of the GLP_ blocks. -/
def regDefsGlp : List RegDef :=
  [ ro 0x10 false 0 /- GLP_STATUS -/,
    ro 0x14 false 0 /- GLP_PEER -/,
    ro 0x18 true 0 /- GLP_PEER_SERIAL -/,
    ro 0x20 false 0 /- GLP_LANES -/,
    ro 0x24 false 0x1403e8 /- GLP_CONFIG -/,
    ro 0x28 false 0x1000 /- GLP_TAGS_FREE -/,
    perf 0x100 /- GLP_TX_FLITS -/,
    perf 0x108 /- GLP_RX_FLITS -/,
    perf 0x110 /- GLP_FEC_CORR -/,
    perf 0x118 /- GLP_FEC_UNCORR -/,
    perf 0x120 /- GLP_CRC_ERR -/,
    perf 0x128 /- GLP_REPLAY -/,
    perf 0x130 /- GLP_FWD -/,
    perf 0x138 /- GLP_NAK_SENT -/,
    perf 0x140 /- GLP_NAK_RCVD -/,
    perf 0x148 /- GLP_TIMEOUT -/,
    perf 0x150 /- GLP_LATE_RESP -/,
    perf 0x158 /- GLP_CREDIT_STALL -/,
    perf 0x160 /- GLP_DOWN -/,
    perf 0x168 /- GLP_PART_SLOTS -/ ]

/-- Registers of the XCH_ blocks. -/
def regDefsXch : List RegDef :=
  [ ro 0x10 false 0 /- XCH_STATUS -/,
    ⟨0x14, 0, 1, false, 0xFFFF, 0x0, 0x0, 0x0, 0x64⟩ /- XCH_CONFIG -/,
    ro 0x18 false 0 /- XCH_LAST_ERROR -/,
    ro 0x20 true 0 /- XCH_LAST_STEP -/,
    perf 0x100 /- XCH_BLOCKS_SENT -/,
    perf 0x108 /- XCH_BLOCKS_ADDED -/,
    perf 0x110 /- XCH_CHK_MISMATCH -/,
    perf 0x118 /- XCH_RETRANSMIT -/,
    perf 0x120 /- XCH_QCLAMP -/,
    perf 0x128 /- XCH_NONFINITE -/,
    perf 0x130 /- XCH_EXP_OVER -/,
    perf 0x138 /- XCH_VOID -/,
    perf 0x140 /- XCH_GATHER_BYTES -/,
    perf 0x148 /- XCH_ABORTS -/,
    perf 0x150 /- XCH_TIMEOUT -/,
    perf 0x158 /- XCH_BAD_KIND -/ ]

/-- Registers of the SNP_ blocks. -/
def regDefsSnp : List RegDef :=
  [ ro 0x10 false 0x60 /- SNP_STATUS -/,
    ro 0x14 false 0 /- SNP_PARTNER -/,
    ro 0x18 false 0 /- SNP_LAST_ERROR -/,
    ⟨0x20, 8, 3, true, 0x0, 0x0, 0x0, 0x0, 0x0⟩ /- SNP_LAST_STEP -/,
    perf 0x100 /- SNP_SAVES -/,
    perf 0x108 /- SNP_SAVE_FAILED -/,
    perf 0x110 /- SNP_FILLS -/,
    perf 0x118 /- SNP_FALLBACKS -/,
    perf 0x120 /- SNP_TORN -/,
    perf 0x128 /- SNP_SAG_REFUSED -/,
    perf 0x130 /- SNP_BAD_IMAGE -/,
    perf 0x138 /- SNP_BYTES -/ ]

/-- Registers of the ETH_ blocks. -/
def regDefsEth : List RegDef :=
  [ ro 0x10 false 0 /- ETH_STATUS -/,
    ro 0x14 false 0 /- ETH_RKEY -/,
    ro 0x18 true 0 /- ETH_MAC -/,
    ro 0x20 false 0xc80a3e8 /- ETH_CONFIG -/,
    ro 0x24 false 0 /- ETH_STORE_STATUS -/,
    perf 0x100 /- ETH_RX_BYTES -/,
    perf 0x108 /- ETH_TX_BYTES -/,
    perf 0x110 /- ETH_RX_DROP -/,
    perf 0x118 /- ETH_NAK_SENT -/,
    perf 0x120 /- ETH_ATOMIC_NAK -/,
    perf 0x128 /- ETH_RETRY -/,
    perf 0x130 /- ETH_CNP_SENT -/,
    perf 0x138 /- ETH_CNP_RCVD -/,
    perf 0x140 /- ETH_PFC_PAUSED -/,
    perf 0x148 /- ETH_QP_ERROR -/ ]

/-- Registers of the PCX_ blocks. -/
def regDefsPcx : List RegDef :=
  [ ro 0x10 false 0 /- PCX_STATUS -/,
    ro 0x18 true 0 /- PCX_CAPACITY -/,
    ro 0x20 false 0 /- PCX_NVME_STATUS -/,
    perf 0x100 /- PCX_READ_BYTES -/,
    perf 0x108 /- PCX_WRITE_BYTES -/,
    perf 0x110 /- PCX_CORR_ERR -/,
    perf 0x118 /- PCX_UNCORR_ERR -/,
    perf 0x120 /- PCX_POISON -/,
    perf 0x128 /- PCX_LINK_DOWN -/ ]

/-- Registers of the DOM_ blocks. -/
def regDefsDom : List RegDef :=
  [ ro 0x800 false 0 /- DOM_BOOT_STATUS -/,
    ro 0x804 false 0 /- DOM_BOOT_VECTOR -/,
    ro 0x808 false 0 /- DOM_BOOT_FW -/,
    ro 0x80C false 0 /- DOM_BOOT_CFG -/,
    perf 0x810 /- DOM_BOOT_STARTS -/,
    ro 0x10 false 0 /- DOM_STATUS -/,
    ro 0x14 false 0 /- DOM_BUDGET -/,
    ro 0x18 false 0 /- DOM_DRAW -/,
    ro 0x1C false 0x1a40000 /- DOM_FEED -/,
    ro 0x20 true 0 /- DOM_TIME -/,
    ⟨0x100, 0, 1, false, 0xFFFF00FF, 0x0, 0x0, 0x0, 0x0⟩ /- DOM_MBX_REQ -/,
    ⟨0x104, 4, 3, false, 0xFFFFFFFF, 0x0, 0x0, 0x0, 0x0⟩ /- DOM_MBX_ARG -/,
    ro 0x110 false 0 /- DOM_MBX_RSP -/,
    ro 0x114 false 0 /- DOM_MBX_DATA -/,
    ro 0x200 false 0 /- DOM_MARK_SEQ -/,
    ro 0x208 true 0 /- DOM_MARK_TIME -/,
    perf 0x300 /- DOM_THROTTLE_US -/,
    perf 0x308 /- DOM_LIMIT_US -/,
    perf 0x310 /- DOM_STRETCH -/,
    perf 0x318 /- DOM_SAGS -/,
    perf 0x320 /- DOM_MBX_IGNORED -/,
    ⟨0x400, 8, 74, true, 0x0, 0x0, 0x0, 0x0, 0x0⟩ /- DOM_MARK_COUNT -/,
    ⟨0x680, 4, 73, false, 0x0, 0x0, 0x0, 0x0, 0x0⟩ /- DOM_SENSOR -/,
    ⟨0xA00, 4, 8, false, 0x0, 0x0, 0x0, 0x0, 0x0⟩ /- DOM_CAL -/ ]

/-- Registers of the BOL_ blocks. -/
def regDefsBol : List RegDef :=
  [ ro 0x10 false 0 /- BOL_READ_SEQ -/,
    ro 0x14 false 0 /- BOL_STATUS -/,
    ro 0x18 true 0 /- BOL_ENERGY -/,
    ro 0x20 true 0 /- BOL_OP_ENERGY -/,
    ro 0x28 false 0 /- BOL_POWER -/,
    ⟨0x100, 4, 32, false, 0x0, 0x0, 0x0, 0x0, 0x0⟩ /- BOL_RECORD -/ ]

/-- Registers of the ID_ blocks. -/
def regDefsId : List RegDef :=
  [ ro 0x10 false 0 /- ID_STATUS -/,
    ⟨0x14, 0, 1, false, 0xFFFF0000, 0x0, 0x0, 0x0, 0x0⟩ /- ID_REQ -/,
    ro 0x18 true 0 /- ID_SERIAL -/,
    ⟨0x40, 4, 8, false, 0xFFFFFFFF, 0x0, 0x0, 0x0, 0x0⟩ /- ID_NONCE -/,
    ⟨0x100, 4, 48, false, 0x0, 0x0, 0x0, 0x0, 0x0⟩ /- ID_CERT -/,
    ⟨0x200, 4, 48, false, 0x0, 0x0, 0x0, 0x0, 0x0⟩ /- ID_ISSUER -/,
    ⟨0x300, 4, 48, false, 0x0, 0x0, 0x0, 0x0, 0x0⟩ /- ID_BOL_CERT -/,
    ⟨0x400, 4, 96, false, 0x0, 0x0, 0x0, 0x0, 0x0⟩ /- ID_REPORT -/ ]

/-- The register table of a block kind. -/
def regDefs : Kind → List RegDef
  | .prog => regDefsProg
  | .prt => regDefsPrt
  | .cat => regDefsCat
  | .arr => regDefsArr
  | .vec => regDefsVec
  | .unit => regDefsUnit
  | .cmem => regDefsCmem
  | .slc => regDefsSlc
  | .hbm => regDefsHbm
  | .xfe => regDefsXfe
  | .ctr => regDefsCtr
  | .fen => regDefsFen
  | .obj => regDefsObj
  | .str => regDefsStr
  | .glp => regDefsGlp
  | .xch => regDefsXch
  | .snp => regDefsSnp
  | .eth => regDefsEth
  | .pcx => regDefsPcx
  | .dom => regDefsDom
  | .bol => regDefsBol
  | .id => regDefsId
  | .hku => regDefsUnit
  | _ => []

end Sys2Proof
end

