-- ==== Sys2Proof/Machine/Sparse.lean ====
section
/-! DEFINITION. Sparse maps by number: a list of (key, value) pairs with keys strictly rising and no entry equal to what an
unlisted key reads as. Memory, registers and every numbered family of the package are held so, so that equal contents are
equal data. -/

namespace Sys2Proof

/-- A list of (key, value) pairs. -/
abbrev SMap (α : Type) := List (Nat × α)

namespace SMap

variable {α : Type}

/-- The value at key `k`; an unlisted key reads as `d`. -/
def get (d : α) : SMap α → Nat → α
  | [], _ => d
  | (k', v) :: m, k => if k' = k then v else get d m k

/-- `m` without the entries whose key satisfies `f`. -/
def dropIf (f : Nat → Bool) (m : SMap α) : SMap α := m.filter (fun e => !f e.1)

/-- `m` with `v` at key `k`, in its place. -/
def put : SMap α → Nat → α → SMap α
  | [], k, v => [(k, v)]
  | (k', w) :: m, k, v =>
    if k' = k then (k, v) :: m else if k < k' then (k, v) :: (k', w) :: m else (k', w) :: put m k v

/-- `m` with `v` at key `k` and no other entry of it; writing the value `d` that an unlisted key reads as removes the entry. -/
def set [DecidableEq α] (d : α) (m : SMap α) (k : Nat) (v : α) : SMap α :=
  let m := m.dropIf (fun x => x == k)
  if v = d then m else m.put k v

/-- `m` with the value at `k` changed by `f`. -/
def modify [DecidableEq α] (d : α) (m : SMap α) (k : Nat) (f : α → α) : SMap α := m.set d k (f (m.get d k))

/-- Keys strictly rising, every key above `lo` where `lo` is given. -/
def sortedFrom : Option Nat → SMap α → Bool
  | _, [] => true
  | none, (k, _) :: m => sortedFrom (some k) m
  | some l, (k, _) :: m => decide (l < k) && sortedFrom (some k) m

/-- The canonical form: keys strictly rising, and no entry equal to what an unlisted key reads as. -/
def wf [DecidableEq α] (d : α) (m : SMap α) : Bool := sortedFrom none m && m.all (fun e => decide (e.2 ≠ d))

/-- The keys listed. -/
def keys (m : SMap α) : List Nat := m.map Prod.fst

end SMap


end Sys2Proof
end

