-- ==== Sys2Proof/State/Bol.lean ====
section
/-! DEFINITION. State of the Bolometer (spec/19_bolometer_metering.md). -/

namespace Sys2Proof.Machine

/-- An entry of the seal-event log (R515). -/
structure BolEntry where
  seq : Nat
  kind : Nat
  detail : Nat
  energy : Nat
  commit : Nat
  value : Nat
  deriving DecidableEq, Repr

/-- What a commit stores (R510): the legal register, the remainder in 2^-32 mJ, the reverse register with its remainder, the commit count,
the log, the next SEQ and the SHUNT_SEALED entry. -/
structure BolStore where
  energy : Nat := 0
  rest : Nat := 0
  reverse : Nat := 0
  reverseRest : Nat := 0
  commit : Nat := 0
  log : List BolEntry := []
  nextSeq : Nat := 1
  sealEntry : Option BolEntry := none
  deriving DecidableEq, Repr, Inhabited

/-- The Bolometer: whether its supply is present; `now` the volatile state and `saved` the last commit (R510), entries dropped under a sag (R511);
the operational energy with its remainder, its sum since the last commit in 2^-32 mJ and the power of the last second in mW; the samples
taken; the shunt coefficient in pΩ with its seal (R514); the user calibration (R513); clipping, reverse flow and converter fault (R507, R508,
R515); the sag line with the sample at which it was asserted; the readings made (R516); and the bytes of the UART
frame that has not come whole (R518). -/
structure BolSt where
  aux : Bool := true
  now : BolStore := {}
  saved : BolStore := {}
  dropped : Nat := 0
  op : Nat := 0
  opRest : Nat := 0
  sum : Int := 0
  mw : Nat := 0
  samples : Nat := 0
  shunt : Nat := 0
  sealed_ : Bool := false
  userOffset : Int := 0
  userGain : Int := 0
  clip : Bool := false
  back : Bool := false
  fault : Bool := false
  sag : Bool := false
  sagSince : Nat := 0
  readSeq : Nat := 0
  rx : List Byte := []
  deriving DecidableEq, Repr, Inhabited

end Sys2Proof.Machine
end

