-- ==== Sys2Proof/State/Threads.lean ====
section
/-! DEFINITION. State of the thread units, their groups and threads, and of the memory operations in flight
(spec/06_thread_units.md, spec/07_instruction_set.md, spec/08_memory_hierarchy.md). -/

namespace Sys2Proof.Machine

/-- A fault record (R193). -/
structure FaultRec where
  kind : Nat := 0
  unit : Nat := 0
  group : Nat := 0
  lane : Nat := 0
  context : Nat := 0
  code : Nat := 0
  lanes : Nat := 0
  counter : Nat := 0
  region : Nat := 0
  pc : Nat := 0
  addr : Nat := 0
  deriving DecidableEq, Repr, Inhabited

/-- A thread's counter wait: the counter, its target and what the release writes (R227, R274). -/
structure CWait where
  region : Nat
  counter : Nat
  target : Nat
  scope : Nat
  dst : Nat
  udst : Bool
  deriving DecidableEq, Repr

/-- One thread (R167, R173, R174, R179). -/
structure Thr where
  alive : Bool := false
  pc : Nat := 0
  g : SMap Nat := []
  p : Nat := 0
  age : Nat := 0
  atBar : Bool := false
  wait : Option CWait := none
  rcache : List Nat := []
  clockHi : Nat := 0
  deriving DecidableEq, Repr, Inhabited

/-- An open barrier instance (R181): its mask, the threads arrived, the unit's island cycle at its opening
(R182), and the PA of the gbar that opened it. -/
structure Bar where
  mask : Nat
  arrived : Nat
  opened : Nat
  pc : Nat
  deriving DecidableEq, Repr

/-- A group slot of a unit (R167 to R175, R195). -/
structure Grp where
  live : Bool := false
  part : Nat := 0
  stream : Nat := 0
  cmd : Nat := 0
  index : Nat := 0
  groups : Nat := 0
  alloc : Nat := 0
  threads : SMap Thr := []
  u : SMap Nat := []
  halted : Bool := false
  step : Bool := false
  pass : Bool := false
  bar : Option Bar := none
  active : Nat := 0
  stack : List (Nat × Nat) := []
  tiles : Nat := 0
  vecs : Nat := 0
  wfe : Bool := false
  faulted : Bool := false
  deriving DecidableEq, Repr, Inhabited

/-- A tile instruction issued by a group and not yet accepted (R106, R115). -/
structure TileReq where
  slot : Nat
  part : Nat
  stream : Nat
  cmd : Nat
  desc : List Nat
  deriving DecidableEq, Repr, Inhabited

/-- A vector instruction issued by a group (R154, R230): its fields and the descriptor words of its stream operands, read at
issue. -/
structure VecReq where
  unit : Nat := 0
  slot : Nat := 0
  part : Nat := 0
  stream : Nat := 0
  cmd : Nat := 0
  vop : Nat := 0
  lane : Nat := 0
  round : Nat := 0
  dst : Nat := 0
  a : Nat := 0
  b : Nat := 0
  c : Nat := 0
  relu : Bool := false
  maskout : Bool := false
  lse : Bool := false
  signal : Bool := false
  link : Bool := false
  reps : Nat := 1
  rows : Nat := 1
  mask : Nat := 0
  counter : Nat := 0
  srcfmt : Nat := 0
  descs : List (List Nat) := []
  deriving DecidableEq, Repr, Inhabited

/-- A cached line: its LPA and its 128 bytes (R187, R188). -/
abbrev CLine := Nat × List Byte

/-- A thread unit (R167, R187, R188, R192, R115, R154, R233). `kickAt` is the DOM_TIME at which the Dome's watchdog for a housekeeping unit last started
(R36). -/
structure UnitSt where
  fault : FaultRec := {}
  stopped : Bool := false
  l1 : List CLine := []
  cc : List CLine := []
  tileQ : List TileReq := []
  vecQ : List VecReq := []
  vecLink : Option Nat := none
  events : Nat := 0
  kickAt : Nat := 0
  deriving DecidableEq, Repr, Inhabited

/-- What a memory operation does at its point (R222, R225). -/
inductive OpKind where
  | load | const | store | atomic | accum | dead | prefetch
  deriving DecidableEq, Repr

/-- One lane's part of a memory operation: the LPA, the PA it came from, the operand and the new value of cas. -/
structure LaneOp where
  lane : Nat
  lpa : Nat
  pa : Nat
  data : Nat
  data2 : Nat
  deriving DecidableEq, Repr, Inhabited

/-- A memory operation in flight, and who issued it: a group of a unit, or the accumulate path of a tile instruction (R127). `instr` is the number
of its instruction's first operation; once performed (`answered`), an operation with a result keeps its lanes' values, the lanes answered from
other devices (`got`) and the faults found, as lane, kind and PA, until every operation of its instruction has been performed (R190). -/
structure MemOp where
  kind : OpKind
  unit : Nat
  slot : Nat
  part : Nat
  stream : Nat
  cmd : Nat
  pc : Nat
  line : Nat
  lanes : List LaneOp
  bytes : Nat
  signed : Bool
  dst : Nat
  udst : Bool
  aop : Nat
  aty : Nat
  scope : Nat
  ord : Bool
  final : Bool
  remote : Option Nat
  keepL1 : Bool
  filling : Bool
  queued : Bool
  fromTile : Bool
  instr : Nat := 0
  answered : Bool := false
  got : Nat := 0
  faults : List (Nat × Nat × Nat) := []
  deriving DecidableEq, Repr

/-- A line of an L2 slice (R237, R240): the partition whose access brought it, valid and dirty bytes, poison of its four words,
its data, the operation that locks it with those that wait, and its age among the lines of its slice (R430). -/
structure L2Line where
  present : Bool := false
  owner : Nat := 0
  valid : Nat := 0
  dirty : Nat := 0
  poison : Nat := 0
  data : List Byte := []
  lock : Option Nat := none
  waiting : List Nat := []
  born : Nat := 0
  deriving DecidableEq, Repr, Inhabited

/-- A slice's own state: recent dead lines, oldest first (R242); way targets and the partitions that missed (R428); whether it sheds lines after a
change of shares, and the lines allocated so far, which give lines their age (R430). -/
structure SliceSt where
  deadList : List Nat := []
  targets : List Nat := []
  missed : Nat := 0
  shedding : Bool := false
  born : Nat := 0
  deriving DecidableEq, Repr, Inhabited

end Sys2Proof.Machine
end

