-- ==== Sys2Proof/State/Cluster.lean ====
section
/-! DEFINITION. State of a cluster's matrix array and vector engine (spec/04_matrix_arrays.md, spec/05_vector_engine.md). -/

namespace Sys2Proof.Machine

/-- An accepted tile instruction that has not completed (R115, R119): who issued it, its route (0 cluster memory, 1 vector
register, 2 accumulate), the register it binds as the port, the counter it signals, its mode and its numerics flags. -/
structure TileRun where
  id : Nat
  unit : Nat
  slot : Nat
  part : Nat
  stream : Nat
  cmd : Nat
  route : Nat
  mode : Nat
  port : Nat
  signal : Option Nat
  flags : Nat
  deriving DecidableEq, Repr, Inhabited

/-- A result image of a tile instruction on its way to the vector engine (R126, R153): its instruction, the register and the
lanes that carry results. -/
structure PortImage where
  id : Nat
  reg : Nat
  lanes : List (Nat × Nat)
  deriving DecidableEq, Repr, Inhabited

/-- A matrix array (R40, R115, R126): the unit last served, the instruction that it has accepted and not yet filled itself with, with its unit, the
accepted instructions that have streamed, in acceptance order, and the images not delivered. -/
structure ArrSt where
  last : Nat := 3
  held : Option (Nat × TileReq) := none
  runs : List TileRun := []
  images : List PortImage := []
  deriving DecidableEq, Repr, Inhabited

/-- A running vector instruction or linked pair (R154): the instructions, the number of repetitions run, whether the second of
a pair is next, the partial results of a reduction by row, and the flags raised. -/
structure VecRun where
  first : VecReq
  second : Option VecReq
  rep : Nat
  inSecond : Bool
  acc : SMap (Nat × Nat)
  flags : Nat
  deriving DecidableEq, Repr, Inhabited

/-- A vector engine (R145, R153, R154): its register lanes, the unit last served, the running instruction, those whose last
result is written and that have not completed with their flags, and the register in which an
unreleased port image stands. -/
structure VecSt where
  lanes : SMap Nat := []
  last : Nat := 3
  run : Option VecRun := none
  done : List (VecReq × Nat) := []
  full : Option Nat := none
  deriving DecidableEq, Repr, Inhabited

end Sys2Proof.Machine
end

