-- ==== Sys2Proof/State/Dome.lean ====
section
/-! DEFINITION. State of the Dome and of start-up: requests, partition actions, power, the boot flash, fuses, challenges and
reports (spec/15_partitions_qos_resets.md, spec/17_start_up.md, spec/18_power_clocks_dome.md, spec/20_identity_and_attestation.md). -/

namespace Sys2Proof.Machine

/-- A request at the Dome (R496 to R498): its requester (a partition, or 4 for the BMC) and its words. -/
structure DomReq where
  who : Nat
  kind : Nat
  seq : Nat
  a0 : Nat
  a1 : Nat
  a2 : Nat
  deriving DecidableEq, Repr, Inhabited

/-- What is under way at a partition (R432, R436). -/
inductive ActKind where
  | disable | reset
  deriving DecidableEq, Repr

/-- A disable or reset of a partition: whether its drain has ended, who are to be answered, the commands aborted, when it began,
and a disable that waits for a reset to complete (R432, R436, R437). -/
structure PartAct where
  kind : ActKind
  scrubbing : Bool
  answer : List DomReq
  aborted : Nat
  began : Nat
  thenDisable : List DomReq
  deriving DecidableEq, Repr

/-- Who writes an image (R479). -/
inductive Writer where
  | pldm | recovery
  deriving DecidableEq, Repr

/-- An image update under way: who sends it, its length and the bytes that arrived; those of a recovery transfer are programmed as they arrive (R480). -/
structure Update where
  by_ : Writer
  length : Nat
  data : List Byte
  deriving DecidableEq, Repr

/-- What stage 1 verified in the image that is running (R464, R465, R528). -/
structure Running where
  fwVersion : Nat := 0
  cfgVersion : Nat := 0
  svn : Nat := 0
  cfg : List Byte := []
  fwDigest : List Byte := []
  cfgDigest : List Byte := []
  deriving DecidableEq, Repr, Inhabited

/-- Start-up (R468 to R481): STATE (0 STARTING, 1 READY, 2 RECOVERY), STAGE, CAUSE, DETAIL and the first mismatching record of R476; the image
running; the update under way; whether an image write was recorded as begun; the recovery requests answered, by SEQ, with their replies; whether
stage 1, or a cold reset asked for, waits for the end of an image write; whether REFCLK is present; the publications so far; whether a trip cools
down; whether no partition has been formed since the last cold reset; for each PCIe/CXL port the links trained in stage 6 and whether they came
up short of R474's full width and rate. -/
structure Boot where
  state : Nat := 0
  stage : Nat := 0
  cause : Nat := 0
  detail : Nat := 0
  vector : Nat := 0
  running : Running := {}
  update : Option Update := none
  begun : Bool := false
  replies : List (Nat × List Byte) := []
  resetWaits : Bool := false
  coldWaits : Bool := false
  refclk : Bool := true
  epoch : Nat := 0
  cooling : Bool := false
  fresh : Bool := true
  trained : List (Nat × Bool) := []
  deriving DecidableEq, Repr, Inhabited

/-- The fuse bank (R525, R526): the keys and states (0 UNUSED, 1 ACTIVE, 2 REVOKED) of the owner slots, and the minimum SVN. -/
structure Fuses where
  keys : List Nat := [0, 0, 0, 0]
  states : List Nat := [0, 0, 0, 0]
  svnMin : Nat := 0
  deriving DecidableEq, Repr, Inhabited

/-- An outstanding challenge (R527): its purpose, argument, 96 bytes and the time of its issue. -/
structure Challenge where
  purpose : Nat
  arg : Nat
  body : List Byte
  issued : Nat
  deriving DecidableEq, Repr

/-- A report request (R529): a partition, or 4 for the BMC, with its nonce. -/
structure ReportReq where
  who : Nat
  seq : Nat
  nonce : List Byte
  deriving DecidableEq, Repr

/-- A change of a share accepted and not yet in force everywhere (R430): its request, partition, resource, weight with floor, and the arbitration
points or slices that still serve what was granted before it. -/
structure ShareChange where
  req : DomReq
  part : Nat
  res : Nat
  value : Nat
  points : List Nat
  deriving DecidableEq, Repr

/-- The Dome (R482 to R503). `reqs` are the requests not judged, oldest first; `open_` the partitions whose request is unanswered and `lastSeq`
the SEQ each submitted last; `mode` the power mode, `newMode` the mode being changed to with its request, `cap` the cap; `disabled` the
partitions held disabled; `acts` the actions under way; the power-fail warning and the sag; the dies under a thermal throttle (`hot`, with the
steps of 1/16 in `stretch`) and under a limit (0 compute, 1-4 edge, 5-16 HBM stacks, 17 Dome); the islands whose supply droops; the partitions
held to their power grant; whether the oscillator runs uncalibrated (R539); VR_OFF_N; the user calibration of each class as (offset, gain); the
last factory-calibrated readings of the sensors in 1/16 °C (R491); the rails enabled, by PMBus address, in the order of their enabling (R536); the
cluster voltage in mV and clock in MHz (R488); the SMBus address of the MCTP endpoint (R534); the draws of the partitions at the last ten
evaluations, newest first (R440); and the share changes not yet in force (R430). -/
structure DomSt where
  reqs : List DomReq := []
  open_ : List Nat := []
  lastSeq : List Nat := [0, 0, 0, 0]
  mode : Nat := 0
  newMode : Option (Nat × DomReq) := none
  cap : Nat := 0
  disabled : List Nat := []
  acts : List (Nat × PartAct) := []
  kept : SMap FaultRec := []
  pfw : Bool := false
  sag : Bool := false
  hot : List Nat := []
  limited : List Nat := []
  stretch : List (Nat × Nat) := []
  droop : List Nat := []
  held : List Nat := []
  powerLimit : Bool := false
  markSeq : Nat := 0
  uncalibrated : Bool := false
  vrOff : Bool := true
  cal : List (Nat × Nat) := [(0, 0), (0, 0), (0, 0), (0, 0)]
  boot : Boot := {}
  fuses : Fuses := {}
  challenge : Option Challenge := none
  debug : Nat := 0
  reports : List ReportReq := []
  temps : List Int := []
  rails : List Nat := []
  volt : Nat := 0
  clock : Nat := 0
  smb : Nat := 0
  draws : List (List Nat) := []
  changes : List ShareChange := []
  deriving DecidableEq, Repr, Inhabited

end Sys2Proof.Machine
end

