-- ==== Sys2Proof/State/Out.lean ====
section
/-! DEFINITION. What the package sends on its pins and ports. The list of outputs is the model's own record
(notes/assumptions/8.md). -/

namespace Sys2Proof.Machine

/-- One message or level that leaves the package. -/
inductive Output where
  /-- The value a register read returned. -/
  | value (kind inst off v : Nat)
  /-- An RDMA WRITE of bytes on a queue pair, with its immediate where it carries one (R321). -/
  | rdmaWrite (qp rkey va : Nat) (data : List Byte) (imm : Option Nat)
  /-- A management response of 64 bytes on a queue pair (R289). -/
  | response (qp : Nat) (v : Nat)
  /-- An RDMA READ response (R447). -/
  | readData (qp : Nat) (data : List Byte)
  /-- A transport acknowledgement or NAK on a queue pair (R446). -/
  | roce (qp : Nat) (nak : Option Nat)
  /-- Any other frame of an Ethernet port: its kind and content. -/
  | frame (port kind : Nat) (data : List Byte)
  /-- A transaction of channel 0, the firmware's own, passed to the housekeeping unit of a port as its slots (R355). -/
  | firmware (port : Nat) (slots : List Nat)
  /-- A command to the NVMe drive of a PCIe link (port * 4 + link): 0 Flush, 1 Write, 2 Read; namespace, LBA and bytes, with the
  data of a Write (R412, R458). -/
  | nvme (drive op nsid lba bytes : Nat) (data : List Byte)
  /-- An NVMe-oF command capsule (R413, R454) on a store I/O queue pair: 0 Flush, 1 Write, 2 Read; namespace, LBA and bytes; the window key and the
  ranges (virtual address, bytes) that its keyed SGL descriptors name; and the data that it carries itself. -/
  | capsule (qp op nsid lba bytes key : Nat) (ranges : List (Nat × Nat)) (data : List Byte)
  /-- A RoCE v2 packet, or a message of several, as it leaves a port: its IP traffic class, the DSCP value of the port above ECT(0) (R450), and what it
  carries. -/
  | packet (port tos : Nat) (o : Output)
  /-- A flit of a Griwald port. -/
  | flit (port v : Nat)
  /-- A mailbox response (R498). -/
  | mailbox (who kind status seq data : Nat)
  /-- A reply of the metrology UART (R518). -/
  | uart (data : List Byte)
  /-- A reply of the recovery channel or of MCTP (R479, R481). -/
  | mctp (kind : Nat) (data : List Byte)
  /-- A command of the Dome to the regulator at a PMBus address: its output enabled or disabled (R535, R536). -/
  | pmbus (address : Nat) (on : Bool)
  /-- The voltage of the cluster rails VDD_CL0 to VDD_CL3 in mV, set over AVSBus (R488, R535). -/
  | avs (mv : Nat)
  /-- A level or a request on a pin or an external interface, by number (R534 to R540). -/
  | pin (n v : Nat)
  deriving DecidableEq, Repr

end Sys2Proof.Machine
end

