-- ==== Sys2Proof/State/Hub.lean ====
section
/-! DEFINITION. State of the counter and fence banks, contexts, streams, commands, objects and event rings
(spec/09_ordering_and_synchronisation.md, spec/10_contexts_streams_objects.md, spec/03_number_formats.md R96 to R98). -/

namespace Sys2Proof.Machine

/-- Who waits at a counter: threads of one group, by their mask, or a WAIT command (R274). -/
inductive WaitRef where
  | thread (unit slot lanes : Nat)
  | command (stream idx : Nat)
  deriving DecidableEq, Repr

/-- A waiter of a counter (R274, R278). -/
structure Waiter where
  agent : Nat
  detail : Nat
  target : Nat
  cmd : Nat
  who : WaitRef
  deriving DecidableEq, Repr

/-- A sync counter (R271, R274, R278). -/
structure Ctr where
  value : Nat := 0
  floor : Nat := 0
  ceil : Nat := 0xFFFFFFFF
  waiters : List Waiter := []
  lastAgent : Nat := 0xFFFF
  lastAmount : Nat := 0
  lastCmd : Nat := 0
  deriving DecidableEq, Repr, Inhabited

/-- The snapshot behind CTR_DBG_ registers (R278). -/
structure CtrDbg where
  value : Nat := 0
  floor : Nat := 0
  ceil : Nat := 0
  waiters : List Waiter := []
  lastAgent : Nat := 0xFFFF
  lastAmount : Nat := 0
  lastCmd : Nat := 0
  deriving DecidableEq, Repr, Inhabited

/-- A message on its way to a counter bank (R272, R274): a signal, which holds for each counter (region * 4096 + number) the amounts
with the lanes they came from, or a wait on one counter. `seq` is the place among the memory operations of its unit, for the release
it carries (R227). -/
structure CtrMsg where
  sigs : List (Nat × List (Nat × Int))
  wait : Option (Nat × Waiter)
  agent : Nat
  part : Nat
  stream : Nat
  cmd : Nat
  unit : Nat
  slot : Nat
  pc : Nat
  scope : Nat
  seq : Nat
  deriving DecidableEq, Repr

/-- A fence (R281, R285). State 0 SIGNALLED, 1 PENDING, 2 FAULTED. -/
structure Fence where
  value : Nat := 0
  owed : Nat := 0
  faulted : Bool := false
  code : Nat := 0
  faultCmd : Nat := 0
  faultSrc : Nat := 0
  lastCmd : Nat := 0
  deriving DecidableEq, Repr, Inhabited

/-- An object-table entry (R312 to R317). -/
structure Obj where
  live : Bool := false
  base : Nat := 0
  size : Nat := 0
  refs : Nat := 0
  gen : Nat := 1
  deriving DecidableEq, Repr, Inhabited

/-- An event record (R321). -/
structure Event where
  seq : Nat
  type : Nat
  context : Nat
  code : Nat
  stream : Nat
  index : Nat
  d0 : Nat
  d1 : Nat
  wake : Bool
  deriving DecidableEq, Repr

/-- A partition's event ring (R320 to R323). -/
structure Ring where
  set : Bool := false
  qp : Nat := 0
  wake : Nat := 0
  rkey : Nat := 0
  va : Nat := 0
  log2 : Nat := 0
  consumedPa : Nat := 0
  consumed : Nat := 0
  next : Nat := 0
  queue : List Event := []
  dropped : Nat := 0
  deriving DecidableEq, Repr, Inhabited

/-- The interleave table of a partition (R328, R329): its entries and where it stands. -/
structure Interleave where
  entries : List Nat := []
  pos : Nat := 0
  admitted : List (Nat × Nat) := []
  finished : Nat := 0
  deriving DecidableEq, Repr, Inhabited

/-- The context of a partition (R291 to R295): `ready` are the launches that wait for clusters, in the order in which they became ready
(R545), `xq` the commands that wait for a transfer engine (R308), both as (stream, index); `ilvNo` how many TILE_INTERLEAVEs
F and B have parsed, and `ilvLost` those that failed before they met the other stream's of the same number, as (stream, number) (R328); `late` the launches
that failed at parse and are still to be counted by the table, as (stream, index) (R329). State 0 NONE, 1 ACTIVE, 2 KILLED, 3 DESTROYING. -/
structure Ctx where
  num : Nat := 0
  state : Nat := 0
  rc : Bool := false
  tp3 : Bool := false
  conc : Bool := false
  heapBase : Nat := 0
  heapSize : Nat := 0
  wideBase : Nat := 0
  wideSize : Nat := 0
  numlog : Nat := 0
  numWr : Nat := 0
  numSeq : Nat := 0
  firstFault : FaultRec := {}
  inter : Option Interleave := none
  ready : List (Nat × Nat) := []
  xq : List (Nat × Nat) := []
  ilvNo : List Nat := [0, 0]
  ilvLost : List (Nat × Nat) := []
  late : List (Nat × Nat) := []
  deriving DecidableEq, Repr, Inhabited

/-- A command parsed and not yet completed (R300 to R302). `done` holds its code once its work has ended; `owes` says that its parse
raised its fence's OWED, `errFence` that a failure goes to the error fence, `issued` that its engine has sent the last of its lines, `piece` how many it has begun (R247), `ledSkip` that it ended its
stream's skipping (R344), `fell` that it failed without acting because its stream skips (R305); the head of `notes` is the first failure code of
its work. -/
structure Cmd where
  idx : Nat
  pa : Nat
  slot : BitVec 512
  started : Bool
  refs : List Nat
  flags : Nat
  done : Option Nat
  engine : Option Nat
  borrowed : List (Nat × Nat)
  errFence : Bool
  span : Bool
  owes : Bool
  issued : Bool
  ledSkip : Bool
  notes : List Nat
  piece : Nat := 0
  fell : Bool := false
  deriving DecidableEq, Repr

/-- A staged accumulate of a redo span (R98, R311): the line and its 32 addends under a word mask. -/
structure Staged where
  line : Nat
  mask : Nat
  words : List Nat
  part : Nat
  deriving DecidableEq, Repr

/-- An open redo span (R96 to R98, R311): `formats` is FORMATS of REDO_BEGIN, `deferred` the fence signals held back (fence, value, command
index), `resume` where the sequencer stands after REDO_BEGIN (block, next slot, last slot, SEQ), `ended` that REDO_END is parsed, and `endIdx` its index. -/
structure Span where
  beginPa : Nat
  beginIdx : Nat
  id : Nat
  slots : Nat
  formats : Nat
  staging : Nat
  stageCap : Nat
  attempt : Nat
  borrowed : List (Nat × Nat)
  flags : Nat
  deferred : List (Nat × Nat × Nat)
  staged : List Staged
  parsedCommit : Bool
  commitIdx : Nat
  committed : Bool
  failed : Bool
  ended : Bool
  resume : List Nat
  endIdx : Nat := 0
  deriving DecidableEq, Repr

/-- A stream sequencer (R298, R302, R305, R324): with no block it is parked on the link slot at `park`. -/
structure Str where
  stopped : Bool := false
  draining : Bool := false
  park : Nat := 0
  seq : Nat := 0
  block : Option Nat := none
  next : Nat := 0
  last : Nat := 0
  index : Nat := 0
  errFence : Nat := 0
  skipping : Bool := false
  span : Option Span := none
  cmds : List Cmd := []
  woken : Bool := false
  deriving DecidableEq, Repr, Inhabited

/-- A team on a cluster (R169, R171): the launch it belongs to, its groups still to end, and the tile and
vector instructions they issued that have not completed. -/
structure Team where
  part : Nat
  stream : Nat
  cmd : Nat
  live : Nat
  issued : Nat
  deriving DecidableEq, Repr

end Sys2Proof.Machine
end

