-- ==== Sys2Proof/State/Links.lean ====
section
/-! DEFINITION. State of the Griwald ports (spec/12_griwald_links.md). -/

namespace Sys2Proof.Machine

/-- A transaction (R351, R352): its header fields and its data bytes. -/
structure Txn where
  op : Nat
  dst : Nat
  src : Nat
  part : Nat
  tp3 : Bool
  pa : Nat
  bytes : Nat
  tag : Nat
  code : Nat
  data : List Byte
  deriving DecidableEq, Repr

/-- Whom a request serves (R353, R354): a lane of a memory operation, or a command, with where the data of a read go. -/
inductive Requester where
  | lane (op lane : Nat)
  | copyWrite (part stream idx : Nat)
  | copyRead (part stream idx dst : Nat)
  | permute (part stream idx note : Nat)
  | snapWrite (part idx : Nat)
  | snapRead (part idx what off : Nat)
  deriving DecidableEq, Repr

/-- A request tag (R354): free, in use with its request, or withheld. -/
inductive Tag where
  | free
  | used (who : Requester) (t : Txn)
  | withheld
  deriving DecidableEq, Repr

/-- Where a transaction's receive-buffer slots are held: port, pool (0-6 the channels, 7 and 8 the request and response pools of
channel 7) and how many slots (R350). -/
structure Held where
  port : Nat
  pool : Nat
  slots : Nat
  deriving DecidableEq, Repr

/-- A transaction waiting to leave by a port: the slots still to send, whether it has begun, whether it is forwarded, the partition
it is charged to, and the receive buffer it occupies until sent. Of a forwarded one whose slots are still arriving (R358), `more` is how many
and `src` the port and channel they come by. -/
structure TxEntry where
  slots : List Nat
  begun : Bool
  fwd : Bool
  resp : Bool
  part : Nat
  held : Option Held
  more : Nat := 0
  src : Option (Nat × Nat) := none
  deriving DecidableEq, Repr

/-- A DATA flit in the replay buffer (R349): its sequence number, its 2,048 bits and how often it was replayed. -/
structure Replay where
  seq : Nat
  flit : Nat
  count : Nat
  deriving DecidableEq, Repr

/-- A transaction that has arrived for this device, with its receive buffer. -/
structure InTxn where
  port : Nat
  t : Txn
  held : Option Held
  deriving DecidableEq, Repr

/-- A Griwald port (R347 to R370). `ackOk` tells that a DATA flit has been received in order since the link came up (R348), `rxFwd` the channels
whose transaction under way is being forwarded as it arrives (R358), `lastFwd` for each channel whether a forwarded flit was its last (R356),
`downAfter` that the port goes DOWN with cause FAULT once its EXCH messages have left (R383, R390). -/
structure Glp where
  state : Nat := 0
  cause : Nat := 0
  lanes : Nat := 0
  failed : Nat := 0
  peerDev : Nat := 0
  peerPort : Nat := 0
  peerValid : Bool := false
  peerFeed : Nat := 0
  peerLayout : Nat := 0
  peerSerial : Nat := 0
  rxSeq : Nat := 0
  txSeq : Nat := 0
  replay : List Replay := []
  unacked : Nat := 0
  retry : Bool := false
  credits : SMap Nat := []
  freed : SMap Nat := []
  txq : SMap (List TxEntry) := []
  rxPart : SMap (List Nat) := []
  rxFwd : SMap Bool := []
  ackOk : Bool := false
  downAfter : Bool := false
  ctlIn : List (List Nat) := []
  ctlOut : List (List Nat) := []
  reqQ : List (Requester × Txn) := []
  tags : SMap Tag := []
  lastFwd : SMap Bool := []
  failedReqs : Nat := 0
  recordOk : Bool := false
  deriving DecidableEq, Repr, Inhabited

end Sys2Proof.Machine
end

