-- ==== Sys2Proof/State/Exchange.lean ====
section
/-! DEFINITION. State of the exchange blocks: the gradient exchange, gathers and re-sharding (spec/13_gradient_exchange.md). -/

namespace Sys2Proof.Machine

/-- A READY that arrived (R385): its port, partition and 64 bytes. -/
structure ReadyMsg where
  port : Nat
  part : Nat
  body : Nat
  deriving DecidableEq, Repr

/-- A block's values as a stage finds them: FP32 codes, or integers held at an exponent (R378). -/
structure BlockVals where
  held : Option Nat
  vals : List Int
  deriving DecidableEq, Repr, Inhabited

/-- One bucket in one stage (R377 to R383). Blocks are numbered within the bucket, and the maps have the block as key: `exps` the local
exponents, `passed` the blocks whose exponents this device has joined to the maximum, `agreed` the agreed exponents, `q` the quantised
contributions, `sums` the final sums of owned blocks, `carried` the checksums that came with them, `okHalf` the directions of the
owned halves found clean, `res` the results of the check under way (direction, mismatched), `clean` the owners whose verdicts were clean. -/
structure XJob where
  bucket : Nat
  stage : Nat
  first : Nat
  n : Nat
  vals : List BlockVals
  exps : List Nat
  passed : List Nat
  agreed : SMap (Option Nat)
  q : SMap (List Int)
  sums : SMap (List Int)
  carried : SMap (Option (Nat × Nat))
  okHalf : List Nat
  res : List (Nat × Bool)
  clean : List Nat
  deriving DecidableEq, Repr

/-- A bucket between stages: the stages finished and the range of blocks it holds with their sums. -/
structure XHeld where
  stage : Nat := 0
  first : Nat := 0
  n : Nat := 0
  vals : List BlockVals := []
  deriving DecidableEq, Repr, Inhabited

/-- A closing tuple (R387): A and F as FP64 codes, NONFINITE and VOID. -/
structure XTuple where
  a : Nat
  f : Nat
  nonfinite : Nat
  void : Bool
  deriving DecidableEq, Repr

/-- The closing of an exchange (R387): the dimension under way, this device's tuple, and the tuples received in it, nearest first. -/
structure XClose where
  stage : Nat
  own : XTuple
  got : List XTuple
  deriving DecidableEq, Repr

/-- An EXCHANGE in progress (R371 to R391). `ready` are the ports whose neighbour's READY matched; `next` the next bucket to enter the
first stage; `record` where the spectrograph record goes, if anywhere; `asq` the sum of squares and exponent of each first-stage block; `fin` the final values of each block of DST; `mism` the
mismatches of each half. -/
structure Exch where
  idx : Nat
  step : Nat
  dims : List Nat
  src : Nat
  dst : Nat
  blocks : Nat
  bucket : Nat
  job : Nat
  record : Option Nat
  gscale : Nat
  batch : Nat
  marked : Bool
  ready : List Nat
  next : Nat
  jobs : List XJob
  held : SMap XHeld
  asq : SMap (Option (Nat × Nat))
  fin : SMap (Option BlockVals)
  nonfinite : Nat
  void : Bool
  mism : SMap Nat
  closing : Option XClose
  stg : Nat := 0
  stgSize : Nat := 0
  deriving DecidableEq, Repr

/-- A GATHER in progress (R393 to R397): `dims` in the order of its stages, `stage` how many have ended, `sent` whether the pieces of the
current stage have been sent, `got` the units received of each piece, by owner index. -/
structure Gath where
  idx : Nat
  step : Nat
  dims : List Nat
  shard : Nat
  tag : Nat
  dst : Nat
  bytes : Nat
  job : Nat
  layer : Nat
  look : Nat
  ready : List Nat
  stage : Nat
  sent : Bool
  got : SMap Nat
  deriving DecidableEq, Repr

/-- An entry of the PERMUTE table (R398). -/
structure PermEntry where
  src : Nat
  dst : Nat
  bytes : Nat
  pa : Nat
  deriving DecidableEq, Repr, Inhabited

/-- A PERMUTE in progress (R398 to R400): for each entry the chunks whose writes have been issued, those announced by READY, and those
committed here. -/
structure Perm where
  idx : Nat
  scratch : Nat
  table : List PermEntry
  issued : SMap Nat
  told : SMap Nat
  committed : SMap Nat
  done : Nat
  deriving DecidableEq, Repr

/-- The exchange blocks' work of one partition (R373). -/
structure XchSt where
  exch : Option Exch := none
  gathers : List Gath := []
  perm : Option Perm := none
  held : List ReadyMsg := []
  deriving DecidableEq, Repr, Inhabited

end Sys2Proof.Machine
end

