-- ==== Sys2Proof/State/Snap.lean ====
section
/-! DEFINITION. State of snapshots, Ethernet and PCIe ports (spec/14_snapshots_and_recovery.md, spec/16_ethernet_and_memory_ports.md). -/

namespace Sys2Proof.Machine

/-- A snapshot parameter record with its addresses resolved (R403); `layers` as the command names them. -/
structure SnapRec where
  layers : List Nat
  dims : Nat
  mask : Nat
  job : Nat
  src : Nat
  img : Nat
  blob : Nat
  blobBytes : Nat
  capture : Option Nat
  stage : Nat
  area : Nat
  port : Nat
  link : Nat
  fnsid : Nat
  flba : Nat
  target : Nat
  snsid : Nat
  slba : Nat
  source : Nat
  partner : Nat
  deriving DecidableEq, Repr

/-- How a layer of a SAVE ends (R407). -/
inductive LayerEnd where
  | completed
  | failed (code : Nat)
  | skipped
  deriving DecidableEq, Repr

/-- A layer of a running SAVE: where it stands, whether an I/O command is unanswered, the two slot headers read, the slot chosen, the
position in the image, the checksum, how it ended, whether that end has been reported, and whether a sag was indicated while it ran (R414). -/
structure SaveLayer where
  layer : Nat
  phase : Nat := 0
  busy : Bool := false
  hdrs : List (Option Nat) := [none, none]
  slot : Nat := 0
  off : Nat := 0
  sum : Nat := 0
  res : Option LayerEnd := none
  ended : Bool := false
  sagged : Bool := false
  deriving DecidableEq, Repr, Inhabited

/-- A SAVE (R407, R408): `far` is what the housekeeping firmware knows of the devices two hops away. -/
structure Save where
  idx : Nat
  step : Nat
  r : SnapRec
  far : List Nat
  running : Bool
  stagePoison : Bool
  captured : Bool
  partner : Nat
  entry : Nat
  parts : List SaveLayer
  deriving DecidableEq, Repr

/-- A FILL (R415 to R418): its progress block, the layers still to try with the one under way first, the slots of that layer that still count
as surviving, and a fall-through not yet announced (cause, old layer, bytes written). -/
structure Fill where
  idx : Nat
  step : Nat
  r : SnapRec
  block : Nat
  running : Bool
  todo : List Nat
  phase : Nat
  busy : Bool
  hdrs : List (Option Nat)
  slots : List Nat
  off : Nat
  fell : Option (Nat × Nat × Nat)
  deriving DecidableEq, Repr

/-- The snapshot work of a partition. -/
structure SnapSt where
  saves : List Save := []
  fills : List Fill := []
  deriving DecidableEq, Repr, Inhabited

/-- A message on a queue pair that reads or writes memory or asks for management, as it waits for its turn (R265). -/
inductive QpMsg where
  | write (rkey va : Nat) (data : List Byte)
  | read (rkey va len : Nat)
  | send (msg : Nat)
  | atomic
  deriving DecidableEq, Repr

/-- A packet that waits for its turn on an Ethernet port (R452): its partition and queue pair (1 for connection management), its bytes as ETH_TX_BYTES
counts them, and what it carries. -/
structure EthFrame where
  part : Nat
  qp : Nat
  bytes : Nat
  out : Output
  deriving DecidableEq, Repr

/-- A queue pair (R442 to R446): kind 0 management, 1 data, 2 store admin, 3 store I/O; connected, or its REQ unanswered, or held while its
link is down; its path MTU (R442); congestion control (R450); the messages that wait, oldest first (R27, R265). A queue pair neither connected nor waiting is free. -/
structure Qp where
  part : Nat := 0
  port : Nat := 0
  kind : Nat := 1
  peer : Nat := 0
  target : Nat := 0
  conn : Bool := false
  wait : Bool := false
  held : Bool := false
  mtu : Nat := 4096
  rate : Nat := 400000
  hist : Nat := 0
  clean : Nat := 0
  cnp : Bool := false
  lastCnp : Option Nat := none
  waiting : List QpMsg := []
  deriving DecidableEq, Repr, Inhabited

/-- An Ethernet port (R441, R451, R452): link up, transmission paused, the bit times of received pause not yet counted, whether the port has paused its
partner, the packets that wait, oldest first, and the queue pair of each partition that sent last. -/
structure EthPort where
  up : Bool := false
  paused : Bool := false
  acc : Nat := 0
  pausing : Bool := false
  tx : List EthFrame := []
  last : List Nat := [0, 0, 0, 0]
  deriving DecidableEq, Repr, Inhabited

/-- The queue pairs of a partition to a store target (R454), 0 for none. -/
structure StoreConn where
  admin : Nat := 0
  io : Nat := 0
  deriving DecidableEq, Repr, Inhabited

end Sys2Proof.Machine
end

