-- ==== Sys2Proof/Machine/State.lean ====
section
/-! DEFINITION. The state of the TP4: everything the spec gives the package, as plain data, and the state after reset. -/

namespace Sys2Proof.Machine

/-- An extent entry (R53): granule numbers, permissions, and the result of the last request. -/
structure Extent where
  base : Nat := 0
  limit : Nat := 0
  target : Nat := 0
  perm : Nat := 0
  err : Nat := 0
  valid : Bool := false
  deriving DecidableEq, Repr, Inhabited

/-- The package as a whole: layout (0 one, 1 two, 2 four partitions), device number and whether a port
has fixed it (R58, R368), torus sizes (4 bits each), anchor and feed group (R466), powered domains
(R24), island cycle counters (R485), the Dome's time (R486) and the configuration lock (R8). -/
structure Pkg where
  layout : Nat := 0
  device : Option Nat := none
  sizes : Nat := 0
  fixedDev : Bool := false
  anchor : Bool := false
  feed : Nat := 0
  domains : Nat := 0
  cycles : SMap Nat := []
  time : Nat := 0
  locked : Bool := false
  deriving DecidableEq, Repr, Inhabited

/-- An arbitration point (R426, R427), numbered resource * 256 + point: the grants left in the round and the partition whose turn was
last. -/
structure Share where
  grants : List Nat := [0, 0, 0, 0]
  last : Nat := 3
  deriving DecidableEq, Repr, Inhabited

/-- A stop of the model, with the reason. -/
inductive Fault where
  deriving DecidableEq, Repr

/-- A command the model gives no meaning. -/
inductive Refusal where
  /-- The arm of a command without a meaning yet, by its mnemonic: raised by the dispatcher only. Safe. -/
  | notModelled (mnemonic : String)
  deriving DecidableEq, Repr

/-- The state of the package. -/
structure State where
  pending : List Instr
  free : Nat
  nextOp : Nat
  out : List Output
  pkg : Pkg
  blocks : List Block
  regs : SMap (Option Nat)
  latch : SMap Nat
  held : SMap (Option Nat)
  extents : SMap Extent
  mem : SMap Byte
  poison : SMap Bool
  cpoison : SMap Bool
  banks : SMap Nat
  lines : SMap L2Line
  slices : SMap SliceSt
  units : SMap UnitSt
  slots : SMap Nat
  halts : SMap Bool
  groups : SMap Grp
  ops : SMap (Option MemOp)
  teams : SMap (Option Team)
  ctrs : SMap Ctr
  ctrDbg : SMap CtrDbg
  ctrQ : SMap (List CtrMsg)
  fences : SMap Fence
  ctx : SMap Ctx
  strs : SMap Str
  objs : SMap Obj
  rings : SMap Ring
  faultQ : SMap (List (Nat × FaultRec))
  ports : SMap Glp
  inTxn : List InTxn
  arrays : SMap ArrSt
  vecs : SMap VecSt
  cat : List Byte
  dome : DomSt
  flash : SMap Byte
  shares : SMap Share
  xch : SMap XchSt
  snaps : SMap SnapSt
  qps : SMap Qp
  eth : SMap EthPort
  stores : SMap StoreConn
  mgmt : SMap (List (Nat × Nat))
  bol : BolSt
  deriving DecidableEq, Repr

/-- The outcome of a command. -/
abbrev Out := Host.Outcome State Fault Refusal

/-- The package right after a cold reset. -/
def State.reset : State :=
  { pending := [], free := 0, nextOp := 0, out := [], pkg := {}, blocks := [], regs := [], latch := [], held := [],
    extents := [], mem := [], poison := [], cpoison := [], banks := [], lines := [], slices := [], units := [], slots := [], halts := [], groups := [], ops := [],
    teams := [], ctrs := [], ctrDbg := [], ctrQ := [], fences := [], ctx := [], strs := [], objs := [], rings := [],
    faultQ := [], ports := [], inTxn := [], arrays := [],
    vecs := [], cat := [], dome := {}, flash := [], shares := [], xch := [], snaps := [], qps := [], eth := [], stores := [], mgmt := [],
    bol := {} }

end Sys2Proof.Machine
end

