-- ==== Sys2Proof/Machine/Ops.lean ====
section
/-! DEFINITION. Named operations over State that every family shares: the layout of the package (R18, R33, R35), address
translation (R43 to R59), memory at its points (R234 to R258), stored registers and counters (R6 to R10), free values. -/

namespace Sys2Proof.Machine

/-! ### Records of every kind -/

/-- The fields of a `Nat` word at byte offset `o` of a block of bytes held as a number: 32 bits. -/
def w32At (x o : Nat) : Nat := bits x (8 * o) 32
/-- 64 bits at byte offset `o`. -/
def w64At (x o : Nat) : Nat := bits x (8 * o) 64

namespace State

/-- The next free value, and the state with its number advanced (notes/assumptions/4.md). -/
def draw (s : State) : Nat × State := (Config.freeValue s.free, { s with free := s.free + 1 })

/-- `n` free bytes, and the state with its number advanced. -/
def drawBytes (s : State) (n : Nat) : List Byte × State := (leBytes n s.draw.1, s.draw.2)

/-- A quotient brought to a whole number: exact where it is whole, else rounded one way or the other (the spec states no rounding;
notes/assumptions/43.md). -/
def roundFree (s : State) (n d : Nat) : Nat × State :=
  if n % d = 0 then (n / d, s) else (n / d + s.draw.1 % 2, s.draw.2)

/-- The state with one more output. -/
def emit (s : State) (o : Output) : State := { s with out := s.out ++ [o] }

/-! ### Layout -/

/-- The number of partitions (R35). -/
def nParts (s : State) : Nat := 2 ^ s.pkg.layout

/-- The partition that owns region `r` (R35). -/
def partOfRegion (s : State) (r : Nat) : Nat := r * s.nParts / 4

/-- The partition that owns cluster `c` (R18, R35). -/
def partOfCluster (s : State) (c : Nat) : Nat := s.partOfRegion (c / 8)

/-- The regions of partition `p` (R35). -/
def regionsOf (s : State) (p : Nat) : List Nat := (List.range 4).filter (fun r => s.partOfRegion r == p)

/-- The clusters of partition `p`. -/
def clustersOf (s : State) (p : Nat) : List Nat := (List.range 32).filter (fun c => s.partOfCluster c == p)

/-- The compute units of partition `p`. -/
def unitsOf (s : State) (p : Nat) : List Nat := (List.range 128).filter (fun u => s.partOfCluster (u / 4) == p)

/-- The HBM range of partition `p`: its first LPA and its size (R46). -/
def hbmRange (s : State) (p : Nat) : Nat × Nat := let n := 0x9000000000 / s.nParts; (p * n, n)

/-- Whether power domain `d` is on (R24): 0-31 clusters, 32-35 region fabrics, 36-47 HBM, 48-55 Griwald, 56-59 Ethernet,
60-63 PCIe/CXL, 64-67 housekeeping. -/
def domOn (s : State) (d : Nat) : Bool := s.pkg.domains.testBit d

/-- The island of a domain's clock (R22), numbered as R485 numbers them: see `Machine/Dome.lean`. -/
def cycle (s : State) (island : Nat) : Nat := s.pkg.cycles.get 0 island

end State

/-- The islands of a power domain (R22, R24, R485). -/
def islandsOf (d : Nat) : List Nat :=
  if d < 36 then [d] else if d < 56 then [d + 1] else if d < 60 then [d + 1, d + 5] else [d + 5]

namespace State

/-- A domain switched on or off; the cycle counters of its islands start at 0 (R485). -/
def setDomain (s : State) (d : Nat) (on : Bool) : State :=
  if s.domOn d = on then s else
  { s with pkg := { s.pkg with domains := putBits s.pkg.domains d 1 (b2n on)
                               cycles := (islandsOf d).foldl (fun m i => m.set 0 i 0) s.pkg.cycles } }

/-! ### Placement (R238, R253) -/

end State

/-- The exclusive or of the successive `w`-bit fields of `x` (R238). -/
def fold (fuel w x : Nat) : Nat :=
  match fuel with
  | 0 => 0
  | n + 1 => (x % 2 ^ w) ^^^ fold n w (x >>> w)

/-- The slice, the line's position in its channel and the set of an HBM LPA in a layout of `n` partitions (R238). -/
def hbmPlace (lpa n : Nat) : Nat × Nat × Nat :=
  let psize := 0x9000000000 / n
  let sCnt := 12 / n
  let p := lpa / psize
  let line := (lpa - p * psize) >>> 7
  let t := line >>> 4
  let ch := (line % 16) ^^^ fold 16 4 t
  let u := t / sCnt
  let st := p * sCnt + (t % sCnt + fold 8 8 u) % sCnt
  (16 * st + ch, u, fold 8 9 u)

/-- What a local physical address names (R43, R44). -/
inductive Place where
  | hbm
  | cxl (port : Nat)
  | cmem (cluster off : Nat)
  | control
  | reserved
  deriving DecidableEq, Repr

/-- The place of an LPA (R43, R44). The window of a CXL port is CXL memory to its end, whatever the capacity attached and in a port of PCIe role too, for
an access by LPA that no extent bounds (DESIGN CHOICE, notes/assumptions/136.md). -/
def place (lpa : Nat) : Place :=
  if lpa < 0x9000000000 then .hbm
  else if 0x10000000000 ≤ lpa ∧ lpa < 0x90000000000 then .cxl ((lpa - 0x10000000000) / 0x20000000000)
  else if 0xE0000000000 ≤ lpa ∧ lpa < 0xE0020000000 then
    .cmem ((lpa - 0xE0000000000) / 0x1000000) ((lpa - 0xE0000000000) % 0x1000000)
  else if 0xF0000000000 ≤ lpa ∧ lpa < 0x100000000000 then .control
  else .reserved

namespace State

/-- The slice and set of an HBM or CXL line (R238, R253). -/
def sliceOf (s : State) (lpa : Nat) : Nat × Nat :=
  match place lpa with
  | .cxl n => let line := (lpa - 0x10000000000 - n * 0x20000000000) >>> 7; (48 * n + fold 4 16 line % 48, fold 6 9 line)
  | _ => let (sl, _, set) := hbmPlace lpa s.nParts; (sl, set)

/-! ### Stored registers (R6 to R10) -/

end State

/-- The entry of a register table that covers offset `off`, if any. -/
def findDef (l : List RegDef) (off : Nat) : Option RegDef :=
  l.find? (fun d =>
    let w := if d.wide then 8 else 4
    decide (d.off ≤ off) &&
      (if d.stride = 0 then decide (off < d.off + w)
       else decide ((off - d.off) / d.stride < d.count) && decide ((off - d.off) % d.stride < w)))

/-- The number of a register in the register file. -/
def regKey (a : RegAddr) : Nat := ((a.kind.code * 16 + a.part) * 256 + a.inst) * 0x1000000 + a.off

/-- The reset value of a register (its table's Reset column; R8). -/
def regReset (a : RegAddr) : Nat := ((findDef (regDefs a.kind) a.off).map RegDef.reset).getD 0

namespace State

/-- The stored value of a register: as last written, else its reset value (R8). -/
def reg (s : State) (a : RegAddr) : Nat := (s.regs.get none (regKey a)).getD (regReset a)

/-- The state with `v` stored in a register. -/
def setReg (s : State) (a : RegAddr) (v : Nat) : State :=
  { s with regs := s.regs.set none (regKey a) (if v = regReset a then none else some v) }

/-- A performance counter advanced by `n`: COUNT wraps at 2^48 and sets WRAPPED (R10). -/
def bump (s : State) (a : RegAddr) (n : Nat) : State :=
  if n = 0 then s else
  let v := s.reg a
  let c := v % 2 ^ 48 + n
  s.setReg a (c % 2 ^ 48 + (if 2 ^ 48 ≤ c || v.testBit 63 then 2 ^ 63 else 0))

/-! ### Homes of the register blocks -/

end State

/-- The register of a block with one home. -/
def home (k : Kind) (i off : Nat) : RegAddr := ⟨k, 0, i, off⟩

/-- The register of a block that presents one page set per partition (R48). -/
def pages (k : Kind) (p i off : Nat) : RegAddr := ⟨k, p, i, off⟩

/-- Whether a thread of a housekeeping unit issued the operation. -/
def MemOp.housekeeping (o : MemOp) : Bool := decide (128 ≤ o.unit ∧ o.unit < 132)

namespace State

/-! ### Extents (R52 to R59) -/

/-- Extent entry `e` of partition `p`. -/
def extent (s : State) (p e : Nat) : Extent := s.extents.get {} (p * 64 + e)

/-- The first valid entry of partition `p` that covers the PA. -/
def coverOf (s : State) (p pa : Nat) : Option Extent :=
  ((List.range 64).map (s.extent p)).find? (fun x => x.valid && decide (x.base ≤ pa >>> 16) && decide (pa >>> 16 ≤ x.limit))

/-- The LPA of a PA of partition `p` under the permissions of mask `perm` (bits of PRT_EXT_PERM: R 1, W 2, X 4, A 8, H 16,
G 32), if the PA is covered by a valid entry that carries them all (R56). -/
def translate (s : State) (p pa perm : Nat) : Option Nat :=
  if 2 ^ 44 ≤ pa then none else
  match s.coverOf p pa with
  | none => none
  | some x => if x.perm &&& perm = perm then some ((x.target + (pa >>> 16) - x.base) <<< 16 ||| pa % 65536) else none

/-- The LPAs of the 128-byte lines that `n` bytes at a PA touch are all translated with the permission (R56). -/
def translatesAll (s : State) (p pa n perm : Nat) : Bool :=
  (List.range ((pa + n - 1) / 128 - pa / 128 + 1)).all
    (fun i => (s.translate p ((pa / 128 + i) * 128) perm).isSome)

/-- `n` bytes from `pa` cut at every multiple of `b`, as (address, bytes). -/
def cuts (b pa n : Nat) : List (Nat × Nat) :=
  if n = 0 then [] else
  (List.range ((pa + n - 1) / b - pa / b + 1)).map (fun i =>
    let lo := max pa ((pa / b + i) * b)
    (lo, min (pa + n) ((pa / b + i + 1) * b) - lo))

/-- Whether a transfer engine may write the lines that `n` bytes at a PA touch: translated with W, and none in a register page (R51, R56). -/
def writable (s : State) (p pa n : Nat) : Bool :=
  (List.range ((pa + n - 1) / 128 - pa / 128 + 1)).all (fun i => (s.translate p ((pa / 128 + i) * 128) 2).any (fun a => place a != .control))

/-! ### The configuration body (R466, R467) -/

/-- The 64-bit words of a record in memory. -/
def rec64 (l : List Byte) (o : Nat) : Nat := ofLeBytes ((l.drop o).take 8)
/-- The 32-bit words of a record in memory. -/
def rec32 (l : List Byte) (o : Nat) : Nat := ofLeBytes ((l.drop o).take 4)

/-- A field of the configuration body that is running: byte offset, lowest bit, width. -/
def cfg (s : State) (off lo w : Nat) : Nat := bits (rec64 s.dome.boot.running.cfg off) lo w

/-- The role of a PCIe/CXL port: 1 CXL memory, 2 PCIe root. -/
def pcxRole (s : State) (n : Nat) : Nat := s.cfg 8 (2 * n) 2

/-- The links of a PCIe-role port: 1, 2 or 4. -/
def pcxLinks (s : State) (n : Nat) : Nat := 2 ^ s.cfg 8 (2 * n + 8) 2

/-- The partition of link `l` of PCIe port `n` (R424, R467). -/
def linkPart (s : State) (n l : Nat) : Nat := if s.nParts = 1 then 0 else s.cfg 0xC (8 * n + 2 * l) 2

/-- The partition granted CXL port `n` (R467). -/
def cxlPart (s : State) (n : Nat) : Nat := if s.nParts = 1 then 0 else s.cfg 8 (2 * n + 16) 2

/-- Whether store target `t` is configured, and its Ethernet port. -/
def storeValid (s : State) (t : Nat) : Bool := s.cfg (0x200 + 128 * t) 0 1 == 1
/-- The Ethernet port of store target `t`. -/
def storePort (s : State) (t : Nat) : Nat := s.cfg (0x200 + 128 * t) 2 2

/-! ### Turns at an arbitration point (R427) -/

/-- The order in which the next unit of an arbitration point is offered to the partitions (R427): the next partition in ascending
order with grant left first, or, once every grant is used, the one after the last served. -/
def turnOrder (s : State) (key : Nat) : List Nat :=
  let x := s.shares.get {} key
  let turn := (List.range 4).map (fun i => (x.last + 1 + i) % 4)
  match turn.find? (fun p => decide (0 < (x.grants[p]?).getD 0)) with
  | some q => (List.range 4).map (fun i => (q + i) % 4)
  | none => turn

/-- A turn of an arbitration point used for `n` units: the grant of the partition whose turn it was is charged (R427). -/
def charge (s : State) (key n : Nat) : State :=
  let x := s.shares.get {} key
  let q := (s.turnOrder key).headD 0
  { s with shares := s.shares.set {} key { grants := x.grants.set q ((x.grants[q]?).getD 0 - n), last := q } }

/-! ### Queue pairs and what they send (R442, R450 to R453) -/

/-- Queue pair `n`. -/
def qp (s : State) (n : Nat) : Qp := s.qps.get {} n

/-- The state with a queue pair changed. -/
def setQp (s : State) (n : Nat) (q : Qp) : State := { s with qps := s.qps.set {} n q }

/-- An Ethernet port. -/
def ethOf (s : State) (port : Nat) : EthPort := s.eth.get {} port

/-- The state with an Ethernet port changed. -/
def setEth (s : State) (port : Nat) (x : EthPort) : State := { s with eth := s.eth.set {} port x }

/-- A counter of an Ethernet port in the page set of a partition. -/
def bumpEth (s : State) (p port off n : Nat) : State := s.bump (pages .eth p port off) n

/-- Whether a packet of queue pair `n` may leave a port now: the link is up, its partner has not paused it, and the queue pair is not held (R451, R453). -/
def mayLeave (s : State) (port n : Nat) : Bool := (s.ethOf port).up && !(s.ethOf port).paused && !(s.qp n).held

/-- The packets that the bytes of a frame make at the path MTU of its queue pair (R425, R442). -/
def packetsOf (s : State) (f : EthFrame) : Nat := max 1 ((f.bytes + (s.qp f.qp).mtu - 1) / (s.qp f.qp).mtu)

/-- A packet leaves a port: it carries ECT(0) and the port's DSCP value (R450), its bytes are counted, and the packets that its bytes make at the path MTU
use up as many turns of the ETHERNET share (R425, R427, R452). -/
def transmit (s : State) (port : Nat) (f : EthFrame) : State :=
  let x := s.ethOf port
  let s := s.setEth port { x with last := x.last.set f.part f.qp }
  let s := s.charge (3 * 256 + port) (s.packetsOf f)
  (s.emit (.packet port (s.cfg (0x108 + 64 * port) 0 6 * 4 + 2) f.out)).bumpEth f.part port 0x108 f.bytes

/-- A packet of a partition's queue pair: it leaves at once, or waits while it may not. -/
def sendFrom (s : State) (port : Nat) (f : EthFrame) : State :=
  if s.mayLeave port f.qp then s.transmit port f
  else s.setEth port { s.ethOf port with tx := (s.ethOf port).tx ++ [f] }

/-- A packet of a connected queue pair. -/
def sendOn (s : State) (n bytes : Nat) (o : Output) : State := s.sendFrom (s.qp n).port ⟨(s.qp n).part, n, bytes, o⟩

/-- A datagram of connection management, on QP1 (R442, R444): lost where the link is down. -/
def sendCm (s : State) (p port : Nat) (o : Output) : State := if (s.ethOf port).up then s.sendFrom port ⟨p, 1, 0, o⟩ else s

/-- The queue pair whose turn is next among packets that may leave: the next above the last that sent, round robin (R452). -/
def nextQp (l : List EthFrame) (last : Nat) : Option Nat :=
  let later := l.filter (fun f => decide (last < f.qp))
  ((if later.isEmpty then l else later).map EthFrame.qp).min?

/-- The packet that a port sends next: of the partition whose turn it is (R427), and of its queue pairs in turn (R452). -/
def nextPacket (s : State) (port : Nat) : Option EthFrame :=
  let x := s.ethOf port
  let ready := x.tx.filter (fun f => s.mayLeave port f.qp)
  (s.turnOrder (3 * 256 + port)).findSome? (fun p =>
    let mine := ready.filter (fun f => f.part == p)
    (nextQp mine ((x.last[p]?).getD 0)).bind (fun n => mine.find? (fun f => f.qp == n)))

/-- The waiting packets of a port leave, each in its turn, as far as they may. -/
def drainEth (fuel port : Nat) (s : State) : State :=
  match fuel with
  | 0 => s
  | n + 1 =>
    match s.nextPacket port with
    | none => s
    | some f => drainEth n port ((s.setEth port { s.ethOf port with tx := (s.ethOf port).tx.erase f }).transmit port f)

/-- What waits on a port leaves, where it may now. -/
def drainPort (s : State) (port : Nat) : State := drainEth (s.ethOf port).tx.length port s

/-! ### Contexts -/

/-- The context of partition `p`. -/
def ctxOf (s : State) (p : Nat) : Ctx := s.ctx.get {} p

/-- The state with a context changed. -/
def setCtx (s : State) (p : Nat) (c : Ctx) : State := { s with ctx := s.ctx.set {} p c }

/-- Whether partition `p` has a context (R294). -/
def hasCtx (s : State) (p : Nat) : Bool := (s.ctxOf p).state != 0

/-- The current context number, 0 if none (R293). -/
def ctxNum (s : State) (p : Nat) : Nat := if s.hasCtx p then (s.ctxOf p).num else 0

end State

/-! ### Events -/

/-- The 32 bytes of an event record (R321). -/
def Event.bytes (e : Event) : List Byte :=
  leBytes 4 e.seq ++ leBytes 2 e.type ++ leBytes 2 e.context ++ leBytes 2 e.code ++ leBytes 2 (e.stream % 4) ++ leBytes 4 e.index
    ++ leBytes 8 e.d0 ++ leBytes 8 e.d1

namespace State

/-- The ring of partition `p`. -/
def ring (s : State) (p : Nat) : Ring := s.rings.get {} p

/-- The state with a ring changed. -/
def setRing (s : State) (p : Nat) (r : Ring) : State := { s with rings := s.rings.set {} p r }

end State

/-- The RDMA WRITE of a record into the ring (R321): with immediate as WAKE asks. -/
def Ring.writeOf (r : Ring) (e : Event) : Output :=
  let imm := e.wake || r.wake == 1 || (r.wake == 2 && e.code != 0 && e.type != 6)
  .rdmaWrite r.qp r.rkey (r.va + 32 * (e.seq % 2 ^ r.log2)) e.bytes (if imm then some e.seq else none)

/-- The records that the ring has room for, and the ring without them (R323). -/
def Ring.drain (fuel : Nat) (r : Ring) : List Output × Ring :=
  match fuel with
  | 0 => ([], r)
  | n + 1 =>
    match r.queue with
    | [] => ([], r)
    | e :: q =>
      if r.set && decide ((e.seq + 2 ^ 32 - r.consumed % 2 ^ 32) % 2 ^ 32 < 2 ^ r.log2) then
        let (o, r') := Ring.drain n { r with queue := q }
        (r.writeOf e :: o, r')
      else ([], r)

/-- A record enters the queue with the next SEQ, or is dropped without one where 256 wait (R323). -/
def Ring.push (r : Ring) (e : Event) : Ring :=
  if r.queue.length < 256 then { r with queue := r.queue ++ [{ e with seq := r.next }], next := (r.next + 1) % 2 ^ 32 }
  else { r with dropped := r.dropped + 1 }

/-- Where room has returned, an OVERRUN record with the count of the dropped records enters before any newer record (R323). -/
def Ring.overrun (ctx : Nat) (r : Ring) : Ring :=
  if r.dropped ≠ 0 ∧ r.queue.length < 256 then
    ({ r with dropped := 0 } : Ring).push { seq := 0, type := 8, context := ctx, code := 0, stream := 0, index := 0, d0 := r.dropped, d1 := 0,
                                             wake := false }
  else r

namespace State

/-- Queued records written to the ring as far as there is room (R323). -/
def flushRing (s : State) (p : Nat) : State :=
  let (o, r) := Ring.drain 257 (s.ring p)
  let (o', r') := Ring.drain 257 (r.overrun (s.ctxNum p))
  (o ++ o').foldl (fun s w => s.sendOn r.qp 32 w) (s.setRing p r')

/-- An event of partition `p` is posted: it takes its SEQ and is written when there is room (R321, R323). -/
def post (s : State) (p type code stream index d0 d1 : Nat) (wake : Bool := false) : State :=
  let r := (s.ring p).overrun (s.ctxNum p)
  let dropped := decide (256 ≤ r.queue.length)
  let r := r.push { seq := 0, type := type, context := s.ctxNum p, code := code, stream := stream, index := index, d0 := d0,
                    d1 := d1, wake := wake }
  let s := s.setRing p r
  let s := if dropped then s.bump (home .str p 0x20) 1 else s
  s.flushRing p

/-! ### The points of memory (R234 to R258) -/

/-- The byte at an LPA at its home, behind the slices; a byte nothing has written reads 0 (R25, R471; notes/assumptions/7.md). -/
def memByte (s : State) (lpa : Nat) : Byte := s.mem.get 0 lpa

/-- A line of the slices. -/
def line (s : State) (lpa : Nat) : L2Line := s.lines.get {} (lpa / 128)

/-- The state with line `l` in the slices. -/
def setLine (s : State) (lpa : Nat) (l : L2Line) : State := { s with lines := s.lines.set {} (lpa / 128) l }

/-- The byte at an LPA as its point holds it: the slice's valid byte, else memory's (R237, R258). The upper part of a
cluster-memory stride reads zero (R44). -/
def peek (s : State) (lpa : Nat) : Byte :=
  match place lpa with
  | .cmem _ off => if 0xC00000 ≤ off then 0 else s.memByte lpa
  | .hbm | .cxl _ =>
    let l := s.line lpa
    if l.present && l.valid.testBit (lpa % 128) then (l.data[lpa % 128]?).getD 0 else s.memByte lpa
  | _ => 0

/-- `n` bytes at an LPA as their points hold them. -/
def peekBytes (s : State) (lpa n : Nat) : List Byte := (List.range n).map (fun i => s.peek (lpa + i))

/-- The number in `n` little-endian bytes at an LPA. -/
def peekNat (s : State) (lpa n : Nat) : Nat := ofLeBytes (s.peekBytes lpa n)

/-- Whether the CXL link of port `n` is up; the port's state is PCX_STATUS.LINK (R254, R460). -/
def cxlUp (s : State) (n : Nat) : Bool := bit (s.reg (home .pcx n 0x10)) 2

/-- Whether an LPA lies in the window of a CXL port whose link is down: its loads return poison (R254). -/
def cxlDown (s : State) (lpa : Nat) : Bool :=
  match place lpa with
  | .cxl n => !s.cxlUp n
  | _ => false

/-- Whether the word that holds the byte at an LPA is poisoned at its point (R236, R251): in the slice, or in memory where the slice does not
hold the byte. -/
def poisonedAt (s : State) (lpa : Nat) : Bool :=
  match place lpa with
  | .cmem _ _ => s.cpoison.get false (lpa / 8)
  | .hbm | .cxl _ =>
    let l := s.line lpa
    (l.present && l.poison.testBit (lpa % 128 / 32))
      || (!(l.present && l.valid.testBit (lpa % 128)) && (s.poison.get false (lpa / 32) || s.cxlDown lpa))
  | _ => false

/-- Whether any word of `n` bytes at an LPA is poisoned at its point. -/
def poisonedIn (s : State) (lpa n : Nat) : Bool := (List.range n).any (fun i => s.poisonedAt (lpa + i))

/-- The home bytes written, without the slices. -/
def setMem (s : State) (lpa : Nat) (b : Byte) : State := { s with mem := s.mem.set 0 lpa b }

/-- The home bytes written from an LPA upward. -/
def setMemBytes (s : State) (lpa : Nat) (l : List Byte) : State :=
  (l.zipIdx).foldl (fun s p => s.setMem (lpa + p.2) p.1) s

end State

/-- A byte-mask of `n` bytes from byte `o`. -/
def byteMask (o n : Nat) : Nat := (2 ^ n - 1) <<< o

/-- The four word bits of a 128-byte line whose 32 bytes all lie in a byte mask. -/
def fullWords (mask : Nat) : Nat :=
  (List.range 4).foldl (fun a w => if bits mask (32 * w) 32 = 2 ^ 32 - 1 then a + 2 ^ w else a) 0

/-- The four word bits of a 128-byte line that a byte mask touches. -/
def touchedWords (mask : Nat) : Nat :=
  (List.range 4).foldl (fun a w => if bits mask (32 * w) 32 = 0 then a else a + 2 ^ w) 0

namespace State

/-- The stack of a slice's HBM controller (R17). -/
def stackOf (slice : Nat) : Nat := slice / 16

/-- The partition that owns stack `st` (R35). -/
def partOfStack (s : State) (st : Nat) : Nat := s.partOfRegion (st / 3)

/-- The words of a line that memory's read finds poisoned for the first time: counted, latched and posted by the caller
(R250). Bits 0-3 of `e.corr` and `e.uncorr` are the words of the line. -/
def hbmFound (s : State) (lpa : Nat) (e : Ecc) : State :=
  let b := lpa / 128 * 128
  let stack := stackOf (s.sliceOf b).1
  let s := s.bump (home .hbm stack 0x100) (popcount 4 (e.corr &&& (15 ^^^ (e.uncorr % 16))))
  (List.range 4).foldl (fun s w =>
    if e.uncorr.testBit w && !s.poison.get false (b / 32 + w) then
      let s := { s with poison := s.poison.set false (b / 32 + w) true }
      (s.bump (home .hbm stack 0x108) 1).setReg (home .hbm stack 0x18) (b + 32 * w)
    else s) s

/-- The words of a line that `hbmFound` would poison: first finds (R250). -/
def newPoison (s : State) (lpa : Nat) (e : Ecc) : List Nat :=
  let b := lpa / 128 * 128
  ((List.range 4).filter (fun w => e.uncorr.testBit w && !s.poison.get false (b / 32 + w))).map (fun w => b + 32 * w)

/-- POISON events to the partition that owns the stack, one per word (R250). -/
def postPoison (s : State) (line : Nat) (ws : List Nat) : State :=
  let p := s.partOfStack (stackOf (s.sliceOf line).1)
  ws.foldl (fun s w => s.post p 0x0007 0x0801 0 0 w 0) s

/-- The reads of the read-modify-writes with which a controller writes words in part (R249, R250): what their ECC finds is free
(notes/assumptions/126.md). -/
def rmwFound (s : State) (lpa words : Nat) : State :=
  if words = 0 then s else
  let (x, s) := s.draw
  let e : Ecc := { corr := x % 16 &&& words, uncorr := x / 16 % 16 &&& words }
  (s.hbmFound lpa e).postPoison lpa (s.newPoison lpa e)

/-- A line written back to memory: its dirty bytes reach memory with their poison (R237, R251), a word written in part by a
read-modify-write of the whole word, whose read may find an error (R249, R250); a CXL line whose link is down is dropped and counted (R254). -/
def writeBack (s : State) (lpa : Nat) : State :=
  let b := lpa / 128 * 128
  let l := s.line b
  let slice := (s.sliceOf b).1
  if !l.present || l.dirty = 0 then s else
  let drop := match place b with
    | .cxl n => !s.cxlUp n
    | _ => false
  if drop then s.bump (pages .slc l.owner slice 0x160) 1 else
  let touched := touchedWords l.dirty
  let inPart := touched &&& (15 ^^^ fullWords l.dirty)
  let s := if place b = .hbm then s.rmwFound b inPart else s
  let s := (List.range 128).foldl (fun s i => if l.dirty.testBit i then s.setMem (b + i) ((l.data[i]?).getD 0) else s) s
  let s := (List.range 4).foldl (fun s w =>
    if bits l.dirty (32 * w) 32 = 0 then s else
    let p := l.poison.testBit w || (s.poison.get false (b / 32 + w) && bits l.dirty (32 * w) 32 != 2 ^ 32 - 1)
    { s with poison := s.poison.set false (b / 32 + w) p }) s
  let s := match place b with
    | .hbm => (s.bump (home .hbm (stackOf slice) 0x118) (32 * popcount 4 touched)).bump (home .hbm (stackOf slice) 0x110)
        (32 * popcount 4 inPart)
    | .cxl n => s.bump (pages .pcx l.owner n 0x108) (popcount 128 l.dirty)
    | _ => s
  s.bump (pages .slc l.owner slice 0x118) 1

/-- A line leaves its slice: written back, then absent (R237). -/
def evict (s : State) (lpa : Nat) : State := (s.writeBack lpa).setLine lpa {}

/-- The line numbers present in a set of a slice. -/
def setLines (s : State) (slice set : Nat) : List Nat :=
  (s.lines.filter (fun e => e.2.present && s.sliceOf (e.1 * 128) == (slice, set))).map Prod.fst

/-- The way target of partition `p` in a slice (R428); 16 until the shares are first computed. -/
def wayTarget (s : State) (slice p : Nat) : Nat := ((s.slices.get {} slice).targets[p]?).getD 16

/-- The lines that may be chosen as victims for a miss of partition `p` (R240, R428): unlocked lines, of partitions above their target
where `p` holds fewer ways than its own, else of `p`; any unlocked line where none of those qualifies. -/
def victims (s : State) (slice p : Nat) (l : List Nat) : List Nat :=
  let owner (k : Nat) : Nat := (s.lines.get {} k).owner
  let held (q : Nat) : Nat := (l.filter (fun k => owner k == q)).length
  let free := l.filter (fun k => (s.lines.get {} k).lock.isNone)
  let fit := if held p < s.wayTarget slice p then free.filter (fun k => decide (s.wayTarget slice (owner k) < held (owner k)))
             else free.filter (fun k => owner k == p)
  if fit.isEmpty then free else fit

/-- The line of an LPA present for partition `p`, which has missed in the slice (R428), with nothing valid: the youngest of its slice (R237,
R430). -/
def freshLine (s : State) (p lpa : Nat) : State :=
  let slice := (s.sliceOf lpa).1
  let x := s.slices.get {} slice
  { s with slices := s.slices.set {} slice { x with born := x.born + 1, missed := x.missed ||| 2 ^ p } }.setLine lpa
    { present := true, owner := p, data := List.replicate 128 0, born := x.born }

/-- A line made present for partition `p`, with nothing valid, evicting a victim of free choice where the set is full; none
where every way of the set is locked (R237, R240). -/
def allocLine (s : State) (p lpa : Nat) : Option State :=
  if (s.line lpa).present then some s else
  let (slice, set) := s.sliceOf lpa
  let l := s.setLines slice set
  if l.length < 16 then some (s.freshLine p lpa) else
  match s.victims slice p l with
  | [] => none
  | v :: vs =>
    let (x, s) := s.draw
    let k := (((v :: vs)[x % (vs.length + 1)]?).getD v)
    some ((s.evict (k * 128)).freshLine p lpa)

/-- A read of a line of a CXL window: the words that the device reports as poisoned hold poison from then on, and a read that returns any
is counted (R251, R253). -/
def cxlFound (s : State) (n lpa : Nat) (e : Ecc) : State :=
  let b := lpa / 128 * 128
  let l := s.line b
  if !s.cxlUp n then s else
  let s := (List.range 4).foldl (fun s w =>
    if e.uncorr.testBit w then { s with poison := s.poison.set false (b / 32 + w) true } else s) s
  if (List.range 4).any (fun w => bits l.valid (32 * w) 32 != 2 ^ 32 - 1 && s.poison.get false (b / 32 + w)) then s.bump (home .pcx n 0x120) 1
  else s

/-- A returning fill, whose read is of the whole line: the invalid bytes of a present line take memory's bytes, and each word that had no valid byte takes
memory's poison; a partly valid word keeps its own poison or takes memory's (R239, R250, R251). A CXL line whose link is down
fills poisoned (R254). -/
def fillLine (s : State) (lpa : Nat) : State :=
  let b := lpa / 128 * 128
  let l := s.line b
  if !l.present then s else
  let down := match place b with
    | .cxl n => !s.cxlUp n
    | _ => false
  let data := (List.range 128).map (fun i =>
    if l.valid.testBit i then (l.data[i]?).getD 0 else if down then 0 else s.memByte (b + i))
  let poison := (List.range 4).foldl (fun a w =>
    let v := bits l.valid (32 * w) 32
    let m := down || s.poison.get false (b / 32 + w)
    if (if v = 0 then m else if v = 2 ^ 32 - 1 then l.poison.testBit w else m || l.poison.testBit w) then a + 2 ^ w else a) 0
  let s := s.setLine b { l with valid := 2 ^ 128 - 1, data := data, poison := poison }
  match place b with
  | .hbm => s.bump (home .hbm (stackOf (s.sliceOf b).1) 0x110) 128
  | .cxl p => if down then s else s.bump (pages .pcx l.owner p 0x100) 128
  | _ => s

/-- Bytes written into a present line: valid and dirty from then on; a word written whole loses its poison (R237, R251). -/
def writeLine (s : State) (lpa : Nat) (l : List Byte) : State :=
  let ln := s.line lpa
  let m := byteMask (lpa % 128) l.length
  let data := (List.range 128).map (fun i =>
    if decide (lpa % 128 ≤ i) && decide (i < lpa % 128 + l.length) then (l[i - lpa % 128]?).getD 0 else (ln.data[i]?).getD 0)
  s.setLine lpa { ln with
    valid := ln.valid ||| m, dirty := ln.dirty ||| m, data := data, poison := ln.poison &&& (15 ^^^ fullWords m) }

/-- A write to a line wakes every sequencer parked on a link slot in it (R298). -/
def wake (s : State) (lpa : Nat) : State :=
  { s with strs := s.strs.map (fun e =>
      if e.2.block.isNone && ((s.translate (e.1 / 4) e.2.park 0).map (· / 128)) == some (lpa / 128) then
        (e.1, { e.2 with woken := true })
      else e) }

/-- Bytes of one line written to memory past its slice: a word written whole loses its poison (R251). -/
def putMemory (s : State) (lpa : Nat) (l : List Byte) : State :=
  let full := fullWords (byteMask (lpa % 128) l.length)
  (List.range 4).foldl (fun s w =>
    if full.testBit w then { s with poison := s.poison.set false (lpa / 128 * 4 + w) false } else s) (s.setMemBytes lpa l)

/-- Bytes of one line written at their point by partition `p`'s agent: the bank for cluster memory (R236: a word written whole
loses its poison; the upper part of the stride ignores writes, R44; a cluster whose domain is off discards them, R27), the slice
for HBM and CXL, allocated where absent (R237), or memory itself where every way of the set is locked. -/
def pokeLine (s : State) (p lpa : Nat) (l : List Byte) : State :=
  let s := s.wake lpa
  match place lpa with
  | .cmem c off =>
    if 0xC00000 ≤ off || !s.domOn c then s else
    let s := s.setMemBytes lpa l
    (List.range (l.length / 8 + 2)).foldl (fun s i =>
      let w := lpa / 8 + i
      if decide (lpa ≤ w * 8) && decide (w * 8 + 8 ≤ lpa + l.length) then { s with cpoison := s.cpoison.set false w false } else s) s
  | .hbm => match s.allocLine p lpa with
    | some s => s.writeLine lpa l
    | none => s.putMemory lpa l
  | .cxl n =>
    if !s.cxlUp n then s.bump (pages .slc p (s.sliceOf lpa).1 0x160) 1 else
    match s.allocLine p lpa with
    | some s => s.writeLine lpa l
    | none => s.putMemory lpa l
  | _ => s

/-- Bytes written from an LPA upward, line by line, at their points. -/
def poke (s : State) (p lpa : Nat) (l : List Byte) : State :=
  (List.range ((lpa + l.length - 1) / 128 - lpa / 128 + 1)).foldl (fun s i =>
    let lo := max lpa ((lpa / 128 + i) * 128)
    let hi := min (lpa + l.length) ((lpa / 128 + i + 1) * 128)
    s.pokeLine p lo ((l.drop (lo - lpa)).take (hi - lo))) s

/-- Bytes written at a PA of partition `p`, each byte through its own line's translation; the caller has checked them. -/
def pokePa (s : State) (p pa : Nat) (l : List Byte) : State :=
  if l.isEmpty then s else
  (List.range ((pa + l.length - 1) / 128 - pa / 128 + 1)).foldl (fun s i =>
    let lo := max pa ((pa / 128 + i) * 128)
    let hi := min (pa + l.length) ((pa / 128 + i + 1) * 128)
    match s.translate p lo 0 with
    | some lpa => s.pokeLine p lpa ((l.drop (lo - pa)).take (hi - lo))
    | none => s) s

/-- `n` bytes at a PA of partition `p` as their points hold them; an untranslated byte reads 0 (the caller has checked). -/
def peekPa (s : State) (p pa n : Nat) : List Byte :=
  (List.range n).map (fun i => match s.translate p (pa + i) 0 with
    | some lpa => s.peek lpa
    | none => 0)

/-- Whether any of `n` bytes at a PA lies in a poisoned word. -/
def poisonedPa (s : State) (p pa n : Nat) : Bool :=
  (List.range n).any (fun i => match s.translate p (pa + i) 0 with
    | some lpa => s.poisonedAt lpa
    | none => false)

/-! ### Units, groups, threads -/

/-- Unit `u`. -/
def unit (s : State) (u : Nat) : UnitSt := s.units.get {} u

/-- The state with unit `u` changed. -/
def setUnit (s : State) (u : Nat) (x : UnitSt) : State := { s with units := s.units.set {} u x }

/-- The group in a slot of a unit. -/
def grp (s : State) (u k : Nat) : Grp := s.groups.get {} (u * 32 + k)

/-- The state with a group changed. -/
def setGrp (s : State) (u k : Nat) (g : Grp) : State := { s with groups := s.groups.set {} (u * 32 + k) g }

/-- The counter of the cluster's, unit's or other block's register advanced. -/
def bumpUnit (s : State) (u off n : Nat) : State :=
  s.bump (if u < 128 then home .unit u off else home .hku (u - 128) off) n

/-- The partition of a unit; a housekeeping unit has none. -/
def partOfUnit (s : State) (u : Nat) : Option Nat := if u < 128 then some (s.partOfCluster (u / 4)) else none

/-! ### Halting for debug (R195 to R197) -/

/-- A register of a unit's block: UNIT_ of a compute unit, HKU_ of a housekeeping unit (R198). -/
def unitReg (u off : Nat) : RegAddr := if u < 128 then home .unit u off else home .hku (u - 128) off

/-- Whether a group is halted for debug, by itself or with its unit (R195, R196). -/
def groupHalted (s : State) (u k : Nat) : Bool := (s.grp u k).halted || s.halts.get false u

/-- What a halt caused in group `k` of unit `u` halts, by SCOPE: the group (or all groups of the unit where HALT was written), the unit, or every
compute unit of the partition (R195). UNIT_DBG_STATUS of each halted unit records the cause; HALTED in it is read from what is halted (R198). -/
def debugHalt (s : State) (u : Nat) (k : Option Nat) (cause bp : Nat) : State :=
  let scope := bits (s.reg (unitReg u 0x18)) 1 2
  let us := if scope = 2 then (match s.partOfUnit u with
    | some p => (s.unitsOf p).filter (fun u' => s.domOn (u' / 4))
    | none => [u]) else [u]
  let halts (u' k' : Nat) : Bool := if scope = 0 then (match k with | some k => u' == u && k' == k | none => u' == u) else true
  let s := us.foldl (fun s u' => (List.range 32).foldl (fun s k' =>
    let g := s.grp u' k'
    if g.live && halts u' k' then s.setGrp u' k' { g with halted := true, step := false } else s) s) s
  let s := if scope = 0 then s else { s with halts := us.foldl (fun m u' => m.set false u' true) s.halts }
  us.foldl (fun s u' => s.setReg (unitReg u' 0x1C) (cause * 2 + (k.getD 0) * 8 + bp * 256)) s

/-! ### Contexts and streams -/

/-- Stream `st` of partition `p`. -/
def str (s : State) (p st : Nat) : Str := s.strs.get {} (p * 4 + st)

/-- The state with a stream changed. -/
def setStr (s : State) (p st : Nat) (x : Str) : State := { s with strs := s.strs.set {} (p * 4 + st) x }

/-- The command of a stream with index `idx`. -/
def cmdOf (s : State) (p st idx : Nat) : Option Cmd := (s.str p st).cmds.find? (fun c => c.idx == idx)

/-- The state with the command of a stream with index `idx` changed by `f`. -/
def modCmd (s : State) (p st idx : Nat) (f : Cmd → Cmd) : State :=
  let x := s.str p st
  s.setStr p st { x with cmds := x.cmds.map (fun c => if c.idx = idx then f c else c) }

/-- Numerics flags ORed into a command (R95, R220). -/
def addFlags (s : State) (p st idx fl : Nat) : State :=
  if fl = 0 then s else s.modCmd p st idx (fun c => { c with flags := c.flags ||| fl })

/-- The launch of a command fails: its first failure code is kept (R142). -/
def failCmd (s : State) (p st idx code : Nat) : State :=
  s.modCmd p st idx (fun c => { c with notes := if c.notes.isEmpty then [code] else c.notes })

/-! ### Fault reports -/

/-- A fault report on its way to the hub (R191, R273). -/
def report (s : State) (p : Nat) (r : FaultRec) : State :=
  { s with faultQ := s.faultQ.set [] p (s.faultQ.get [] p ++ [(s.pkg.time, r)]) }

end State

end Sys2Proof.Machine
end

