-- ==== Sys2Proof/Machine/Sync.lean ====
section
/-! DEFINITION. Sync counters (R271 to R279), fences (R281 to R287), and the release of
what waits on them. -/

namespace Sys2Proof.Machine

/-- `a` is after `b` by serial-number arithmetic of width `w` (R282, R321). -/
def serialAfter (w a b : Nat) : Bool :=
  let d := (a + 2 ^ w - b % 2 ^ w) % 2 ^ w
  decide (0 < d) && decide (d < 2 ^ (w - 1))

/-! ### What a command's slot holds (R300, R307) -/

/-- OPCODE of a command. -/
def Cmd.op (c : Cmd) : Nat := bits c.slot.toNat 0 8
/-- SIGNAL of a command (R300). -/
def Cmd.signal (c : Cmd) : Bool := bit c.slot.toNat 9
/-- The fence of a command as region * 1024 + number (R300). -/
def Cmd.fence (c : Cmd) : Nat := let x := w32At c.slot.toNat 4; bits x 10 2 * 1024 + bits x 0 10
/-- The fence value of a command (R300). -/
def Cmd.value (c : Cmd) : Nat := w64At c.slot.toNat 8
/-- 32 bits of the command slot at a byte offset. -/
def Cmd.w32 (c : Cmd) (o : Nat) : Nat := w32At c.slot.toNat o
/-- 64 bits of the command slot at a byte offset. -/
def Cmd.w64 (c : Cmd) (o : Nat) : Nat := w64At c.slot.toNat o

namespace State

/-- A command's work ends with a code, if it has not ended yet. -/
def endCmd (s : State) (p st idx code : Nat) : State :=
  s.modCmd p st idx (fun c => { c with done := c.done <|> some code })

/-! ### Releases of threads -/

/-- The whole L1 of a unit invalidated; loads on their way install nothing (R187). -/
def dropL1 (s : State) (u : Nat) : State :=
  let s := s.setUnit u { s.unit u with l1 := [] }
  { s with ops := s.ops.map (fun e => (e.1, e.2.map (fun o => if o.unit = u then { o with keepL1 := false } else o))) }

/-- The acquire at a scope by a thread of unit `u`: cluster scope or wider invalidates the L1 (R187, R261). -/
def acquire (s : State) (u scope : Nat) : State := if scope = 0 then s else s.dropL1 u

end State

/-- General register `n` of a thread: g255 reads zero (R199). -/
def Thr.getG (t : Thr) (n : Nat) : Nat := if n = 255 then 0 else t.g.get 0 n
/-- A write of a general register: g255 discards it (R199). -/
def Thr.setG (t : Thr) (n v : Nat) : Thr := if 255 ≤ n then t else { t with g := t.g.set 0 n (v % 2 ^ 32) }
/-- Predicate `n` of a thread: p7 reads true (R199). -/
def Thr.getP (t : Thr) (n : Nat) : Bool := n == 7 || t.p.testBit n
/-- A write of a predicate: p7 discards it (R199). -/
def Thr.setP (t : Thr) (n : Nat) (v : Bool) : Thr := if 7 ≤ n then t else { t with p := putBits t.p n 1 (b2n v) }
/-- Uniform register `n` of a group: u63 reads zero (R199). -/
def Grp.getU (g : Grp) (n : Nat) : Nat := if 63 ≤ n then 0 else g.u.get 0 n
/-- A write of a uniform register: u63 discards it (R199, R206). -/
def Grp.setU (g : Grp) (n v : Nat) : Grp := if 63 ≤ n then g else { g with u := g.u.set 0 n (v % 2 ^ 32) }
/-- Lane `l` of a group. -/
def Grp.thr (g : Grp) (l : Nat) : Thr := g.threads.get {} l
/-- The group with lane `l` changed. -/
def Grp.setThr (g : Grp) (l : Nat) (t : Thr) : Grp := { g with threads := g.threads.set {} l t }
/-- The group with lane `l` changed by `f`. -/
def Grp.modThr (g : Grp) (l : Nat) (f : Thr → Thr) : Grp := g.setThr l (f (g.thr l))

namespace State

/-- A waiter is released with the value observed: its threads write it and perform their acquire; a WAIT command's wait has
ended (R227, R274). -/
def releaseWaiter (s : State) (p value : Nat) (w : Waiter) : State :=
  match w.who with
  | .thread u k lanes =>
    (List.range 32).foldl (fun s lane =>
      let g := s.grp u k
      match (g.thr lane).wait with
      | none => s
      | some cw =>
        if !lanes.testBit lane then s else
        let g := if cw.udst then (g.setU cw.dst value).modThr lane (fun t => { t with wait := none })
                 else g.modThr lane (fun t => { (t.setG cw.dst value) with wait := none })
        (s.setGrp u k g).acquire u cw.scope) s
  | .command st idx => s.endCmd p st idx 0

/-- Counter `n` of region `r`. -/
def ctr (s : State) (r n : Nat) : Ctr := s.ctrs.get {} (r * 4096 + n)

/-- The state with a counter changed. -/
def setCtr (s : State) (r n : Nat) (c : Ctr) : State := { s with ctrs := s.ctrs.set {} (r * 4096 + n) c }

/-- Every waiter whose target is met is released, in arrival order (R274). -/
def releaseCtr (s : State) (r n : Nat) : State :=
  let c := s.ctr r n
  let (now, later) := c.waiters.partition (fun w => decide (w.target ≤ c.value))
  now.foldl (fun s w => s.releaseWaiter (s.partOfRegion r) c.value w) (s.setCtr r n { c with waiters := later })

end State

/-- The amounts of a signal applied one after the other within the limits (R227, R272): the value reached, or the lane of the
first step that fails and whether it is an overflow. -/
def applyAmounts (floor ceil : Nat) : Nat → List (Nat × Int) → Except (Nat × Bool) Nat
  | v, [] => .ok v
  | v, (lane, a) :: l =>
    let x : Int := v + a
    if x < floor then .error (lane, false) else if (ceil : Int) < x then .error (lane, true)
    else applyAmounts floor ceil x.toNat l

namespace State

/-- The slot PA of a command, 0 if it is not in flight (R273). -/
def slotPa (s : State) (p st idx : Nat) : Nat := ((s.cmdOf p st idx).map Cmd.pa).getD 0

/-- The record that the hub writes for an underflow or overflow of an agent that is no thread (R273). -/
def hubCtrFault (s : State) (p r n : Nat) (above : Bool) (pc : Nat) : FaultRec :=
  { kind := if above then 6 else 5, unit := 0xFF, context := s.ctxNum p, code := 0x0301, counter := n, region := r, pc := pc }

/-- Whether the counters of partition `p` discard what reaches them: the context is killed (R277). -/
def ctrDiscards (s : State) (p : Nat) : Bool := (s.ctxOf p).state ≥ 2

/-- A signal of one amount by an agent that is no thread (R272, R273): applied within the limits, or reported to the hub. A
signal that leaves VALUE unchanged updates no last-signaller field (R278). -/
def signal (s : State) (r n : Nat) (amount : Int) (agent p st idx : Nat) : State :=
  if s.ctrDiscards p then s.bump (home .ctr r 0x210) 1 else
  let c := s.ctr r n
  match applyAmounts c.floor c.ceil c.value [(0, amount)] with
  | .error (_, above) => s.report p (s.hubCtrFault p r n above (s.slotPa p st idx))
  | .ok v =>
    let c' := if amount = 0 then c else { c with value := v, lastAgent := agent, lastAmount := ofSigned 32 amount, lastCmd := idx }
    ((s.setCtr r n c').bump (home .ctr r 0x200) 1).releaseCtr r n

/-- A wait arrives at a bank: released at once if its target is met, else it joins the waiters (R274). -/
def ctrWait (s : State) (r n p : Nat) (w : Waiter) : State :=
  if s.ctrDiscards p then s.bump (home .ctr r 0x210) 1 else
  let c := s.ctr r n
  let s := s.bump (home .ctr r 0x208) 1
  if w.target ≤ c.value then s.releaseWaiter p c.value w
  else s.setCtr r n { c with waiters := c.waiters ++ [w] }

/-- A register write of a counter's VALUE (0), FLOOR (1) or CEIL (2) (R275, R278): refused with its cause, or applied with the
release of the waiters it satisfies. `idx` is the REGWRITE command's index, or 0. -/
def ctrWrite (s : State) (r n field v idx : Nat) : State :=
  if s.ctrDiscards (s.partOfRegion r) then s.bump (home .ctr r 0x210) 1 else
  let c := s.ctr r n
  let refuse (e : Nat) : State := s.setReg (home .ctr r 0x100) (n + e * 0x1000)
  match field with
  | 0 =>
    if v < c.floor || c.ceil < v then refuse 1 else
    let c' := if v = c.value then c else
      { c with value := v, lastAgent := 0x0170, lastAmount := (v + 2 ^ 32 - c.value) % 2 ^ 32, lastCmd := idx }
    (s.setCtr r n c').releaseCtr r n
  | 1 => if c.value < v || c.ceil < v then refuse 2 else s.setCtr r n { c with floor := v }
  | _ => if v < c.value || v < c.floor then refuse 3 else s.setCtr r n { c with ceil := v }

/-! ### Fences -/

/-- A fence by its number region * 1024 + f. -/
def fence (s : State) (k : Nat) : Fence := s.fences.get {} k

/-- The state with a fence changed. -/
def setFence (s : State) (k : Nat) (f : Fence) : State := { s with fences := s.fences.set {} k f }

end State

/-- STATE of a fence (R281, R283). -/
def Fence.state (f : Fence) : Nat := if f.faulted then 2 else if f.owed = 0 then 0 else 1

/-- Whether a wait on the fence with target `t` is satisfied (R284). -/
def Fence.reached (f : Fence) (t : Nat) : Bool := f.value == t || serialAfter 64 f.value t

namespace State

/-- The started WAIT commands on fence `k` end: with UPSTREAM where it is FAULTED, with success where its value reaches their
target (R284). -/
def releaseFence (s : State) (k : Nat) : State :=
  let p := s.partOfRegion (k / 1024)
  let f := s.fence k
  (List.range 4).foldl (fun s st =>
    (s.str p st).cmds.foldl (fun s c =>
      let w := c.w32 0x10
      if c.op == 0x07 && c.started && c.done.isNone && bit w 14 && bits w 12 2 * 1024 + bits w 0 12 == k then
        if f.faulted then s.endCmd p st c.idx 0x0101
        else if f.reached (c.w64 0x18) then s.endCmd p st c.idx 0 else s
      else s) s) s

/-- A completed command signals fence `k` with `v` (R283): OWED falls by one; the value advances, the signal is retrograde, or
it is discarded on a FAULTED fence. -/
def fenceSignal (s : State) (k v idx : Nat) : State :=
  let f := s.fence k
  let r := k / 1024
  let f := { f with owed := f.owed - 1 }
  if f.faulted then (s.setFence k f).bump (home .fen r 0x118) 1
  else if serialAfter 64 v f.value then
    (((s.setFence k { f with value := v, lastCmd := idx }).bump (home .fen r 0x100) 1)).releaseFence k
  else (s.setFence k f).bump (home .fen r 0x108) 1

/-- An error is attached to fence `k` (R285): FAULTED with the first error kept, the event posted, the waiters released. `owes`:
the failed command owed the fence a signal. -/
def fenceFault (s : State) (p k code st idx : Nat) (owes : Bool) : State :=
  let f := s.fence k
  let r := k / 1024
  let f := if owes then { f with owed := f.owed - 1 } else f
  if f.faulted then (s.setFence k f).bump (home .fen r 0x118) 1 else
  let s := s.setFence k { f with faulted := true, code := code, faultCmd := idx, faultSrc := st }
  let s := s.bump (home .fen r 0x110) 1
  let s := s.post p 0x0004 code st idx (k % 1024 + r * 1024) f.value
  s.releaseFence k

/-- RESET of a fence (R287). -/
def fenceReset (s : State) (k : Nat) : State :=
  let f := s.fence k
  if f.faulted then s.setFence k { f with faulted := false, code := 0, faultCmd := 0, faultSrc := 0 }
  else s.setReg (home .fen (k / 1024) 0x10) (k % 1024)

end State

end Sys2Proof.Machine
end

