-- ==== Sys2Proof/Machine/Flit.lean ====
section
/-! DEFINITION. Flits and CONTROL messages of the Griwald ports (R348, R350, R360). -/

namespace Sys2Proof.Machine

/-! ### CRC-32 (IEEE 802.3) -/

/-- One bit of the reflected CRC-32. -/
def crcBit (c : Nat) : Nat := if c % 2 = 1 then (c >>> 1) ^^^ 0xEDB88320 else c >>> 1

/-- The CRC register after one byte. -/
def crcByte (c b : Nat) : Nat := crcBit (crcBit (crcBit (crcBit (crcBit (crcBit (crcBit (crcBit (c ^^^ b))))))))

/-- CRC-32 of bytes, with the polynomial, initial value and final inversion of IEEE 802.3. -/
def crc32 (l : List Byte) : Nat := (l.foldl (fun c b => crcByte c b.toNat) 0xFFFFFFFF) ^^^ 0xFFFFFFFF

/-! ### Flits (R348) -/

/-- A flit with a good CRC over its first 252 bytes. -/
def flitCrcOk (f : Nat) : Bool := crc32 (leBytes 252 f) == bits f 2016 32

/-- Slot `i` of a flit. -/
def flitSlot (f i : Nat) : Nat := bits f (64 + 128 * i) 128

/-- A flit from its header fields and slots; absent slots are PAD. -/
def makeFlit (kind vc seq ack ackValid cvc cpool credits : Nat) (slots : List Nat) (firstHdr : Nat) : Nat :=
  let hdr := kind + vc * 8 + seq * 2 ^ 8 + ack * 2 ^ 20 + ackValid * 2 ^ 32 + cvc * 2 ^ 33 + cpool * 2 ^ 36 + credits * 2 ^ 37
  let body := slots.zipIdx.foldl (fun a p => a + p.1 <<< (64 + 128 * p.2)) 0
  let x := hdr + body + firstHdr <<< 1984
  x + crc32 (leBytes 252 x) <<< 2016

namespace State

/-- Port `g` (R64: 2d for d+, 2d + 1 for d-). -/
def port (s : State) (g : Nat) : Glp := s.ports.get {} g

/-- The state with a port changed. -/
def setPort (s : State) (g : Nat) (x : Glp) : State := { s with ports := s.ports.set {} g x }

/-- A counter of a port, the same in every partition's page set (R370): held in page set 0. -/
def bumpPort (s : State) (g off n : Nat) : State := s.bump (pages .glp 0 g off) n

/-- The credits returned with the next flit: a pool with freed slots, at most 2,047 of them (R348). -/
def creditField (x : Glp) : Nat × Nat × Nat × Glp :=
  match x.freed with
  | [] => (0, 0, 0, x)
  | (pool, n) :: _ =>
    let m := min n 2047
    ((if 7 ≤ pool then 7 else pool), (if pool = 8 then 1 else 0), m, { x with freed := x.freed.set 0 pool (n - m) })

/-- A CONTROL flit's message in slot 0 and the following slot where it needs one (R360). -/
def sendControl (s : State) (g : Nat) (slots : List Nat) : State :=
  let (cvc, cpool, n, x) := creditField (s.port g)
  let f := makeFlit 2 0 0 ((x.rxSeq + 4095) % 4096) (b2n x.ackOk) cvc cpool n slots 15
  (s.setPort g { x with unacked := 0 }).emit (.flit g f)

end State

end Sys2Proof.Machine
end

