-- ==== Sys2Proof/Machine/Reset.lean ====
section
/-! DEFINITION. Rails (R535, R536), and package warm and cold resets (R38, R39, R435, R461, R462): what each keeps. The work of start-up is in
`Start.lean`. Pins carry numbers of the model's own: 1 VR_OFF_N, 2 BOL_SEAL, 0x100 + 4 * port + link PERST_N (notes/assumptions/34.md). -/

namespace Sys2Proof.Machine

/-- Whether a home address lies in the window of a CXL device, whose contents no reset clears (R471). -/
def inCxl (lpa : Nat) : Bool := decide (0x10000000000 ≤ lpa) && decide (lpa < 0x90000000000)

/-- Whether a register of the register file is held by the Dome: DOM_ and BOL_, and the progress blocks of start-up, self-test and flash
write (R39, R475, R479, R503, R521). -/
def domeKey (k : Nat) : Bool :=
  let code := k / 0x1000000 / 256 / 16
  code == Kind.dom.code || code == Kind.bol.code || (code == Kind.prog.code && decide (k / 0x1000000 % 256 ≤ 2))

/-- The PMBus addresses of the rails in the order of their enabling (R535, R536): VDD_CD, VDD_ED0-3, VDD_SD0-3, VPP_HBM, VDD_HBM, VDDQ_HBM and
VDD_CL0-3. -/
def railOrder : List Nat := [0x44, 0x45, 0x46, 0x47, 0x48, 0x49, 0x4A, 0x4B, 0x4C, 0x4F, 0x4D, 0x4E, 0x40, 0x41, 0x42, 0x43]

/-- The rails that Ethernet port 0 needs in RECOVERY (R481): VDD_ED0 and VDD_SD0 (DEDUCED, notes/assumptions/117.md). -/
def recoveryRails : List Nat := [0x45, 0x49]

/-- The voltage of the cluster rails in a power mode, in mV (R535). -/
def clusterMv (m : Nat) : Nat := (if m = 0 then 790 else if m = 1 then 710 else 610) + (Config.clusterTrim m).val

/-- The arithmetic clock of a power mode, in MHz (R3). -/
def clusterMhz (m : Nat) : Nat := if m = 0 then 1300 else if m = 1 then 1100 else 850

namespace State

/-! ### Rails (R536) -/

/-- VR_OFF_N driven (R536): low while `off`, which switches every rail off at once. -/
def setVrOff (s : State) (off : Bool) : State :=
  if s.dome.vrOff = off then s
  else { s with dome := { s.dome with vrOff := off, rails := if off then [] else s.dome.rails } }.emit (.pin 1 (b2n (!off)))

/-- Rails enabled in turn over PMBus, each after the one before it reports regulation (R536). -/
def enableRails (s : State) (l : List Nat) : State :=
  l.foldl (fun s a => if s.dome.rails.contains a then s else
    { s with dome := { s.dome with rails := s.dome.rails ++ [a] } }.emit (.pmbus a true)) s

/-- Every rail that is on but those of a list disabled in the reverse order (R536; notes/assumptions/117.md). -/
def disableRails (s : State) (keep : List Nat) : State :=
  (s.dome.rails.reverse.filter (fun a => !keep.contains a)).foldl (fun s a =>
    { s with dome := { s.dome with rails := s.dome.rails.filter (· != a) } }.emit (.pmbus a false)) s

/-- The cluster voltage set over AVSBus (R488). -/
def setVolt (s : State) (mv : Nat) : State := { s with dome := { s.dome with volt := mv } }.emit (.avs mv)

/-- The clock drives of the clusters stepped to a clock (R488, R489). -/
def setClock (s : State) (mhz : Nat) : State := { s with dome := { s.dome with clock := mhz } }

/-! ### Resets -/

/-- The Dome's note of the first-fault record of a killed context, which a wider action that begins keeps and reports (R38). -/
def keepFault (s : State) (p : Nat) : State :=
  if (s.ctxOf p).state = 2 then { s with dome := { s.dome with kept := s.dome.kept.set {} p (s.ctxOf p).firstFault } } else s

/-- The package with every switched domain off and the hub's state lost (R462): what is left are the Dome, the Bolometer, the boot flash and
the contents of attached CXL devices. -/
def powerLost (s : State) : State :=
  let s := (List.range 4).foldl keepFault s
  let status := home .dom 0 0x10
  let s := s.setReg status (putBits (putBits (putBits (s.reg status) 2 1 0) 4 1 0) 5 1 0)
  { State.reset with
    pending := s.pending, free := s.free, nextOp := s.nextOp, out := s.out, flash := s.flash, bol := s.bol
    mem := s.mem.dropIf (fun a => !inCxl a)
    poison := s.poison.dropIf (fun k => !inCxl (k * 32))
    regs := s.regs.dropIf (fun k => !domeKey k)
    latch := s.latch.dropIf (fun k => !domeKey k)
    dome := { s.dome with reqs := s.dome.reqs.filter (fun r => r.who == 4), open_ := [], newMode := none, acts := [], hot := [], limited := [],
                          stretch := [], held := [], powerLimit := false, reports := s.dome.reports.filter (fun r => r.who == 4),
                          draws := [], changes := [] }
    pkg := { time := s.pkg.time, cycles := s.pkg.cycles.dropIf (fun i => i != 73) } }

/-- Whether the Dome runs: it is not held in cold reset (R461, R540). -/
def domeUp (s : State) : Bool := s.dome.boot.stage != 0 || s.dome.boot.cooling

/-- A progress block reports a state, an operation, a position and a total (R11, R12; notes/assumptions/31.md numbers the blocks). -/
def progress (s : State) (n state operation code done total : Nat) : State :=
  ((((s.setReg (home .prog n 0) (state + operation * 16 + code * 65536)).setReg (home .prog n 8) done).setReg (home .prog n 0x10) total)).setReg
    (home .prog n 0x18) (if total = 0 then 0 else 1000 * done / total)

/-- Start-up reports the stages ended (R468): TOTAL is 8 from the moment that it runs (R14). -/
def stageProgress (s : State) (state done : Nat) : State := s.progress 0 state 1 0 done 8

/-- The Dome's watchdog for a housekeeping unit starts again (R36). -/
def kick (s : State) (u : Nat) : State := s.setUnit u { s.unit u with kickAt := s.pkg.time }

/-- A self-test that ends before its time (R12): its block shows FAILED, with a code that the spec does not state. -/
def endSelfTest (s : State) : State :=
  if s.dome.boot.state = 0 && s.dome.boot.stage = 3 then
    let (x, s) := s.draw
    s.progress 1 4 2 (x % 65536) (s.reg (home .prog 1 8)) (s.reg (home .prog 1 0x10))
  else s

/-- A counter of R10 that every DOM_ block holds for itself advanced in each (R503). -/
def bumpDom (s : State) (off n : Nat) : State := (List.range 4).foldl (fun s p => s.bump (home .dom p off) n) s

/-- Start-up begins: stage 1, or a wait for the end of an image write that is under way, during which the START_UP block keeps what it shows
(R15, R468, R476, R480). -/
def beginStart (s : State) : State :=
  let b := s.dome.boot
  let s := s.bumpDom 0x810 1
  let s := { s with dome := { s.dome with boot := { b with state := 0, stage := 1, running := {}, replies := [], trained := [],
                                                            resetWaits := b.update.isSome } } }
  if b.update.isSome then s else s.stageProgress 2 0

/-- The PERST_N outputs of a port's links driven (R540). -/
def drivePerst (s : State) (port mask level : Nat) : State :=
  (List.range 4).foldl (fun s l => if mask.testBit l then s.emit (.pin (0x100 + 4 * port + l) level) else s) s

/-- Every PERST_N held low, from a cold or warm reset until its port is trained (R540). -/
def holdPerst (s : State) : State := (List.range 4).foldl (fun s n => s.drivePerst n 15 0) s

/-- DOM_STATUS.LAST_RESET (R503). -/
def setLastReset (s : State) (cause : Nat) : State := s.setReg (home .dom 0 0x10) (putBits (s.reg (home .dom 0 0x10)) 8 3 cause)

/-- Every domain and rail off, with what a package reset ends in the Dome as well: the challenge and the debug access (R527, R530). -/
def resetPower (s : State) : State :=
  let s := s.endSelfTest.powerLost.disableRails []
  { s with dome := { s.dome with challenge := none, debug := 0 } }

/-- A package warm reset for a reason of DOM_STATUS.LAST_RESET (R435, R462, R503): neighbours are told, except on a trip (R493). -/
def warmReset (s : State) (cause : Nat) : State :=
  let s := if cause = 4 then s else (List.range 8).foldl (fun s g =>
    if (s.port g).state = 2 || (s.port g).state = 3 then s.sendControl g [3 + 5 * 2 ^ 32] else s) s
  (s.resetPower.holdPerst.setLastReset cause).beginStart

/-- The package held in cold reset (R461, R540): the Dome is reset as well; the flash with what an image update has programmed so far, the fuses,
the Bolometer, the record of a begun image write and the levels on the pins are left. -/
def coldReset (s : State) : State :=
  let p := s.powerLost.disableRails []
  let d := s.dome
  let t := { p with
    regs := [], latch := [], pkg := {}
    dome := { fuses := d.fuses, pfw := d.pfw, sag := d.pfw, kept := p.dome.kept, uncalibrated := d.uncalibrated, vrOff := d.vrOff, smb := d.smb,
              boot := { begun := d.boot.begun, refclk := d.boot.refclk, epoch := d.boot.epoch } } }
  if d.pfw then t.setReg (home .dom 0 0x10) 8 else t

end State

end Sys2Proof.Machine
end

