-- ==== Sys2Proof/Machine/Memory.lean ====
section
/-! DEFINITION. Thread faults (R189 to R194), memory operations in flight and what the L2 slices, the HBM controllers and the
cluster-memory banks do with them (R184 to R188, R234 to R254, R260, R261). -/

namespace Sys2Proof.Machine

/-! ### Thread faults -/

/-- The error code of a fault kind (R189). -/
def faultCode (kind : Nat) : Nat := if kind = 1 then 0x0802 else if kind = 9 then 0x0801 else 0x0301

/-- A command number that no command has. -/
def State.noCmd : Nat := 2 ^ 40

/-- The lowest lane of a mask. -/
def lowLane (mask : Nat) : Nat := ((List.range 32).find? (fun l => mask.testBit l)).getD 0

namespace State

/-- A thread fault of the lanes in `mask` of a group (R189 to R194): the unit's first record, the report to the hub of a compute
unit, and no later issue of the group. A housekeeping unit stops, and the Dome performs a package warm reset at once. -/
def threadFault (s : State) (u k kind mask pc addr : Nat) (ctr : Nat := 0) (region : Nat := 0) : State :=
  let p := s.partOfUnit u
  let r : FaultRec :=
    { kind := kind, unit := u, group := k % 32, lane := lowLane mask, context := (p.map s.ctxNum).getD 0, code := faultCode kind,
      lanes := mask, counter := ctr, region := region, pc := pc,
      addr := if kind = 1 || kind = 2 || kind = 8 || kind = 9 then addr % 2 ^ 44 else 0 }
  let x := s.unit u
  let s := if x.fault.kind = 0 then s.setUnit u { x with fault := r } else s
  let s := if (s.grp u k).live then s.setGrp u k { s.grp u k with faulted := true } else s
  match p with
  | some p => s.report p r
  | none => (s.setUnit u { s.unit u with stopped := true }).warmReset 3

/-- Whether what a thread has on its way can still fault it: its group is resident, or has ended while its command is in flight
(notes/assumptions/97.md). -/
def mayFault (s : State) (u k p cmd : Nat) : Bool :=
  (s.grp u k).live || (decide (u < 128) && (s.ctxOf p).state == 1 && cmd != noCmd)

/-! ### Teams and launches -/

/-- The launch of stream `st` with index `idx` still has a team on some cluster. -/
def launchRuns (s : State) (p st idx : Nat) : Bool :=
  s.teams.any (fun e => match e.2 with
    | some t => t.part == p && t.stream == st && t.cmd == idx
    | none => false)

/-- A team whose groups have ended and whose tile and vector instructions have completed ends; the launch's work ends with its
last team, with the first failure code if one was recorded (R142, R171). -/
def checkTeam (s : State) (c : Nat) : State :=
  match s.teams.get none c with
  | none => s
  | some t =>
    if t.live ≠ 0 || t.issued ≠ 0 then s else
    let s := { s with teams := s.teams.set none c none }
    if s.launchRuns t.part t.stream t.cmd then s else
    let code := ((s.cmdOf t.part t.stream t.cmd).bind (fun x => x.notes.head?)).getD 0
    s.endCmd t.part t.stream t.cmd code

/-- The team of cluster `c` changed. -/
def modTeam (s : State) (c : Nat) (f : Team → Team) : State :=
  { s with teams := s.teams.set none c ((s.teams.get none c).map f) }

/-- A group has left its slot: what it still has on its way belongs to no later group of the slot (notes/assumptions/97.md). Its operations
are performed and its signals arrive; its waits have gone. -/
def retire (s : State) (u k : Nat) : State :=
  let ops := s.ops.map (fun (e : Nat × Option MemOp) =>
    (e.1, e.2.map (fun o => if o.unit = u ∧ o.slot = k ∧ o.fromTile = false then { o with slot := k + 0x100000 } else o)))
  let here (m : CtrMsg) : Bool := m.unit == u && m.slot == k && m.agent == u
  let ctrQ := (List.range 4).foldl (fun q r =>
    q.set [] r (((q.get [] r).filter (fun m => !(here m && m.wait.isSome))).map (fun m => if here m then { m with slot := k + 0x100000 } else m)))
    s.ctrQ
  let waits (w : Waiter) : Bool := match w.who with
    | .thread u' k' _ => u' == u && k' == k
    | .command _ _ => false
  let ctrs := (s.ctrs.filter (fun (e : Nat × Ctr) => e.2.waiters.any waits)).foldl (fun (m : SMap Ctr) e =>
    m.modify {} e.1 (fun c => { c with waiters := c.waiters.filter (fun w => !waits w) })) s.ctrs
  { s with ops := ops, ctrQ := ctrQ, ctrs := ctrs }

/-- The launch stops (R142): its groups issue nothing more, its unaccepted tile and vector instructions are discarded, its
first failure code is kept. -/
def stopLaunch (s : State) (p st idx code : Nat) : State :=
  let s := s.failCmd p st idx code
  let mine (x : Grp) : Bool := x.live && x.part == p && x.stream == st && x.cmd == idx
  let s := s.unitsOf p |>.foldl (fun s u =>
    let x := s.unit u
    let tq := x.tileQ.filter (fun t => !(t.stream == st && t.cmd == idx))
    let vq := x.vecQ.filter (fun v => !(v.stream == st && v.cmd == idx))
    let dropped := x.tileQ.length - tq.length + (x.vecQ.length - vq.length)
    let s := s.setUnit u { x with tileQ := tq, vecQ := vq, vecLink := if (x.vecLink.map (fun k => mine (s.grp u k))) = some true then none else x.vecLink }
    let gone := (List.range 32).filter (fun k => mine (s.grp u k))
    let ended := gone.length
    let s := gone.foldl (fun s k => s.retire u k) s
    let s := { s with groups := (List.range 32).foldl (fun m k => if mine (m.get {} (u * 32 + k)) then m.set {} (u * 32 + k) {} else m) s.groups }
    s.modTeam (u / 4) (fun t => { t with live := t.live - ended, issued := t.issued - dropped })) s
  (s.clustersOf p).foldl (fun s c => s.checkTeam c) s

/-! ### Operations in flight -/

/-- The operation with number `id`. -/
def op (s : State) (id : Nat) : Option MemOp := s.ops.get none id

/-- An operation changed. -/
def setOp (s : State) (id : Nat) (o : MemOp) : State := { s with ops := s.ops.set none id (some o) }

/-- An operation has ended. -/
def delOp (s : State) (id : Nat) : State := { s with ops := s.ops.set none id none }

/-- An operation issued: it takes the next number. -/
def addOp (s : State) (o : MemOp) : State :=
  { s with ops := s.ops.set none s.nextOp (some o), nextOp := s.nextOp + 1 }

/-- The operations in flight with their numbers, in issue order. -/
def opList (s : State) : List (Nat × MemOp) := s.ops.filterMap (fun e => e.2.map (fun o => (e.1, o)))

end State

/-- Where the access that holds an LPA begins: 64 bytes of a bank of cluster memory, else a 128-byte line (R234, R237). -/
def accessAt (lpa : Nat) : Nat :=
  match place lpa with
  | .cmem _ _ => lpa / 64 * 64
  | _ => lpa / 128 * 128

/-- An operation as one for each access that its lanes make. -/
def MemOp.accesses (o : MemOp) : List MemOp :=
  (o.lanes.map (fun x => accessAt x.lpa)).eraseDups.map (fun a => { o with lanes := o.lanes.filter (fun x => accessAt x.lpa == a) })

/-- Whether an operation writes at its point. -/
def MemOp.writes (o : MemOp) : Bool :=
  match o.kind with
  | .store | .atomic | .accum => true
  | _ => false

/-- Whether an operation is an acquire (R260). -/
def MemOp.acquires (o : MemOp) : Bool :=
  o.ord && (match o.kind with | .load | .const | .atomic => true | _ => false)

/-- Whether an operation writes registers (R222, R225). -/
def MemOp.hasResult (o : MemOp) : Bool :=
  match o.kind with
  | .load | .const | .atomic => true
  | _ => false

/-- Whether an operation is a release (R260). -/
def MemOp.releases (o : MemOp) : Bool :=
  o.ord && (match o.kind with | .store | .atomic => true | _ => false)

/-- Whether two lanes' parts touch a common byte. -/
def laneMeets (n m : Nat) (x y : LaneOp) : Bool :=
  x.lane == y.lane && decide (x.lpa < y.lpa + m) && decide (y.lpa < x.lpa + n)

/-- Whether operation `o` must wait for the earlier operation `e` of the same group (R260, R261): a thread in both, and, where `e` is still to be
performed, a common byte outside the constant path and prefetches, which delay no load (R243), or a release of `o`, or an acquire of `e`. -/
def mustFollow (e o : MemOp) : Bool :=
  e.unit == o.unit && e.slot == o.slot && e.fromTile == o.fromTile &&
  ((!e.answered && e.kind != .const && o.kind != .const && e.kind != .prefetch && o.kind != .prefetch &&
      e.lanes.any (fun x => o.lanes.any (fun y => e.remote == o.remote && laneMeets e.bytes o.bytes x y)))
   || ((e.acquires || (o.releases && (e.remote.isNone || o.scope == 5))) && e.lanes.any (fun x => o.lanes.any (fun y => x.lane == y.lane))))

namespace State

/-- Whether operation `id` may be performed now: no earlier operation that it must follow is in flight, and, for a release at system
scope, no earlier remote write of its unit (R261). -/
def mayPerform (s : State) (id : Nat) (o : MemOp) : Bool :=
  !(s.opList.any (fun e => decide (e.1 < id) && (mustFollow e.2 o
    || (o.releases && o.scope == 5 && e.2.unit == o.unit && e.2.remote.isSome && e.2.writes))))

/-- The lanes of a group with an operation in flight, as a mask, over the operations that satisfy `f`. -/
def busyLanes (s : State) (u k : Nat) (f : MemOp → Bool) : Nat :=
  s.opList.foldl (fun a e =>
    if e.2.unit = u && e.2.slot = k && !e.2.fromTile && f e.2 then e.2.lanes.foldl (fun a x => a ||| 2 ^ x.lane) a else a) 0

end State

/-- The bytes of an operation's lanes within its 128-byte line, as a mask. -/
def MemOp.byteMask (o : MemOp) : Nat := o.lanes.foldl (fun a x => a ||| Machine.byteMask (x.lpa % 128) o.bytes) 0

/-- A loaded number extended to its registers: sign extension of 8 and 16 bits where SIGNED (R222). -/
def extendLoad (bytes : Nat) (signed : Bool) (v : Nat) : Nat :=
  if signed && bytes ≤ 2 then ofSigned 32 (toSigned (8 * bytes) v) else v

namespace State

/-- The registers of a load's or an atomic's result: 32 bits each, from `dst` upward (R200), in the lane or, for the lowest
lane, in the uniform registers (R206). -/
def deliver (s : State) (u k : Nat) (udst : Bool) (dst bytes lane v : Nat) : State :=
  let g := s.grp u k
  if !g.live then s else
  let n := (bytes + 3) / 4
  let put (f : Nat → Nat → Grp → Grp) : Grp := (List.range n).foldl (fun g i => f (dst + i) (bits v (32 * i) 32) g) g
  if udst then s.setGrp u k (put (fun r x g => g.setU r x))
  else s.setGrp u k (put (fun r x g => g.modThr lane (fun t => if dst = 255 then t else t.setG r x)))

/-- A line enters a unit's L1; at 1,024 lines one of free choice leaves (R167, R187). -/
def installL1 (s : State) (u line : Nat) (data : List Byte) : State :=
  let x := s.unit u
  let l := x.l1.filter (fun c => c.1 ≠ line)
  if l.length < 1024 then s.setUnit u { x with l1 := l ++ [(line, data)] } else
  let (v, s) := s.draw
  s.setUnit u { x with l1 := l.eraseIdx (v % 1024) ++ [(line, data)] }

/-- A line enters a unit's constant cache; at 128 lines one of free choice leaves (R167, R188). -/
def installConst (s : State) (u line : Nat) (data : List Byte) : State :=
  let x := s.unit u
  let l := x.cc.filter (fun c => c.1 ≠ line)
  if l.length < 128 then s.setUnit u { x with cc := l ++ [(line, data)] } else
  let (v, s) := s.draw
  s.setUnit u { x with cc := l.eraseIdx (v % 128) ++ [(line, data)] }

/-- A line that a store or an atomic of the unit touches leaves its L1, and no load on its way installs it (R187). -/
def ownWrite (s : State) (u line : Nat) : State :=
  let x := s.unit u
  let s := s.setUnit u { x with l1 := x.l1.filter (fun c => c.1 != line) }
  { s with ops := s.ops.map (fun e => (e.1, e.2.map (fun o =>
      if o.unit = u && o.line = line && o.remote.isNone then { o with keepL1 := false } else o))) }

/-- The faults found by an instruction's operations: the kind of the lowest faulting lane, the lanes that fault with it, and its PA (R190,
R193). -/
def faultOf (l : List (Nat × Nat × Nat)) : Option (Nat × Nat × Nat) :=
  match l with
  | [] => none
  | x :: l =>
    let low := l.foldl (fun (a b : Nat × Nat × Nat) => if b.1 < a.1 then b else a) x
    some (low.2.1, (x :: l).foldl (fun m e => if e.2.1 = low.2.1 then m ||| 2 ^ e.1 else m) 0, low.2.2)

/-- The values of an operation whose points have been read go to its lanes' registers; of a uniform destination, the first lane's (R206). -/
def deliverOp (s : State) (o : MemOp) : State :=
  (if o.udst then o.lanes.take 1 else o.lanes).foldl (fun s x => s.deliver o.unit o.slot o.udst o.dst o.bytes x.lane x.data) s

/-- Instruction `n` ends once each of its operations with a result has been performed (R190): a fault found by one of them faults the
instruction, which writes nothing; else every lane's registers are written, and an acquire takes effect (R261). -/
def endInstr (s : State) (n : Nat) : State :=
  let mine := (s.opList.filter (fun e => e.2.instr == n && e.2.hasResult))
  if mine.any (fun e => !e.2.answered) then s else
  let s := mine.foldl (fun s e => s.delOp e.1) s
  match mine.head?, faultOf (mine.flatMap (fun e => e.2.faults)) with
  | none, _ => s
  | some (_, o), some (kind, mask, pa) =>
    if s.mayFault o.unit o.slot o.part o.cmd then s.threadFault o.unit o.slot kind mask o.pc pa else s
  | some (_, o), none =>
    let s := mine.foldl (fun s e => s.deliverOp e.2) s
    if o.acquires then s.acquire o.unit o.scope else s

/-- An operation with a result has been performed: its lanes' values and the lanes that found poison are kept for the end of its instruction. -/
def performed (s : State) (id : Nat) (o : MemOp) (value : LaneOp → Nat) (bad : List LaneOp) : State :=
  (s.setOp id { o with lanes := o.lanes.map (fun x => { x with data := value x }), answered := true, filling := false, queued := false,
                       faults := o.faults ++ bad.map (fun x => (x.lane, 9, x.pa)) }).endInstr o.instr

/-- The lanes of an operation that meet a poisoned word (R236, R251). -/
def poisonedLanes (s : State) (o : MemOp) : List LaneOp := o.lanes.filter (fun x => s.poisonedIn x.lpa o.bytes)

/-- Whether a store, an atomic or an accumulate of unit `u` to a line is still on its way to its point. -/
def ownPending (s : State) (u line : Nat) : Bool :=
  s.opList.any (fun e => e.2.unit == u && e.2.line == line && e.2.remote.isNone && e.2.writes && !e.2.answered)

/-- A line leaves a unit's L1. -/
def leaveL1 (s : State) (u line : Nat) : State :=
  let x := s.unit u
  s.setUnit u { x with l1 := x.l1.filter (fun c => c.1 != line) }

/-- What the caches of a unit keep of a line of HBM that a load has been answered from (R187, R188): a whole line without poison enters the cache
that the load goes through, the L1 only while no write of the unit to it is on its way and no acquire has come since; where the L1 does not take
the line, no older copy of it stays (R258, R260). -/
def keepLine (s : State) (o : MemOp) : State :=
  let l := s.line o.line
  let whole := l.valid = 2 ^ 128 - 1 && l.poison = 0
  if o.kind = OpKind.const then (if whole then s.installConst o.unit o.line l.data else s)
  else if whole && o.keepL1 && !s.ownPending o.unit o.line then s.installL1 o.unit o.line l.data
  else s.leaveL1 o.unit o.line

/-- A load is answered from its point (R236, R239): a poisoned word is counted and faults the instruction (R190). -/
def answerLoad (s : State) (id : Nat) (o : MemOp) : State :=
  let bad := s.poisonedLanes o
  let s := match bad, place o.line with
    | [], .hbm => s.keepLine o
    | _ :: _, .hbm | _ :: _, .cxl _ => s.bump (pages .slc o.part (s.sliceOf o.line).1 0x158) 1
    | _, _ => s
  s.performed id o (fun x => extendLoad o.bytes o.signed (s.peekNat x.lpa o.bytes)) bad

/-! ### Atomics (R184 to R186) -/

end State

/-- One atomic step: the operation (R225) on a type, the value found, the operand and the new value of cas. -/
def atomicStep (op ty found b c : Nat) : Nat :=
  let w := if ty = 2 then 64 else 32
  let half (f : Nat → Nat → Nat) : Nat := f (bits found 0 16) (bits b 0 16) + f (bits found 16 16) (bits b 16 16) * 65536
  match op with
  | 0 => if ty = 3 then (fAdd fp32 .rne found b).1 else if ty = 4 then half (fun x y => (fAdd bf16 .rne x y).1)
         else (found + b) % 2 ^ w
  | 1 => if ty = 0 then (if toSigned 32 b < toSigned 32 found then b else found)
         else if ty = 3 then fMin fp32 found b else if ty = 4 then half (fMin bf16) else min found b
  | 2 => if ty = 0 then (if toSigned 32 found < toSigned 32 b then b else found)
         else if ty = 3 then fMax fp32 found b else if ty = 4 then half (fMax bf16) else max found b
  | 3 => found &&& b
  | 4 => found ||| b
  | 5 => found ^^^ b
  | 6 => b
  | _ => if found = b then c else found

/-- Whether an operation exists for a type (R184): and, or and xor have no floating-point form. -/
def atomicAllowed (op ty : Nat) : Bool := !((ty == 3 || ty == 4) && (op == 3 || op == 4 || op == 5))

namespace State

/-- Bytes at their point for a read-modify-write at partition `p`. -/
def putPoint (s : State) (p lpa : Nat) (l : List Byte) : State := s.pokeLine p lpa l

/-- An atomic performed at its location, lanes in ascending order, each receiving the value the lane before it left (R186); the unit's L1 gives up
the line (R187). A poisoned word faults the thread and nothing changes (R251). -/
def doAtomic (s : State) (id : Nat) (o : MemOp) : State :=
  let bad := s.poisonedLanes o
  if !bad.isEmpty then s.performed id o LaneOp.data bad else
  let (s, found) := o.lanes.foldl (fun (a : State × List (Nat × Nat)) x =>
    let found := a.1.peekNat x.lpa o.bytes
    (a.1.putPoint o.part x.lpa (leBytes o.bytes (atomicStep o.aop o.aty found x.data x.data2)), a.2 ++ [(x.lane, found)])) (s, [])
  (s.ownWrite o.unit o.line).performed id o (fun x => ((found.find? (fun e => e.1 == x.lane)).map Prod.snd).getD 0) []

/-- Whether an FP32 code is Inf or NaN. -/
def nonfinite32 (x : Nat) : Bool := bits x 23 8 == 255

/-- An accumulate applied at its line (R241): each addressed word becomes the RNE sum; a poisoned word keeps its poison, drops
its addend and fails the sending command with POISON; words that turn from finite to Inf or NaN are counted. -/
def doAccum (s : State) (id : Nat) (o : MemOp) : State :=
  let s := s.delOp id
  let slice := (s.sliceOf o.line).1
  let atSlice := match place o.line with
    | .hbm | .cxl _ => true
    | _ => false
  let bad := o.lanes.any (fun x => s.poisonedIn x.lpa 4)
  let s := o.lanes.foldl (fun s x =>
    if s.poisonedIn x.lpa 4 then s else
    let old := s.peekNat x.lpa 4
    let new := (fAdd fp32 .rne old x.data).1
    let s := s.putPoint o.part x.lpa (leBytes 4 new)
    if atSlice && !nonfinite32 old && nonfinite32 new then s.bump (pages .slc o.part slice 0x130) 1 else s) s
  let s := (if atSlice then s.bump (pages .slc o.part slice 0x128) 1 else s).ownWrite o.unit o.line
  if bad then s.failCmd o.part o.stream o.cmd 0x0801 else s

/-- The lanes of a store, which of two that meet is last being free (notes/assumptions/14.md). -/
def storeLanes (s : State) (o : MemOp) : List LaneOp × State :=
  let meet := o.lanes.any (fun x => o.lanes.any (fun y => decide (x.lane ≠ y.lane) && decide (x.lpa = y.lpa)))
  if meet then let (v, s) := s.draw; (o.lanes.rotateLeft (v % o.lanes.length), s) else (o.lanes, s)

/-- A store performed at its point (R237, R244); the unit's L1 gives up the line (R187). -/
def doStore (s : State) (id : Nat) (o : MemOp) : State :=
  let (l, s) := (s.delOp id).storeLanes o
  (l.foldl (fun s x => s.putPoint o.part x.lpa (leBytes o.bytes x.data)) s).ownWrite o.unit o.line

/-- A dead hint applied to an unlocked line (R242): invalid at once, without write-back, and recorded. -/
def doDead (s : State) (id : Nat) (o : MemOp) : State :=
  let s := s.delOp id
  match place o.line with
  | .hbm | .cxl _ =>
    let slice := (s.sliceOf o.line).1
    let s := s.setLine o.line {}
    let x := s.slices.get {} slice
    let d := (x.deadList ++ [o.line / 128])
    let s := { s with slices := s.slices.set {} slice { x with deadList := d.drop (d.length - 1024) } }
    s.bump (pages .slc o.part slice 0x138) 1
  | _ => s

/-- Miss entries of a slice in use: operations with a fill outstanding (R243). -/
def missBusy (s : State) (slice : Nat) : Nat :=
  (s.opList.filter (fun e => e.2.filling && (s.sliceOf e.2.line).1 == slice)).length

/-- Whether a fill of the same line is outstanding (R239). -/
def fillOutstanding (s : State) (line : Nat) : Bool := s.opList.any (fun e => e.2.filling && e.2.line == line)

/-- An operation waits at a locked line, in arrival order (R240, R244). -/
def waitLock (s : State) (id : Nat) (o : MemOp) : State :=
  let l := s.line o.line
  (s.setLine o.line { l with waiting := l.waiting ++ [id] }).setOp id { o with queued := true }

/-- Partition `p` has missed in a slice since its last recomputation of shares (R428). -/
def noteMissed (s : State) (p slice : Nat) : State :=
  let x := s.slices.get {} slice
  { s with slices := s.slices.set {} slice { x with missed := x.missed ||| 2 ^ p } }

/-- A miss of the line by partition `p`: the recent-dead list gives up the line and counts it (R242). -/
def noteMiss (s : State) (p line : Nat) : State :=
  let slice := (s.sliceOf line).1
  let s := s.noteMissed p slice
  let x := s.slices.get {} slice
  if x.deadList.contains (line / 128) then
    ({ s with slices := s.slices.set {} slice { x with deadList := x.deadList.erase (line / 128) } }).bump
      (pages .slc p slice 0x140) 1
  else s

/-- Whether every byte that the operation needs is valid in a present line: those it touches or, on the constant path, the whole line, which the
constant cache then holds (R188). -/
def hits (s : State) (o : MemOp) : Bool :=
  let l := s.line o.line
  let m := if o.kind = OpKind.const then 2 ^ 128 - 1 else o.byteMask
  l.present && (l.valid &&& m) == m

/-- An operation whose line is present, unlocked and holds what it needs is performed. -/
def performAtLine (s : State) (id : Nat) (o : MemOp) : State :=
  match o.kind with
  | .load | .const => s.answerLoad id o
  | .store => s.doStore id o
  | .atomic => (s.bump (pages .slc o.part (s.sliceOf o.line).1 0x120) 1).doAtomic id o
  | .accum => s.doAccum id o
  | .dead => s.doDead id o
  | .prefetch => s.delOp id

/-- The order in which what waits at a line is performed once its lock is released: that of arrival, a dead hint behind every queued
read-modify-write (R240, R242, R244). -/
def drainOrder (s : State) (ids : List Nat) : List Nat :=
  let kindOf (i : Nat) : Option OpKind := (s.op i).map MemOp.kind
  let rmw (i : Nat) : Bool := kindOf i == some .atomic || kindOf i == some .accum
  let rest := (ids.reverse.takeWhile (fun i => !rmw i)).reverse
  let (dead, before) := (ids.take (ids.length - rest.length)).partition (fun i => kindOf i == some .dead)
  before ++ dead ++ rest

/-- A load arrives at its slice (R239). -/
def sliceLoad (s : State) (id : Nat) (o : MemOp) : State :=
  let slice := (s.sliceOf o.line).1
  if (s.line o.line).lock.isSome then s.waitLock id o
  else if s.hits o then (s.bump (pages .slc o.part slice 0x100) 1).answerLoad id o
  else if 64 ≤ s.missBusy slice then s else
  match s.allocLine o.part o.line with
  | none => s.noteMissed o.part slice
  | some s' =>
    let dup := s.fillOutstanding o.line
    let s := (s'.bump (pages .slc o.part slice 0x108) 1).noteMiss o.part o.line
    let s := if dup then s.bump (pages .slc o.part slice 0x110) 1 else s
    s.setOp id { o with filling := true }

/-- A store arrives at its slice (R244): written to the line, allocated with only the written bytes valid. -/
def sliceStore (s : State) (id : Nat) (o : MemOp) : State :=
  if (s.line o.line).lock.isSome then s.waitLock id o
  else if (s.allocLine o.part o.line).isNone then s.noteMissed o.part (s.sliceOf o.line).1
  else s.doStore id o

/-- A read-modify-write arrives at its slice (R240): applied at once to a line that holds what it needs, else, once a miss entry is free, the
line is allocated, locked and fetched. -/
def sliceRmw (s : State) (id : Nat) (o : MemOp) : State :=
  let slice := (s.sliceOf o.line).1
  if (s.line o.line).lock.isSome then s.waitLock id o
  else if s.hits o then s.performAtLine id o
  else if 64 ≤ s.missBusy slice then s
  else match s.allocLine o.part o.line with
    | none => s.noteMissed o.part slice
    | some s =>
      let s := s.noteMiss o.part o.line
      (s.setLine o.line { s.line o.line with lock := some id }).setOp id { o with filling := true }

/-- An operation that waited at a line, or arrives there, is performed, or misses (R239, R242, R244). -/
def proceed (s : State) (id : Nat) (o : MemOp) : State :=
  match o.kind with
  | .load | .const => s.sliceLoad id o
  | .store => s.sliceStore id o
  | .atomic | .accum => s.sliceRmw id o
  | .dead => s.doDead id o
  | .prefetch => s.delOp id

/-- The operations that waited at a line whose lock is released proceed: behind a dead hint they miss (R242). -/
def drainLine (s : State) (ids : List Nat) : State :=
  (s.drainOrder ids).foldl (fun s i => match s.op i with
    | some o => (s.setOp i { o with queued := false }).proceed i { o with queued := false }
    | none => s) s

/-- What the ECC of a line's home finds in a read of it (R250, R253). -/
def eccFound (s : State) (line : Nat) (e : Ecc) : State :=
  match place line with
  | .hbm => let ws := s.newPoison line e; (s.hbmFound line e).postPoison line ws
  | .cxl n => s.cxlFound n line e
  | _ => s

/-- A fill returns (R239, R240, R250, R253): only the invalid bytes are written; what sent it is then served. -/
def fillReturn (s : State) (id : Nat) (o : MemOp) (e : Ecc) : State :=
  match s.allocLine o.part o.line with
  | none => s
  | some s =>
    let s := (s.eccFound o.line e).fillLine o.line
    let l := s.line o.line
    let o := { o with filling := false }
    if l.lock = some id then
      let s := s.setLine o.line { l with lock := none, waiting := [] }
      (s.performAtLine id o).drainLine l.waiting
    else s.performAtLine id o

/-- Whether an operation lies at an L2 slice. -/
def atSlice (o : MemOp) : Bool := match place o.line with
  | .hbm | .cxl _ => o.remote.isNone
  | _ => false

/-! ### Reads by other agents (R237, R239, R242, R244) -/

/-- Whether an agent other than a thread may access a line now (R240, R244): it is not locked, and it is present or a way of its set may be
taken. -/
def lineFree (s : State) (p lpa : Nat) : Bool :=
  match place lpa with
  | .hbm | .cxl _ => (s.line lpa).lock.isNone && (s.allocLine p lpa).isSome
  | _ => true

/-- Whether an agent may access every line of `n` bytes at an LPA, or at a PA of partition `p`, now. -/
def linesFree (s : State) (p lpa n : Nat) : Bool :=
  (List.range ((lpa + n - 1) / 128 - lpa / 128 + 1)).all (fun i => s.lineFree p ((lpa / 128 + i) * 128))

/-- The same of `n` bytes at a PA. -/
def paFree (s : State) (p pa n : Nat) : Bool :=
  (List.range ((pa + n - 1) / 128 - pa / 128 + 1)).all (fun i => (s.translate p ((pa / 128 + i) * 128) 0).all (s.lineFree p))

/-- Whether an agent's access to the line at a PA of partition `p` must wait now: for the domain of a cluster while the partition has a
context (R27), or for the line or a way of its set (R240, R244). -/
def lineWaits (s : State) (p pa : Nat) : Bool :=
  match s.translate p pa 0 with
  | none => false
  | some lpa =>
    match place lpa with
    | .cmem c _ => !s.domOn c && s.hasCtx p
    | _ => !s.lineFree p lpa

/-- The same of any line of `n` bytes at a PA. -/
def paWaits (s : State) (p pa n : Nat) : Bool :=
  n != 0 && (List.range ((pa + n - 1) / 128 - pa / 128 + 1)).any (fun i => s.lineWaits p ((pa / 128 + i) * 128))

/-- Whether a slice holds `n` bytes of one line. -/
def lineHeld (s : State) (lpa n : Nat) : Bool :=
  let m := byteMask (lpa % 128) n
  (s.line lpa).present && ((s.line lpa).valid &&& m) == m

/-- A load of a line by an agent of partition `p` that misses: the line is allocated and filled (R237, R239). -/
def agentMiss (s : State) (p lpa : Nat) (e : Ecc) : State :=
  let b := lpa / 128 * 128
  let slice := (s.sliceOf b).1
  match s.allocLine p b with
  | none => s.noteMissed p slice
  | some t =>
    let t := if s.fillOutstanding b then t.bump (pages .slc p slice 0x110) 1 else t
    (((t.bump (pages .slc p slice 0x108) 1).noteMiss p b).eccFound b e).fillLine b

/-- A load of `n` bytes of one line by an agent of partition `p`: a hit or a miss, and a poisoned word counted (R256). -/
def readLine (s : State) (p lpa n : Nat) (e : Ecc := ⟨0, 0⟩) : State :=
  match place lpa with
  | .hbm | .cxl _ =>
    let slice := (s.sliceOf lpa).1
    let s := if s.lineHeld lpa n then s.bump (pages .slc p slice 0x100) 1 else s.agentMiss p lpa e
    if s.poisonedIn lpa n then s.bump (pages .slc p slice 0x158) 1 else s
  | _ => s

/-- A load of `n` bytes at a PA of partition `p` by an agent, line by line. -/
def readPa (s : State) (p pa n : Nat) : State :=
  if n = 0 then s else
  (List.range ((pa + n - 1) / 128 - pa / 128 + 1)).foldl (fun s i =>
    let lo := max pa ((pa / 128 + i) * 128)
    let hi := min (pa + n) ((pa / 128 + i + 1) * 128)
    match s.translate p lo 0 with
    | some lpa => s.readLine p lpa (hi - lo)
    | none => s) s

/-- Whether a record of `n` bytes that a command names, which the partition may read, must wait (R27, R240, R244). -/
def recordWaits (s : State) (p pa n : Nat) : Bool := n != 0 && s.translatesAll p pa n 1 && s.paWaits p pa n

/-- The state once a record of `n` bytes has been read, where the partition may read it: each of its lines is a load at its slice (R237, R239, R298). -/
def fetched (s : State) (p pa n : Nat) : State := if s.translatesAll p pa n 1 then s.readPa p pa n else s

/-- What follows the reading of a record: nothing yet while one of its lines waits, else `f`. -/
def withRecord (s : State) (p pa n : Nat) (f : State → State) : State := if s.recordWaits p pa n then s else f (s.fetched p pa n)

/-- Whether an operation waits to be performed at a slice. -/
def waitsAtSlice (s : State) (id : Nat) (o : MemOp) : Bool :=
  atSlice o && !o.answered && !o.filling && !o.queued && s.mayPerform id o

/-- Whether a miss waits at a set all of whose ways are locked (R240). -/
def lockWaits (s : State) (id : Nat) (o : MemOp) : Bool :=
  s.waitsAtSlice id o && o.kind != OpKind.dead && !(s.line o.line).present && (s.allocLine o.part o.line).isNone

/-- A slice cycle of every miss that waits at a fully locked set (R240, R256). -/
def countLockWaits (s : State) : State :=
  (s.opList.filter (fun e => s.lockWaits e.1 e.2)).foldl (fun s e =>
    s.bump (pages .slc e.2.part (s.sliceOf e.2.line).1 0x148) 1) s

/-- Whether the requests of more than one partition may meet at a slice (R423, R253): a CXL port of its edge die is granted to another partition
than the one that owns the stack. -/
def meets (s : State) (slice : Nat) : Bool :=
  let die := stackOf slice / 3
  s.pcxRole die == 1 && s.cxlPart die != s.partOfStack (stackOf slice)

/-- Whether partition `p` is the one that a slice's request queue serves next, among those with a request that waits (R427). -/
def memTurn (s : State) (slice p : Nat) : Bool :=
  !s.meets slice || (s.turnOrder slice).find? (fun q => q == p || s.opList.any (fun e =>
    e.2.part == q && (s.sliceOf e.2.line).1 == slice && s.waitsAtSlice e.1 e.2)) == some p

/-- A slice's request queue has served a request (R427). -/
def memServed (s : State) (slice : Nat) : State := if s.meets slice then s.charge slice 1 else s

/-- The operation with number `id` if it waits to arrive at a slice and its partition's turn has come. -/
def arriving (s : State) (id : Nat) (kind : OpKind → Bool) : Option MemOp :=
  match s.op id with
  | some o => if kind o.kind && s.waitsAtSlice id o && s.memTurn (s.sliceOf o.line).1 o.part then some o else none
  | none => none

/-- The operation with number `id` served with `f` at its slice, if it is the one to be served; else nothing changes. -/
def atSlices (s : State) (id : Nat) (kind : OpKind → Bool) (f : MemOp → State → State) : State :=
  match s.arriving id kind with
  | some o => f o (s.memServed (s.sliceOf o.line).1)
  | none => s

end State

/-! ### The commands -/

/-- SLICE_LOAD (R239): a load arrives at its slice; another agent's load of a line hits here (one that misses is its HBM_FILL_RETURN). -/
def execSliceLoad (a : LineAccess) (s : State) : Out :=
  match a with
  | .op id => .next (s.atSlices id (fun k => k == .load || k == .const) (fun o s => s.sliceLoad id o))
  | .agent _ p lpa =>
    let b := lpa.toNat / 128 * 128
    .next (if s.lineFree p.val b && s.lineHeld b 128 then s.readLine p.val b 128 else s)

/-- SLICE_STORE (R244). -/
def execSliceStore (id : Nat) (s : State) : Out := .next (s.atSlices id (fun k => k == .store) (fun o s => s.sliceStore id o))

/-- SLICE_ATOMIC (R240). -/
def execSliceAtomic (id : Nat) (s : State) : Out := .next (s.atSlices id (fun k => k == .atomic) (fun o s => s.sliceRmw id o))

/-- SLICE_ACCUMULATE (R241). -/
def execSliceAccumulate (id : Nat) (s : State) : Out := .next (s.atSlices id (fun k => k == .accum) (fun o s => s.sliceRmw id o))

/-- SLICE_DEAD_HINT (R242). -/
def execSliceDeadHint (id : Nat) (s : State) : Out :=
  .next (s.atSlices id (fun k => k == .dead) (fun o s => if (s.line o.line).lock.isSome then s.waitLock id o else s.doDead id o))

/-- SLICE_PREFETCH (R243): an absent line is allocated and fetched; dropped when more than 48 miss entries are occupied; while every way of
the set is locked it waits (R240). -/
def execSlicePrefetch (id : Nat) (s : State) : Out :=
  .next (s.atSlices id (fun k => k == .prefetch) (fun o s =>
    let slice := (s.sliceOf o.line).1
    if (s.line o.line).present then s.delOp id
    else if 48 < s.missBusy slice then (s.delOp id).bump (pages .slc o.part slice 0x150) 1
    else match s.allocLine o.part o.line with
      | none => s.noteMissed o.part slice
      | some s => (s.noteMiss o.part o.line).setOp id { o with filling := true }))

/-- HBM_FILL_RETURN (R239, R250): the fill that an operation waits for returns, or the one that another agent's read of a line caused; `e` is
what the ECC found in the line's words. -/
def execHbmFillReturn (a : LineAccess) (e : Ecc) (s : State) : Out :=
  match a with
  | .op id => match s.op id with
    | some o => if o.filling then .next (s.fillReturn id o e) else .next s
    | none => .next s
  | .agent _ p lpa =>
    let b := lpa.toNat / 128 * 128
    .next (if s.lineFree p.val b && !s.lineHeld b 128 then s.readLine p.val b 128 e else s)

/-- The ECC of a cluster-memory read of a line (R236): bit i of `e` is the i-th 8-byte word of the 128-byte line. -/
def State.cmemEcc (s : State) (c line : Nat) (e : Ecc) : State :=
  let s := s.bump (home .cmem c 0x100) (popcount 16 (e.corr &&& (65535 ^^^ (e.uncorr % 65536))))
  (List.range 16).foldl (fun s i =>
    if e.uncorr.testBit i && !s.cpoison.get false (line / 8 + i) then
      ({ s with cpoison := s.cpoison.set false (line / 8 + i) true } : State).bump (home .cmem c 0x108) 1
    else s) s

/-- The bank of a cluster memory that holds a byte offset of its stride, and the row in it (R234). -/
def cmemBank (off : Nat) : Nat × Nat := (off / 64 % 64, off / 4096)

/-- The ECC of the read of the bank `b` of a line: its eight words; the upper part of the stride holds none (R44, R234). -/
def State.bankEcc (s : State) (c line b : Nat) (e : Ecc) : State :=
  let half := if b % 2 = 0 then 0xFF else 0xFF00
  match place line with
  | .cmem _ off => if off < 0xC00000 then s.cmemEcc c line { corr := e.corr &&& half, uncorr := e.uncorr &&& half } else s
  | _ => s

/-- The port by which an operation reaches the memory of cluster `c` (R40): a unit's own, the array's output port, or the region fabric's. -/
def bankPort (c : Nat) (o : MemOp) : Nat :=
  if o.fromTile then (if o.unit = 256 + c then 5 else 7) else if o.unit / 4 = c then o.unit % 4 else 7

/-- Where an operation accesses a cluster memory: the cluster and the bank; an operation's lanes lie in one bank (R234). -/
def MemOp.bank (o : MemOp) : Option (Nat × Nat) :=
  match place ((o.lanes.head?.map LaneOp.lpa).getD o.line) with
  | .cmem c off => some (c, (cmemBank off).1)
  | _ => none

/-- Whether the port is the next of bank `b` of cluster `c` in round-robin order among those with an access that may be served (R40, R235). -/
def State.bankTurn (s : State) (c b port : Nat) : Bool :=
  let asks (q : Nat) : Bool := q == port || s.opList.any (fun x =>
    x.2.remote.isNone && !x.2.answered && x.2.bank == some (c, b) && bankPort c x.2 == q && s.mayPerform x.1 x.2)
  (List.range 8).find? (fun i => asks ((s.banks.get 7 (64 * c + b) + 1 + i) % 8)) ==
    some ((port + 15 - s.banks.get 7 (64 * c + b)) % 8)

/-- The bank has served a port. -/
def State.bankServed (s : State) (c b port : Nat) : State := { s with banks := s.banks.set 7 (64 * c + b) port }

/-- An operation arrives at its bank (R235, R27): in its turn. An access to a cluster whose domain is off waits while the partition has a
context; without one, reads give zero and writes are discarded. -/
def State.bankAccess (s : State) (id : Nat) (o : MemOp) (e : Ecc) : State :=
  match place o.line, o.bank with
  | .cmem c _, some (_, b) =>
    if o.remote.isSome || o.answered || !s.mayPerform id o || !s.bankTurn c b (bankPort c o) then s
    else if !s.domOn c && s.hasCtx (s.partOfCluster c) then s
    else
      let s := s.bankServed c b (bankPort c o)
      let s := if o.kind == .store || !s.domOn c then s else s.bankEcc c o.line b e
      match o.kind with
      | .load | .const => s.answerLoad id o
      | .store => s.doStore id o
      | .atomic => s.doAtomic id o
      | .accum => s.doAccum id o
      | _ => s.delOp id
  | _, _ => s

/-- CMEM_BANK_ACCESS (R234 to R236): an operation arrives at its bank, or the read of the 64 bytes of a bank by the loader, the vector engine or an
agent outside the cluster, whose step then takes what the ECC leaves. -/
def execCmemBankAccess (a : LineAccess) (e : Ecc) (s : State) : Out :=
  match a with
  | .op id => match s.op id with
    | some o => .next (s.bankAccess id o e)
    | none => .next s
  | .agent port _ lpa => match place lpa.toNat with
    | .cmem c off =>
      let b := (cmemBank off).1
      .next (if s.domOn c && decide (off < 0xC00000) && s.bankTurn c b port.val then
        (s.bankServed c b port.val).bankEcc c (lpa.toNat / 128 * 128) b e else s)
    | _ => .next s

end Sys2Proof.Machine
end

