-- ==== Sys2Proof/Machine/Accum.lean ====
section
/-! DEFINITION. What a launch sends beyond its registers: accumulates, which a redo span stages and an evaluation launch discards
(R98, R311, R342), and counter signals, which a redo span confines to its borrowed counters (R98). -/

namespace Sys2Proof.Machine

namespace State

/-- The open span of the stream of command `idx`, if the command runs inside it (R98). -/
def spanOf (s : State) (p st idx : Nat) : Option Span :=
  match s.cmdOf p st idx with
  | some c => if c.span then (s.str p st).span else none
  | none => none

/-- Whether a command may signal or wait on a counter: outside a span any, inside only the borrowed ones (R98). -/
def mayCount (s : State) (p st idx counter : Nat) : Bool :=
  match s.spanOf p st idx with
  | some x => x.borrowed.any (fun b => b.1 == counter)
  | none => true

/-- Whether a command is an F launch with EVAL set (R342). -/
def isEval (s : State) (p st idx : Nat) : Bool :=
  st == 0 && (match s.cmdOf p st idx with
    | some c => c.op == 0x01 && bit c.slot.toNat 10
    | none => false)

/-- The addends of an operation's lanes as the 32 words of its line. -/
def laneWords (l : List LaneOp) : List Nat :=
  (List.range 32).map (fun i => ((l.find? (fun x => x.lpa % 128 / 4 == i)).map LaneOp.data).getD 0)

/-- The word mask of an operation's lanes. -/
def laneMask (l : List LaneOp) : Nat := l.foldl (fun a x => a ||| 2 ^ (x.lpa % 128 / 4)) 0

/-- One accumulate line leaves its cluster: discarded for an evaluation launch and counted, staged inside a span while there is
room and failing with OBJECT_QUOTA where there is none, else sent to its point. A staged one takes the next 160 bytes of the staging area,
whose bytes the spec does not lay out (notes/assumptions/32.md). R98 speaks of accumulates into the wide buffer; those of a span to any
other line are staged alike (DESIGN CHOICE, notes/assumptions/32.md). -/
def sendAccum (s : State) (o : MemOp) : State :=
  if s.isEval o.part o.stream o.cmd then s.bump (home .str o.part 0x60) 1 else
  match s.spanOf o.part o.stream o.cmd with
  | none => o.accesses.foldl State.addOp s
  | some x =>
    if x.stageCap * 65536 < 160 * (x.staged.length + 1) then s.failCmd o.part o.stream o.cmd 0x0202 else
    let e : Staged := { line := o.line, mask := laneMask o.lanes, words := laneWords o.lanes, part := o.part }
    let (l, s) := s.drawBytes 160
    let s := s.pokePa o.part (x.staging + 160 * x.staged.length) l
    s.setStr o.part o.stream { s.str o.part o.stream with span := some { x with staged := x.staged ++ [e] } }

/-- A message joins those on their way to a region's counter bank. -/
def sendCtr (s : State) (region : Nat) (m : CtrMsg) : State :=
  { s with ctrQ := s.ctrQ.set [] region (s.ctrQ.get [] region ++ [m]) }

/-- A signal of a tile or vector instruction at completion (R119, R155): inside a span a counter that is not borrowed fails the
launch with BAD_COMMAND. -/
def engineSignal (s : State) (agent p st idx counter : Nat) : State :=
  if !s.mayCount p st idx counter then s.failCmd p st idx 0x0102 else
  s.sendCtr (counter / 4096)
    { sigs := [(counter, [(0, 1)])], wait := none, agent := agent, part := p, stream := st, cmd := idx, unit := 0xFF,
      slot := 0, pc := s.slotPa p st idx, scope := 2, seq := s.nextOp }

/-- A tile or vector instruction of a launch ends: its team has one less to wait for. -/
def instrEnded (s : State) (c : Nat) : State := (s.modTeam c (fun t => { t with issued := t.issued - 1 })).checkTeam c

end State

end Sys2Proof.Machine
end

