-- ==== Sys2Proof/Machine/Array.lean ====
section
/-! DEFINITION. The matrix array: the tile descriptor, its checks, the product of a tile instruction and its output routes (R103
to R143), and the rows TILE_ACCEPT and TILE_COMPLETE. The outputs of an instruction are written when it is accepted
(notes/assumptions/9.md). -/

namespace Sys2Proof.Machine

/-! ### The descriptor (R106, R107) -/

/-- Word `w` of a descriptor. -/
def dword (d : List Nat) (w : Nat) : Nat := (d[w]?).getD 0

/-- A field of a descriptor word. -/
def dfield (d : List Nat) (w lo n : Nat) : Nat := bits (dword d w) lo n

/-- The shape and formats of a tile instruction, read from its descriptor. -/
structure TileD where
  mode : Nat
  sparse : Nat
  strict : Bool
  init : Bool
  negA : Bool
  transA : Bool
  transB : Bool
  transC : Bool
  viewA : Nat
  viewB : Nat
  route : Nat
  shift : Nat
  round : Nat
  signal : Bool
  tmask : Bool
  fa : Nat
  ba : Nat
  fb : Nat
  bb : Nat
  fo : Nat
  bo : Nat
  m : Nat
  n : Nat
  k : Nat
  deriving DecidableEq, Repr

/-- The descriptor read (R107, R102). -/
def tileD (d : List Nat) : TileD :=
  { mode := dfield d 0 0 2, sparse := dfield d 0 2 2, strict := bit (dword d 0) 4, init := bit (dword d 0) 5,
    negA := bit (dword d 0) 6, transA := bit (dword d 0) 7, transB := bit (dword d 0) 8, transC := bit (dword d 0) 9,
    viewA := dfield d 0 10 3, viewB := dfield d 0 13 3, route := dfield d 0 16 2, shift := dfield d 0 18 2,
    round := dfield d 0 20 2, signal := bit (dword d 0) 22, tmask := bit (dword d 0) 23,
    fa := dfield d 1 0 4, ba := blockOfCode (dfield d 1 4 2), fb := dfield d 1 8 4, bb := blockOfCode (dfield d 1 12 2),
    fo := dfield d 1 16 4, bo := blockOfCode (dfield d 1 20 2), m := dfield d 2 0 12, n := dfield d 2 12 12, k := dfield d 3 0 16 }

/-- Whether a format code is an Ndoum format. -/
def codeNd (c : Nat) : Bool := decide (8 ≤ c) && decide (c ≤ 12)

/-- The width in bits of an element of a format code. -/
def codeWidth (c : Nat) : Nat := ((fmtOfCode c).map Fmt.width).getD 32

/-- Whether the accumulator of a pairing is INT32 (R113). -/
def TileD.isInt (t : TileD) : Bool := decide (4 ≤ t.fa) && decide (t.fa ≤ 6)

/-- The reserved bits of a descriptor word (R107, R102). Of word 1, whose layout R102 gives as fields and gaps, the gaps are taken as
reserved (notes/assumptions/98.md). -/
def tileReserved : List (Nat × Nat) :=
  [(0, 0xFF000000), (1, 0xFFC0C0C0), (2, 0xFF000000), (3, 0xF0000000), (4, 0xFF000000), (6, 0xFF000000), (7, 0xFF000000),
   (9, 0xFF000000), (10, 0xFF000000), (12, 0xFF000000), (15, 0xFF000000)]

/-- The reserved bits of words 13 and 14: those that no field of the route covers (R107; notes/assumptions/98.md). -/
def tileReservedOut (t : TileD) : List (Nat × Nat) :=
  match t.route with
  | 0 => [(13, 0xFF000000), (14, 0xFF000000)]
  | 1 => [(13, 0xFFFFFFE0), (14, 0xFFFFFFFF)]
  | _ => [(14, 0xFFFFF000)]

/-- Whether both views may read an operand of a format: PLAIN of any but FP32 and INT16, HI and LO of FP32, the bytes of INT16,
RE and IM of FP16, BF16, INT8 and UINT8 (R108, R113). -/
def viewOk (f v : Nat) : Bool :=
  match v with
  | 0 => f != 0 && f != 3 && f != 6 && f != 7 && decide (f < 13)
  | 1 | 2 => f == 0
  | 3 | 4 => f == 6
  | 5 | 6 => f == 1 || f == 2 || f == 4 || f == 5
  | _ => false

/-- The class of an operand for pairing: 0 N8 to N6m, 1 N4, 2 FP16, 3 BF16 or FP32 parts, 4 bytes, 5 INT16 bytes (R113). -/
def pairClass (f : Nat) : Nat :=
  if f = 12 then 1 else if 8 ≤ f then 0 else if f = 1 then 2 else if f = 2 || f = 0 then 3 else if f = 6 then 5 else 4

/-- Whether the array accepts a pairing (R113). -/
def TileD.pairOk (t : TileD) : Bool :=
  let cx (v : Nat) : Bool := v == 5 || v == 6
  viewOk t.fa t.viewA && viewOk t.fb t.viewB && pairClass t.fa == pairClass t.fb
  && (if cx t.viewA || cx t.viewB then cx t.viewA && cx t.viewB && t.fa == t.fb else true)

/-- Whether the output format suits the accumulator and the route (R114): VREG is held to the accumulator's own format
(notes/assumptions/98.md). -/
def TileD.outOk (t : TileD) : Bool :=
  match t.route with
  | 0 => if t.isInt then [7, 6, 4, 5].contains t.fo else [0, 1, 2, 8, 9, 10, 11, 12].contains t.fo
  | 1 => t.fo == (if t.isInt then 7 else 0)
  | _ => !t.isInt && t.fo == 0

/-- The depth of one fill in dense k positions (R105), or the k limit of an O-mode stream or of a finder window. -/
def TileD.depth (t : TileD) : Nat :=
  let n4 := if t.fa = 12 then 2 else 1
  if t.sparse = 2 then 4096 else
  match t.mode with
  | 1 => 128 * n4 * (if t.sparse = 1 then 2 else 1)
  | 2 => 16384 * n4
  | _ => 512 * n4 * (if t.sparse = 1 then 2 else 1)

/-- The limits on M and N (R103). -/
def TileD.limits (t : TileD) : Nat × Nat :=
  match t.mode with
  | 1 => (2048, 512)
  | 2 => (128, 512)
  | _ => (128, 2048)

/-- The larger block size that K must be a multiple of (R112). -/
def TileD.kBlock (t : TileD) : Nat := max (if codeNd t.fa then t.ba else 1) (if codeNd t.fb then t.bb else 1)

/-! ### Where operands lie (R110, R111, R129, R134) -/

/-- Bytes of `n` packed elements. -/
def packedBytes (w n : Nat) : Nat := (n * w + 7) / 8

/-- `n` rounded up to 16. -/
def up16 (n : Nat) : Nat := (n + 15) / 16 * 16

/-- Elements per stored position: two for a complex operand (R108). -/
def cxFactor (v : Nat) : Nat := if v = 5 || v = 6 then 2 else 1

/-- The cluster-memory ranges of a plane of rows: base, row stride, rows, bytes of a row. -/
def planeRange (base stride rows row : Nat) : Nat × Nat := (base, (rows - 1) * stride + row)

/-- Values and metadata of a 2:4 tile (R129): row bytes of the value plane and of the metadata plane. -/
def sparseRows (w k : Nat) : Nat × Nat := (up16 (packedBytes w (k / 2)), up16 ((k / 4 + 1) / 2))

/-- The scale row stride of an Ndoum output in bytes (R111), as a quotient and a remainder. -/
def outScaleStride (w b stride : Nat) : Nat × Nat := (stride * 128 / (w * b), stride * 128 % (w * b))

/-- The scale-plane range of an Ndoum operand whose k runs along rows or down columns (R111). -/
def scaleRange (base stride k block other : Nat) (along : Bool) : Nat × Nat :=
  if along then planeRange base stride other (k / block) else planeRange base stride (k / block) other

/-- The ranges that a tile instruction reads, as offset and length with the descriptor word that places them; `e` is the finder's
entry count. -/
def TileD.reads (t : TileD) (d : List Nat) (e : Nat) : List (Nat × Nat × Nat) :=
  let wa := codeWidth t.fa
  let wb := codeWidth t.fb
  let strideA := dfield d 5 0 16 * 16
  let strideB := dfield d 8 0 16 * 16
  let a0 := dfield d 4 0 24
  let b0 := dfield d 7 0 24
  let sp (base w outer : Nat) : Nat × Nat :=
    let (v, m) := sparseRows w t.k
    (base, 64 + outer * v + outer * m)
  let a : Nat × Nat :=
    if t.sparse = 2 then (a0, packedBytes wa e)
    else if t.sparse = 1 && t.mode = 3 then sp a0 wa t.m
    else if t.transA then planeRange a0 strideA t.k (packedBytes wa (t.m * cxFactor t.viewA))
    else planeRange a0 strideA t.m (packedBytes wa (t.k * cxFactor t.viewA))
  let b : Nat × Nat :=
    if t.sparse = 1 && t.mode = 1 then sp b0 wb t.n
    else if t.transB then planeRange b0 strideB t.n (packedBytes wb (t.k * cxFactor t.viewB))
    else planeRange b0 strideB t.k (packedBytes wb (t.n * cxFactor t.viewB))
  let sa : List ((Nat × Nat) × Nat) := if codeNd t.fa then
      [(scaleRange (dfield d 6 0 24) (dfield d 5 16 16) t.k t.ba t.m (!t.transA), 6)] else []
  let sb : List ((Nat × Nat) × Nat) := if codeNd t.fb then
      [(scaleRange (dfield d 9 0 24) (dfield d 8 16 16) t.k t.bb t.n t.transB, 9)] else []
  let rows := if t.transC then t.n else t.m
  let cols := if t.transC then t.m else t.n
  let ci : List ((Nat × Nat) × Nat) := if t.init then [(planeRange (dfield d 12 0 24) (dfield d 11 0 16 * 16) rows (4 * cols), 12)] else []
  let me : List ((Nat × Nat) × Nat) := if t.sparse = 2 then [((dfield d 10 0 24, 16 + 4 * (t.m + 1) + 2 * e), 10)] else []
  let tm : List ((Nat × Nat) × Nat) := if t.tmask then
      [((dfield d 15 0 24, up16 (dfield d 15 0 24 + (t.m + 7) / 8) - dfield d 15 0 24 + (t.n + 7) / 8), 15)] else []
  ([((a, 4) : (Nat × Nat) × Nat), (b, 7)] ++ sa ++ sb ++ ci ++ me ++ tm).map (fun x => (x.1.1, x.1.2, x.2))

/-- The rows of a plane: offset and length of each, with a descriptor word. -/
def planeRows (base stride row w : Nat) (rows : List Nat) : List (Nat × Nat × Nat) := rows.map (fun r => (base + r * stride, row, w))

/-- The bytes that the loader reads, row by row, with the descriptor word that places them: of B on the finder's sparse path only the
rows that `marks` gives (R136). `e` is the finder's entry count. -/
def TileD.touches (t : TileD) (d : List Nat) (e : Nat) (marks : Option (List Nat)) : List (Nat × Nat × Nat) :=
  let plane (a f view stride : Nat) (trans : Bool) (inner : Nat) (ks : List Nat) : List (Nat × Nat × Nat) :=
    let w := codeWidth f
    if trans then planeRows (dfield d a 0 24) stride (packedBytes w (t.k * cxFactor view)) a (List.range inner)
    else planeRows (dfield d a 0 24) stride (packedBytes w (inner * cxFactor view)) a ks
  let scales (a stride block other : Nat) (along : Bool) : List (Nat × Nat × Nat) :=
    if along then planeRows (dfield d a 0 24) stride (t.k / block) a (List.range other)
    else planeRows (dfield d a 0 24) stride other a (List.range (t.k / block))
  let whole := t.reads d e
  let packed (a : Nat) : List (Nat × Nat × Nat) := whole.filter (fun r => r.2.2 == a)
  let la := if t.sparse = 2 || (t.sparse = 1 && t.mode = 3) then packed 4
    else plane 4 t.fa t.viewA (dfield d 5 0 16 * 16) (!t.transA) t.m (List.range t.k)
  let lb := if t.sparse = 1 && t.mode = 1 then packed 7
    else plane 7 t.fb t.viewB (dfield d 8 0 16 * 16) t.transB t.n (marks.getD (List.range t.k))
  let sa := if codeNd t.fa then scales 6 (dfield d 5 16 16) t.ba t.m (!t.transA) else []
  let sb := if codeNd t.fb then scales 9 (dfield d 8 16 16) t.bb t.n t.transB else []
  let rows := if t.transC then t.n else t.m
  let cols := if t.transC then t.m else t.n
  let ci := if t.init then planeRows (dfield d 12 0 24) (dfield d 11 0 16 * 16) (4 * cols) 12 (List.range rows) else []
  la ++ lb ++ sa ++ sb ++ ci ++ packed 10 ++ packed 15

/-- The ranges of cluster memory that a tile instruction writes. -/
def TileD.writes (t : TileD) (d : List Nat) : List (Nat × Nat × Nat) :=
  if t.route ≠ 0 then [] else
  let w := codeWidth t.fo
  let rows := if t.transC then t.n else t.m
  let cols := if t.transC then t.m else t.n
  let stride := dfield d 11 0 16
  if codeNd t.fo then
    let blocks := (cols + t.bo - 1) / t.bo
    let (r, l) := planeRange (dfield d 13 0 24) (stride * 16) rows (packedBytes w (blocks * t.bo))
    let (r', l') := planeRange (dfield d 14 0 24) (outScaleStride w t.bo stride).1 rows blocks
    [(r, l, 13), (r', l', 14)]
  else let (r, l) := planeRange (dfield d 13 0 24) (stride * 16) rows (packedBytes w cols); [(r, l, 13)]

/-! ### Values -/

/-- What an array element is: an exact value or an integer. -/
abbrev Cell := Fv × Int

/-- The value that an operand's element gives the multiplier under its view (R108), from its stored code. -/
def viewValue (f view code : Nat) : Cell :=
  match f with
  | 0 => let (hi, lo) := f32x3Split code; (decodeFp bf16 (if view = 1 then hi else lo), 0)
  | 6 => (Fv.fin false 0 0, if view = 3 then int16Hi code else int16Lo code)
  | 4 => (Fv.fin false 0 0, toSigned 8 code)
  | 5 => (Fv.fin false 0 0, (code % 256 : Nat))
  | _ => match fmtOfCode f with
    | some x => (decodeElem x code, 0)
    | none => (Fv.nan, 0)

/-- The position of an element among the stored ones of its row under a complex view (R108). -/
def viewIndex (view j : Nat) : Nat := if view = 5 then 2 * j else if view = 6 then 2 * j + 1 else j

namespace State

/-- The LPA of a cluster-memory offset (R31, R43). -/
def cmemLpa (c off : Nat) : Nat := 0xE0000000000 + c * 0x1000000 + off

/-- A byte of a cluster's memory. -/
def cbyte (s : State) (c off : Nat) : Nat := (s.peek (cmemLpa c off)).toNat

/-- 32 bits of a cluster's memory. -/
def cword (s : State) (c off : Nat) : Nat := s.peekNat (cmemLpa c off) 4

/-- Whether any word of a range of a cluster's memory is poisoned. -/
def cpoisoned (s : State) (c off len : Nat) : Bool :=
  s.cpoison.any (fun e => e.2 && decide (cmemLpa c off / 8 ≤ e.1) && decide (e.1 ≤ (cmemLpa c off + len - 1) / 8) && decide (0 < len))

/-- The code of element `j` of the row at `off` of a packed plane. -/
def planeAt (s : State) (c off w j : Nat) : Nat := planeElem w j (fun i => s.cbyte c (off + i))

/-- A element (m, k) as stored (R110). -/
def elemA (s : State) (c : Nat) (d : List Nat) (t : TileD) (m k : Nat) : Cell :=
  let (r, j) := if t.transA then (k, m) else (m, k)
  viewValue t.fa t.viewA (s.planeAt c (dfield d 4 0 24 + r * (dfield d 5 0 16 * 16)) (codeWidth t.fa) (viewIndex t.viewA j))

/-- B element (k, n) as stored (R110). -/
def elemB (s : State) (c : Nat) (d : List Nat) (t : TileD) (k n : Nat) : Cell :=
  let (r, j) := if t.transB then (n, k) else (k, n)
  viewValue t.fb t.viewB (s.planeAt c (dfield d 7 0 24 + r * (dfield d 8 0 16 * 16)) (codeWidth t.fb) (viewIndex t.viewB j))

/-- The scale byte of block `b` of A row `m` (R111). -/
def scaleA (s : State) (c : Nat) (d : List Nat) (t : TileD) (m b : Nat) : Nat :=
  s.cbyte c (dfield d 6 0 24 + (if t.transA then b * dfield d 5 16 16 + m else m * dfield d 5 16 16 + b))

/-- The scale byte of block `b` of B column `n` (R111). -/
def scaleB (s : State) (c : Nat) (d : List Nat) (t : TileD) (n b : Nat) : Nat :=
  s.cbyte c (dfield d 9 0 24 + (if t.transB then n * dfield d 8 16 16 + b else b * dfield d 8 16 16 + n))

/-- The nibble of group `g` of outer index `o` of a 2:4 tile at `base` (R129): the 16-byte boundary at which the metadata plane begins is counted from the
header (DESIGN CHOICE, notes/assumptions/132.md). -/
def nibble (s : State) (c base w k outer o g : Nat) : Nat :=
  let (v, m) := sparseRows w k
  bits (s.cbyte c (base + 64 + outer * v + o * m + g / 2)) (4 * (g % 2)) 4

/-- The present positions of outer index `o` of a 2:4 tile, with their values (R128, R129). -/
def sparseRow (s : State) (c base f k outer o : Nat) : List (Nat × Cell) :=
  let w := codeWidth f
  let v := (sparseRows w k).1
  ((List.range (k / 4)).map (fun g =>
    let nb := s.nibble c base w k outer o g
    [(4 * g + nb % 4, viewValue f 0 (s.planeAt c (base + 64 + o * v) w (2 * g))),
     (4 * g + nb / 4, viewValue f 0 (s.planeAt c (base + 64 + o * v) w (2 * g + 1)))])).flatten

/-! ### The finder (R134 to R136) -/

/-- Row pointer `i` of the finder metadata. -/
def rowPtr (s : State) (c : Nat) (d : List Nat) (i : Nat) : Nat := s.cword c (dfield d 10 0 24 + 16 + 4 * i)

/-- Index `i` of the finder metadata. -/
def finderIndex (s : State) (c : Nat) (d : List Nat) (m i : Nat) : Nat :=
  s.peekNat (cmemLpa c (dfield d 10 0 24 + 16 + 4 * (m + 1) + 2 * i)) 2

/-- The entries of finder row `i`: index and entry number. -/
def finderRow (s : State) (c : Nat) (d : List Nat) (m i : Nat) : List (Nat × Nat) :=
  let lo := s.rowPtr c d i
  ((List.range (s.rowPtr c d (i + 1) - lo)).map (fun j => (s.finderIndex c d m (lo + j), lo + j)))

/-- Whether the finder metadata are well formed: pointers from 0 to E that never fall, indices strictly rising in each row. -/
def finderOk (s : State) (c : Nat) (d : List Nat) (t : TileD) (e : Nat) : Bool :=
  let m := t.m
  let rising (l : List Nat) : Bool := (l.zip (l.drop 1)).all (fun p => decide (p.1 < p.2))
  s.rowPtr c d 0 == 0 && s.rowPtr c d m == e && bits (s.cword c (dfield d 10 0 24 + 4)) 0 16 == m
  && (List.range m).all (fun i => decide (s.rowPtr c d i ≤ s.rowPtr c d (i + 1)))
  && (List.range m).all (fun i => rising ((s.finderRow c d m i).map Prod.fst))

/-- The scan of the E indices (R135): the marked positions below K in ascending order, and how many entries lie outside the window. -/
def finderMarks (s : State) (c : Nat) (d : List Nat) (t : TileD) : List Nat × Nat :=
  let all := (List.range (s.cword c (dfield d 10 0 24))).map (s.finderIndex c d t.m)
  ((List.range t.k).filter (fun k => all.contains k), (all.filter (fun k => decide (t.k ≤ k))).length)

/-- Whether the sparse path is taken for U marked indices (R136). -/
def finderSparse (s : State) (c : Nat) (t : TileD) (u : Nat) : Bool :=
  decide (128 < t.k) || decide (u * 1024 ≤ bits (s.reg (home .arr c 0x14)) 0 11 * t.k)

/-! ### Products -/

end State

/-- The operands of one output: the positions of k present, in ascending order, with both values. -/
abbrev Pairs := List (Nat × Cell × Cell)

/-- The accumulator of one output: FP32 or INT32 bits and the flags raised (R84 to R91). `sa` and `sb` give the scale bytes of
the blocks. A segment with no position present adds +0, or NaN where a block is non-finite (notes/assumptions/98.md). -/
def tileDot (t : TileD) (init : Nat) (sa sb : Nat → Nat) (ps : Pairs) : Nat × Nat :=
  if t.isInt then
    ps.foldl (fun a p => accInt a (p.2.1.2 * p.2.2.2 * (256 ^ t.shift : Nat))) (init, 0)
  else if codeNd t.fa then
    let g := min t.ba t.bb
    dot87 (init, 0) ((List.range (t.k / g)).map (fun i =>
      { sa := sa (i * g / t.ba), sb := sb (i * g / t.bb),
        ps := (ps.filter (fun p => decide (i * g ≤ p.1) && decide (p.1 < (i + 1) * g))).map (fun p => (p.2.1.1, p.2.2.1)) }))
  else dot85 (init, 0) (ps.map (fun p => (p.2.1.1, p.2.2.1)))

/-- A negated operand where NEG_A is set (R107). -/
def negCell (neg : Bool) (x : Cell) : Cell := if neg then (x.1.negate, -x.2) else x

namespace State

/-- The result C[m, n] of a tile instruction: its bits and flags. -/
def tileOut (s : State) (c : Nat) (d : List Nat) (t : TileD) (m n : Nat) : Nat × Nat :=
  let init := if t.init then
      let (r, j) := if t.transC then (n, m) else (m, n)
      s.cword c (dfield d 12 0 24 + r * (dfield d 11 0 16 * 16) + 4 * j)
    else 0
  let ps : Pairs :=
    if t.sparse = 2 then
      (s.finderRow c d t.m m).filterMap (fun e =>
        if e.1 < t.k then
          some (e.1, viewValue t.fa 0 (s.planeAt c (dfield d 4 0 24) (codeWidth t.fa) e.2), s.elemB c d t e.1 n)
        else none)
    else if t.sparse = 1 && t.mode = 1 then
      (s.sparseRow c (dfield d 7 0 24) t.fb t.k t.n n).map (fun e => (e.1, s.elemA c d t m e.1, e.2))
    else if t.sparse = 1 then
      (s.sparseRow c (dfield d 4 0 24) t.fa t.k t.m m).map (fun e => (e.1, e.2, s.elemB c d t e.1 n))
    else (List.range t.k).map (fun k => (k, s.elemA c d t m k, s.elemB c d t k n))
  tileDot t init (s.scaleA c d t m) (s.scaleB c d t n) (ps.map (fun p => (p.1, negCell t.negA p.2.1, p.2.2)))

/-! ### Checks (R141) -/

/-- A check that fails: its code and the descriptor word that holds the failing field. -/
abbrev Bad := Option (Nat × Nat)

/-- The first failing check of a list. -/
def firstBad (l : List (Bool × Nat × Nat)) : Bad := (l.find? (fun x => x.1)).map Prod.snd

/-- The checks of the fields (R141, first two rows, then pairing, shape and ranges). What R128 and R134 ask of TRANS, VIEW and K is judged
with the shape (notes/assumptions/98.md). Where no one word holds what fails, ARR_LAST_ERROR.WORD is 0 for a bad descriptor base and 1 for a pairing or
a view (DESIGN CHOICE, notes/assumptions/134.md). -/
def tileStatic (d : List Nat) (t : TileD) : Bad :=
  if d.isEmpty then some (0x0102, 0) else
  let nb : Nat × Nat := (0x0102, 0)
  let (mx, nx) := t.limits
  firstBad [
    (t.mode == 0 || t.sparse == 3 || t.route == 3 || t.shift == 3 || t.viewA == 7 || t.viewB == 7 || t.round == 3, nb),
    (decide (13 < t.fa) || decide (13 < t.fb) || decide (13 < t.fo), (0x0102, 1)),
    ((tileReserved ++ tileReservedOut t).any (fun r => (dword d r.1 &&& r.2) != 0),
      (0x0102, (((tileReserved ++ tileReservedOut t).find? (fun r => (dword d r.1 &&& r.2) != 0)).map Prod.fst).getD 0)),
    (!t.pairOk || !t.outOk, (0x0401, 1)),
    ((t.shift != 0 && !t.isInt) || (t.tmask && t.route != 2), (0x0401, 0)),
    (t.m == 0 || t.n == 0 || decide (mx < t.m) || decide (nx < t.n), (0x0401, 2)),
    (t.k == 0 || decide (t.depth < t.k) || decide (t.k % t.kBlock ≠ 0), (0x0401, 3)),
    ((t.sparse == 1 && t.mode == 2) || (t.sparse == 2 && t.mode != 1), (0x0401, 0)),
    ((t.sparse == 1 && (t.k % 4 != 0 || (if t.mode = 1 then t.transB || t.viewB != 0 else t.transA || t.viewA != 0)))
      || (t.sparse == 2 && (t.viewA != 0 || t.transA || t.transB)), (0x0401, 0)),
    (t.route == 0 && codeNd t.fo && (outScaleStride (codeWidth t.fo) t.bo (dfield d 11 0 16)).2 != 0, (0x0401, 11))]

/-- A range that leaves the 12 MiB of cluster memory. -/
def tileRange (l : List (Nat × Nat × Nat)) : Bad :=
  (l.find? (fun r => decide (0xC00000 < r.1 + r.2.1))).map (fun r => (0x0401, r.2.2))

/-- The header of the compressed operand agrees with the descriptor (R133). -/
def headerBad (s : State) (c : Nat) (d : List Nat) (t : TileD) : Bad :=
  if t.sparse ≠ 1 then none else
  let (base, w, f, outer) := if t.mode = 1 then (dfield d 7 0 24, 7, t.fb, t.n) else (dfield d 4 0 24, 4, t.fa, t.m)
  let h := s.cword c base
  let h4 := s.cword c (base + 4)
  if bit h 0 || bits h 2 2 != t.mode || bits h 4 4 != f || bits h4 0 16 != t.k || bits h4 16 16 != outer
  then some (0x0401, w) else none

/-- A nibble of the compressed operand is malformed (R130). -/
def nibbleBad (s : State) (c : Nat) (d : List Nat) (t : TileD) : Bad :=
  if t.sparse ≠ 1 then none else
  let (base, w, f, outer) := if t.mode = 1 then (dfield d 7 0 24, 7, t.fb, t.n) else (dfield d 4 0 24, 4, t.fa, t.m)
  if (List.range outer).any (fun o => (List.range (t.k / 4)).any (fun g =>
      let nb := s.nibble c base (codeWidth f) t.k outer o g
      decide (nb / 4 ≤ nb % 4))) then some (0x0402, w) else none

/-- The PA of the accumulate word of storage row `r` and column `j` (R127). -/
def accumPa (d : List Nat) (r j : Nat) : Nat :=
  dword d 13 + dfield d 14 0 12 * 2 ^ 32 + r * (dfield d 11 0 16 * 16) + 4 * j

/-- Whether a result is sent under the trainable mask (R127). -/
def maskSends (s : State) (c : Nat) (d : List Nat) (t : TileD) (i j : Nat) : Bool :=
  if !t.tmask then true else
  let a := dfield d 15 0 24
  let b := up16 (a + (t.m + 7) / 8)
  bit (s.cbyte c (a + i / 8)) (i % 8) && bit (s.cbyte c (b + j / 8)) (j % 8)

/-- The accumulate lines of an instruction in the order of R127: the line's PA, and the storage rows and columns it receives. A line to which the mask
lets nothing through is not among them, and R141 does not check it (DESIGN CHOICE, notes/assumptions/133.md). -/
def accumLines (s : State) (c : Nat) (d : List Nat) (t : TileD) : List (Nat × List (Nat × Nat)) :=
  let rows := if t.transC then t.n else t.m
  let cols := if t.transC then t.m else t.n
  ((List.range rows).map (fun r =>
    let sent := (List.range cols).filter (fun j => if t.transC then s.maskSends c d t j r else s.maskSends c d t r j)
    let step (acc : List (Nat × List (Nat × Nat))) (j : Nat) : List (Nat × List (Nat × Nat)) :=
      let line := accumPa d r j / 128 * 128
      match acc with
      | (l, ws) :: rest => if l = line then (l, ws ++ [(r, j)]) :: rest else (line, [(r, j)]) :: acc
      | [] => [(line, [(r, j)])]
    (sent.foldl step []).reverse)).flatten

/-- A line of the accumulate target that is not translated with permission A, or lies where nothing accumulates (R56, R185;
notes/assumptions/98.md). -/
def accumBad (s : State) (p : Nat) (ls : List (Nat × List (Nat × Nat))) : Bad :=
  if ls.all (fun l => match s.translate p l.1 8 with
    | some lpa => (match place lpa with
      | .control | .reserved => false
      | _ => true)
    | none => false) then none else some (0x0802, 13)

/-- The first failing check of a tile instruction (R141). Poisoned data that the loader reads come after the checks of the fields and
ranges and before those of what it read (R143; notes/assumptions/98.md). -/
def tileCheck (s : State) (c p : Nat) (d : List Nat) (t : TileD) : Bad :=
  let e := if t.sparse = 2 then s.cword c (dfield d 10 0 24) else 0
  let reads := t.reads d e
  let dyn (_ : Unit) : Bad :=
    let (ks, out) := if t.sparse = 2 then s.finderMarks c d t else ([], 0)
    let u := ks.length
    let gathers := t.sparse == 2 && s.finderSparse c t u
    match (t.touches d e (if gathers then some ks else none)).find? (fun r => s.cpoisoned c r.1 r.2.1) with
    | some r => some (0x0801, r.2.2)
    | none =>
    match s.headerBad c d t with
    | some b => some b
    | none =>
      let lim := if t.fa = 12 then 256 else 128
      if gathers && decide (lim < u) then some (0x0401, 10) else
      match s.nibbleBad c d t with
      | some b => some b
      | none =>
        if t.sparse == 2 && !s.finderOk c d t e then some (0x0402, 10)
        else if t.sparse == 2 && t.strict && out != 0 then some (0x0403, 10)
        else if t.route = 2 then s.accumBad p (s.accumLines c d t) else none
  tileStatic d t <|> tileRange (reads ++ t.writes d) <|> dyn ()

/-! ### Output routes (R125 to R127) -/

/-- Bytes written to a cluster's memory. -/
def cpoke (s : State) (p c off : Nat) (l : List Byte) : State := s.poke p (cmemLpa c off) l

/-- The SR element index of storage row `r` and column `j`, whose bits [63:48] are zero (R109). -/
def outIndex (d : List Nat) (w r j : Nat) : Nat :=
  (dword d 19 + dfield d 11 16 16 * 2 ^ 32 + r * (dfield d 11 0 16 * 128 / w) + j) % 2 ^ 48

/-- The rounding of an output element (R74, R80, R109). -/
def outRm (d : List Nat) (t : TileD) (r j : Nat) : Rm :=
  (rmOfCode t.round (srBits (dword d 17 + dword d 18 * 2 ^ 32) (dword d 16) (outIndex d (codeWidth t.fo) r j))).getD .rne

/-- A collimator block's outcome counted (R78). -/
def countBlock (s : State) (c : Nat) (o : BlockOutcome) : State :=
  match o with
  | .plain => s
  | .saturated => s.bump (home .arr c 0x148) 1
  | .flushed => s.bump (home .arr c 0x150) 1
  | .nonfinite => s.bump (home .arr c 0x158) 1

end State

/-- A row of FP32 values cut into blocks and collimated (R75, R76): scale bytes, element codes, outcomes. -/
def collimateRow (f : FpFmt) (b : Nat) (rm : Nat → Rm) (l : List Nat) : List Nat × List Nat × List BlockOutcome :=
  let blocks := (List.range ((l.length + b - 1) / b)).map (fun i =>
    let x := (l.drop (i * b)).take b
    collimate f (fun j => rm (i * b + j)) (x ++ List.replicate (b - x.length) 0))
  (blocks.map (fun x => x.1), (blocks.map (fun x => x.2.1)).flatten, blocks.map (fun x => x.2.2))

namespace State

/-- One storage row written to cluster memory through the collimator (R114, R125): the state and the flags. -/
def writeRow (s : State) (p c : Nat) (d : List Nat) (t : TileD) (r : Nat) (l : List Nat) : State × Nat :=
  let w := codeWidth t.fo
  let off := dfield d 13 0 24 + r * (dfield d 11 0 16 * 16)
  match fmtOfCode t.fo with
  | some (.nd f) =>
    let (sc, el, os) := collimateRow f t.bo (outRm d t r) l
    let s := s.cpoke p c off (packElems w el)
    let s := s.cpoke p c (dfield d 14 0 24 + r * (outScaleStride w t.bo (dfield d 11 0 16)).1) (sc.map (BitVec.ofNat 8))
    (os.foldl (fun s o => s.countBlock c o) s, os.foldl (fun a o => a ||| o.flags) 0)
  | some fo =>
    let src : Fmt := if t.isInt then .int 32 true else .fp fp32
    let xs := l.zipIdx.map (fun q => convert src fo (outRm d t r q.2) q.1)
    (s.cpoke p c off (packElems w (xs.map Prod.fst)), xs.foldl (fun a x => a ||| x.2) 0)
  | none => (s, 0)

/-- The results of an instruction by row and column, each computed once. -/
def tileMatrix (s : State) (c : Nat) (d : List Nat) (t : TileD) : List (List (Nat × Nat)) :=
  (List.range t.m).map (fun m => (List.range t.n).map (fun n => s.tileOut c d t m n))

/-- The images of an instruction for the vector engine, in delivery order (R126, R153); a NaN accumulator goes as the canonical NaN, as by any route
(R114). -/
def portImages (t : TileD) (id reg : Nat) (m : List (List (Nat × Nat))) : List PortImage :=
  let at_ (i j : Nat) : Nat :=
    let x := ((((m[i]?).getD [])[j]?).map Prod.fst).getD 0
    if t.isInt then x else canonical fp32 x
  if t.mode = 3 then
    (List.range ((t.n + 3) / 4)).map (fun k =>
      { id := id, reg := reg,
        lanes := ((List.range 4).map (fun q => if 4 * k + q < t.n then
          (List.range t.m).map (fun i => (128 * q + i, at_ i (4 * k + q))) else [])).flatten })
  else (List.range t.m).map (fun i => { id := id, reg := reg, lanes := (List.range t.n).map (fun j => (j, at_ i j)) })

/-- An accumulate of one line on its way (R127), in the order in which the instruction sends it. -/
def accumOp (c p : Nat) (r : TileRun) (lpa pa : Nat) (l : List LaneOp) : MemOp :=
  { kind := .accum, unit := 256 + c, slot := 0, part := p, stream := r.stream, cmd := r.cmd, pc := r.id, line := lpa, lanes := l,
    bytes := 4, signed := false, dst := pa, udst := false, aop := 0, aty := 3, scope := 0, ord := false, final := false, remote := none,
    keepL1 := false, filling := false, queued := false, fromTile := true }

/-- The accumulate lines of an instruction sent (R127). -/
def sendLines (s : State) (c p : Nat) (d : List Nat) (t : TileD) (r : TileRun) (m : List (List (Nat × Nat))) : State :=
  let at_ (row j : Nat) : Nat :=
    let (i, k) := if t.transC then (j, row) else (row, j)
    ((((m[i]?).getD [])[k]?).map Prod.fst).getD 0
  (s.accumLines c d t).foldl (fun s l =>
    match s.translate p l.1 8 with
    | none => s
    | some lpa => s.sendAccum (accumOp c p r lpa l.1 (l.2.map (fun w =>
        let o := accumPa d w.1 w.2 % 128 / 4
        { lane := o, lpa := lpa + 4 * o, pa := l.1 + 4 * o, data := at_ w.1 w.2, data2 := 0 })))) s

/-- The outputs of an instruction that passed its checks, by its route; the run with its flags. -/
def tileWrite (s : State) (c p : Nat) (d : List Nat) (t : TileD) (r : TileRun) : State × TileRun :=
  let m := s.tileMatrix c d t
  let fl := m.foldl (fun a row => row.foldl (fun a x => a ||| x.2) a) 0
  match t.route with
  | 0 =>
    let rows := if t.transC then t.n else t.m
    let cols := if t.transC then t.m else t.n
    let row (i : Nat) : List Nat :=
      (List.range cols).map (fun j => let (a, b) := if t.transC then (j, i) else (i, j)
                                      ((((m[a]?).getD [])[b]?).map Prod.fst).getD 0)
    let (s, fl) := (List.range rows).foldl (fun (x : State × Nat) i =>
      let (s, f) := x.1.writeRow p c d t i (row i); (s, x.2 ||| f)) (s, fl)
    (s, { r with flags := fl })
  | 1 =>
    let a := s.arrays.get {} c
    ({ s with arrays := s.arrays.set {} c { a with images := a.images ++ portImages t r.id r.port m } }, { r with flags := fl })
  | _ => (s.sendLines c p d t r m, { r with flags := fl })

/-! ### Acceptance and completion -/

/-- The array of cluster `c`. -/
def arr (s : State) (c : Nat) : ArrSt := s.arrays.get {} c

/-- The state with an array changed. -/
def setArr (s : State) (c : Nat) (a : ArrSt) : State := { s with arrays := s.arrays.set {} c a }

/-- The unit of cluster `c` that is served next among those that satisfy `f`, round robin after `last` (R40). -/
def nextUnit (c last : Nat) (f : Nat → Bool) : Option Nat :=
  (List.range 4).findSome? (fun i => let u := 4 * c + (last + 1 + i) % 4; if f u then some u else none)

/-- A group's count of tile instructions in progress falls by one, if the group is still there. -/
def tileDone (s : State) (u k st cmd : Nat) : State :=
  let g := s.grp u k
  if g.live && g.stream == st && g.cmd == cmd then s.setGrp u k { g with tiles := g.tiles - 1 } else s

/-- A tile instruction fails its checks (R142), or on poison (R143): counted in ARR_FAILED in either case (DESIGN CHOICE, notes/assumptions/134.md), its
code and word recorded, its launch stopped. -/
def tileFail (s : State) (c u : Nat) (q : TileReq) (code word : Nat) : State :=
  let s := s.bump (home .arr c 0x168) 1
  let s := s.setReg (home .arr c 0x18) (code + (u % 4) * 0x10000 + word * 0x40000)
  ((s.stopLaunch q.part q.stream q.cmd code).tileDone u q.slot q.stream q.cmd).instrEnded c

/-- The steps that stream past the stationary operand (R103, R122). -/
def tileSteps (t : TileD) : Nat :=
  match t.mode with
  | 1 => t.m
  | 2 => if t.fa = 12 then (t.k + 1) / 2 else t.k
  | _ => t.n

/-- A tile instruction that passed its checks is accepted: counted, its results formed (R115 to R127). -/
def tileStart (s : State) (c u : Nat) (q : TileReq) (t : TileD) : State :=
  let d := q.desc
  let r : TileRun :=
    { id := s.nextOp, unit := u, slot := q.slot, part := q.part, stream := q.stream, cmd := q.cmd, route := t.route, mode := t.mode,
      port := dfield d 13 0 5, signal := if t.signal then some (c / 8 * 4096 + dfield d 3 16 12) else none, flags := 0 }
  let s := { s with nextOp := s.nextOp + 1 }
  let s := (s.bump (home .arr c 0x100) 1).bump (home .arr c 0x108) (tileSteps t)
  let s := if t.sparse = 1 then s.bump (home .arr c 0x120) 1 else s
  let (s, fl) := if t.sparse ≠ 2 then (s, 0) else
    let (n, out) := s.finderMarks c d t
    let s := if s.finderSparse c t n.length then s.bump (home .arr c 0x128) 1 else s.bump (home .arr c 0x130) 1
    (s.bump (home .arr c 0x160) out, flagIf (out != 0) flIndexRange)
  let (s, r) := s.tileWrite c q.part d t r
  let a := s.arr c
  s.setArr c { a with runs := a.runs ++ [{ r with flags := r.flags ||| fl }] }

/-- Whether an instruction's last result has reached its destination (R119). -/
def tileArrived (s : State) (c : Nat) (r : TileRun) : Bool :=
  !(s.opList.any (fun e => e.2.fromTile && e.2.pc == r.id)) && !((s.arr c).images.any (fun i => i.id == r.id))

/-- Whether a mode has a free stationary buffer (R104, R115): an instruction holds one of the two while an image of it is still to leave, which
holds its streaming and its drain back (R126). -/
def bufferFree (a : ArrSt) (mode : Nat) : Bool :=
  decide ((a.runs.filter (fun r => r.mode == mode && a.images.any (fun i => i.id == r.id))).length < 2)

/-- Whether an instruction waits before it is loaded and streamed (R116, R117; notes/assumptions/9.md): a line of its operands or of C_init is
the target of an accumulate of an earlier instruction of the array that is not applied, or it writes memory and an earlier instruction's
last result has not landed. -/
def tileWaits (s : State) (c : Nat) (d : List Nat) (t : TileD) : Bool :=
  let e := if t.sparse = 2 then s.cword c (dfield d 10 0 24) else 0
  let hit (line : Nat) : Bool := (t.reads d e).any (fun r =>
    decide (cmemLpa c r.1 / 128 * 128 ≤ line) && decide (line < cmemLpa c (r.1 + r.2.1)))
  (tileStatic d t <|> tileRange (t.reads d e ++ t.writes d)).isNone &&
  (s.opList.any (fun o => o.2.fromTile && o.2.unit == 256 + c && hit (o.2.line / 128 * 128))
   || (t.route != 1 && (s.arr c).runs.any (fun r => !s.tileArrived c r)))

/-- The accepted instruction fills the array and streams, once R116 and R117 let it: it fails its checks, or its results are formed. -/
def tileStream (s : State) (c u : Nat) (q : TileReq) : State :=
  let t := tileD q.desc
  if s.tileWaits c q.desc t then s else
  let s := s.setArr c { s.arr c with held := none }
  match s.tileCheck c q.part q.desc t with
  | some (code, word) => s.tileFail c u q code word
  | none => s.tileStart c u q t

/-- The array takes the next pending tile instruction (R40, R104, R115): its slot in its unit is free from then on. One that has been accepted holds
the array until it has filled it (R40). -/
def tileAccept (s : State) (c : Nat) : State :=
  let a := s.arr c
  if !s.domOn c then s else
  match a.held with
  | some (u, q) => s.tileStream c u q
  | none =>
    match nextUnit c a.last (fun u => !(s.unit u).tileQ.isEmpty) with
    | none => s
    | some u =>
      let x := s.unit u
      match x.tileQ with
      | [] => s
      | q :: rest =>
        if !bufferFree a (tileD q.desc).mode then s else
        ((s.setUnit u { x with tileQ := rest }).setArr c { a with last := u % 4, held := some (u, q) }).tileStream c u q

/-- The oldest accepted instruction completes (R116, R119). -/
def tileComplete (s : State) (c : Nat) : State :=
  let a := s.arr c
  match a.runs with
  | [] => s
  | r :: rest =>
    if !s.tileArrived c r then s else
    let s := (s.setArr c { a with runs := rest }).addFlags r.part r.stream r.cmd r.flags
    let s := match r.signal with
      | some k => s.engineSignal (0x100 + c) r.part r.stream r.cmd k
      | none => s
    (s.tileDone r.unit r.slot r.stream r.cmd).instrEnded c

end State

/-- TILE_ACCEPT (R115): the array of cluster `c` accepts its next tile instruction, or goes on with the one that it has accepted. -/
def execTileAccept (c : Fin 32) (s : State) : Out := .next (s.tileAccept c.val)

/-- TILE_COMPLETE (R119): the oldest accepted instruction of cluster `c` has its last result at its destination. -/
def execTileComplete (c : Fin 32) (s : State) : Out := .next (s.tileComplete c.val)

/-- PORT_IMAGE_DELIVER (R126, R153): the next image enters the port register of cluster `c` once the last one was released and the results
of the instructions accepted before its own have landed (R116). Lanes that hold no result are free values (notes/assumptions/18.md). -/
def execPortImageDeliver (c : Fin 32) (s : State) : Out :=
  let a := s.arr c.val
  let v := s.vecs.get {} c.val
  match a.images, v.full with
  | i :: rest, none =>
    if !((a.runs.takeWhile (fun r => r.id != i.id)).all (s.tileArrived c.val)) then .next s else
    let open_ := (List.range 512).map (fun l => Config.freeValue (s.free + l) % 2 ^ 32)
    let lanes := (open_.zipIdx.map Prod.swap ++ i.lanes).foldl (fun m x => m.set 0 (i.reg * 512 + x.1) x.2) v.lanes
    let s := { s with free := s.free + 512 }
    .next { (s.setArr c.val { a with images := rest }) with vecs := s.vecs.set {} c.val { v with lanes := lanes, full := some i.reg } }
  | _, _ => .next s

end Sys2Proof.Machine
end

