-- ==== Sys2Proof/Machine/Links.lean ====
section
/-! DEFINITION. Griwald ports: flits, credits, replay, transactions, routing, tags, training (R347 to R370). -/

namespace Sys2Proof.Machine

/-! ### Transactions (R351) -/

/-- Whether an operation carries data slots. -/
def opHasData (op : Nat) : Bool := op == 1 || op == 2 || op == 4 || op == 7

/-- The header slot of a transaction. -/
def Txn.header (t : Txn) : Nat :=
  t.op + t.dst * 2 ^ 4 + t.src * 2 ^ 16 + t.part * 2 ^ 28 + b2n t.tp3 * 2 ^ 30 + t.pa * 2 ^ 32 + (t.bytes - 1) * 2 ^ 76
    + t.tag * 2 ^ 86 + t.code * 2 ^ 98

/-- The data slots of a transaction with `n` bytes at a PA. -/
def dataSlots (op pa n : Nat) : Nat := if opHasData op then (pa % 16 + n + 15) / 16 else 0

/-- The slots of a transaction: the header, then the data with the first byte at PA mod 16. -/
def Txn.slots (t : Txn) : List Nat :=
  t.header :: (List.range (dataSlots t.op t.pa t.bytes)).map (fun i =>
    (List.range 16).foldl (fun a j =>
      let o := 16 * i + j
      if t.pa % 16 ≤ o ∧ o < t.pa % 16 + t.bytes then a + ((t.data[o - t.pa % 16]?).getD 0).toNat <<< (8 * j) else a) 0)

/-- The slots that a header announces, itself included. -/
def headerLength (h : Nat) : Nat := 1 + dataSlots (bits h 0 4) (bits h 32 44) (bits h 76 9 + 1)

/-- A transaction from its slots. -/
def parseTxn : List Nat → Txn
  | [] => { op := 0, dst := 0, src := 0, part := 0, tp3 := false, pa := 0, bytes := 1, tag := 0, code := 0, data := [] }
  | h :: l =>
    let n := bits h 76 9 + 1
    let pa := bits h 32 44
    { op := bits h 0 4, dst := bits h 4 12, src := bits h 16 12, part := bits h 28 2, tp3 := bit h 30, pa := pa, bytes := n,
      tag := bits h 86 12, code := bits h 98 16,
      data := if opHasData (bits h 0 4) then
          (List.range n).map (fun i => BitVec.ofNat 8 (bits ((l[(pa % 16 + i) / 16]?).getD 0) (8 * ((pa % 16 + i) % 16)) 8))
        else [] }

/-- Whether a transaction is a response. -/
def Txn.isResp (t : Txn) : Bool := t.op == 4 || t.op == 5 || t.op == 6

namespace State

/-! ### Routing (R357) -/

/-- Coordinate `d` of a device number (R57). -/
def coord (dev d : Nat) : Nat := bits dev (3 * d) 3

/-- The torus size of dimension `d`. -/
def torus (s : State) (d : Nat) : Nat := bits s.pkg.sizes (4 * d) 4

/-- The device's own number, 0 while unknown. -/
def self (s : State) : Nat := s.pkg.device.getD 0

/-- The port by which a transaction for device `dst` leaves, if it is another device (R357). -/
def routePort (s : State) (dst : Nat) : Option Nat :=
  match (List.range 4).find? (fun d => coord dst d != coord s.self d) with
  | none => none
  | some d =>
    let l := max 1 (s.torus d)
    let plus := (coord dst d + l - coord s.self d % l) % l
    some (if plus ≤ l - plus then 2 * d else 2 * d + 1)

/-- Whether a global address lies inside the torus (R59). -/
def inTorus (s : State) (dev : Nat) : Bool := (List.range 4).all (fun d => decide (coord dev d < s.torus d))

/-- The channel of a transaction before any dateline (R355). -/
def baseVc (t : Txn) : Nat := if t.op = 7 then 5 else if t.isResp then 6 else t.part + 1

/-- The channel on the link of port `out` of a transaction that arrived by `from` on channel `vc` (R357): 7 after the dateline of
the dimension it stays in. A transaction of this device has crossed nothing. -/
def outVc (s : State) (t : Txn) (out : Nat) (arrived : Option (Nat × Nat)) : Nat :=
  match arrived with
  | none => baseVc t
  | some (g, vc) =>
    if t.op = 7 || g / 2 ≠ out / 2 then baseVc t else
    let d := out / 2
    let crossed := vc == 7 || (if out % 2 = 0 then coord s.self d == 0 else coord s.self d + 1 == s.torus d)
    if crossed then 7 else baseVc t

/-- The receive-buffer pool of a channel for a transaction (R350). -/
def poolOf (vc : Nat) (resp : Bool) : Nat := if vc = 7 then (if resp then 8 else 7) else vc

/-- Receive-buffer slots freed: credit to return by the port that holds them (R350). -/
def release (s : State) (h : Option Held) : State :=
  match h with
  | none => s
  | some h => let x := s.port h.port; s.setPort h.port { x with freed := x.freed.modify 0 h.pool (· + h.slots) }

/-- A transaction put on a channel of a port. -/
def enqueue (s : State) (g vc : Nat) (t : Txn) (fwd : Bool) (held : Option Held) : State :=
  let x := s.port g
  s.setPort g { x with txq := x.txq.modify [] vc (· ++ [{ slots := t.slots, begun := false, fwd := fwd, resp := t.isResp,
                                                          part := t.part, held := held }]) }

/-- A response of this device to a request, sent on its way back, or taken here where the requester is this device. A response
that cannot leave is lost (R359). A NAK is counted at the port by which it leaves; a discarded transaction of a reserved
operation at `at_`, the port that received it, whatever becomes of the NAK (R352, R370). -/
def respond (s : State) (t : Txn) (op code : Nat) (data : List Byte) (at_ : Option Nat := none) : State :=
  let r : Txn := { t with op := op, dst := t.src, code := code, data := data }
  let nak (s : State) (g : Option Nat) : State := match g with
    | some g => if op = 6 then s.bumpPort g 0x138 1 else s
    | none => s
  let s := nak s at_
  match s.routePort t.src with
  | none => { s with inTxn := s.inTxn ++ [{ port := 0, t := r, held := none }] }
  | some g => if (s.port g).state = 3 then (nak s (if at_.isNone then some g else none)).enqueue g (baseVc r) r false none else s

/-- One more request failed at a port (R354, R359, R369). -/
def reqFailed (s : State) (g : Nat) : State := s.setPort g { s.port g with failedReqs := (s.port g).failedReqs + 1 }

/-- A NAK of a request of this device's own that port `g` refuses: it returns from the port (R224, R359). -/
def refuseLocal (s : State) (g : Nat) (t : Txn) (code : Nat) : State :=
  let s := (s.bumpPort g 0x138 1).reqFailed g
  { s with inTxn := s.inTxn ++ [{ port := g, t := { t with op := 6, dst := t.src, code := code, data := [] }, held := none }] }

/-- The first free tag of a port (R354). -/
def freeTag (x : Glp) : Option Nat := (List.range 4096).find? (fun i => x.tags.get .free i == Tag.free)

/-- Waiting requests of a port take tags and join their channel, in order, while tags are free (R354). -/
def pump (fuel g : Nat) (s : State) : State :=
  match fuel with
  | 0 => s
  | n + 1 =>
    let x := s.port g
    match x.reqQ, freeTag x with
    | (w, t) :: q, some tag =>
      let t := { t with tag := tag }
      let s := s.setPort g { x with reqQ := q, tags := x.tags.set .free tag (.used w t) }
      let s := if x.state = 3 then s.enqueue g (baseVc t) t false none else s.refuseLocal g t 0x0701
      pump n g s
    | _, _ => s

/-- A request of this device to another joins its port's requests; where the port is not UP it is refused there (R354, R359). -/
def request (s : State) (w : Requester) (t : Txn) : State :=
  match s.routePort t.dst with
  | none => s
  | some g =>
    let x := s.port g
    pump (x.reqQ.length + 1) g (s.setPort g { x with reqQ := x.reqQ ++ [(w, t)] })

/-! ### Sending (R349, R350, R356) -/

end State

/-- The slots of a flit with `room` left that an entry fills: all that it has still to send, or the room. A transaction leaves its flit before its last
slot only at the end of the flit, since a PAD is an unused slot (R348, R350). -/
def TxEntry.fills (e : TxEntry) (room : Nat) : Nat := min room (e.slots.length + e.more)

/-- Whether an entry may send in a flit with `room` slots left and `credit` slots of credit for its pool (R350): the slots that it fills have arrived
and have credit; one that is forwarded and begins needs credit for the whole of it (R358). -/
def TxEntry.sendable (e : TxEntry) (room credit : Nat) : Bool :=
  !e.slots.isEmpty && decide (e.fills room ≤ e.slots.length)
    && decide ((if e.fwd && !e.begun then e.slots.length + e.more else e.fills room) ≤ credit)

/-- The entry of a channel from which the next flit is filled, if it may be sent: one already begun, else of the first of each class and pool
those that may be sent, one of the class that did not send last before the other (R350, R356). -/
def pickEntry (lastFwd : Bool) (credit : TxEntry → Nat) (l : List TxEntry) : Option TxEntry :=
  match l.find? TxEntry.begun with
  | some e => if e.sendable 15 (credit e) then some e else none
  | none =>
    let heads := ([(true, true), (true, false), (false, true), (false, false)] : List (Bool × Bool)).filterMap (fun c =>
      (l.zipIdx.find? (fun e => e.1.fwd == c.1 && e.1.resp == c.2)).bind (fun e => if e.1.sendable 15 (credit e.1) then some e else none))
    let first (h : List (TxEntry × Nat)) : Option TxEntry :=
      (h.foldl (fun (a : Option (TxEntry × Nat)) e => match a with
        | some b => if e.2 < b.2 then some e else some b
        | none => some e) none).map Prod.fst
    first (heads.filter (fun e => e.1.fwd != lastFwd)) <|> first heads

/-- Slots for one flit taken from the entries of one class and pool, in order, at most `room`, with `credit` slots of credit: the slots, the
entries left, what is freed, and the slot of the first header. Where entries of the other class wait too (`both`), one behind the first is taken only
where it ends in the flit, so that the flits of the two classes alternate (R356). -/
def fillFlit (room credit at_ : Nat) (fwd resp both : Bool) : List TxEntry → List Nat × List TxEntry × List Held × Option Nat
  | [] => ([], [], [], none)
  | e :: l =>
    if room = 0 then ([], e :: l, [], none)
    else if e.fwd != fwd || e.resp != resp then
      let (sl, rest, h, f) := fillFlit room credit at_ fwd resp both l; (sl, e :: rest, h, f)
    else if !e.sendable room (credit - at_) || (both && decide (at_ ≠ 0) && decide (room < e.slots.length + e.more)) then ([], e :: l, [], none)
    else
      let take := e.slots.take room
      let left := e.slots.drop room
      let first := if e.begun then none else some at_
      if left.isEmpty && e.more = 0 then
        let (sl, rest, h, f) := fillFlit (room - take.length) credit (at_ + take.length) fwd resp both l
        (take ++ sl, rest, e.held.toList ++ h, first <|> f)
      else (take, { e with slots := left, begun := true } :: l, [], first)

namespace State

/-- The channel that the port serves next among those with a sendable flit (R356, R358): 0, 7, 6, then the partitions in the order that
the round gives, EXCH before PART in a partition's turn. `order` is the partitions in the order of the shares (R426). -/
def pickVc (x : Glp) (order : List Nat) : Option (Nat × TxEntry) :=
  let pick (vc : Nat) (l : List TxEntry) : Option (Nat × TxEntry) :=
    (pickEntry (x.lastFwd.get false vc) (fun e => x.credits.get 0 (poolOf vc e.resp)) l).map (fun e => (vc, e))
  let exch (p : Nat) : Option (Nat × TxEntry) :=
    let l := x.txq.get [] 5
    if l.any (fun e => e.begun && e.part != p) then none else pick 5 (l.filter (fun e => e.part == p))
  let fixed := [0, 7, 6].findSome? (fun vc => pick vc (x.txq.get [] vc))
  fixed <|> order.findSome? (fun p => exch p <|> pick (p + 1) (x.txq.get [] (p + 1)))

/-- An IDLE flit, which carries the acknowledgement and credits (R348, R349). -/
def sendIdle (s : State) (g : Nat) : State :=
  let (cvc, cpool, n, x) := creditField (s.port g)
  (s.setPort g { x with unacked := 0 }).emit (.flit g (makeFlit 0 0 0 ((x.rxSeq + 4095) % 4096) (b2n x.ackOk) cvc cpool n [] 15))

/-- Whether an UP port has a flit ready and none that it has credit for (R370). -/
def creditStalled (x : Glp) : Bool :=
  x.state == 3 && decide (x.replay.length < 1024) && x.txq.any (fun q => q.2.any (fun e => !e.slots.isEmpty)) && (pickVc x [0, 1, 2, 3]).isNone

/-- The next flit of a port that is UP (R356): a CONTROL message where one waits, else a DATA flit of the chosen channel, else an
IDLE flit. `order` is the order of the partitions in this turn. -/
def sendFlit (s : State) (g : Nat) (order : List Nat) : State :=
  let x := s.port g
  match x.ctlOut with
  | m :: rest => (s.setPort g { x with ctlOut := rest }).sendControl g m
  | [] =>
    if x.state ≠ 3 then s else
    let ack := (x.rxSeq + 4095) % 4096
    match (if x.replay.length < 1024 then pickVc x order else none) with
    | none => s.sendIdle g
    | some (vc, e) =>
      let pool := poolOf vc e.resp
      let mine (y : TxEntry) : Bool := vc != 5 || y.part == e.part
      let q := x.txq.get [] vc
      let both := q.any (fun y => y.fwd != e.fwd)
      let begunFirst := q.filter TxEntry.begun ++ q.filter (fun y => !y.begun)
      let (slots, rest, freed, first) := fillFlit 15 (x.credits.get 0 pool) 0 e.fwd e.resp both (begunFirst.filter mine)
      let (cvc, cpool, n, x) := creditField x
      let f := makeFlit 1 vc x.txSeq ack (b2n x.ackOk) cvc cpool n slots (first.getD 15)
      let x := { x with txq := x.txq.set [] vc (rest ++ begunFirst.filter (fun y => !mine y)), txSeq := (x.txSeq + 1) % 4096,
                        credits := x.credits.modify 0 pool (· - slots.length), unacked := 0, lastFwd := x.lastFwd.set false vc e.fwd,
                        replay := x.replay ++ [{ seq := x.txSeq, flit := f, count := 0 }] }
      let s := (s.setPort g x).emit (.flit g f)
      let s := s.bumpPort g 0x100 1
      let s := if 1 ≤ vc ∧ vc ≤ 5 then (s.bump (pages .glp e.part g 0x168) slots.length).charge (512 + g) slots.length else s
      freed.foldl (fun s h => s.release (some h)) s

/-! ### Going up and down -/

/-- PRT_STATE of a partition (R440): 0 READY, 1 DRAINING, 2 SCRUBBING, 3 DISABLED, 4 RESETTING. -/
def prtState (s : State) (p : Nat) : Nat := bits (s.reg (home .prt p 0x10)) 0 3

/-- An event on the ring of every partition that is not DISABLED (R369, R438). -/
def postAll (s : State) (type code d0 d1 : Nat) : State :=
  ((List.range s.nParts).filter (fun p => s.prtState p != 3)).foldl (fun s p => s.post p type code 0 0 d0 d1) s

/-- The full receive credits of a port (R350). -/
def fullCredits : SMap Nat := [(0, 64), (1, 4096), (2, 4096), (3, 4096), (4, 4096), (5, 4096), (6, 4096), (7, 1024), (8, 1024)]

/-- A queued transaction of a port that stops: a request is answered with NAK LINK_DOWN where it came from, this device's own from its tag; a
response, exchange data and what has begun are lost (R359). -/
def dropEntry (s : State) (g : Nat) (e : TxEntry) : State :=
  let t := parseTxn e.slots
  let s := s.release e.held
  if e.begun || e.resp || t.op = 7 then s
  else if e.fwd then (s.reqFailed g).respond t 6 0x0701 [] else s.refuseLocal g t 0x0701

/-- An entry whose remaining slots will not arrive, because the port that they come by stops: they are free values (notes/assumptions/103.md). -/
def cutEntry (v : Nat) (e : TxEntry) : TxEntry :=
  { e with slots := e.slots ++ (List.range e.more).map (fun i => bits v (128 * i) 128), more := 0, src := none, held := none }

/-- The transactions that were being forwarded as they arrived by port `g`, which stops (R358, R359): one not begun is answered with NAK
LINK_DOWN, one begun is ended. -/
def cutForwards (s : State) (g : Nat) : State :=
  let from_ (e : TxEntry) : Bool := e.src.any (fun x => x.1 == g)
  (List.range 8).foldl (fun s h =>
    if !(s.port h).txq.any (fun q => q.2.any from_) then s else
    let lost := ((s.port h).txq.map (fun q => q.2.filter (fun e => from_ e && !e.begun))).flatten
    let (v, s) := s.draw
    let keep (q : Nat × List TxEntry) : Nat × List TxEntry :=
      (q.1, (q.2.filter (fun e => !from_ e || e.begun)).map (fun e => if from_ e then cutEntry v e else e))
    let s := s.setPort h { s.port h with txq := (s.port h).txq.map keep }
    lost.foldl (fun s e => s.dropEntry h { e with held := none }) s) s

/-- The queued and half-received transactions of a port that stops (R359). -/
def failPort (s : State) (g : Nat) : State :=
  let x := s.port g
  let s := s.setPort g { x with txq := [], rxPart := [], rxFwd := [], replay := [] }
  (((x.txq.map Prod.snd).flatten).foldl (fun s e => s.dropEntry g e) s).cutForwards g

/-- A port goes DOWN with a cause (R366): the DOWN message is sent where it can be, the counters count, every partition gets LINK_DOWN. With cause
FAULT its domain is switched off, once start-up has ended (R482). -/
def portDown (s : State) (g cause : Nat) (tell : Bool := true) : State :=
  let s := if !tell then s else if (s.port g).state = 2 || (s.port g).state = 3 then s.sendControl g [3 + cause * 2 ^ 32] else s
  let s := s.failPort g
  let x := s.port g
  let s := s.setPort g { x with state := 4, cause := cause, lanes := 0, peerValid := false, ctlIn := [], ctlOut := [],
                                retry := false, failedReqs := 0, ackOk := false, downAfter := false }
  let s := if cause = 11 ∧ s.dome.boot.state = 1 then s.setDomain (48 + g) false else s
  (s.bumpPort g 0x160 1).postAll 0x0102 0x0701 (g + cause * 256) x.failedReqs

/-- The number of lanes of a mask that a port may use: 12, 11, 10 or 8 (R364). -/
def laneCount (mask : Nat) : Nat := let n := popcount 12 mask; if n = 9 then 8 else n

/-- The lowest `n` lanes of a mask. -/
def lowestLanes : Nat → Nat → Nat → Nat
  | 0, _, _ => 0
  | fuel + 1, n, mask => if n = 0 then 0 else b2n (mask % 2 = 1) + 2 * lowestLanes fuel (n - mask % 2) (mask / 2)

/-- This device's neighbour record on port `g`, as the two slots of its CONTROL flit (R367). -/
def recordOf (s : State) (g : Nat) : List Nat :=
  [1 + (g / 2) * 2 ^ 8 + (g % 2) * 2 ^ 11 + (s.self + b2n s.pkg.device.isSome * 2 ^ 12 + s.pkg.sizes * 2 ^ 16) * 2 ^ 32
     + (s.pkg.feed + s.pkg.layout * 2 ^ 8 + b2n s.pkg.anchor * 2 ^ 10) * 2 ^ 64,
   Config.serial.toNat + s.dome.boot.running.fwVersion * 2 ^ 64]

/-- The housekeeping firmware passes its neighbours' feed groups on over channel 0 to the neighbour at a port that is UP (R355, R408): one slot, of a
form that announces no data; what else it holds is the firmware's own, a free value (notes/assumptions/114.md). -/
def tellFeeds (s : State) (g : Nat) : State :=
  if (s.port g).state ≠ 3 then s else
  let (v, s) := s.draw
  let e : TxEntry := { slots := [3 + 16 * bits v 0 124], begun := false, fwd := false, resp := false, part := 0, held := none }
  s.setPort g { s.port g with txq := (s.port g).txq.modify [] 0 (· ++ [e]) }

/-- A port whose checks have passed enters UP once both devices' coordinates are known (R368): the device number is fixed, the
link starts afresh, LINK_UP is posted. -/
def portUp (s : State) (g : Nat) : State :=
  let x := s.port g
  let s := s.setPort g { x with state := 3, rxSeq := 0, txSeq := 0, replay := [], unacked := 0, retry := false, credits := fullCredits,
                                freed := [], txq := [], rxPart := [], rxFwd := [], ackOk := false, peerValid := true }
  let s := { s with pkg := { s.pkg with fixedDev := true } }
  let s := (List.range 8).foldl State.tellFeeds s
  s.postAll 0x0101 0 (g + laneCount x.lanes * 16 + x.peerDev * 256) x.peerSerial

/-! ### Receiving (R349, R358) -/

/-- A whole transaction received by port `g` on channel `vc`: taken here, passed to firmware on channel 0, or forwarded with its slots held in the
receive buffer until it has left; a request that cannot be forwarded is answered with NAK LINK_DOWN, a reserved operation with BAD_COMMAND.
Exchange data of a reserved kind are discarded (R384). -/
def txnArrived (s : State) (g vc : Nat) (t : Txn) (n : Nat) : State :=
  let held : Option Held := some { port := g, pool := poolOf vc t.isResp, slots := n }
  if 8 ≤ t.op then (s.release held).respond t 6 0x0102 [] (some g)
  else if t.op = 0 then s.release held
  else if t.op = 7 ∧ 8 ≤ t.pa % 16 then (s.release held).bump (pages .xch t.part (g / 2) 0x158) 1
  else if t.op = 7 || t.dst = s.self then { s with inTxn := s.inTxn ++ [{ port := g, t := t, held := held }] }
  else match s.routePort t.dst with
    | none => s.release held
    | some out =>
      if (s.port out).state = 3 then (s.bumpPort out 0x130 1).enqueue out (s.outVc t out (some (g, vc))) t true held
      else if t.isResp then s.release held else ((s.release held).reqFailed out).respond t 6 0x0701 []

/-- A header arrives by port `g` on channel `vc` (R358): a transaction for another device joins the port by which it leaves at once, its other
slots following as they arrive. -/
def beginForward (s : State) (g vc h : Nat) : State :=
  let t := parseTxn [h]
  if vc = 0 || t.op = 0 || 7 ≤ t.op || t.dst = s.self then s else
  match s.routePort t.dst with
  | none => s
  | some out =>
    if (s.port out).state ≠ 3 then s else
    let n := headerLength h
    let e : TxEntry := { slots := [h], begun := false, fwd := true, resp := t.isResp, part := t.part, more := n - 1,
                         held := some { port := g, pool := poolOf vc t.isResp, slots := 1 }, src := if n = 1 then none else some (g, vc) }
    let s := s.bumpPort out 0x130 1
    let s := s.setPort out { s.port out with txq := (s.port out).txq.modify [] (s.outVc t out (some (g, vc))) (· ++ [e]) }
    s.setPort g { s.port g with rxFwd := (s.port g).rxFwd.set false vc true }

/-- A slot of a transaction that is being forwarded as it arrives joins the entry that leaves, or is dropped where the entry is lost. -/
def growForward (s : State) (g vc sl : Nat) (resp : Bool) : State :=
  let is (e : TxEntry) : Bool := e.src == some (g, vc)
  let grow (e : TxEntry) : TxEntry :=
    if !is e then e else
    { e with slots := e.slots ++ [sl], more := e.more - 1, src := if e.more ≤ 1 then none else e.src,
             held := e.held.map (fun h => { h with slots := h.slots + 1 }) }
  if s.ports.any (fun p => p.2.txq.any (fun q => q.2.any is)) then
    { s with ports := s.ports.map (fun p => (p.1, { p.2 with txq := p.2.txq.map (fun q => (q.1, q.2.map grow)) })) }
  else s.release (some { port := g, pool := poolOf vc resp, slots := 1 })

/-- One slot of a DATA flit joined to what the channel has received; a transaction that is complete is passed on. -/
def takeSlot (s : State) (g vc sl : Nat) : State :=
  let part := (s.port g).rxPart.get [] vc
  if part.isEmpty && sl % 16 = 0 then s else
  let all := part ++ [sl]
  let s := if part.isEmpty then s.beginForward g vc sl
    else if (s.port g).rxFwd.get false vc then s.growForward g vc sl (parseTxn [all.headD 0]).isResp else s
  let x := s.port g
  if all.length < headerLength (all.headD 0) then s.setPort g { x with rxPart := x.rxPart.set [] vc all }
  else
    let s := s.setPort g { x with rxPart := x.rxPart.set [] vc [], rxFwd := x.rxFwd.set false vc false }
    if x.rxFwd.get false vc then s
    else if vc = 0 then (s.release (some { port := g, pool := 0, slots := all.length })).emit (.firmware g all)
    else s.txnArrived g vc (parseTxn all) all.length

/-- The slots of a DATA flit. -/
def takeSlots (s : State) (g vc : Nat) (l : List Nat) : State := l.foldl (fun s sl => s.takeSlot g vc sl) s

/-- A RETRY for the expected SEQ is queued (R349, R360). -/
def sendRetry (s : State) (g : Nat) : State :=
  let x := s.port g
  s.setPort g { x with retry := true, ctlOut := x.ctlOut ++ [[2 + x.rxSeq * 2 ^ 32]] }

/-- Acknowledgement and returned credits of a good flit (R348, R349). -/
def takeHeader (s : State) (g f : Nat) : State :=
  let x := s.port g
  let left := if bit f 32 then x.replay.filter (fun r => decide (2048 ≤ (bits f 20 12 + 4096 - r.seq) % 4096)) else x.replay
  let acked := if left.length < x.replay.length then left.map (fun r => { r with count := 0 }) else left
  let pool := poolOf (bits f 33 3) (bit f 36)
  s.setPort g { x with replay := acked, credits := if bits f 37 11 = 0 then x.credits else x.credits.modify 0 pool (· + bits f 37 11) }

/-- A flit arrives (R349): one with a bad CRC or out of sequence is discarded whole, one of a reserved kind does nothing. -/
def flitArrived (s : State) (g f : Nat) : State :=
  let x := s.port g
  if x.state ≠ 2 ∧ x.state ≠ 3 then s
  else if !flitCrcOk f then (s.bumpPort g 0x120 1).sendRetry g
  else
    let header (s : State) : State := if x.state = 3 then s.takeHeader g f else s
    match bits f 0 3 with
    | 0 => header s
    | 2 => let s := header s; let x := s.port g; s.setPort g { x with ctlIn := x.ctlIn ++ [[flitSlot f 0, flitSlot f 1]] }
    | 1 =>
      if x.state ≠ 3 then s
      else if bits f 8 12 ≠ x.rxSeq then (s.bumpPort g 0x120 1).sendRetry g
      else
        let s := header s
        let x := s.port g
        let s := s.setPort g { x with rxSeq := (x.rxSeq + 1) % 4096, retry := false, unacked := x.unacked + 1, ackOk := true }
        let s := (s.bumpPort g 0x108 1).takeSlots g (bits f 3 3) ((List.range 15).map (flitSlot f))
        let x := s.port g
        if 64 ≤ x.unacked then s.sendIdle g else s
    | _ => s

/-! ### Requests of this device (R353, R354) -/

/-- The tag's request is answered: the tag is free. -/
def freeTagOf (s : State) (g tag : Nat) : State :=
  let x := s.port g
  pump (x.reqQ.length) g (s.setPort g { x with tags := x.tags.set .free tag .free })

/-- What request tag `tag` of port `g` serves, if it is in use. -/
def tagUse (s : State) (g tag : Nat) : Option (Requester × Txn) :=
  match (s.port g).tags.get .free tag with
  | .used w t => some (w, t)
  | _ => none

/-- A lane of a remote memory operation has been answered: the operation ends with its last lane (R259, R353). -/
def laneDone (s : State) (id lane : Nat) : State :=
  match s.op id with
  | none => s
  | some o =>
    let rest := o.lanes.filter (fun x => x.lane ≠ lane)
    if rest.isEmpty then s.delOp id else s.setOp id { o with lanes := rest }

end State

end Sys2Proof.Machine
end

