-- ==== Sys2Proof/Machine/Digest.lean ====
section
/-! DEFINITION. SHA-512 (FIPS 180-4), which R465, R523, R524, R527 and R528 name. A word is a number below 2^64. -/

namespace Sys2Proof.Machine

/-- The constants of the 80 rounds. -/
def shaK : List Nat :=
  [0x428A2F98D728AE22, 0x7137449123EF65CD, 0xB5C0FBCFEC4D3B2F, 0xE9B5DBA58189DBBC, 0x3956C25BF348B538,
   0x59F111F1B605D019, 0x923F82A4AF194F9B, 0xAB1C5ED5DA6D8118, 0xD807AA98A3030242, 0x12835B0145706FBE,
   0x243185BE4EE4B28C, 0x550C7DC3D5FFB4E2, 0x72BE5D74F27B896F, 0x80DEB1FE3B1696B1, 0x9BDC06A725C71235,
   0xC19BF174CF692694, 0xE49B69C19EF14AD2, 0xEFBE4786384F25E3, 0x0FC19DC68B8CD5B5, 0x240CA1CC77AC9C65]
  ++ [0x2DE92C6F592B0275, 0x4A7484AA6EA6E483, 0x5CB0A9DCBD41FBD4, 0x76F988DA831153B5, 0x983E5152EE66DFAB,
   0xA831C66D2DB43210, 0xB00327C898FB213F, 0xBF597FC7BEEF0EE4, 0xC6E00BF33DA88FC2, 0xD5A79147930AA725,
   0x06CA6351E003826F, 0x142929670A0E6E70, 0x27B70A8546D22FFC, 0x2E1B21385C26C926, 0x4D2C6DFC5AC42AED,
   0x53380D139D95B3DF, 0x650A73548BAF63DE, 0x766A0ABB3C77B2A8, 0x81C2C92E47EDAEE6, 0x92722C851482353B]
  ++ [0xA2BFE8A14CF10364, 0xA81A664BBC423001, 0xC24B8B70D0F89791, 0xC76C51A30654BE30, 0xD192E819D6EF5218,
   0xD69906245565A910, 0xF40E35855771202A, 0x106AA07032BBD1B8, 0x19A4C116B8D2D0C8, 0x1E376C085141AB53,
   0x2748774CDF8EEB99, 0x34B0BCB5E19B48A8, 0x391C0CB3C5C95A63, 0x4ED8AA4AE3418ACB, 0x5B9CCA4F7763E373,
   0x682E6FF3D6B2B8A3, 0x748F82EE5DEFB2FC, 0x78A5636F43172F60, 0x84C87814A1F0AB72, 0x8CC702081A6439EC]
  ++ [0x90BEFFFA23631E28, 0xA4506CEBDE82BDE9, 0xBEF9A3F7B2C67915, 0xC67178F2E372532B, 0xCA273ECEEA26619C,
   0xD186B8C721C0C207, 0xEADA7DD6CDE0EB1E, 0xF57D4F7FEE6ED178, 0x06F067AA72176FBA, 0x0A637DC5A2C898A6,
   0x113F9804BEF90DAE, 0x1B710B35131C471B, 0x28DB77F523047D84, 0x32CAAB7B40C72493, 0x3C9EBE0A15C9BEBC,
   0x431D67C49C100D4C, 0x4CC5D4BECB3E42B6, 0x597F299CFC657E2A, 0x5FCB6FAB3AD6FAEC, 0x6C44198C4A475817]

/-- The initial hash value. -/
def shaH : List Nat :=
  [0x6A09E667F3BCC908, 0xBB67AE8584CAA73B, 0x3C6EF372FE94F82B, 0xA54FF53A5F1D36F1,
   0x510E527FADE682D1, 0x9B05688C2B3E6C1F, 0x1F83D9ABFB41BD6B, 0x5BE0CD19137E2179]

/-- A word turned right by `n` bits. -/
def rotr64 (n x : Nat) : Nat := x >>> n + (x % 2 ^ n) <<< (64 - n)

/-- The number whose bytes are a list, most significant first. -/
def ofBeBytes (l : List Byte) : Nat := l.foldl (fun a b => a * 256 + b.toNat) 0

/-- The low `n` bytes of a number, most significant first. -/
def beBytes (n x : Nat) : List Byte := (leBytes n x).reverse

/-- A message padded to whole blocks: a 1 bit, zeros, and the length in bits as 128 bits. -/
def shaPad (l : List Byte) : List Byte := l ++ [0x80] ++ List.replicate ((111 + 128 - l.length % 128) % 128) 0 ++ beBytes 16 (8 * l.length)

/-- The message schedule from its last 16 words: `n` more words follow. -/
def shaSchedule : Nat → List Nat → List Nat
  | 0, _ => []
  | n + 1, w =>
    let g (i : Nat) : Nat := (w[i]?).getD 0
    let s0 := rotr64 1 (g 1) ^^^ rotr64 8 (g 1) ^^^ (g 1 >>> 7)
    let s1 := rotr64 19 (g 14) ^^^ rotr64 61 (g 14) ^^^ (g 14 >>> 6)
    let x := (g 0 + s0 + g 9 + s1) % 2 ^ 64
    x :: shaSchedule n (w.tail ++ [x])

/-- One round on the eight working variables: `x` is the constant and the word of the schedule. -/
def shaRound (v : List Nat) (x : Nat × Nat) : List Nat :=
  match v with
  | [a, b, c, d, e, f, g, h] =>
    let t1 := h + (rotr64 14 e ^^^ rotr64 18 e ^^^ rotr64 41 e) + ((e &&& f) ^^^ ((2 ^ 64 - 1 - e) &&& g)) + x.1 + x.2
    let t2 := (rotr64 28 a ^^^ rotr64 34 a ^^^ rotr64 39 a) + ((a &&& b) ^^^ (a &&& c) ^^^ (b &&& c))
    [(t1 + t2) % 2 ^ 64, a, b, c, (d + t1) % 2 ^ 64, e, f, g]
  | v => v

/-- One block of 128 bytes. -/
def shaBlock (h : List Nat) (l : List Byte) : List Nat :=
  let w := (List.range 16).map (fun i => ofBeBytes ((l.drop (8 * i)).take 8))
  let v := (shaK.zip (w ++ shaSchedule 64 w)).foldl shaRound h
  List.zipWith (fun a b => (a + b) % 2 ^ 64) h v

/-- The SHA-512 digest of a message, 64 bytes. -/
def sha512 (l : List Byte) : List Byte :=
  let m := shaPad l
  (((List.range (m.length / 128)).foldl (fun h i => shaBlock h ((m.drop (128 * i)).take 128)) shaH).map (beBytes 8)).flatten

end Sys2Proof.Machine
end

