-- ==== Sys2Proof/Machine/Signature.lean ====
section
/-! DEFINITION. Ed25519 (RFC 8032), and the keys and certificates of the package (R522 to R524). Secret keys and seeds are constants of the part
(`Config`). -/

namespace Sys2Proof.Machine

/-! ### The field of 2^255 - 19 and the curve (RFC 8032, 5.1) -/

/-- The prime of the field. -/
def edP : Nat := 2 ^ 255 - 19

/-- The order of the base point. -/
def edL : Nat := 2 ^ 252 + 27742317777372353535851937790883648493

/-- A power in the field; `n` is the number of exponent bits. -/
def edPow : Nat → Nat → Nat → Nat
  | 0, _, _ => 1
  | n + 1, x, k =>
    let r := edPow n (x * x % edP) (k / 2)
    if k % 2 = 1 then r * x % edP else r

/-- The inverse in the field. -/
def edInv (x : Nat) : Nat := edPow 255 x (edP - 2)

/-- The curve constant d = -121665 / 121666. -/
def edD : Nat := 37095705934669439343138083508754565189542113879843219016388785533085940283555

/-- A point in extended homogeneous coordinates: x = X/Z, y = Y/Z, x*y = T/Z. -/
structure EdPoint where
  x : Nat
  y : Nat
  z : Nat
  t : Nat
  deriving DecidableEq, Repr

/-- The neutral element. -/
def edZero : EdPoint := ⟨0, 1, 1, 0⟩

/-- The base point. -/
def edBase : EdPoint :=
  let x := 15112221349535400772501151409588531511454012693041857206046113283949847762202
  let y := 46316835694926478169428394003475163141307993866256225615783033603165251855960
  ⟨x, y, 1, x * y % edP⟩

/-- The sum of two points (RFC 8032, 5.1.4). -/
def edAdd (p q : EdPoint) : EdPoint :=
  let a := (p.y + edP - p.x) * (q.y + edP - q.x) % edP
  let b := (p.y + p.x) * (q.y + q.x) % edP
  let c := p.t * 2 * edD % edP * q.t % edP
  let d := p.z * 2 * q.z % edP
  let e := b + edP - a
  let f := d + edP - c
  let g := d + c
  let h := b + a
  ⟨e * f % edP, g * h % edP, f * g % edP, e * h % edP⟩

/-- A multiple of a point; `n` is the number of bits of the factor. -/
def edMul : Nat → Nat → EdPoint → EdPoint
  | 0, _, _ => edZero
  | n + 1, k, p =>
    let r := edMul n (k / 2) (edAdd p p)
    if k % 2 = 1 then edAdd r p else r

/-- Whether two points are the same. -/
def edSame (p q : EdPoint) : Bool := p.x * q.z % edP == q.x * p.z % edP && p.y * q.z % edP == q.y * p.z % edP

/-- A point as a number of 256 bits: y, with the low bit of x on top (RFC 8032, 5.1.2). -/
def edEncode (p : EdPoint) : Nat :=
  let i := edInv p.z
  p.y * i % edP + p.x * i % edP % 2 * 2 ^ 255

/-- The point that a number encodes, if it does (RFC 8032, 5.1.3). -/
def edDecode (n : Nat) : Option EdPoint :=
  let y := n % 2 ^ 255
  let odd := n / 2 ^ 255 % 2
  if edP ≤ y then none else
  let u := (y * y + edP - 1) % edP
  let v := (edD * (y * y % edP) + 1) % edP
  let w := v * v % edP * v % edP
  let x := u * w % edP * edPow 255 (u * w % edP * (w * v % edP) % edP) ((edP - 5) / 8) % edP
  let x := if v * (x * x % edP) % edP = u then x else x * edPow 255 2 ((edP - 1) / 4) % edP
  if v * (x * x % edP) % edP ≠ u || (x = 0 && odd = 1) then none
  else
    let x := if x % 2 = odd then x else edP - x
    some ⟨x, y, 1, x * y % edP⟩

/-! ### Keys and signatures (RFC 8032, 5.1.5 to 5.1.7) -/

/-- The scalar of a secret key. -/
def edScalar (secret : Nat) : Nat :=
  let h := ofLeBytes ((sha512 (leBytes 32 secret)).take 32)
  h % 2 ^ 254 / 8 * 8 + 2 ^ 254

/-- The public key of a secret key. -/
def edPublicOf (secret : Nat) : Nat := edEncode (edMul 255 (edScalar secret) edBase)

/-- The signature of a message by a secret key, 64 bytes. -/
def edSignWith (secret : Nat) (m : List Byte) : List Byte :=
  let a := leBytes 32 (edPublicOf secret)
  let r := ofLeBytes (sha512 ((sha512 (leBytes 32 secret)).drop 32 ++ m)) % edL
  let rs := leBytes 32 (edEncode (edMul 253 r edBase))
  let k := ofLeBytes (sha512 (rs ++ a ++ m)) % edL
  rs ++ leBytes 32 ((r + k * edScalar secret) % edL)

/-- Whether a signature of 64 bytes by a public key over a message is good: the group equation multiplied by the cofactor 8. -/
def edVerify (key : Nat) (m sig : List Byte) : Bool :=
  let s := ofLeBytes (sig.drop 32)
  let k := ofLeBytes (sha512 (sig.take 32 ++ leBytes 32 key ++ m)) % edL
  match edDecode (ofLeBytes (sig.take 32)), edDecode key with
  | some r, some a =>
    sig.length == 64 && decide (s < edL) && edSame (edMul 4 8 (edMul 253 s edBase)) (edMul 4 8 (edAdd r (edMul 253 k a)))
  | _, _ => false

/-! ### The keys and certificates of the package (R522 to R524) -/

/-- A key that is derived from a fused seed (R523): the identity key, and the Bolometer's. -/
inductive PartKey where
  | identity | bolometer
  deriving DecidableEq, Repr

/-- The secret key from the seed: the first 32 bytes of SHA-512 of a text and the seed (R523). -/
def partSecret : PartKey → Nat
  | .identity => ofLeBytes ((sha512 ([0x48, 0x54, 0x50, 0x34, 0x2D, 0x49, 0x44] ++ leBytes 32 Config.identitySeed.toNat)).take 32)
  | .bolometer => ofLeBytes ((sha512 ([0x48, 0x54, 0x50, 0x34, 0x2D, 0x42, 0x4F, 0x4C] ++ leBytes 32 Config.bolometerSeed.toNat)).take 32)

/-- The public key of the part. -/
def partPublic (k : PartKey) : Nat := edPublicOf (partSecret k)

/-- A signature by a key of the part. -/
def partSign (k : PartKey) (m : List Byte) : List Byte := edSignWith (partSecret k) m

/-- The body of a certificate (R524). -/
def certBody (kind serial key issuer : Nat) (measure : List Byte) : List Byte :=
  leBytes 4 0x54524345 ++ leBytes 4 kind ++ leBytes 8 serial ++ leBytes 32 key ++ (sha512 (leBytes 32 issuer)).take 8 ++ List.replicate 8 0
    ++ (measure ++ List.replicate 64 0).take 64

/-- A certificate: its body and the issuer's signature over the digest of it (R524). -/
def certificate (body : List Byte) (issuerSecret : Nat) : List Byte := body ++ edSignWith issuerSecret (sha512 body)

/-- The issuing certificate, signed by the root key (R524). -/
def issuingCert : List Byte :=
  certificate (certBody 1 0 (edPublicOf Config.issuingSecret.toNat) (edPublicOf Config.rootSecret.toNat) []) Config.rootSecret.toNat

/-- The device certificate. -/
def deviceCert : List Byte :=
  certificate (certBody 2 Config.serial.toNat (partPublic .identity) (edPublicOf Config.issuingSecret.toNat) []) Config.issuingSecret.toNat

/-- The Bolometer certificate: MEASURE is the digest of the Bolometer ROM certified at test. -/
def bolometerCert : List Byte :=
  certificate (certBody 3 Config.serial.toNat (partPublic .bolometer) (edPublicOf Config.issuingSecret.toNat) (leBytes 64 Config.bolRomDigest.toNat))
    Config.issuingSecret.toNat

end Sys2Proof.Machine
end

