-- ==== Sys2Proof/Machine/Registers.lean ====
section
/-! DEFINITION. Register accesses (R6 to R13, R28, R49, R51, R53 to R55): what a register shows, what reading it changes, what
writing it does, and the rows that are register accesses. -/

namespace Sys2Proof.Machine

/-! ### Where registers live (R47, R48, R64) -/

/-- A register's address with its partition's page set where the register differs between sets, else with set 0 (R48, R256, R370,
R402, R460). -/
def homed (a : RegAddr) : RegAddr :=
  let keep := match a.kind with
    | .slc | .xch => true
    | .glp => decide (0x168 ≤ a.off)
    | .eth => decide (0x100 ≤ a.off ∧ a.off < 0x110) || decide (0x118 ≤ a.off ∧ a.off < 0x140) || decide (0x148 ≤ a.off) || a.off == 0x14
        || a.off == 0x10
    | .pcx => decide (0x100 ≤ a.off ∧ a.off < 0x110) || a.off == 0x10
    | _ => false
  let own := match a.kind with
    | .dom => decide (0x20 ≤ a.off ∧ a.off < 0x680) || decide (0x810 ≤ a.off ∧ a.off < 0x818) || a.off == 0
    | _ => true
  let a := if own then a else { a with inst := 0 }
  if keep then a else { a with part := 0 }

/-- The line of a register table that covers an address, with the offset at which its register begins. -/
def regBase (a : RegAddr) : Option (RegDef × Nat) :=
  (findDef (regDefs a.kind) a.off).map (fun d =>
    (d, if d.stride = 0 then d.off else d.off + (a.off - d.off) / d.stride * d.stride))

namespace State

/-- The register that an LPA of the control window names, by the blocks that the catalogue published (R47, R64). -/
def regAt (s : State) (lpa : Nat) : Option RegAddr :=
  if lpa < 0xF0000100000 then some ⟨.cat, 0, 0, lpa - 0xF0000000000⟩ else
  (s.blocks.find? (fun b => decide (b.base ≤ lpa) && decide (lpa < b.base + b.pages * 65536))).map
    (fun b => (homed ⟨b.kind, if b.part = 0xFF then 0 else b.part, b.inst, lpa - b.base⟩))

/-! ### What a register shows -/

/-- The power domain that holds a block's registers, if it is a switched cluster or region-fabric domain (R24, R28). -/
def regDomain (a : RegAddr) : Option Nat :=
  match a.kind with
  | .unit => some (a.inst / 4)
  | .arr | .vec | .cmem => some a.inst
  | .ctr | .fen => some (32 + a.inst)
  | _ => none

/-- Whether a register of a block is kept while its domain is off: BLK_ID, every performance counter, UNIT_CONFIG and
ARR_DENSITY_THRESH (R28). -/
def retained (a : RegAddr) (base : Nat) (d : RegDef) : Bool :=
  base == 0 || d.w1c != 0 || ((a.kind == .unit || a.kind == .arr) && base == 0x14)

/-- BLK_ID of a block (R49, R50). -/
def blkId (a : RegAddr) : Nat := a.kind.code + a.inst % 256 * 256 + 0x10000

/-- The 32 bytes of a fault record as a number (R193). -/
def faultBits (r : FaultRec) : Nat :=
  r.kind + r.unit * 2 ^ 8 + r.group * 2 ^ 16 + r.lane * 2 ^ 21 + (r.context + r.code * 2 ^ 16) * 2 ^ 32 + r.lanes * 2 ^ 64
  + (r.counter + r.region * 2 ^ 12) * 2 ^ 96 + r.pc * 2 ^ 128 + r.addr * 2 ^ 192

/-- The sum of a list of numbers. -/
def total (l : List Nat) : Nat := l.foldl (· + ·) 0

/-- Object `i` of partition `p`. -/
def obj (s : State) (p i : Nat) : Obj := s.objs.get {} (p * 65536 + i)

/-- The indices of the live objects of a partition. -/
def liveObjs (s : State) (p : Nat) : List Nat :=
  (s.objs.filter (fun e => e.2.live && e.1 / 65536 == p)).map (fun e => e.1 % 65536)

/-- The live object bytes of a partition in 64 KiB units. -/
def liveGranules (s : State) (p : Nat) : Nat := total ((s.liveObjs p).map (fun i => (s.obj p i).size))

/-- The unit registers that show state (R197, R198). -/
def unitReg32 (s : State) (a : RegAddr) (base : Nat) (u : Nat) : Option Nat :=
  let sel := s.reg (home a.kind a.inst 0x20)
  let g := s.grp u (bits sel 0 5)
  let t := g.thr (bits sel 5 5)
  let shown (v : Nat) : Option Nat := some (if g.live && s.groupHalted u (bits sel 0 5) then v else 0)
  let gs := (List.range 32).map (s.grp u)
  let halted := (List.range 32).any (fun k => (s.grp u k).live && s.groupHalted u k)
  if base = 0x10 then
    some ((gs.filter Grp.live).length + b2n halted * 64 + b2n ((s.unit u).fault.kind != 0) * 128
      + b2n ((s.partOfUnit u).any (fun p => s.hasCtx p && (s.ctxOf p).rc)) * 256)
  else if base = 0x1C then some (s.reg a / 2 * 2 + b2n (halted || s.halts.get false u))
  else if 0x80 ≤ base ∧ base < 0xA0 then some (bits (faultBits (s.unit u).fault) (8 * (base - 0x80)) 32)
  else if 0x1000 ≤ base ∧ base < 0x1400 then shown (t.getG ((base - 0x1000) / 4))
  else if base = 0x1400 then shown (t.p % 128)
  else if base = 0x1408 then shown t.pc
  else if 0x1800 ≤ base then shown (g.getU ((base - 0x1800) / 4))
  else none

/-- The counter registers that show state (R278, R280). -/
def ctrReg32 (s : State) (r base : Nat) : Option Nat :=
  let d := s.ctrDbg.get {} r
  if base = 0x14 then some d.value else if base = 0x18 then some d.floor else if base = 0x1C then some d.ceil
  else if base = 0x20 then some (min 0xFFFF d.waiters.length) else if base = 0x24 then some d.lastAgent
  else if base = 0x28 then some d.lastAmount else if base = 0x2C then some d.lastCmd
  else if 0x40 ≤ base ∧ base < 0xC0 then
    match d.waiters[(base - 0x40) / 16]? with
    | none => some (if base % 16 = 0 then 0xFFFF else 0)
    | some w => some (match base % 16 with
      | 0 => w.agent + w.detail * 65536
      | 4 => w.target
      | 8 => w.cmd
      | _ => 0)
  else if 0x10000 ≤ base then
    let c := s.ctr r ((base - 0x10000) / 16)
    some (match base % 16 with
      | 0 => c.value
      | 4 => c.floor
      | 8 => c.ceil
      | _ => 0)
  else none

/-- The fence registers that show state (R288). -/
def fenReg (s : State) (r base : Nat) : Option Nat :=
  if base < 0x10000 then none else
  let f := s.fence (r * 1024 + (base - 0x10000) / 32)
  some (match base % 32 with
    | 0 => f.value
    | 8 => f.state + (if f.faulted then f.code else 0) * 65536
    | 12 => f.owed
    | 16 => f.faultCmd
    | 20 => f.faultSrc
    | 24 => f.lastCmd
    | _ => 0)

/-- The object registers that show state (R317). -/
def objReg (s : State) (p base : Nat) : Option Nat :=
  if base = 0x10 then some (s.liveObjs p).length
  else if base = 0x18 then some (if s.hasCtx p then (s.ctxOf p).heapSize - s.liveGranules p * 65536 else 0)
  else if base < 0x10000 then none else
    let i := (base - 0x10000) / 16
    if i = 0 then some 0 else
    let o := s.obj p i
    some (match base % 16 with
      | 0 => if o.live then o.base >>> 16 else 0
      | 4 => if o.live then o.size + 2 ^ 31 else 0
      | 8 => o.gen
      | _ => if o.live then o.refs else 0)

/-- STATE of a stream (R324). -/
def strState (s : State) (p st : Nat) : Nat :=
  let x := s.str p st
  if x.stopped then 6 else if x.draining then 7 else if !s.hasCtx p then 0
  else if x.span.any (fun z => decide (0 < z.attempt)) || x.cmds.any (fun c => c.op == 0x11 && c.done.isNone) then 5
  else if x.skipping then 4
  else if x.cmds.any (fun c => !c.started) || 16 ≤ x.cmds.length then 3
  else if x.block.isNone && x.cmds.isEmpty then 1 else 2

/-- The stream registers that show state (R324, R332). -/
def strReg (s : State) (p base : Nat) : Option Nat :=
  let c := s.ctxOf p
  let inter := c.inter
  if base = 0x10 then
    some (s.ctxNum p + c.state * 65536 + (if s.hasCtx p then b2n c.rc + b2n c.tp3 * 2 + b2n c.conc * 4 else 0) * 2 ^ 18)
  else if base = 0x14 then some (c.numWr % 4096)
  else if base = 0x18 then some (s.ring p).next
  else if base = 0x1C then some (s.ring p).queue.length
  else if base = 0x40 then
    some (match inter with
      | none => 0
      | some i => (if c.conc then 0 else i.pos + i.admitted.length * 256) + 2 ^ 16 + b2n c.conc * 2 ^ 17)
  else if base = 0x44 then some ((inter.map (fun i => i.entries.length)).getD 0)
  else if 0x80 ≤ base ∧ base < 0xA0 then some (bits (faultBits c.firstFault) (8 * (base - 0x80)) 32)
  else if 0x100 ≤ base ∧ base < 0x200 then
    let st := (base - 0x100) / 64
    let x := s.str p st
    match (base - 0x100) % 64 with
    | 0x00 => some (s.strState p st + min 16 x.cmds.length * 8 + ((x.span.map Span.attempt).getD 0) * 256)
    | 0x08 => some (x.block.getD x.park)
    | 0x10 => some x.seq
    | 0x14 => some x.index
    | 0x18 => some x.errFence
    | _ => none
  else none

/-- The port registers that show state (R370). -/
def glpReg (s : State) (g base : Nat) : Option Nat :=
  let x := s.port g
  let n := if x.state = 3 then laneCount x.lanes else 0
  if base = 0x10 then some (x.state + n * 8 + b2n (x.state == 3 && decide (n < 12)) * 128 + x.cause * 256)
  else if base = 0x14 then some (x.peerDev + x.peerPort * 2 ^ 12 + b2n x.peerValid * 2 ^ 15 + x.peerFeed * 2 ^ 16 + x.peerLayout * 2 ^ 24)
  else if base = 0x18 then some x.peerSerial
  else if base = 0x20 then some ((if x.state = 3 then x.lanes else 0) + x.failed * 2 ^ 16)
  else if base = 0x28 then some (4096 - x.tags.length)
  else none

/-- The extent registers and the live bytes of a partition (R53, R440). -/
def prtReg (s : State) (p base : Nat) : Option Nat :=
  if base = 0x1C then some (s.liveGranules p)
  else if base < 0x1000 then none else
    let e := s.extent p ((base - 0x1000) / 32)
    some (match base % 32 with
      | 0 => e.base * 65536
      | 8 => e.limit * 65536
      | 16 => e.target * 65536
      | _ => e.perm + e.err * 256 + b2n e.valid * 2 ^ 31)

/-- Whether a transfer engine has a command in progress (R256). -/
def xfeBusy (s : State) (e : Nat) : Bool :=
  s.strs.any (fun x => x.2.cmds.any (fun c => c.engine == some e && c.done.isNone))

/-- The tile or vector instructions issued and not accepted in a cluster. -/
def queued (s : State) (c : Nat) (f : UnitSt → Nat) : Nat := total ((List.range 4).map (fun u => f (s.unit (4 * c + u))))

/-- The boot registers and DOM_CAL (R476, R503). STATE reads UPDATING while an update runs in READY or RECOVERY (notes/assumptions/37.md). -/
def domReg (s : State) (base : Nat) : Option Nat :=
  let b := s.dome.boot
  if base = 0x800 then some ((if b.update.isSome && b.state != 0 then 3 else b.state) + b.stage * 4 + b.cause * 256 + b.detail * 65536)
  else if base = 0x804 then some b.vector
  else if base = 0x808 then some b.running.fwVersion
  else if base = 0x80C then some b.running.cfgVersion
  else if 0xA00 ≤ base ∧ base < 0xA20 then
    let c := (s.dome.cal[(base - 0xA00) / 8]?).getD (0, 0)
    some (if base % 8 = 0 then c.1 else c.2)
  else none

/-- XCH_STATUS of dimension `d` as partition `p` sees it (R402). -/
def xchStatus (s : State) (p d : Nat) : Nat :=
  let x := s.xch.get {} p
  let (st, stage, bucket) := match x.exch with
    | none => (0, 0, 0)
    | some e =>
      if !e.dims.contains d then (0, 0, 0) else
      let i := e.dims.idxOf d
      let js := (e.jobs.filter (fun j : XJob => j.stage == i)).map XJob.bucket
      let lo := js.foldl min (js.headD 0)
      (if e.closing.isSome then 3 else if !e.ready.contains (2 * d) || !e.ready.contains (2 * d + 1) then 1 else 2, i, lo)
  st + stage * 4 + bucket * 16 + min 3 (x.gathers.filter (fun g => g.dims.contains d)).length * 65536 + b2n x.perm.isSome * 262144

/-- SNP_STATUS (R422). -/
def snpStatus (s : State) (p : Nat) : Nat :=
  let x := s.snaps.get {} p
  let saving := (List.range 3).foldl (fun a l =>
    a + b2n (x.saves.any (fun v => v.running && v.parts.any (fun y => y.layer == l && !y.ended))) * 2 ^ l) 0
  let layer := match x.fills.find? Fill.running with
    | some f => f.todo.headD 3
    | none => 3
  saving + x.fills.length * 8 + layer * 32

/-- ASSIGNED of a PCIe port: the links of partition `p` (R424, R460, R467). -/
def pcxAssigned (s : State) (p port : Nat) : Nat :=
  let c (o : Nat) : Nat := ofLeBytes ((s.dome.boot.running.cfg.drop o).take 4)
  if bits (c 8) (2 * port) 2 ≠ 2 then 0 else
  (List.range (2 ^ bits (c 8) (2 * port + 8) 2)).foldl (fun a l =>
    a + b2n (s.nParts == 1 || bits (c 0xC) (8 * port + 2 * l) 2 == p) * 2 ^ l) 0

/-- ETH_STATUS of a port as partition `p` sees it (R460). -/
def ethStatus (s : State) (p port : Nat) : Nat :=
  let c (o : Nat) : Nat := ofLeBytes ((s.dome.boot.running.cfg.drop (0x100 + 64 * port + o)).take 8)
  b2n (s.eth.get {} port).up + bits (c 0) 63 1 * 2 + bits (c 8) 8 3 * 4
    + (s.qps.filter (fun (e : Nat × Qp) => e.2.conn && e.2.part == p && e.2.port == port)).length * 65536

/-- What a register that shows state returns, for the register that begins at `base`; none for a stored register. ARR_STATUS.MODE is that of the oldest
accepted instruction that has not completed (DESIGN CHOICE, notes/assumptions/134.md). -/
def viewReg (s : State) (a : RegAddr) (base : Nat) : Option Nat :=
  match a.kind with
  | .unit => s.unitReg32 a base a.inst
  | .hku => s.unitReg32 a base (128 + a.inst)
  | .ctr => s.ctrReg32 a.inst base
  | .fen => s.fenReg a.inst base
  | .obj => s.objReg a.inst base
  | .str => s.strReg a.inst base
  | .glp => s.glpReg a.inst base
  | .prt => s.prtReg a.inst base
  | .arr =>
    if base = 0x10 then
      let x := s.arr a.inst
      some (b2n (!x.runs.isEmpty || x.held.isSome) + (((x.runs.head?.map TileRun.mode) <|> x.held.map (fun q => (tileD q.2.desc).mode)).getD 0) * 4 + s.queued a.inst (fun u => u.tileQ.length) * 16)
    else none
  | .vec =>
    if base = 0x10 then
      let v := s.vecs.get {} a.inst
      let bound := (s.arr a.inst).runs.find? (fun r => r.route == 1)
      some (b2n v.run.isSome + b2n v.full.isSome * 2 + ((bound.map TileRun.port).getD 0) * 4 + b2n bound.isSome * 128
        + s.queued a.inst (fun u => u.vecQ.length) * 256)
    else none
  | .slc =>
    if base = 0x10 then
      let busy := (s.opList.filter (fun e => e.2.filling && e.2.part == a.part && (s.sliceOf e.2.line).1 == a.inst)).length
      let locked := (s.lines.filter (fun l => l.2.lock.isSome && l.2.owner == a.part && (s.sliceOf (l.1 * 128)).1 == a.inst)).length
      some (busy + min 31 locked * 128)
    else none
  | .xfe => if base = 0x10 then some (b2n (s.xfeBusy a.inst)) else none
  | .id =>
    let cert (l : List Byte) (o : Nat) : Option Nat := some (ofLeBytes ((l.drop (base - o)).take 4))
    if base = 0x18 then some Config.serial.toNat
    else if 0x100 ≤ base ∧ base < 0x1C0 then cert deviceCert 0x100
    else if 0x200 ≤ base ∧ base < 0x2C0 then cert issuingCert 0x200
    else if 0x300 ≤ base ∧ base < 0x3C0 then cert bolometerCert 0x300
    else none
  | .dom => if base = 0x20 then some s.pkg.time else s.domReg base
  | .xch => if base = 0x10 then some (s.xchStatus a.part a.inst) else none
  | .snp => if base = 0x10 then some (s.snpStatus a.inst) else none
  | .eth => if base = 0x10 then some (s.ethStatus a.part a.inst) else none
  | .pcx => if base = 0x10 then some (s.reg (home .pcx a.inst 0x10) + s.pcxAssigned a.part a.inst * 4096) else none
  | _ => none

/-- Whether a register's domain is off and the register is not retained: it reads its reset value, and a write of it is ignored (R28). -/
def asleep (s : State) (a : RegAddr) (d : RegDef) (base : Nat) : Bool :=
  (match regDomain a with
    | some n => !s.domOn n
    | none => false) && !retained a base d

/-- The value of the register that begins at `base`, 32 or 64 bits (R7, R28, R49). -/
def regValue (s : State) (a : RegAddr) (d : RegDef) (base : Nat) : Nat :=
  let a := { a with off := base }
  if s.asleep a d base then d.reset
  else (match s.viewReg a base with
    | some v => v
    | none => s.reg a) &&& ((2 ^ 64 - 1) ^^^ d.wo)

/-! ### Reading (R6, R9, R13, R521) -/

/-- Whether a block shows latched values behind a register that is read first: a progress block behind PROG_STATE, the BOL_ block
behind BOL_READ_SEQ (R13, R521). -/
def latchLead (a : RegAddr) : Option (Nat × List Nat) :=
  match a.kind with
  | .prog => some (0x00, [0x08, 0x10, 0x18])
  | .bol => some (0x10, [0x14, 0x18, 0x20, 0x28] ++ (List.range 32).map (fun i => 0x100 + 4 * i))
  | _ => none

/-- The number under which a latched copy of a register is held. -/
def copyKey (a : RegAddr) (base : Nat) : Nat := regKey { a with part := 15, off := base }

/-- The registers behind a leading register are latched as they stand. -/
def latchBehind (s : State) (a : RegAddr) (l : List Nat) : State :=
  l.foldl (fun s o => { s with latch := s.latch.set 0 (copyKey a o) (s.reg { a with off := o }) }) s

/-- The full value that a read of the register at `base` returns, from its latched copy where its block latches. -/
def readValue (s : State) (a : RegAddr) (d : RegDef) (base : Nat) : Nat :=
  match latchLead a with
  | some (_, l) => if l.contains base then s.latch.get 0 (copyKey a base) else s.regValue a d base
  | none => s.regValue a d base

/-- A read of one word of the catalogue (R60, R61): CAT_EPOCH, its one 64-bit register, latches as R9 says. -/
def catRead (s : State) (off : Nat) : Nat × State :=
  let w (o : Nat) : Nat := ofLeBytes ((s.cat.drop o).take 4)
  let k := regKey (home .cat 0 0x18)
  if off = 0x18 then (w off, { s with latch := s.latch.set 0 k (w 0x1C) })
  else if off = 0x1C then (s.latch.get 0 k, s)
  else (w off, s)

/-- A read of one 32-bit word of a block (R7, R9, R13, R49, R60): the word, and the state with what the read latches. -/
def regRead (s : State) (a : RegAddr) : Nat × State :=
  if a.kind == .cat then s.catRead a.off
  else if a.off = 0 && a.kind != .prog then (blkId a, s)
  else match regBase a with
  | none => (0, s)
  | some (d, base) =>
    let s := match latchLead a with
      | some (lead, l) => if base = lead then s.latchBehind a l else s
      | none => s
    let k := regKey { a with off := base }
    if !d.wide then (s.readValue a d base % 2 ^ 32, s)
    else if a.off = base then
      let v := s.readValue a d base
      (v % 2 ^ 32, { s with latch := s.latch.set 0 k (v >>> 32) })
    else (s.latch.get 0 k, s)

/-- A 64-bit read by a housekeeping unit, both halves in one access (R9). -/
def regRead64 (s : State) (a : RegAddr) : Nat × State :=
  let (lo, s) := s.regRead a
  let (hi, s) := s.regRead { a with off := a.off + 4 }
  (lo + hi * 2 ^ 32, s)

/-! ### Writing (R8, R9) -/

/-- The fields of a register after a write, by access type (R8): RW stores, W1C clears, RWL stores until the lock. -/
def fieldWrite (locked : Bool) (d : RegDef) (old v : Nat) : Nat :=
  let m := d.rw ||| (if locked then 0 else d.rwl)
  let keep := (2 ^ 64 - 1) ^^^ (m % 2 ^ 64)
  ((old &&& keep) ||| (v &&& m)) &&& ((2 ^ 64 - 1) ^^^ (v &&& d.w1c))

/-- A value forced into a range. -/
def clamp (lo hi v : Nat) : Nat := max lo (min hi v)

/-- Write of an extent entry of 8-63 (R54, R55): a range register, or PRT_EXT_PERM with its checks. -/
def extentRange (s : State) (p e field v : Nat) : State :=
  if s.hasCtx p || e < 8 || 64 ≤ e then s else
  let x := s.extent p e
  let g := bits v 16 28
  let x := match field with
    | 0 => { x with base := g }
    | 1 => { x with limit := g }
    | _ => { x with target := g }
  { s with extents := s.extents.set {} (p * 64 + e) { x with valid := false } }

/-- The firmware entry of partition `p` whose PA range holds a range of granules whole, by number (R52, R54). -/
def firmwareFor (s : State) (p lo hi : Nat) : Option Extent :=
  ((List.range 8).map (s.extent p)).find? (fun x => x.valid && decide (x.target ≤ lo) && decide (hi ≤ x.target + x.limit - x.base))

/-- The check of an extent entry (R54): the first failing check, 0 if none. -/
def extentCheck (s : State) (p e : Nat) (x : Extent) (perm : Nat) : Nat :=
  if x.limit < x.base then 2
  else if (List.range 64).any (fun i => i != e && (s.extent p i).valid
      && decide ((s.extent p i).base ≤ x.limit) && decide (x.base ≤ (s.extent p i).limit)) then 3
  else match s.firmwareFor p x.target (x.target + x.limit - x.base) with
    | none => 4
    | some f => if (perm &&& (f.perm ^^^ 0x3F) &&& 0x3C) ≠ 0 then 5 else 0

/-- A write of PRT_EXT_PERM (R54, R55). -/
def extentPerm (s : State) (p e v : Nat) : State :=
  if e < 8 || 64 ≤ e then s else
  let x := s.extent p e
  let put (x : Extent) : State := { s with extents := s.extents.set {} (p * 64 + e) x }
  if s.hasCtx p then put { x with err := 1 }
  else if !bit v 31 then put { x with perm := bits v 0 6, valid := false }
  else
    let c := s.extentCheck p e x (bits v 0 6)
    put { x with perm := bits v 0 6, valid := c == 0, err := c }

/-- CTR_DBG_SEL latches the snapshot of a counter (R278). -/
def ctrSelect (s : State) (r v : Nat) : State :=
  let n := bits v 0 12
  let c := s.ctr r n
  let d : CtrDbg := { value := c.value, floor := c.floor, ceil := c.ceil, waiters := c.waiters, lastAgent := c.lastAgent,
                      lastAmount := c.lastAmount, lastCmd := c.lastCmd }
  { s.setReg (home .ctr r 0x10) n with ctrDbg := s.ctrDbg.set {} r d }

/-- A write of UNIT_DBG_CTL (R195, R197): HALT while debug halting is enabled, RESUME, STEP. -/
def dbgCtl (s : State) (u v : Nat) : State :=
  let s := s.setReg (unitReg u 0x18) (v &&& 0x7C7)
  let s := if bit v 3 && bit v 0 then s.debugHalt u none 0 0 else s
  let s := if bit v 4 then
      let s := (List.range 32).foldl (fun s k =>
        let g := s.grp u k
        if g.live && s.groupHalted u k then s.setGrp u k { g with halted := false, step := false, pass := true } else s) s
      { s with halts := s.halts.set false u false }
    else s
  if bit v 5 then
    let k := bits v 6 5
    let g := s.grp u k
    if g.live && s.groupHalted u k then s.setGrp u k { g with step := true } else s
  else s

/-- A write of the debug window, which takes effect while the selected group is halted (R197). -/
def dbgWindow (s : State) (u sel base v : Nat) : State :=
  let k := bits sel 0 5
  let l := bits sel 5 5
  let g := s.grp u k
  if !(g.live && s.groupHalted u k) then s
  else if base < 0x1400 then s.setGrp u k (g.modThr l (fun t => t.setG ((base - 0x1000) / 4) v))
  else if base = 0x1400 then s.setGrp u k (g.modThr l (fun t => { t with p := v % 128 }))
  else if base = 0x1408 then s.setGrp u k (g.modThr l (fun t => { t with pc := v % 2 ^ 44 }))
  else s.setGrp u k (g.setU ((base - 0x1800) / 4) v)

/-- A write of a unit's register. -/
def unitWrite (s : State) (a : RegAddr) (d : RegDef) (u base v : Nat) : State :=
  if base = 0x14 then
    if (s.partOfUnit u).any s.hasCtx then s else
    s.setReg a (clamp 20 31 (bits v 0 5) + clamp 1 65504 (bits v 8 16) * 256)
  else if base = 0x18 then s.dbgCtl u v
  else if 0x1000 ≤ base then s.dbgWindow u (s.reg { a with off := 0x20 }) base v
  else s.setReg a (fieldWrite s.pkg.locked d (s.reg a) v)

/-- The Dome answers a mailbox request (R497): to the BMC by MCTP, to a partition in DOM_MBX_RSP. -/
def mbxAnswer (s : State) (r : DomReq) (status data : Nat) : State :=
  if 4 ≤ r.who then s.emit (.mailbox r.who r.kind status r.seq data) else
  let s := (s.setReg (home .dom r.who 0x110) (r.kind + status * 2 ^ 8 + r.seq * 2 ^ 16)).setReg (home .dom r.who 0x114) data
  { s with dome := { s.dome with open_ := s.dome.open_.erase r.who } }

/-- Requests of a reserved kind at the front are refused (R498): NOT_READY before the package is ready (R496), else BAD_REQUEST. -/
def answerReserved (fuel : Nat) (s : State) : State :=
  match fuel with
  | 0 => s
  | fuel + 1 =>
    match s.dome.reqs with
    | r :: l =>
      if 1 ≤ r.kind && r.kind ≤ 12 then s
      else answerReserved fuel ({ s with dome := { s.dome with reqs := l } }.mbxAnswer r (if s.dome.boot.state = 1 then 3 else 4) 0)
    | [] => s

/-- A write of DOM_MBX_REQ by partition `p` (R497): ignored and counted while a request of the partition is unanswered; with a SEQ
unlike the last submitted it submits the request with its arguments. -/
def mailboxRequest (s : State) (p v : Nat) : State :=
  let d := s.dome
  if d.open_.contains p then s.bump (home .dom p 0x320) 1 else
  let s := s.setReg (home .dom p 0x100) (v &&& 0xFFFF00FF)
  if bits v 16 16 = (d.lastSeq[p]?).getD 0 then s else
  let r : DomReq := { who := p, kind := bits v 0 8, seq := bits v 16 16, a0 := s.reg (home .dom p 0x104), a1 := s.reg (home .dom p 0x108),
                      a2 := s.reg (home .dom p 0x10C) }
  answerReserved 8 { s with dome := { d with reqs := d.reqs ++ [r], open_ := d.open_ ++ [p], lastSeq := d.lastSeq.set p (bits v 16 16) } }

/-- A write of ID_REQ by partition `p` (R529): ignored while BUSY; a new SEQ starts a report for the nonce in ID_NONCE. -/
def idRequest (s : State) (p v : Nat) : State :=
  let st := s.reg (home .id p 0x10)
  if bit st 0 then s else
  let old := bits (s.reg (home .id p 0x14)) 16 16
  let s := s.setReg (home .id p 0x14) (v &&& 0xFFFF0000)
  if bits v 16 16 = old then s else
  let nonce := ((List.range 8).map (fun i => leBytes 4 (s.reg (home .id p (0x40 + 4 * i))))).flatten
  { s.setReg (home .id p 0x10) (1 + bits v 16 16 * 65536) with
    dome := { s.dome with reports := s.dome.reports ++ [{ who := p, seq := bits v 16 16, nonce := nonce }] } }

/-- The full value `v` written to the register that begins at `base` (R8 and the register's own rule); `idx` is the index of the
REGWRITE command that carries the write, or 0. -/
def regWriteFull (s : State) (a : RegAddr) (d : RegDef) (base v idx : Nat) : State :=
  let a := { a with off := base }
  if s.asleep a d base then s else
  let generic : State := s.setReg a (fieldWrite s.pkg.locked d (s.reg a) v)
  match a.kind with
  | .prt =>
    if base < 0x1000 then generic else
    let e := (base - 0x1000) / 32
    match base % 32 with
    | 0 => s.extentRange a.inst e 0 v
    | 8 => s.extentRange a.inst e 1 v
    | 16 => s.extentRange a.inst e 2 v
    | _ => s.extentPerm a.inst e v
  | .ctr =>
    if base = 0x10 then s.ctrSelect a.inst v
    else if base < 0x10000 then generic
    else s.ctrWrite a.inst ((base - 0x10000) / 16) (base % 16 / 4) (v % 2 ^ 32) idx
  | .fen =>
    if base < 0x10000 then generic
    else if base % 32 = 28 && bit v 0 then s.fenceReset (a.inst * 1024 + (base - 0x10000) / 32) else s
  | .unit => s.unitWrite a d a.inst base v
  | .hku => s.unitWrite a d (128 + a.inst) base v
  | .xch => if base = 0x14 then s.setReg a (max 1 (v % 65536)) else generic
  | .hbm => if base = 0x14 then (if s.pkg.locked then s else s.setReg a (max 1 (v % 256))) else generic
  | .id => if base = 0x14 then s.idRequest a.inst v else generic
  | .dom => if base = 0x100 then s.mailboxRequest a.inst v else generic
  | _ => generic

/-- A write of one 32-bit word of a block (R7, R8, R9); no half of a register whose domain is off takes one (R28). -/
def regWrite (s : State) (a : RegAddr) (v idx : Nat) : State :=
  match regBase a with
  | none => s
  | some (d, base) =>
    if s.asleep a d base then s
    else if !d.wide then s.regWriteFull a d base (v % 2 ^ 32) idx
    else
      let k := regKey { a with off := base }
      if a.off = base then { s with held := s.held.set none k (some (v % 2 ^ 32)) }
      else
        let lo := (s.held.get none k).getD (s.regValue a d base % 2 ^ 32)
        { s with held := s.held.set none k none }.regWriteFull a d base (lo + v % 2 ^ 32 * 2 ^ 32) idx

/-- A 64-bit write, both halves in one access (R9). -/
def regWrite64 (s : State) (a : RegAddr) (v idx : Nat) : State :=
  (s.regWrite a (v % 2 ^ 32) idx).regWrite { a with off := a.off + 4 } (v >>> 32) idx

/-- `n` bytes read at an LPA by an agent that is no thread: memory, or the words of register pages in ascending order (R51). -/
def busRead (s : State) (lpa n : Nat) : List Byte × State :=
  match place lpa with
  | .control =>
    let (l, s) := (List.range ((lpa + n + 3) / 4 - lpa / 4)).foldl (fun (x : List Byte × State) i =>
      match x.2.regAt ((lpa / 4 + i) * 4) with
      | some a => let (v, s) := x.2.regRead a; (x.1 ++ leBytes 4 v, s)
      | none => (x.1 ++ [0, 0, 0, 0], x.2)) ([], s)
    ((l.drop (lpa % 4)).take n, s)
  | _ => (s.peekBytes lpa n, s)

/-- `n` bytes at a PA of partition `p` as a transfer engine or a block that works through one reads them: each line a load at its slice (R237, R239,
R373), a register page word by word (R51). -/
def loadPa (s : State) (p pa n : Nat) : List Byte × State :=
  if n = 0 then ([], s) else
  let s := s.readPa p pa n
  (List.range ((pa + n - 1) / 128 - pa / 128 + 1)).foldl (fun (x : List Byte × State) i =>
    let lo := max pa ((pa / 128 + i) * 128)
    let hi := min (pa + n) ((pa / 128 + i + 1) * 128)
    match x.2.translate p lo 0 with
    | some lpa => let (l, s) := x.2.busRead lpa (hi - lo); (x.1 ++ l, s)
    | none => (x.1 ++ List.replicate (hi - lo) 0, x.2)) ([], s)

/-- The read of a register as a command: its value leaves on the output. -/
def readOut (s : State) (a : RegAddr) : State :=
  let (v, s) := s.regRead (homed a)
  s.emit (.value a.kind.code a.inst a.off v)

end State

/-! ### The rows -/

/-- LOW_WORD_READ (R9). -/
def execLowWordRead (a : RegAddr) (s : State) : Out := .next (s.readOut a)
/-- LOW_WORD_WRITE (R9). -/
def execLowWordWrite (a : RegAddr) (w : W32) (s : State) : Out := .next (s.regWrite (homed a) w.toNat 0)
/-- HIGH_WORD_WRITE (R9). -/
def execHighWordWrite (a : RegAddr) (w : W32) (s : State) : Out := .next (s.regWrite (homed a) w.toNat 0)
/-- PROG_STATE_READ (R13) of progress block `n`. -/
def execProgStateRead (n : Nat) (s : State) : Out := .next (s.readOut (home .prog n 0))
/-- BOL_READ_SEQ_READ (R521) by partition `p`. -/
def execBolReadSeqRead (p : Fin 4) (s : State) : Out := .next (s.readOut (home .bol p.val 0x10))
/-- REGISTER_WRITE (R8). -/
def execRegisterWrite (a : RegAddr) (w : W32) (s : State) : Out := .next (s.regWrite (homed a) w.toNat 0)
/-- EXTENT_PERM_WRITE (R54). -/
def execExtentPermWrite (p : Fin 4) (e : Fin 64) (w : W32) (s : State) : Out := .next (s.extentPerm p.val e.val w.toNat)
/-- EXTENT_RANGE_WRITE (R54): field 0 BASE, 1 LIMIT, 2 TARGET. -/
def execExtentRangeWrite (p : Fin 4) (e : Fin 64) (field : Fin 3) (v : W64) (s : State) : Out :=
  .next (s.extentRange p.val e.val field.val v.toNat)
/-- CTR_ENTRY_WRITE (R275): field 0 VALUE, 1 FLOOR, 2 CEIL of counter `n` of region `r`. -/
def execCtrEntryWrite (r : Fin 4) (n : Fin 4096) (field : Fin 3) (w : W32) (s : State) : Out :=
  .next (s.regWrite (home .ctr r.val (0x10000 + 16 * n.val + 4 * field.val)) w.toNat 0)
/-- CTR_DBG_SEL_WRITE (R278). -/
def execCtrDbgSelWrite (r : Fin 4) (w : W32) (s : State) : Out := .next (s.regWrite (home .ctr r.val 0x10) w.toNat 0)
/-- FEN_CTL_RESET (R287). -/
def execFenCtlReset (r : Fin 4) (f : Fin 1024) (s : State) : Out :=
  .next (s.regWrite (home .fen r.val (0x1001C + 32 * f.val)) 1 0)
/-- DBG_HALT (R195): HALT written beside the settings of UNIT_DBG_CTL. -/
def execDbgHalt (u : Fin 132) (s : State) : Out :=
  .next (s.regWrite (State.unitReg u.val 0x18) (s.reg (State.unitReg u.val 0x18) + 8) 0)
/-- DBG_RESUME (R197). -/
def execDbgResume (u : Fin 132) (s : State) : Out :=
  .next (s.regWrite (State.unitReg u.val 0x18) (s.reg (State.unitReg u.val 0x18) + 16) 0)
/-- DBG_STEP (R197) of group slot `k`. -/
def execDbgStep (u : Fin 132) (k : Fin 32) (s : State) : Out :=
  .next (s.regWrite (State.unitReg u.val 0x18) (bits (s.reg (State.unitReg u.val 0x18)) 0 3 + 32 + k.val * 64) 0)

end Sys2Proof.Machine
end

