-- ==== Sys2Proof/Machine/Commands.lean ====
section
/-! DEFINITION. Stream commands: their fields and checks, addresses and handles, objects, spans, and what every start shares (R96 to
R98, R300 to R316, R326 to R331). -/

namespace Sys2Proof.Machine

/-! ### The slot -/

/-- The bits of the 32-byte body that a command uses, as (offset, lowest bit, width) fields (R307). -/
def bodyFields : Nat → List (Nat × Nat × Nat)
  | 0x01 => [(0x10, 0, 64), (0x18, 0, 64), (0x20, 0, 32), (0x24, 0, 22)]
  | 0x02 => [(0x10, 0, 64), (0x18, 0, 9)]
  | 0x03 => [(0x10, 0, 64), (0x18, 0, 64), (0x20, 0, 32), (0x24, 0, 32), (0x28, 0, 64)]
  | 0x04 => [(0x10, 0, 64), (0x18, 0, 64), (0x20, 0, 64), (0x28, 0, 32)]
  | 0x05 => [(0x10, 0, 14), (0x14, 0, 24), (0x18, 0, 24), (0x1C, 0, 32), (0x20, 0, 24), (0x24, 0, 24)]
  | 0x06 => [(0x10, 0, 14), (0x14, 0, 32)]
  | 0x07 => [(0x10, 0, 15), (0x18, 0, 64)]
  | 0x09 => [(0x10, 0, 64), (0x18, 0, 64), (0x20, 0, 1)]
  | 0x0A => [(0x10, 0, 64), (0x18, 0, 64), (0x20, 0, 17)]
  | 0x10 => [(0x10, 0, 64), (0x18, 0, 20), (0x1C, 0, 32), (0x20, 0, 96)]
  | 0x20 => [(0x10, 0, 64), (0x18, 0, 64), (0x20, 0, 4)]
  | 0x21 => [(0x10, 0, 64), (0x18, 0, 64), (0x20, 0, 2)]
  | 0x22 => [(0x10, 0, 64), (0x18, 0, 64), (0x20, 0, 13), (0x24, 0, 32)]
  | 0x23 => [(0x10, 0, 64), (0x18, 0, 64), (0x20, 0, 3)]
  | 0x30 => [(0x10, 0, 64), (0x18, 0, 64), (0x20, 0, 1)]
  | 0x31 | 0x32 => [(0x10, 0, 32), (0x14, 0, 16)]
  | _ => []

/-- The used body bits as a mask over the body's 256 bits. -/
def bodyMask (op : Nat) : Nat :=
  (bodyFields op).foldl (fun a f => a ||| (2 ^ f.2.2 - 1) <<< (8 * (f.1 - 0x10) + f.2.1)) 0

/-- Whether a command may stand on a stream: 0 F, 1 B, 2 U, 3 X (R306). -/
def opOnStream (op st : Nat) : Bool :=
  match op with
  | 0x00 | 0x01 | 0x03 | 0x04 | 0x05 | 0x06 | 0x07 | 0x08 | 0x09 | 0x0A | 0x30 | 0x31 | 0x32 => true
  | 0x02 => decide (st < 2)
  | 0x10 | 0x11 | 0x12 => decide (st < 3)
  | 0x20 | 0x21 | 0x22 | 0x23 => st == 3
  | _ => false

/-- EVAL of a command. -/
def Cmd.eval (c : Cmd) : Bool := bit c.slot.toNat 10
/-- RECOVER of a command. -/
def Cmd.recover (c : Cmd) : Bool := bit c.slot.toNat 11
/-- BARRIER of a command, which FENCE implies (R306). -/
def Cmd.barrier (c : Cmd) : Bool := bit c.slot.toNat 8 || c.op == 0x08
/-- A bit field of the body. -/
def Cmd.f (c : Cmd) (off lo w : Nat) : Nat := bits c.slot.toNat (8 * off + lo) w
/-- The borrowed counters of a command as region * 4096 + number. -/
def Cmd.borrows (c : Cmd) : List Nat :=
  (List.range (c.f 0x30 16 7)).map (fun i => c.f 0x30 12 2 * 4096 + c.f 0x30 0 12 + i)

/-- The address fields of a command: offset, and whether the GLOBAL form is allowed (R307). -/
def addrFields (c : Cmd) : List (Nat × Bool) :=
  match c.op with
  | 0x01 => [(0x10, false), (0x18, false)]
  | 0x02 => [(0x10, false)]
  | 0x03 => [(0x10, true), (0x18, true)] ++ (if bit (c.w32 0x24) 0 then [(0x28, false)] else [])
  | 0x04 => [(0x10, true)]
  | 0x10 => [(0x10, false)]
  | 0x20 | 0x21 | 0x23 => [(0x10, false)]
  | 0x22 => [(0x10, false), (0x18, false)]
  | _ => []

/-- Whether a command slot breaks R300, R303 or R306 for a stream of a context: the wrong context, a reserved bit, an unused body bit, a
reserved or misplaced opcode, EVAL off F, or a borrowed list out of range. -/
def Cmd.malformed (c : Cmd) (st context : Nat) : Bool :=
  let x := c.slot.toNat
  decide (bits x 16 16 ≠ context) || decide (bits x 12 4 ≠ 0) || decide (bits (c.w32 4) 12 20 ≠ 0)
  || decide (bits x 0x80 256 &&& bodyMask c.op ≠ bits x 0x80 256)
  || decide (c.f 0x30 14 2 ≠ 0) || decide (c.f 0x30 23 41 ≠ 0)
  || decide (64 < c.f 0x30 16 7) || decide (4096 < c.f 0x30 0 12 + c.f 0x30 16 7)
  || !opOnStream c.op st || (c.eval && st != 0)

namespace State

/-! ### Objects (R312 to R316) -/

/-- The state with an object changed. -/
def setObj (s : State) (p i : Nat) (o : Obj) : State := { s with objs := s.objs.set {} (p * 65536 + i) o }

/-- Whether a handle names a live object of its generation (R313, R316). -/
def handleOk (s : State) (p h : Nat) : Bool :=
  let o := s.obj p (h % 65536)
  h % 65536 != 0 && o.live && o.gen == bits h 16 16

/-- OVER_QUOTA kept in step with live bytes and quota; the event is posted each time it is set (R431). -/
def checkQuota (s : State) (p : Nat) : State :=
  let a := home .prt p 0x10
  let beyond := decide (s.reg (home .prt p 0x18) < s.liveGranules p)
  let was := bit (s.reg a) 3
  let s := s.setReg a (putBits (s.reg a) 3 1 (b2n beyond))
  if beyond && !was then s.post p 0x0206 0 0 0 p (s.liveGranules p * 65536) else s

/-- The next generation: 0xFFFF wraps to 1 (R313). -/
def nextGen (g : Nat) : Nat := if 0xFFFF ≤ g then 1 else g + 1

/-- An object freed: its generation advances (R315). -/
def freeObj (s : State) (p i : Nat) : State :=
  (s.setObj p i { gen := nextGen (s.obj p i).gen }).checkQuota p

/-- References of object `i` removed; at zero it is freed (R315). -/
def unref (s : State) (p i n : Nat) : State :=
  let o := s.obj p i
  if !o.live then s
  else if o.refs ≤ n then s.freeObj p i
  else s.setObj p i { o with refs := o.refs - n }

/-- References of object `i` added. -/
def addRef (s : State) (p i n : Nat) : State := let o := s.obj p i; s.setObj p i { o with refs := o.refs + n }

/-- The lowest heap address, in 64 KiB granules, at which `n` granules fit (R312). -/
def heapFit (s : State) (p n : Nat) : Option Nat :=
  let c := s.ctxOf p
  let lo := c.heapBase / 65536
  let hi := lo + c.heapSize / 65536
  let live := (s.liveObjs p).map (fun i => let o := s.obj p i; (o.base / 65536, o.size))
  let at_ := lo :: live.map (fun o => o.1 + o.2)
  let ok := at_.filter (fun a => decide (lo ≤ a) && decide (a + n ≤ hi) && live.all (fun o => decide (a + n ≤ o.1) || decide (o.1 + o.2 ≤ a)))
  ok.foldl (fun b a => match b with
    | none => some a
    | some b => some (min a b)) none

/-- The lowest free index of an object table (R314). -/
def freeIndex (s : State) (p : Nat) : Option Nat := ((List.range 65535).map (· + 1)).find? (fun i => !(s.obj p i).live)

/-! ### Addresses (R58, R304) -/

/-- The first failing check of an address field: 0 if none (R304, R316). -/
def addrCheck (s : State) (p v : Nat) (glob : Bool) : Nat :=
  match bits v 62 2 with
  | 0 => if bits v 44 18 = 0 then 0 else 0x0102
  | 1 => if glob && bits v 56 6 = 0 then 0 else 0x0102
  | 2 =>
    if !s.handleOk p (bits v 0 32) then 0x0201
    else if (s.obj p (bits v 0 16)).size * 65536 ≤ bits v 32 30 * 64 then 0x0802 else 0
  | _ => 0x0102

/-- Where an address field points: a device other than this one, if any, and the PA. -/
def addrOf (s : State) (p v : Nat) : Option Nat × Nat :=
  match bits v 62 2 with
  | 1 => (if bits v 44 12 = s.self then none else some (bits v 44 12), bits v 0 44)
  | 2 => (none, (s.obj p (bits v 0 16)).base + bits v 32 30 * 64)
  | _ => (none, bits v 0 44)

/-- The handles that the address fields and HANDLE of a command name (R315). -/
def cmdRefs (c : Cmd) : List Nat :=
  ((addrFields c).filter (fun f => bits (c.w64 f.1) 62 2 == 2)).map (fun f => bits (c.w64 f.1) 0 32)
  ++ (if c.op == 0x31 || c.op == 0x32 then [bits (c.w32 0x10) 0 32] else [])

/-- The reference that a command took on the object of a handle removed, where that object is still the one it names (R315). -/
def dropRef (s : State) (p h : Nat) : State := if s.handleOk p h then s.unref p (bits h 0 16) 1 else s

/-- The first code that is not 0. -/
def firstCode (l : List Nat) : Nat := (l.find? (· != 0)).getD 0

/-! ### Spans (R97, R309) -/

/-- The default promotion of an attempt-0 format (R97). -/
def promotion (f attempt : Nat) : Nat :=
  match f, attempt with
  | 0xA, 1 | 0xB, 1 | 0xC, 1 => 0x8
  | 0xA, _ | 0xB, _ | 0xC, _ => 0x2
  | 0x8, 1 | 0x9, 1 => 0x2
  | 0x8, _ | 0x9, _ => 0x0
  | 0x1, _ | 0x2, _ => 0x0
  | f, _ => f

/-- The format of slot `i` of FORMATS at an attempt, defaults applied (R97). -/
def slotFormat (formats i attempt : Nat) : Nat :=
  let e := bits formats (12 * i + 4 * attempt) 4
  if attempt = 0 || e ≠ 0 then e else promotion (bits formats (12 * i) 4) attempt

/-- The current formats of a span, 4 bits for each slot, as u62 holds them (R309). -/
def spanFormats (formats slots attempt : Nat) : Nat :=
  (List.range slots).foldl (fun a i => a + slotFormat formats i attempt <<< (4 * i)) 0

/-- Whether the formats of a slot obey R97: no G16 or reserved code, and no largest value below that of the attempt before. -/
def slotOk (formats i : Nat) : Bool :=
  let code (a : Nat) : Nat := slotFormat formats i a
  let named := (List.range 3).all (fun a => decide (bits formats (12 * i + 4 * a) 4 < 13))
  let value (a : Nat) : Fv := match fmtOfCode (code a) with
    | some f => let (m, e) := f.largest; .fin false m e
    | none => .fin false 0 0
  named && !(value 1).below (value 0) && !(value 2).below (value 1)

/-- Whether a stream is inside an open span before its REDO_COMMIT is parsed. -/
def inSpan (x : Str) : Bool := x.span.any (fun z => !z.ended && !z.parsedCommit)

/-- Whether a counter is one that the open span borrows (R98). -/
def spanBorrows (x : Str) (k : Nat) : Bool := x.span.any (fun z => z.borrowed.any (fun b => b.1 == k))

/-- The counter that a command of a span names, if any (R311). -/
def namedCounter (c : Cmd) : Option Nat :=
  match c.op with
  | 0x06 => some (c.f 0x10 12 2 * 4096 + c.f 0x10 0 12)
  | 0x07 => if c.f 0x10 14 1 = 0 then some (c.f 0x10 12 2 * 4096 + c.f 0x10 0 12) else none
  | 0x03 => if c.f 0x24 1 1 = 1 then some (c.f 0x24 14 2 * 4096 + c.f 0x24 2 12) else none
  | 0x04 => if c.f 0x28 1 1 = 1 then some (c.f 0x28 14 2 * 4096 + c.f 0x28 2 12) else none
  | _ => none

/-- The span check of a command at parse (R311): 0 or BAD_COMMAND. -/
def spanCheck (x : Str) (c : Cmd) : Nat :=
  match x.span with
  | none => if c.op == 0x11 || c.op == 0x12 then 0x0102 else 0
  | some z =>
    if z.ended then (if c.op == 0x11 || c.op == 0x12 then 0x0102 else 0)
    else if c.op == 0x10 || c.op == 0x30 || c.op == 0x31 || c.op == 0x32 || c.op == 0x0A || c.op == 0x09 then 0x0102
    else if c.op == 0x11 && z.parsedCommit then 0x0102
    else if c.op == 0x12 && !z.parsedCommit then 0x0102
    else match namedCounter c with
      | some k => if spanBorrows x k then 0 else 0x0102
      | none => 0

/-! ### The checks of a command at parse (R302, R303, R307 to R316) -/

/-- Whether a region is one of partition `p`. -/
def ownsRegion (s : State) (p r : Nat) : Bool := s.partOfRegion r == p

/-- Groups that a cluster can hold for a declared number of registers (R168, R169). -/
def groupLimit (regs : Nat) : Nat := 4 * min 32 (2048 / ((regs + 7) / 8 * 8))

/-- The checks of R309 on a LAUNCH. -/
def launchCheck (s : State) (p : Nat) (c : Cmd) : Nat :=
  let regs := c.f 0x24 0 8
  let groups := c.f 0x24 8 8
  let clusters := c.w32 0x20
  if regs = 0 || groups = 0 || 128 < groups || 61 < c.f 0x24 16 6 || clusters = 0 || groupLimit regs < groups
      || (s.addrOf p (c.w64 0x10)).2 % 8 ≠ 0 then 0x0102
  else if (List.range 32).any (fun k => clusters.testBit k && s.partOfCluster k != p) then 0x0802
  else 0

/-- Whether a LAUNCH of a stream is governed by the installed table (R326, R330). -/
def governed (s : State) (p st : Nat) (c : Cmd) : Bool :=
  decide (st < 2) && (s.ctxOf p).inter.isSome && !(st == 0 && c.eval)

/-- Whether a LAUNCH being parsed will be governed by a table: the installed one, or that of a TILE_INTERLEAVE of its stream in flight (R328, R329). -/
def willGovern (s : State) (p st : Nat) (c : Cmd) : Bool :=
  decide (st < 2) && !(st == 0 && c.eval)
    && ((s.ctxOf p).inter.isSome || (s.str p st).cmds.any (fun d => d.op == 0x02 && (d.done.getD 0) == 0))

/-- The checks of a command's own fields, other than addresses. -/
def bodyCheck (s : State) (p st : Nat) (c : Cmd) : Nat :=
  let region (r : Nat) : Nat := if s.ownsRegion p r then 0 else 0x0802
  match c.op with
  | 0x02 => if c.f 0x18 0 9 = 0 || 256 < c.f 0x18 0 9 then 0x0102 else 0
  | 0x03 => if c.w32 0x20 = 0 then 0x0102 else if c.f 0x24 1 1 = 1 then region (c.f 0x24 14 2) else 0
  | 0x04 =>
    if c.w64 0x18 % (if c.f 0x28 0 1 = 1 then 8 else 4) ≠ 0 then 0x0102
    else if c.f 0x28 1 1 = 1 then region (c.f 0x28 14 2) else 0
  | 0x05 =>
    let o := c.f 0x10 6 2
    if (o ≠ 1 && o ≠ 3) || (fmtOfCode (c.f 0x10 8 4)).isNone || c.f 0x1C 0 16 % 4 ≠ 0 || c.f 0x1C 0 16 = 0 || c.f 0x1C 16 16 = 0 then 0x0102
    else if s.partOfCluster (c.f 0x10 0 5) = p then 0 else 0x0802
  | 0x06 => region (c.f 0x10 12 2)
  | 0x07 =>
    if !s.ownsRegion p (c.f 0x10 12 2) then 0x0802
    else if c.f 0x10 14 1 = 0 then (if c.w32 0x1C = 0 then 0 else 0x0102)
    else if 1024 ≤ c.f 0x10 0 12 then 0x0102 else 0
  | 0x09 => if bits (c.w64 0x10) 44 20 ≠ 0 || c.w64 0x10 % (if c.f 0x20 0 1 = 1 then 8 else 4) ≠ 0 then 0x0102 else 0
  | 0x10 =>
    let n := c.f 0x18 16 4
    if n = 0 || 8 < n || !(List.range n).all (fun i => slotOk (c.f 0x20 0 96) i) then 0x0102 else 0
  | 0x22 => if c.f 0x20 0 13 = 0 || 4096 < c.f 0x20 0 13 then 0x0102 else 0
  | 0x30 =>
    let n := c.w64 0x10
    if n = 0 || 0x1000000000 < n || bits (c.w64 0x18) 44 20 ≠ 0 then 0x0102 else 0
  | 0x31 | 0x32 => if c.f 0x14 0 16 = 0 then 0x0102 else 0
  | _ => if c.op == 0x01 && !s.willGovern p st c && (addrFields c).all (fun f => s.addrCheck p (c.w64 f.1) f.2 == 0) then s.launchCheck p c
         else 0

/-- The checks of the address fields and the handle, in the order of the body. -/
def namesCheck (s : State) (p : Nat) (c : Cmd) : Nat :=
  firstCode ((addrFields c).map (fun f => s.addrCheck p (c.w64 f.1) f.2)
    ++ (if (c.op == 0x31 || c.op == 0x32) && !s.handleOk p (c.w32 0x10) then [0x0201] else []))

/-- The checks of a well-formed command that are made at parse: 0 or the code it fails with. -/
def parseCheck (s : State) (p st : Nat) (c : Cmd) : Nat :=
  firstCode [
    if c.signal && !s.ownsRegion p (c.fence / 1024) then 0x0802 else 0,
    if !c.borrows.isEmpty && !s.ownsRegion p (c.f 0x30 12 2) then 0x0802 else 0,
    s.bodyCheck p st c,
    s.namesCheck p c,
    if c.signal && decide (0xFFFF ≤ (s.fence c.fence).owed) then 0x0102 else 0,
    spanCheck (s.str p st) c ]

/-! ### Starting (R302) -/

/-- Whether an earlier command of the stream keeps the later ones from starting until it has completed: a WAIT, a TILE_INTERLEAVE, a
REDO_COMMIT (R96, R302, R328). -/
def holdsBack (c : Cmd) : Bool := c.op == 0x07 || c.op == 0x02 || c.op == 0x11

/-- The next command of a stream that has not started, if R302 lets it start. -/
def startable (s : State) (p st : Nat) : Option Cmd :=
  let l := (s.str p st).cmds
  let before := l.takeWhile Cmd.started
  match l.dropWhile Cmd.started with
  | [] => none
  | c :: _ =>
    if (s.ctxOf p).state ≠ 1 || before.any holdsBack || (c.barrier && !before.isEmpty) then none else some c

/-- The next command of a stream if it is `op` and may start. -/
def startOp (s : State) (p st op : Nat) : Option Cmd :=
  match s.startable p st with
  | some c => if c.op = op then some c else none
  | none => none

/-- The clusters that a LAUNCH names. -/
def launchClusters (c : Cmd) : List Nat := (List.range 32).filter (fun k => (c.w32 0x20).testBit k)

/-! ### The interleave table (R327 to R331) -/

/-- STREAM, LAUNCHES and CLUSTERS of a table entry (R327). -/
def ilvEntry (e : Nat) : Nat × Nat × Nat := (e % 2, bits e 8 8, bits e 32 32)

/-- The clusters of a stream's entry in CONCURRENT (R331). -/
def ilvShare (i : Interleave) (st : Nat) : Nat := ((i.entries.find? (fun e => e % 2 == st)).map (fun e => bits e 32 32)).getD 0

/-- The code with which a launch fails under an entry's clusters: its own, else BAD_COMMAND outside them, 0 for none (R329, R331). -/
def ilvCode (s : State) (p : Nat) (c : Cmd) (mask : Nat) : Nat :=
  if s.launchCheck p c ≠ 0 then s.launchCheck p c else if c.w32 0x20 &&& mask = c.w32 0x20 then 0 else 0x0102

/-- A launch that failed at parse and is the next of its stream to be counted under the current entry (R329). -/
def ilvNextLate (s : State) (p est : Nat) : Option (Nat × Nat) :=
  let first := (s.str p est).cmds.find? (fun d => !d.started)
  (s.ctxOf p).late.find? (fun e => e.1 == est && first.all (fun d => serialAfter 32 d.idx e.2))

/-- The pointer moves past entries that are served, or skipped because their stream has nothing to run (R329). -/
def ilvAdvance (fuel p : Nat) (s : State) : State :=
  match fuel with
  | 0 => s
  | n + 1 =>
    let k := s.ctxOf p
    match k.inter with
    | none => s
    | some i =>
      if k.conc || i.entries.isEmpty then s else
      let (est, cnt, _) := ilvEntry ((i.entries[i.pos]?).getD 0)
      let next : Interleave := { i with pos := (i.pos + 1) % i.entries.length, admitted := [], finished := 0 }
      match (if cnt ≤ i.admitted.length then none else s.ilvNextLate p est) with
      | some e =>
        let i' : Interleave := { i with admitted := i.admitted ++ [(est + 4, e.2)], finished := i.finished + 1 }
        ilvAdvance n p (s.setCtx p { k with inter := some i', late := k.late.erase e })
      | none =>
        if cnt ≤ i.admitted.length ∧ i.admitted.length ≤ i.finished then
          ilvAdvance n p ((s.setCtx p { k with inter := some next }).bump (home .str p 0x50) 1)
        else if i.admitted.isEmpty && [0, 1, 4, 6].contains (s.strState p est) then
          ilvAdvance n p ((s.setCtx p { k with inter := some next }).bump (home .str p 0x58) 1)
        else s

/-- The table moves on as far as it can: at most once past every entry (notes/assumptions/102.md). -/
def ilvMove (s : State) (p : Nat) : State :=
  match (s.ctxOf p).inter with
  | none => s
  | some i => ilvAdvance (i.entries.length + (s.ctxOf p).late.length) p s

/-! ### The order in which launches become ready (R545) -/

/-- Whether a launch that R302 lets start waits for its clusters: it passes R309's checks, and the table, where it governs the launch, admits it; one that
breaks a split fails only when it would start (R331). -/
def admitted (s : State) (p st : Nat) (c : Cmd) : Bool :=
  match (s.ctxOf p).inter with
  | none => s.launchCheck p c == 0
  | some i =>
    if !s.governed p st c || (s.ctxOf p).conc then s.launchCheck p c == 0
    else
      let (est, cnt, mask) := ilvEntry ((i.entries[i.pos]?).getD 0)
      est == st && decide (i.admitted.length < cnt) && s.ilvCode p c mask == 0

/-- The launches that are ready, in the order in which they became so: those that became ready since the last command of a stream join. -/
def noteReady (s : State) (p : Nat) : State :=
  (List.range 4).foldl (fun s st =>
    match s.startOp p st 0x01 with
    | none => s
    | some c =>
      let k := s.ctxOf p
      if k.ready.contains (st, c.idx) || !s.admitted p st c then s else s.setCtx p { k with ready := k.ready ++ [(st, c.idx)] }) s

/-- A command starts: its borrowed counters are recorded (R276). REDO_BEGIN's are the span's. -/
def begin (s : State) (p st : Nat) (c : Cmd) : State :=
  s.modCmd p st c.idx (fun x => { x with
    started := true
    borrowed := if c.op = 0x10 then [] else c.borrows.map (fun k => (k, (s.ctr (k / 4096) (k % 4096)).value)) })

/-- A command starts and its work ends at once with a code; a stale handle is counted (R317). -/
def beginEnd (s : State) (p st : Nat) (c : Cmd) (code : Nat) : State :=
  let s := if code = 0x0201 then s.bump (home .obj p 0x108) 1 else s
  (s.begin p st c).endCmd p st c.idx code

/-- The next command of a stream starts with `f`, if it is `op` and may start. -/
def starting (s : State) (p st op : Nat) (f : Cmd → State → State) : State :=
  let s := s.noteReady p
  match s.startOp p st op with
  | some c => f c s
  | none => s

/-- A record of `n` bytes that the sequencer reads at a PA: the bytes, or EXTENT or POISON. -/
def readRecord (s : State) (p pa n : Nat) : Except Nat (List Byte) :=
  if !s.translatesAll p pa n 1 then .error 0x0802
  else if s.poisonedPa p pa n then .error 0x0801
  else .ok (s.peekPa p pa n)

/-! ### The exchange work of a partition (R373) -/

/-- The exchange work of partition `p`. -/
def xchOf (s : State) (p : Nat) : XchSt := s.xch.get {} p

/-- The state with a partition's exchange work changed. -/
def setXch (s : State) (p : Nat) (x : XchSt) : State := { s with xch := s.xch.set {} p x }

/-- The bytes that a PERMUTE brings to this device (R400). -/
def permTotal (s : State) (x : Perm) : Nat := (x.table.filter (fun e => e.dst == s.pkg.device.getD 0 && e.src != e.dst)).foldl (fun a e => a + e.bytes) 0

/-- Bytes that the exchange block writes at a PA, here or at another device, through the partition's transfer engines: each line counts at the engine
that carries it, one of the partition's, a free value where the spec names none (R256, R373; notes/assumptions/127.md). -/
def xchBytes (s : State) (p pa n : Nat) : State :=
  (cuts 128 pa n).foldl (fun s c =>
    let (x, s) := s.draw
    let k := 16 / s.nParts
    s.bump (home .xfe (p * k + x % k) 0x100) c.2) s

/-- Bytes written at a PA of partition `p` by its exchange block (R373). -/
def xchWrite (s : State) (p pa : Nat) (l : List Byte) : State := (s.pokePa p pa l).xchBytes p pa l.length

/-- A PERMUTE that fails leaves its code in XCH_LAST_ERROR of every dimension, since it names none (R402; notes/assumptions/82.md). -/
def permFell (s : State) (p code : Nat) : State :=
  (List.range 4).foldl (fun s d => s.setReg (pages .xch p d 0x18) (code + s.pkg.device.getD 0 * 65536)) s

/-- A PERMUTE in progress fails (R400). -/
def failPerm (s : State) (p code : Nat) : State :=
  match (s.xchOf p).perm with
  | none => s
  | some x =>
    (((s.permFell p code).setXch p { s.xchOf p with perm := none }).progress (21 + 16 * p) 4 5 code x.done (s.permTotal x)).endCmd p 3 x.idx code

/-- Whether two byte ranges have a byte in common. -/
def rangesMeet (a n b m : Nat) : Bool := n != 0 && m != 0 && decide (a < b + m) && decide (b < a + n)

/-- The address fields of a record, resolved: their PAs, or the code of the first that fails (R304). -/
def recAddrs (s : State) (p : Nat) (l : List Nat) : Except Nat (List Nat) :=
  match l.find? (fun v => s.addrCheck p v false != 0) with
  | some v => .error (s.addrCheck p v false)
  | none => .ok (l.map (fun v => (s.addrOf p v).2))

/-- The position of this device in the ring of dimension `d`. -/
def pos (s : State) (d : Nat) : Nat := coord s.self d

/-- A list cut into pieces of at most `n`. -/
def pieces {α : Type} (n : Nat) : Nat → List α → List (List α)
  | 0, _ => []
  | fuel + 1, l => if l.isEmpty then [] else l.take n :: pieces n fuel (l.drop n)

end State

end Sys2Proof.Machine
end

