-- ==== Sys2Proof/Machine/Engines.lean ====
section
/-! DEFINITION. Transfer engines (R246 to R248, R308, R310): COPY, FILL and XFE_COMPLETE; and COMPRESS on the transposing loader
(R129 to R132). -/

namespace Sys2Proof.Machine

/-! ### What moves -/

/-- One piece of a transfer within one source line and one destination line: source and destination as signed offsets from the start of
the address space, and bytes. -/
structure Piece where
  src : Int
  dst : Int
  len : Nat
  deriving DecidableEq, Repr

/-- The contiguous range of `n` bytes cut at 128-byte lines of the destination and of the source (R247). -/
def cutPieces : Nat → Int → Int → Nat → List Piece
  | 0, _, _, _ => []
  | fuel + 1, src, dst, n =>
    if n = 0 then [] else
    let k := min n (min (128 - dst % 128).toNat (128 - src % 128).toNat)
    { src := src, dst := dst, len := k } :: cutPieces fuel (src + k) (dst + k) (n - k)

/-- The pieces of a copy in the order of R247: outer dimension, middle dimension, offset. -/
def shapedPieces (src dst : Int) (bytes middle outer : Nat) (ms md os od : Int) : List Piece :=
  ((List.range outer).map (fun (o : Nat) => ((List.range middle).map (fun (m : Nat) =>
    cutPieces (bytes / 64 + 3) (src + o * os + m * ms) (dst + o * od + m * md) bytes)).flatten)).flatten

/-- A shape record (R308). -/
structure ShapeRec where
  middle : Nat := 1
  outer : Nat := 1
  ms : Int := 0
  md : Int := 0
  os : Int := 0
  od : Int := 0
  mcast : Nat := 0
  mregion : Nat := 0
  deriving DecidableEq, Repr

/-- A copy or fill ready to run: its pieces, where it reads and writes, and its pattern. -/
structure Xfer where
  pieces : List Piece
  src : Option Nat
  dst : Option Nat
  dst0 : Int
  pattern : Option (List Byte)
  mcast : List Nat
  deriving DecidableEq, Repr

namespace State

/-- The shape of a COPY, or the code it fails with: EXTENT or POISON for its record, BAD_COMMAND for a reserved field set (R308). -/
def copyShape (s : State) (p : Nat) (c : Cmd) : Except Nat ShapeRec :=
  if c.f 0x24 0 1 = 0 then .ok {} else
  match s.readRecord p (s.addrOf p (c.w64 0x28)).2 32 with
  | .error e => .error e
  | .ok l =>
    let x := ofLeBytes l
    if bits x (8 * 0x18 + 10) 54 ≠ 0 then .error 0x0102 else
    .ok { middle := w32At x 0, outer := w32At x 4, ms := toSigned 32 (w32At x 8), md := toSigned 32 (w32At x 12),
          os := toSigned 32 (w32At x 16), od := toSigned 32 (w32At x 20), mcast := bits x (8 * 0x18) 8, mregion := bits x (8 * 0x18 + 8) 2 }

/-- The clusters that a multicast names (R308). -/
def mcastClusters (r : ShapeRec) : List Nat :=
  ((List.range 8).filter (fun j => r.mcast.testBit j)).map (fun j => 8 * r.mregion + j)

/-- The engines that may take a command: those of the partition's regions, or of the multicast's region (R308). -/
def enginesFor (s : State) (p : Nat) (c : Cmd) : List Nat :=
  let all := ((s.regionsOf p).map (fun r => (List.range 4).map (4 * r + ·))).flatten
  if c.op ≠ 0x03 then all else
  match s.copyShape p c with
  | .ok r => if r.mcast = 0 then all else (List.range 4).map (4 * r.mregion + ·)
  | .error _ => all

/-- The failure that a COPY meets when it starts, 0 if none (R308). -/
def copyCheck (s : State) (p : Nat) (c : Cmd) : Nat :=
  match s.copyShape p c with
  | .error e => e
  | .ok r =>
    if r.mcast = 0 then 0
    else if !s.ownsRegion p r.mregion then 0x0802
    else match s.addrOf p (c.w64 0x18) with
      | (some _, _) => 0x0102
      | (none, pa) => match (s.translate p pa 0).map place with
        | some (.cmem k _) => if (mcastClusters r).contains k then 0 else 0x0102
        | some _ => 0x0102
        | none => 0x0802

/-- Waiting commands of a partition take idle engines in the order in which they started, each the lowest-numbered it may use (R308). -/
def assignEngines (s : State) (p : Nat) : State :=
  (s.ctxOf p).xq.foldl (fun s e =>
    match s.cmdOf p e.1 e.2 with
    | none => s.setCtx p { s.ctxOf p with xq := (s.ctxOf p).xq.filter (· != e) }
    | some c => match (s.enginesFor p c).find? (fun x => !s.xfeBusy x) with
      | none => s
      | some x =>
        let s := s.setCtx p { s.ctxOf p with xq := (s.ctxOf p).xq.filter (· != e) }
        s.modCmd p e.1 e.2 (fun c => { c with engine := some x })) s

/-- A transfer-engine command starts: it fails at once, or takes an engine or waits for one. -/
def startXfer (s : State) (p st : Nat) (c : Cmd) (code : Nat) : State :=
  if code ≠ 0 then s.beginEnd p st c code else
  let s := s.begin p st c
  (s.setCtx p { s.ctxOf p with xq := (s.ctxOf p).xq ++ [(st, c.idx)] }).assignEngines p

/-- What a command moves. -/
def xferOf (s : State) (p : Nat) (c : Cmd) : Xfer :=
  if c.op = 0x04 then
    let (d, pa) := s.addrOf p (c.w64 0x10)
    let w := if c.f 0x28 0 1 = 1 then 8 else 4
    { pieces := shapedPieces pa pa (c.w64 0x18) 1 1 0 0 0 0, src := none, dst := d, dst0 := pa,
      pattern := some (leBytes w (c.w64 0x20)), mcast := [] }
  else
    let (sd, sp) := s.addrOf p (c.w64 0x10)
    let (dd, dp) := s.addrOf p (c.w64 0x18)
    let r := match s.copyShape p c with
      | .ok r => r
      | .error _ => {}
    { pieces := shapedPieces sp dp (c.w32 0x20) r.middle r.outer r.ms r.md r.os r.od, src := sd, dst := dd, dst0 := dp,
      pattern := none, mcast := mcastClusters r }

/-- A PA of a transfer, none outside the 44-bit space. -/
def xferPa (a : Int) : Option Nat := if 0 ≤ a ∧ a < 2 ^ 44 then some a.toNat else none

/-- An address with its device, as XFE_ERR_ADDR and requests hold it. -/
def globalOf (dev : Option Nat) (a : Int) : Nat := dev.getD 0 * 2 ^ 44 + (a % (2 ^ 44 : Nat)).toNat

/-- The engine of a command records its first failure, which the command keeps (R256). -/
def xferFail (s : State) (p st idx e code addr : Nat) : State :=
  if ((s.cmdOf p st idx).map (fun c => c.notes.isEmpty)) = some false then s else
  ((s.setReg (home .xfe e 0x14) code).setReg (home .xfe e 0x18) addr).failCmd p st idx code

/-- A byte that an overlapping transfer reads: the original or the value already copied there, either one (R248). -/
def eitherByte (s : State) (old new : Byte) : Byte × State :=
  if old = new then (new, s) else let (v, s) := s.draw; (if v % 2 = 0 then old else new, s)

/-- The bytes that a transfer begun in state `s0` reads at an LPA. -/
def xferRead (s0 s : State) (lpa n : Nat) : List Byte × State :=
  if place lpa = .control then s.busRead lpa n else
  (List.range n).foldl (fun (a : List Byte × State) i =>
    let (b, s) := a.2.eitherByte (s0.peek (lpa + i)) (a.2.peek (lpa + i))
    (a.1 ++ [b], s)) ([], s)

/-- A transaction of this device's partition. -/
def ownTxn (s : State) (op dev p pa n : Nat) (data : List Byte) : Txn :=
  { op := op, dst := dev, src := s.self, part := p, tp3 := (s.ctxOf p).tp3, pa := pa, bytes := n, tag := 0, code := 0, data := data }

/-- Bytes of a transfer written at their destination, each line checked (R247); the code and address of a failure. -/
def xferWrite (s : State) (p st idx : Nat) (dst : Option Nat) (mcast : List Nat) (a : Int) (l : List Byte) : State × Option Nat :=
  match xferPa a, dst with
  | none, _ => (s, some 0x0802)
  | some pa, some dev =>
    if !s.inTorus dev then (s, some 0x0802)
    else (s.request (.copyWrite p st idx) (s.ownTxn 1 dev p pa l.length l), none)
  | some pa, none => match s.translate p pa 2 with
    | none => (s, some 0x0802)
    | some lpa =>
      if place lpa = .control then (s, some 0x0802) else
      if mcast.isEmpty then (s.pokeLine p lpa l, none) else
      match place lpa with
      | .cmem _ off => (mcast.foldl (fun s k => s.pokeLine p (cmemLpa k off) l) s, none)
      | _ => (s, some 0x0802)

/-- One piece of a transfer. -/
def xferPiece (s0 : State) (p st idx e : Nat) (x : Xfer) (s : State) (q : Piece) : State :=
  if ((s.cmdOf p st idx).map (fun c => c.notes.isEmpty)) ≠ some true then s else
  let write (s : State) (l : List Byte) : State :=
    let (s, bad) := s.xferWrite p st idx x.dst x.mcast q.dst l
    match bad with
    | some code => s.xferFail p st idx e code (globalOf x.dst q.dst)
    | none => s.bump (home .xfe e 0x100) q.len
  match x.pattern, x.src with
  | some pat, _ =>
    write s ((List.range q.len).map (fun (i : Nat) => (pat[(q.dst - x.dst0 + i).toNat % pat.length]?).getD 0))
  | none, some dev => match xferPa q.src with
    | none => s.xferFail p st idx e 0x0802 (globalOf x.src q.src)
    | some pa =>
      if !s.inTorus dev then s.xferFail p st idx e 0x0802 (globalOf x.src q.src)
      else if (xferPa q.dst).isNone then s.xferFail p st idx e 0x0802 (globalOf x.dst q.dst)
      else s.request (.copyRead p st idx ((if x.dst.isSome then 2 ^ 60 else 0) + globalOf x.dst q.dst))
        (s.ownTxn 3 dev p pa q.len [])
  | none, none => match (xferPa q.src).bind (fun pa => s.translate p pa 1) with
    | none => s.xferFail p st idx e 0x0802 (globalOf x.src q.src)
    | some lpa =>
      let s := s.readLine p lpa q.len
      if s.poisonedIn lpa q.len then s.xferFail p st idx e 0x0801 (globalOf x.src q.src)
      else let (l, s) := xferRead s0 s lpa q.len; write s l

/-- Whether a piece reaches the memory of a cluster whose domain is off (R27). -/
def pieceOff (s : State) (p : Nat) (x : Xfer) (q : Piece) : Bool :=
  let off (a : Int) : Bool := match ((xferPa a).bind (fun pa => s.translate p pa 0)).map place with
    | some (.cmem c _) => !s.domOn c
    | _ => false
  (x.pattern.isNone && x.src.isNone && off q.src) || (x.dst.isNone && off q.dst) || x.mcast.any (fun k => !s.domOn k)

/-- Whether some request that satisfies `f` is unanswered or waits for a tag. -/
def outstanding (s : State) (f : Requester → Bool) : Bool :=
  s.ports.any (fun g => g.2.reqQ.any (fun r => f r.1) || g.2.tags.any (fun t => match t.2 with
    | .used w _ => f w
    | _ => false))

/-- Whether a request belongs to a transfer of a command. -/
def ofCopy (p st idx : Nat) : Requester → Bool
  | .copyWrite p' st' i => p' == p && st' == st && i == idx
  | .copyRead p' st' i _ => p' == p && st' == st && i == idx
  | _ => false

/-- The command that an engine has in progress. -/
def engineCmd (s : State) (e : Nat) : Option (Nat × Nat × Cmd) :=
  (List.range 16).findSome? (fun k =>
    ((s.str (k / 4) (k % 4)).cmds.find? (fun c => c.engine == some e && c.done.isNone)).map (fun c => (k / 4, k % 4, c)))

/-- Whether a piece meets a line that is locked, or a set whose ways all are (R240, R244). -/
def pieceHeld (s : State) (p : Nat) (x : Xfer) (q : Piece) : Bool :=
  let held (a : Int) : Bool := ((xferPa a).bind (fun pa => s.translate p pa 0)).any (fun lpa => !s.lineFree p lpa)
  (x.pattern.isNone && x.src.isNone && held q.src) || (x.dst.isNone && held q.dst)

/-- The pieces of a command from the `i`-th on, in order, up to the first that reads another device: the next one follows its answer, so that
lines are written in order and none after a poisoned one (R247). -/
def xferPieces (s0 : State) (p st idx e : Nat) (x : Xfer) (i : Nat) (s : State) : State :=
  let local_ := if x.pattern.isNone && x.src.isSome then 1 else x.pieces.length
  let now := (x.pieces.drop i).take local_
  (now.foldl (xferPiece s0 p st idx e x) s).modCmd p st idx (fun c =>
    { c with piece := i + now.length, issued := decide (x.pieces.length ≤ i + now.length) })

/-- An engine's command: its lines are read and written, then, once every write is accepted, it ends (R247). It waits while a cluster it
reaches is off (R27), and while a line it reaches is locked (R244). -/
def xfeRun (s : State) (e : Nat) : State :=
  match s.engineCmd e with
  | none => s
  | some (p, st, c) =>
    let x := s.xferOf p c
    if c.piece = 0 && !c.issued && x.pieces.any (fun q => s.pieceOff p x q || s.pieceHeld p x q) then s else
    let s1 := if c.issued || c.piece ≠ 0 then s else xferPieces s p st c.idx e x 0 s
    if s1.outstanding (ofCopy p st c.idx) then s1 else
    let code := ((s1.cmdOf p st c.idx).bind (fun c => c.notes.head?)).getD 0
    (s1.endCmd p st c.idx code).assignEngines p

/-! ### 2:4 compression (R129 to R132) -/

/-- Whether magnitude `a` is above magnitude `b`: NaN above Inf (R131). -/
def magAbove (a b : Fv) : Bool :=
  match a.isNan, b.isNan with
  | true, true => false
  | true, false => true
  | false, true => false
  | false, false => a.abs.cmp b.abs == .gt

/-- The indices of the two largest magnitudes of a group of four, in ascending order; ties go to the lower index (R131). -/
def twoLargest (l : List Fv) : Nat × Nat :=
  let at_ (i : Nat) : Fv := (l[i]?).getD .nan
  let best (skip : Nat) : Nat := (List.range 4).foldl (fun b i =>
    if i = skip then b else if b = 4 || magAbove (at_ i) (at_ b) then i else b) 4
  let a := best 4
  let b := best a
  (min a b, max a b)

/-- The dense element (outer index `o`, depth `k`) of a COMPRESS source (R110): K × N for W, M × K for I. -/
def denseCode (s : State) (c : Cmd) (o k : Nat) : Nat :=
  let (r, j) := if c.f 0x10 6 2 = 1 then (k, o) else (o, k)
  s.planeAt (c.f 0x10 0 5) (c.f 0x14 0 24 + r * c.f 0x20 0 24) (codeWidth (c.f 0x10 8 4)) j

/-- The dense k depth of one compressed tile (R105). -/
def compressDepth (c : Cmd) : Nat :=
  (if c.f 0x10 6 2 = 1 then 256 else 1024) * (if c.f 0x10 8 4 = 12 then 2 else 1)

/-- A row of packed elements padded to 16 bytes (R129). -/
def paddedRow (w : Nat) (l : List Nat) : List Byte := let b := packElems w l; b ++ List.replicate (up16 b.length - b.length) 0

/-- The tile of depth positions `k0` to `k0 + n - 1`: its bytes, whether it is dense, and the values dropped (R129 to R132); DROPPED, 16 bits
wide, holds a greater count modulo 65,536 (notes/assumptions/99.md). -/
def compressTile (s : State) (c : Cmd) (k0 n : Nat) : List Byte × Bool × Nat :=
  let f := c.f 0x10 8 4
  let w := codeWidth f
  let outer := c.f 0x1C 16 16
  let code (o k : Nat) : Nat := s.denseCode c o (k0 + k)
  let value (o k : Nat) : Fv := match fmtOfCode f with
    | some g => decodeElem g (code o k)
    | none => .nan
  let group (o g : Nat) : List Fv := (List.range 4).map (fun i => value o (4 * g + i))
  let nz (l : List Fv) : Nat := (l.filter (fun v => !v.isZero)).length
  let groups := ((List.range outer).map (fun o => (List.range (n / 4)).map (fun g => group o g))).flatten
  let exactLoss := groups.any (fun l => decide (2 < nz l))
  let (vb, mb) := (outer * (sparseRows w n).1, outer * (sparseRows w n).2)
  let denseBytes := n * up16 (packedBytes w outer)
  let big := decide (denseBytes ≤ vb + mb)
  let dense := big || (c.f 0x10 5 1 == 0 && exactLoss)
  let dropped := if dense then 0 else groups.foldl (fun a l =>
    let (i, j) := twoLargest l
    a + nz l - nz [(l[i]?).getD .nan, (l[j]?).getD .nan]) 0
  let hdr := b2n dense + b2n (decide (0 < dropped)) * 2 + c.f 0x10 6 2 * 4 + f * 16 + c.f 0x10 12 2 * 256 + (dropped % 65536) * 65536
    + (n + outer * 65536) * 2 ^ 32 + (if dense then denseBytes else vb) * 2 ^ 64 + (if dense then 0 else mb) * 2 ^ 96
  let body := if dense then ((List.range n).map (fun k => paddedRow w ((List.range outer).map (fun o => code o k)))).flatten
    else ((List.range outer).map (fun o => paddedRow w (((List.range (n / 4)).map (fun g =>
        let (i, j) := twoLargest (group o g); [code o (4 * g + i), code o (4 * g + j)])).flatten))).flatten
      ++ ((List.range outer).map (fun o => paddedRow 4 ((List.range (n / 4)).map (fun g =>
        let (i, j) := twoLargest (group o g); i + 4 * j)))).flatten
  (leBytes 64 hdr ++ body, dense, dropped)

/-- COMPRESS on cluster memory (R131): tiles written one after the other on 64-byte boundaries, until one would pass LIMIT. -/
def compress (s : State) (p st : Nat) (c : Cmd) : State :=
  let k := c.f 0x1C 0 16
  let outer := c.f 0x1C 16 16
  let cl := c.f 0x10 0 5
  let f := c.f 0x10 8 4
  let rows := if c.f 0x10 6 2 = 1 then k else outer
  let rowBytes := packedBytes (codeWidth f) (if c.f 0x10 6 2 = 1 then outer else k)
  let last := c.f 0x14 0 24 + (rows - 1) * c.f 0x20 0 24 + rowBytes
  if f = 3 || f = 13 || 0xC00000 < last then s.beginEnd p st c 0x0401
  else if (List.range rows).any (fun r => s.cpoisoned cl (c.f 0x14 0 24 + r * c.f 0x20 0 24) rowBytes) then s.beginEnd p st c 0x0801
  else
    let d := compressDepth c
    let (s', code, _) := (List.range ((k + d - 1) / d)).foldl (fun (a : State × Nat × Nat) i =>
      if a.2.1 ≠ 0 then a else
      let (l, dense, dropped) := s.compressTile c (i * d) (min d (k - i * d))
      let dst := c.f 0x18 0 24 + a.2.2
      if c.f 0x24 0 24 < a.2.2 + l.length || 0xC00000 < dst + l.length then (a.1, 0x0401, a.2.2)
      else
        let t := a.1.cpoke p cl dst l
        let t := if dense then t.bump (home .arr cl 0x138) 1 else t
        (t.bump (home .arr cl 0x140) dropped, 0, (dst + l.length + 63) / 64 * 64 - c.f 0x18 0 24)) (s, 0, 0)
    s'.beginEnd p st c code

end State

/-! ### The commands -/

/-- COPY (R308): the next command of stream `st` of partition `p`; its shape record, where it has one, is read first. -/
def execCopy (p : Fin 4) (st : Fin 4) (s : State) : Out :=
  .next (s.starting p.val st.val 0x03 (fun c s =>
    s.withRecord p.val (s.addrOf p.val (c.w64 0x28)).2 (if c.f 0x24 0 1 = 0 then 0 else 32) (fun s =>
      s.startXfer p.val st.val c (s.copyCheck p.val c))))

/-- FILL (R246, R307). -/
def execFill (p : Fin 4) (st : Fin 4) (s : State) : Out :=
  .next (s.starting p.val st.val 0x04 (fun c s => s.startXfer p.val st.val c 0))

/-- COMPRESS (R131): it waits while its cluster is off. -/
def execCompress (p : Fin 4) (st : Fin 4) (s : State) : Out :=
  .next (s.starting p.val st.val 0x05 (fun c s => if s.domOn (c.f 0x10 0 5) then s.compress p.val st.val c else s))

/-- XFE_COMPLETE (R247) of engine `e`. -/
def execXfeComplete (e : Fin 16) (s : State) : Out := .next (s.xfeRun e.val)

end Sys2Proof.Machine
end

