-- ==== Sys2Proof/Machine/Eth.lean ====
section
/-! DEFINITION. Queue pairs (R442 to R447, R454). -/

namespace Sys2Proof.Machine

namespace State

/-! ### Queue pairs -/

/-- Whether a queue pair is in use. -/
def qpUsed (q : Qp) : Bool := q.conn || q.wait

/-- The remote key of a partition's window (R447). -/
def windowKey (s : State) (p : Nat) : Nat := s.reg (pages .eth p 0 0x14)

/-- A free queue pair number for a partition, where the partition (1,024) and the package (4,096) have one left (R442); which, is left to
the implementation. -/
def allocQp (s : State) (p : Nat) : Option (Nat × State) :=
  let used := s.qps.filter (fun e => qpUsed e.2)
  if 1024 ≤ (used.filter (fun e => e.2.part == p)).length then none else
  let free := ((List.range 4096).map (· + 2)).filter (fun n => !qpUsed (s.qp n))
  if free.isEmpty then none else
  let (x, s) := s.draw
  some ((free[x % free.length]?).getD 2, s)

/-- Whether a packet of a queue pair that enters the error state still leaves: a NAK does. -/
def survivesError (n : Nat) (f : EthFrame) : Bool :=
  f.qp != n || (match f.out with | .roce _ (some _) => true | _ => false)

/-- A queue pair enters the error state and is freed: QP_ERROR is posted, the requests that it has waiting on its port are dropped, and an event ring or a
store connection on it is lost (R446, R454). -/
def qpFail (s : State) (n cause : Nat) : State :=
  let q := s.qp n
  if !qpUsed q then s else
  let s := s.setQp n { q with conn := false, wait := false, held := false, waiting := [] }
  let x := s.ethOf q.port
  let s := s.setEth q.port { x with tx := x.tx.filter (fun f => x.up && survivesError n f || f.qp != n) }
  let r := s.ring q.part
  let s := if r.set && r.qp == n then s.setRing q.part { r with set := false } else s
  let lose (e : Nat × StoreConn) : Nat × StoreConn :=
    (e.1, { admin := if e.2.admin = n then 0 else e.2.admin, io := if e.2.io = n then 0 else e.2.io })
  let s := { s with stores := (s.stores.map lose).filter (fun (e : Nat × StoreConn) => e.2 != ({} : StoreConn)) }
  (s.bumpEth q.part q.port 0x148 1).post q.part 0x0603 0 0 0 (q.port + n * 256) cause

/-- The content of a REQ to a store target (R454): the queue pair, the path MTU offered, the target's address record and port, the depth of the queue, its
NQN and the host's (notes/assumptions/34.md). -/
def reqBytes (s : State) (n t kind : Nat) : List Byte :=
  let at_ := 0x200 + 128 * t
  let record := (s.dome.boot.running.cfg.drop at_).take 128
  leBytes 4 n ++ leBytes 4 t ++ leBytes 4 4096 ++ leBytes 4 (if kind = 3 then 128 else 0) ++ leBytes 1 (s.cfg at_ 1 1) ++ leBytes 2 (s.cfg at_ 16 16)
    ++ (record.drop 0x10) ++ Config.hostNqn Config.serial

/-- A Communication Manager REQ sent to a store target for a new queue pair of a partition (R444, R454). -/
def sendReq (s : State) (p t kind : Nat) : Nat × State :=
  match s.allocQp p with
  | none => (0, s)
  | some (n, s) =>
    let port := s.storePort t
    (n, (s.setQp n { part := p, port := port, kind := kind, target := t, wait := true }).sendCm p port (.frame port 4 (s.reqBytes n t kind)))

/-- The queue pairs of a partition to a store target, connecting where there are none (R454). -/
def openStore (s : State) (p t : Nat) : State :=
  let c := s.stores.get {} (p * 16 + t)
  let (a, s) := if c.admin = 0 then s.sendReq p t 2 else (c.admin, s)
  let (i, s) := if c.io = 0 then s.sendReq p t 3 else (c.io, s)
  { s with stores := s.stores.set {} (p * 16 + t) { admin := a, io := i } }

/-- Whether a partition is connected to a store target. -/
def storeOpen (s : State) (p t : Nat) : Bool :=
  let c := s.stores.get {} (p * 16 + t)
  c.admin != 0 && c.io != 0 && (s.qp c.admin).conn && (s.qp c.io).conn

end State

end Sys2Proof.Machine
end

