-- ==== Sys2Proof/Machine/Snap.lean ====
section
/-! DEFINITION. Snapshots: slots, SAVE layers and FILLs (R403 to R422, R424). Their commands are in `SnapRows.lean`. -/

namespace Sys2Proof.Machine

/-! ### Slots (R405, R406) -/

/-- Bytes of a slot (R405). -/
def slotSize (r : SnapRec) : Nat := (0x2000 + r.img + 65535) / 65536 * 65536

/-- A slot header as a number (R405). -/
def slotHeader (state source job step img blobBytes sum : Nat) : Nat :=
  state + source * 4 + job * 2 ^ 32 + step * 2 ^ 64 + img * 2 ^ 128 + blobBytes * 2 ^ 192 + sum * 2 ^ 224

/-- Whether a slot is kept by a SAVE of step `step` (R406). -/
def slotKept (h source job step : Nat) : Bool :=
  bits h 0 2 == 2 && bits h 2 12 == source && bits h 32 32 == job && decide (bits h 64 64 < step)

/-- The slot that a SAVE writes (R406). -/
def chooseSlot (h0 h1 source job step : Nat) : Nat :=
  match slotKept h0 source job step, slotKept h1 source job step with
  | false, _ => 0
  | true, false => 1
  | true, true => if bits h0 64 64 ≤ bits h1 64 64 then 0 else 1

/-- Whether a header is that of a surviving copy for a FILL (R415). -/
def survives (h : Nat) (r : SnapRec) (step : Nat) : Bool :=
  bits h 0 2 == 2 && bits h 2 12 == r.source && bits h 32 32 == r.job && bits h 64 64 == step && bits h 128 64 == r.img
    && bits h 192 13 == r.blobBytes

/-- The most bytes of one NVMe command (notes/assumptions/33.md). -/
def nvmeMax : Nat := 0x20000

/-- The drive of a deep layer: port and link, or a store target. -/
def driveOf (r : SnapRec) (l : Nat) : Nat := if l = 1 then r.port * 4 + r.link else 16 + r.target

/-- The error code of a refused store or drive (R455, R458). -/
def linkDownCode : Nat := 0x0701

/-- The routes of a mask in ascending order as (route, dimension, hops) (R409). -/
def routesOf (mask : Nat) : List (Nat × Nat × Nat) :=
  ((List.range 8).filter (fun r => mask.testBit r)).map (fun r => (r, r % 4, r / 4 + 1))

/-- The entry of the partner area that a route selects (R409). -/
def routeEntry (mask r : Nat) : Nat := popcount 8 (mask &&& (2 ^ r - 1))

namespace State

/-- The snapshot work of a partition. -/
def snapOf (s : State) (p : Nat) : SnapSt := s.snaps.get {} p

/-- The state with a partition's snapshot work changed. -/
def setSnap (s : State) (p : Nat) (x : SnapSt) : State := { s with snaps := s.snaps.set {} p x }

/-- The SAVE of a partition with index `idx`. -/
def saveOf (s : State) (p idx : Nat) : Option Save := (s.snapOf p).saves.find? (fun v => v.idx == idx)

/-- A SAVE changed. -/
def modSave (s : State) (p idx : Nat) (f : Save → Save) : State :=
  let x := s.snapOf p
  s.setSnap p { x with saves := x.saves.map (fun v => if v.idx = idx then f v else v) }

/-- A layer of a SAVE. -/
def saveLayer (s : State) (p idx l : Nat) : Option SaveLayer := (s.saveOf p idx).bind (fun v => v.parts.find? (fun x => x.layer == l))

/-- A layer of a SAVE changed. -/
def modLayer (s : State) (p idx l : Nat) (f : SaveLayer → SaveLayer) : State :=
  s.modSave p idx (fun v => { v with parts := v.parts.map (fun x => if x.layer = l then f x else x) })

/-- The FILL of a partition with index `idx`. -/
def fillOf (s : State) (p idx : Nat) : Option Fill := (s.snapOf p).fills.find? (fun v => v.idx == idx)

/-- A FILL changed. -/
def modFill (s : State) (p idx : Nat) (f : Fill → Fill) : State :=
  let x := s.snapOf p
  s.setSnap p { x with fills := x.fills.map (fun v => if v.idx = idx then f v else v) }

/-- A counter of the SNP_ block of a partition. -/
def bumpSnp (s : State) (p off n : Nat) : State := s.bump (home .snp p off) n

/-- The device reached by a route (R409). -/
def routeDev (s : State) (from_ d h : Nat) : Nat := putBits from_ (3 * d) 3 ((coord from_ d + h) % max 1 (s.torus d))

/-- The checksum of a blob and an image in memory (R405). -/
def imageSum (s : State) (p blob blobBytes img n : Nat) : Nat × State :=
  let words (l : List Byte) : Nat := (pieces 4 (l.length + 1) l).foldl (fun a w => a + ofLeBytes w) 0
  let (b, s) := s.loadPa p blob blobBytes
  let (i, s) := s.loadPa p img n
  ((words b + words i) % 2 ^ 32, s)

/-- An NVMe command of partition `p` goes out (R412, R413): the byte offset is from the first slot. The port's DMA carries the data of a flash write, whose
bytes are counted (R460); a store's target moves the data itself, in the ranges named under the partition's window key (R454). -/
def sendNvme (s : State) (p : Nat) (r : SnapRec) (l op off n : Nat) (ranges : List (Nat × Nat)) (data : List Byte) : State :=
  let nsid := if l = 1 then r.fnsid else r.snsid
  let size := if Config.lba4k (driveOf r l) nsid then 4096 else 512
  let d := driveOf r l
  let lba := (if l = 1 then r.flba else r.slba) + off / size
  if l = 1 then
    (if op = 1 then s.bump (pages .pcx (s.linkPart (d / 4) (d % 4)) (d / 4) 0x108) n else s).emit (.nvme d op nsid lba n data)
  else
    let io := (s.stores.get {} (p * 16 + r.target)).io
    if io = 0 then s else s.sendOn io (64 + data.length) (.capsule io op nsid lba n (s.windowKey p) ranges data)

/-! ### SAVE -/

/-- Where a layer reads the blob and the image from (R407). -/
def saveSource (r : SnapRec) (l : Nat) : Nat × Nat :=
  if l = 0 || r.stage = 0 then (r.blob, r.src) else (r.stage, r.stage + 0x1000)

/-- The progress block of a SAVE layer (R15, R408, R420): QUEUED, with nothing done, while another SAVE that names the layer waits; else as
given. -/
def saveBlock (s : State) (p l state code done total : Nat) : State :=
  let waits := (s.snapOf p).saves.any (fun v => !v.running && v.r.layers.contains l)
  let n := 16 + 16 * p + l
  if waits then s.progress n 1 3 0 0 0 else s.progress n state 3 code done total

/-- A SAVE layer that runs reports its position. -/
def saveProgress (s : State) (p l done total : Nat) : State := s.saveBlock p l 2 0 done total

/-- A layer of a SAVE has come to its end, which SNAPSHOT_LAYER_END reports. -/
def layerRes (s : State) (p idx l : Nat) (e : LayerEnd) : State :=
  s.modLayer p idx l (fun x => { x with busy := false, res := x.res <|> some e })

/-- The header that a SAVE writes. -/
def saveHeader (s : State) (v : Save) (x : SaveLayer) (state : Nat) : Nat :=
  slotHeader state s.self v.r.job v.step v.r.img v.r.blobBytes x.sum

/-- The writes of a partner layer by the partition's transfer engines: bytes at an offset of the chosen slot of the partner (R410), cut at the 512-byte
boundaries of R351. -/
def mirror (s : State) (p : Nat) (v : Save) (x : SaveLayer) (off : Nat) (l : List Byte) : State :=
  let base := v.r.area + (2 * v.entry + x.slot) * slotSize v.r + off
  ((cuts 512 base l.length).foldl (fun s c =>
    s.request (.snapWrite p v.idx) (s.ownTxn 1 v.partner p c.1 c.2 ((l.drop (c.1 - base)).take c.2))) s).xchBytes p base l.length

/-- The read of a slot header of another device, cut at the 512-byte boundaries of R351: `what` says whose it is. -/
def headerRead (s : State) (p idx what dev pa : Nat) : State :=
  (cuts 512 pa 64).foldl (fun s c => s.request (.snapRead p idx what (c.1 - pa)) (s.ownTxn 3 dev p c.1 c.2 [])) s

/-- A part of a header, at a byte offset, joined to what has been read of header `k`. -/
def joinHeader (hdrs : List (Option Nat)) (k off : Nat) (data : List Byte) : List (Option Nat) :=
  hdrs.set k (some (((hdrs[k]?).getD none).getD 0 + ofLeBytes data <<< (8 * off)))

/-- Whether a SAVE layer's reading of its blob and image waits for a line (R27, R244). -/
def sourceWaits (s : State) (p : Nat) (r : SnapRec) (l : Nat) : Bool :=
  s.paWaits p (saveSource r l).1 r.blobBytes || s.paWaits p (saveSource r l).2 r.img

/-- The work of the phase that a layer has entered goes out. Phases: 1 and 2 read the headers, 3 writes WRITING, 4 the blob, 5 the image, 6
flushes, 7 writes COMPLETE, 8 is the end. -/
def layerIssue (s : State) (p : Nat) (v : Save) (x : SaveLayer) : State :=
  let l := x.layer
  let (blob, img) := saveSource v.r l
  let base := x.slot * slotSize v.r
  let bad := (l != 0 && v.r.stage != 0 && v.stagePoison)
  let s := s.modLayer p v.idx l (fun y => { y with busy := true })
  match x.phase with
  | 1 => if l = 0 then
      [0, 1].foldl (fun s k =>
        s.headerRead p v.idx k v.partner (v.r.area + (2 * v.entry + k) * slotSize v.r)) s
    else s.sendNvme p v.r l 2 0 64 [] []
  | 2 => s.sendNvme p v.r l 2 (slotSize v.r) 64 [] []
  | 3 =>
    let h := leBytes 64 (s.saveHeader v x 1)
    if l = 0 then s.mirror p v x 0 h else s.sendNvme p v.r l 1 base 64 [] h
  | 4 =>
    if bad || s.poisonedPa p blob v.r.blobBytes then s.layerRes p v.idx l (.failed 0x0801)
    else if l = 0 then
      if s.poisonedPa p img v.r.img then s.layerRes p v.idx l (.failed 0x0801)
      else
        let (b, s) := s.loadPa p blob v.r.blobBytes
        let (i, s) := s.loadPa p img v.r.img
        (s.mirror p v x 0x1000 b).mirror p v x 0x2000 i
    else
      let (b, s) := if l = 1 then s.loadPa p blob v.r.blobBytes else ([], s)
      s.sendNvme p v.r l 1 (base + 0x1000) v.r.blobBytes [(blob, v.r.blobBytes)] b
  | 5 =>
    let n := min nvmeMax (v.r.img - x.off)
    if bad || s.poisonedPa p (img + x.off) n then s.layerRes p v.idx l (.failed 0x0801)
    else
      let (i, s) := if l = 1 then s.loadPa p (img + x.off) n else ([], s)
      s.sendNvme p v.r l 1 (base + 0x2000 + x.off) n [(img + x.off, n)] i
  | 6 => s.sendNvme p v.r l 0 0 0 [] []
  | 7 =>
    let h := leBytes 64 (s.saveHeader v x 2)
    if l = 0 then s.mirror p v x 0 h else s.sendNvme p v.r l 1 base 64 [] h
  | _ => s.layerRes p v.idx l .completed

/-- A layer enters a phase: a flash layer goes no further once a sag has been indicated, whatever phase has ended (R414). -/
def layerEnter (s : State) (p idx l phase : Nat) : State :=
  let s := s.modLayer p idx l (fun x => { x with phase := phase, busy := false })
  if l = 1 && (s.dome.sag || (s.saveLayer p idx l).any SaveLayer.sagged) then s.layerRes p idx l (.failed 0x0A01) else
  match s.saveOf p idx, s.saveLayer p idx l with
  | some v, some x => s.layerIssue p v x
  | _, _ => s

/-- The phase under way has ended with the data it read: the next begins (R406, R412, R413). -/
def layerStep (s : State) (p idx l : Nat) (data : Nat) : State :=
  match s.saveOf p idx, s.saveLayer p idx l with
  | some v, some x =>
    if x.res.isSome then s else
    let total := v.r.blobBytes + v.r.img
    match x.phase with
    | 1 => if l = 0 then s else
      (s.modLayer p idx l (fun x => { x with hdrs := x.hdrs.set 0 (some data) })).layerEnter p idx l 2
    | 2 =>
      let h0 := ((x.hdrs[0]?).getD none).getD 0
      (chosen s p v l h0 data).layerEnter p idx l 3
    | 3 => s.layerEnter p idx l (if v.r.blobBytes = 0 && l != 0 then 5 else 4)
    | 4 =>
      if l = 0 then s.layerEnter p idx 0 7 else (s.bumpSnp p 0x138 v.r.blobBytes).layerEnter p idx l 5
    | 5 =>
      let n := min nvmeMax (v.r.img - x.off)
      let s := (s.modLayer p idx l (fun x => { x with off := x.off + n })).bumpSnp p 0x138 n
      s.layerEnter p idx l (if v.r.img ≤ x.off + n then 6 else 5)
    | 6 => (s.saveProgress p l total total).layerEnter p idx l 7
    | 7 => s.layerEnter p idx l 8
    | _ => s
  | _, _ => s
where
  /-- The slot chosen and the checksum of what the layer is to write. -/
  chosen (s : State) (p : Nat) (v : Save) (l h0 h1 : Nat) : State :=
    let (blob, img) := saveSource v.r l
    let (sum, s) := s.imageSum p blob v.r.blobBytes img v.r.img
    s.modLayer p v.idx l (fun x => { x with slot := chooseSlot h0 h1 s.self v.r.job v.step, sum := sum, off := 0 })

/-- A part of a header of a slot of the partner has been read: with both whole, the slot is chosen. -/
def partnerHeader (s : State) (p idx k off : Nat) (data : List Byte) (last : Bool) : State :=
  let s := s.modLayer p idx 0 (fun x => { x with hdrs := joinHeader x.hdrs k off data })
  match s.saveOf p idx, s.saveLayer p idx 0 with
  | some v, some x =>
    match x.hdrs, x.res with
    | [some h0, some h1], none => if last then (layerStep.chosen s p v 0 h0 h1).layerEnter p idx 0 3 else s
    | _, _ => s
  | _, _ => s

/-- A deep layer begins: a link of another partition ends it with EXTENT (R424), a sag with SAG_REFUSED (R414); a store is connected first
(R454). -/
def layerOpen (s : State) (p : Nat) (v : Save) (l : Nat) : State :=
  if l = 1 then
    if s.linkPart v.r.port v.r.link ≠ p then s.layerRes p v.idx 1 (.failed 0x0802)
    else if s.dome.sag then s.layerRes p v.idx 1 (.failed 0x0A01)
    else if !bit (s.reg (home .pcx v.r.port 0x10)) (8 + v.r.link) then s.layerRes p v.idx 1 (.failed linkDownCode)
    else s.layerEnter p v.idx 1 1
  else
    let s := s.openStore p v.r.target
    if s.storeOpen p v.r.target then s.layerEnter p v.idx 2 1 else s

/-- The capture counter is signalled once (R407). -/
def capture (s : State) (p idx : Nat) : State :=
  match s.saveOf p idx with
  | none => s
  | some v =>
    if v.captured then s else
    let s := s.modSave p idx (fun v => { v with captured := true })
    match v.r.capture with
    | none => s
    | some k => s.signal (k / 4096) (k % 4096) 1 0x153 p 3 idx

/-- The capture phase of a SAVE is over: with a stage, CAPTURE is signalled; the deep layers begin (R407). -/
def captureOver (s : State) (p idx : Nat) : State :=
  match s.saveOf p idx with
  | none => s
  | some v =>
    let s := if v.r.stage = 0 then s else s.capture p idx
    (v.r.layers.filter (· != 0)).foldl (fun s l => s.layerOpen p v l) s

/-- The partner that a SAVE finds: route, device and feed group (R409). -/
def findPartner (s : State) (v : Save) : Option (Nat × Nat × Nat) :=
  (routesOf v.r.mask).findSome? (fun (r, d, h) =>
    let far := (v.far[d]?).getD 0
    let feed := if h = 1 then (s.port (2 * d)).peerFeed else bits far 0 8
    if v.r.dims.testBit d && decide (h < s.torus d) && feed != s.pkg.feed && (s.port (2 * d)).state == 3 && (h == 1 || far.testBit 8)
      then some (r, s.routeDev s.self d h, feed) else none)

/-- The partner layer begins: the partner is chosen, or the layer is skipped (R409, R411). -/
def partnerOpen (s : State) (p : Nat) (v : Save) : State :=
  match s.findPartner v with
  | none => ((s.setReg (home .snp p 0x14) 0).post p 0x0403 0 3 v.idx s.pkg.feed v.step).layerRes p v.idx 0 .skipped
  | some (r, dev, feed) =>
    let old := s.reg (home .snp p 0x14)
    let entry := routeEntry v.r.mask r
    let s := s.setReg (home .snp p 0x14) (dev + r * 2 ^ 12 + 2 ^ 15 + feed * 2 ^ 16)
    let s := if bit old 15 && bits old 0 12 == dev then s else s.post p 0x0402 0 3 v.idx (dev + r * 2 ^ 12 + feed * 2 ^ 16) entry
    (s.modSave p v.idx (fun v => { v with partner := dev, entry := entry })).layerEnter p v.idx 0 1

/-- Whether the staging of a SAVE waits for a line (R27, R244). -/
def stageWaits (s : State) (p : Nat) (r : SnapRec) : Bool :=
  r.stage != 0 && r.layers.any (· != 0)
    && (s.paWaits p r.blob r.blobBytes || s.paWaits p r.src r.img || s.paWaits p r.stage (0x1000 + r.img))

/-- A SAVE starts to run (R407): the stage is copied, and the partner layer or, without one, the deep layers begin. -/
def saveRun (s : State) (p : Nat) (v : Save) : State :=
  let staged := v.r.stage != 0 && v.r.layers.any (· != 0)
  let bad := staged && (s.poisonedPa p v.r.blob v.r.blobBytes || s.poisonedPa p v.r.src v.r.img)
  let s := s.modSave p v.idx (fun v => { v with running := true, stagePoison := bad })
  let s := v.r.layers.foldl (fun s l => s.saveProgress p l 0 (v.r.blobBytes + v.r.img)) s
  let s := if staged && !bad then
      let (blob, s) := s.loadPa p v.r.blob v.r.blobBytes
      let (img, s) := s.loadPa p v.r.src v.r.img
      (s.xchWrite p v.r.stage blob).xchWrite p (v.r.stage + 0x1000) img
    else s
  if v.r.layers.contains 0 then s.partnerOpen p v else s.captureOver p v.idx

/-- A layer of a SAVE has ended (R407, R414, R420 to R422): counted and recorded; the partner layer's end is the end of the capture phase;
with the last layer the command completes. -/
def layerEnded (s : State) (p idx l : Nat) : State :=
  match s.saveOf p idx, s.saveLayer p idx l with
  | some v, some x => match x.res with
    | none => s
    | some e =>
      if x.ended then s else
      let total := v.r.blobBytes + v.r.img
      let n := 16 + 16 * p + l
      let s := s.modLayer p idx l (fun x => { x with ended := true })
      let s := match e with
        | .completed => (((s.bumpSnp p 0x100 1).setReg (home .snp p (0x20 + 8 * l)) v.step).saveBlock p l 3 0 total total)
        | .failed c =>
          let s := (s.bumpSnp p 0x108 1).setReg (home .snp p 0x18) (c + l * 65536)
          let s := s.saveBlock p l 4 c (s.reg (home .prog n 8)) total
          if c = 0x0B01 then s.bumpSnp p 0x120 1 else if c = 0x0A01 then s.bumpSnp p 0x128 1 else s
        | .skipped => s.saveBlock p l 3 0 0 total
      let s := if l = 0 then s.captureOver p idx else s
      match s.saveOf p idx with
      | none => s
      | some v =>
        if v.parts.any (fun y => !y.ended) then s else
        let mask (f : LayerEnd → Bool) : Nat := (v.parts.filter (fun y => y.res.any f)).foldl (fun a y => a + 2 ^ y.layer) 0
        let code := (v.parts.findSome? (fun y => match y.res with
          | some (.failed c) => some c
          | _ => none)).getD 0
        let d0 := mask (· == .completed) + mask (fun e => match e with
          | .failed _ => true
          | _ => false) * 8 + mask (· == .skipped) * 64
        let s := s.capture p idx
        let s := s.post p 0x0401 code 3 idx d0 v.step
        let x := s.snapOf p
        (s.setSnap p { x with saves := x.saves.filter (fun y => y.idx != idx) }).endCmd p 3 idx code
  | _, _ => s

/-! ### FILL (R415 to R418) -/

/-- The progress block of a FILL: TOTAL is fixed when it runs (R14, R15). -/
def fillProgress (s : State) (p : Nat) (f : Fill) (state code done : Nat) : State :=
  s.progress (19 + 16 * p + f.block) state 4 code done (if state = 1 then 0 else f.r.blobBytes + f.r.img)

/-- A FILL ends. -/
def fillEnd (s : State) (p : Nat) (f : Fill) (code : Nat) : State :=
  let l := if code = 0 then f.todo.headD 3 else 3
  let total := f.r.blobBytes + f.r.img
  let s := if code = 0 then (s.bumpSnp p 0x110 1).fillProgress p f 3 0 total
    else (s.setReg (home .snp p 0x18) (code + l * 65536)).fillProgress p f 4 code (s.reg (home .prog (19 + 16 * p + f.block) 8))
  let s := s.post p 0x0405 code 3 f.idx l f.step
  let x := s.snapOf p
  (s.setSnap p { x with fills := x.fills.filter (fun y => y.idx != f.idx) }).endCmd p 3 f.idx code

/-- The entry of SOURCE's mirror at PARTNER (R409, R415). -/
def fillEntry (s : State) (r : SnapRec) : Option Nat :=
  (routesOf r.mask).findSome? (fun (k, d, h) =>
    if r.dims.testBit d && decide (h < s.torus d) && s.routeDev r.source d h == r.partner then some (routeEntry r.mask k) else none)

/-- The PA of a slot of SOURCE's mirror. -/
def fillSlot (s : State) (r : SnapRec) (k : Nat) : Nat := r.area + (2 * (s.fillEntry r).getD 0 + k) * slotSize r

/-- The layer under way holds no surviving copy that is left: the next one is opened. -/
def dropLayer (s : State) (p : Nat) (f : Fill) : State :=
  s.modFill p f.idx (fun f => { f with todo := f.todo.tail, phase := 0, busy := false, hdrs := [none, none], slots := [], off := 0 })

/-- The reads of the partner's copy (R415): the blob, then the image, cut at the 512-byte boundaries of R351. -/
def fillReads (s : State) (p : Nat) (f : Fill) (k : Nat) : State :=
  let base := s.fillSlot f.r k
  let cut (from_ to_ n : Nat) (s : State) : State :=
    (cuts 512 from_ n).foldl (fun s c =>
      s.request (.snapRead p f.idx 4 (to_ + (c.1 - from_))) (s.ownTxn 3 f.r.partner p c.1 c.2 [])) s
  cut (base + 0x2000) f.r.src f.r.img (cut (base + 0x1000) f.r.blob f.r.blobBytes s)

/-- The read of the blob or of a piece of the image from a drive. -/
def fillDrive (s : State) (p : Nat) (f : Fill) (l : Nat) : State :=
  let base := f.slots.headD 0 * slotSize f.r
  if f.phase = 5 then s.sendNvme p f.r l 2 (base + 0x1000) f.r.blobBytes [(f.r.blob, f.r.blobBytes)] []
  else
    let n := min nvmeMax (f.r.img - f.off)
    s.sendNvme p f.r l 2 (base + 0x2000 + f.off) n [(f.r.src + f.off, n)] []

/-- Bytes of a FILL have been written. -/
def fillWrote (s : State) (p idx n : Nat) : State :=
  match s.fillOf p idx with
  | none => s
  | some f => (s.bumpSnp p 0x138 n).fillProgress p f 2 0 (s.reg (home .prog (19 + 16 * p + f.block) 8) + n)

/-- Whether the ranges that a FILL restores hold a line that waits (R27, R244). -/
def fillWaits (s : State) (p : Nat) (r : SnapRec) : Bool := s.paWaits p r.blob r.blobBytes || s.paWaits p r.src r.img

/-- A FILL goes on as far as it can; it stands while a line that it reads or writes waits. Phases: 0 opens a layer, 1 and 2 wait for headers, 3 decides, 4 begins to copy, 5 and 6 wait for the blob
and the image, 7 checks. -/
def fillRun (fuel p idx : Nat) (s : State) : State :=
  match fuel with
  | 0 => s
  | n + 1 => match s.fillOf p idx with
    | none => s
    | some f =>
      match f.todo with
      | [] => s.fillEnd p f 0x0B02
      | l :: _ =>
        let wait (s : State) (phase : Nat) : State := s.modFill p idx (fun f => { f with phase := phase, busy := true })
        let next (s : State) : State := fillRun n p idx (s.dropLayer p f)
        match f.phase with
        | 0 =>
          if l = 0 then
            match s.fillEntry f.r with
            | none => next s
            | some _ =>
              if !s.inTorus f.r.partner then next s
              else if f.r.partner = s.self then
                let at_ (k : Nat) : Nat := s.fillSlot f.r k
                if s.paWaits p (at_ 0) 64 || s.paWaits p (at_ 1) 64 then s
                else
                  let (h0, s) := s.loadPa p (at_ 0) 64
                  let (h1, s) := s.loadPa p (at_ 1) 64
                  if s.poisonedPa p (at_ 0) 64 || s.poisonedPa p (at_ 1) 64 then fillRun n p idx (s.dropLayer p f)
                  else fillRun n p idx (s.modFill p idx (fun f => { f with hdrs := [some (ofLeBytes h0), some (ofLeBytes h1)], phase := 3 }))
              else [0, 1].foldl (fun s k => s.headerRead p idx (2 + k) f.r.partner (s.fillSlot f.r k)) (wait s 1)
          else if l = 1 then
            if f.r.source ≠ s.self then next s
            else if s.linkPart f.r.port f.r.link ≠ p then next (s.setReg (home .snp p 0x18) (0x0802 + 65536))
            else if !bit (s.reg (home .pcx f.r.port 0x10)) (8 + f.r.link) then next s
            else (wait s 1).sendNvme p f.r 1 2 0 64 [] []
          else
            let s := s.openStore p f.r.target
            if s.storeOpen p f.r.target then (wait s 1).sendNvme p f.r 2 2 0 64 [] [] else s
        | 3 =>
          let ok := [0, 1].filter (fun k => ((f.hdrs[k]?).getD none).any (fun h => survives h f.r f.step))
          if ok.isEmpty then next s else fillRun n p idx (s.modFill p idx (fun f => { f with slots := ok, phase := 4 }))
        | 4 =>
          let base := s.fillSlot f.r (f.slots.headD 0)
          if l = 0 && f.r.partner = s.self && (s.paWaits p (base + 0x1000) f.r.blobBytes || s.paWaits p (base + 0x2000) f.r.img || s.fillWaits p f.r)
            then s else
          let s := match f.fell with
            | none => s
            | some (cause, old, bytes) => (s.bumpSnp p 0x118 1).post p 0x0404 cause 3 idx (old + l * 4) bytes
          let s := s.fillProgress p f 2 0 0
          let s := s.modFill p idx (fun f => { f with fell := none, off := 0 })
          if l = 0 && f.r.partner = s.self then
            if s.poisonedPa p (base + 0x1000) f.r.blobBytes || s.poisonedPa p (base + 0x2000) f.r.img then
              next (s.modFill p idx (fun f => { f with fell := some (0x0801, l, 0) }))
            else
              let (blob, s) := s.loadPa p (base + 0x1000) f.r.blobBytes
              let (img, s) := s.loadPa p (base + 0x2000) f.r.img
              let s := ((s.xchWrite p f.r.blob blob).xchWrite p f.r.src img).fillWrote p idx (f.r.blobBytes + f.r.img)
              fillRun n p idx (s.modFill p idx (fun f => { f with phase := 7 }))
          else if l = 0 then (wait s 6).fillReads p f (f.slots.headD 0)
          else
            let phase := if f.r.blobBytes = 0 then 6 else 5
            (wait s phase).fillDrive p { f with phase := phase, off := 0 } l
        | 7 =>
          if s.fillWaits p f.r then s else
          let h := ((f.hdrs[f.slots.headD 0]?).getD none).getD 0
          let (sum, s) := s.imageSum p f.r.blob f.r.blobBytes f.r.src f.r.img
          if sum = bits h 224 32 then s.fillEnd p f 0
          else
            let s := s.bumpSnp p 0x130 1
            if f.slots.length ≤ 1 then
              next (s.modFill p idx (fun f => { f with fell := some (0, l, f.r.blobBytes + f.r.img) }))
            else fillRun n p idx (s.modFill p idx (fun f => { f with slots := f.slots.tail, phase := 4 }))
        | _ => s

/-- The source under way fails with a code (R416): before its copy was begun the layer simply holds none (R415). -/
def fillFails (s : State) (p idx code : Nat) : State :=
  match s.fillOf p idx with
  | none => s
  | some f =>
    let done := s.reg (home .prog (19 + 16 * p + f.block) 8)
    let s := if 5 ≤ f.phase then s.modFill p idx (fun f => { f with fell := some (code, f.todo.headD 0, done) }) else s
    fillRun 40 p idx (s.dropLayer p f)

/-- A drive has ended the command of a FILL with its data; a local drive's data are written to memory by the port (R458). -/
def fillStep (s : State) (p idx : Nat) (data : List Byte) : State :=
  match s.fillOf p idx with
  | none => s
  | some f =>
    let l := f.todo.headD 0
    match f.phase with
    | 1 => ((s.modFill p idx (fun f => { f with phase := 2, hdrs := f.hdrs.set 0 (some (ofLeBytes (data.take 64))) })).sendNvme p f.r l 2
        (slotSize f.r) 64 [] [])
    | 2 => fillRun 40 p idx (s.modFill p idx (fun f => { f with phase := 3, busy := false, hdrs := f.hdrs.set 1 (some (ofLeBytes (data.take 64))) }))
    | 5 =>
      let s := if l = 1 then s.pokePa p f.r.blob (data.take f.r.blobBytes) else s
      ((s.fillWrote p idx f.r.blobBytes).modFill p idx (fun f => { f with phase := 6 })).fillDrive p { f with phase := 6 } l
    | 6 =>
      let n := min nvmeMax (f.r.img - f.off)
      let s := if l = 1 then s.pokePa p (f.r.src + f.off) (data.take n) else s
      let s := s.fillWrote p idx n
      if f.r.img ≤ f.off + n then fillRun 40 p idx (s.modFill p idx (fun f => { f with phase := 7, busy := false }))
      else (s.modFill p idx (fun f => { f with off := f.off + n })).fillDrive p { f with off := f.off + n } l
    | _ => s

/-! ### Answers of the partner -/

/-- Whether a request serves a snapshot command of a partition. -/
def ofSnap (p idx : Nat) : Requester → Bool
  | .snapWrite q i => q == p && i == idx
  | .snapRead q i _ _ => q == p && i == idx
  | _ => false

/-- `n` bytes of the blob or the image of a partner layer have been accepted (R420, R422). -/
def mirrored (s : State) (p idx n : Nat) : State :=
  match s.saveOf p idx, s.saveLayer p idx 0 with
  | some v, some x =>
    if x.phase ≠ 4 || x.res.isSome then s else
    ((s.modLayer p idx 0 (fun x => { x with off := x.off + n })).bumpSnp p 0x138 n).saveProgress p 0 (x.off + n) (v.r.blobBytes + v.r.img)
  | _, _ => s

/-- A mirror write of `n` bytes is answered (R410, R411): a refusal fails the partner layer; with the last acceptance the phase ends. -/
def snapWritten (s : State) (p idx n : Nat) (code : Option Nat) : State :=
  match code with
  | some c => s.layerRes p idx 0 (.failed c)
  | none =>
    let s := s.mirrored p idx n
    if s.outstanding (ofSnap p idx) then s else s.layerStep p idx 0 0

/-- Whether the answer to a read of the partner waits for a line: of the source of a SAVE, whose checksum follows its headers, or of those that a FILL
writes (R27, R244). -/
def snapReadWaits (s : State) (p idx what off n : Nat) : Bool :=
  if what < 2 then (s.saveOf p idx).any (fun v => s.sourceWaits p v.r 0)
  else if what < 4 then false
  else s.paWaits p off n || (s.fillOf p idx).any (fun f => s.fillWaits p f.r)

/-- Whether the acceptance of a mirror write waits for a line of the source, which is read once the header is written (R27, R244). -/
def snapWriteWaits (s : State) (p idx : Nat) : Bool :=
  match s.saveOf p idx, s.saveLayer p idx 0 with
  | some v, some x => x.phase == 3 && x.res.isNone && s.sourceWaits p v.r 0
  | _, _ => false

/-- A read of the partner is answered: `what` 0 and 1 a header for a SAVE, 2 and 3 for a FILL, at a byte offset of it, 4 data of a FILL for a PA. -/
def snapRead (s : State) (p idx what off : Nat) (code : Option Nat) (data : List Byte) : State :=
  match code with
  | some c => if what < 2 then s.layerRes p idx 0 (.failed c) else match s.fillOf p idx with
    | some f => if f.todo.headD 3 = 0 && f.busy then s.fillFails p idx c else s
    | none => s
  | none =>
    if what < 2 then s.partnerHeader p idx what off data (!s.outstanding (ofSnap p idx)) else
    match s.fillOf p idx with
    | none => s
    | some f =>
      if f.todo.headD 3 ≠ 0 || !f.busy then s
      else if what < 4 then
        let s := s.modFill p idx (fun f => { f with hdrs := joinHeader f.hdrs (what - 2) off data })
        if s.outstanding (ofSnap p idx) then s else fillRun 40 p idx (s.modFill p idx (fun f => { f with phase := 3, busy := false }))
      else
        let s := (s.xchWrite p off data).fillWrote p idx data.length
        if s.outstanding (ofSnap p idx) then s else fillRun 40 p idx (s.modFill p idx (fun f => { f with phase := 7, busy := false }))

/-! ### Drives -/

/-- The SAVE layer or FILL whose command a drive is running, by partition and index; `l` is the layer. -/
def driveUser (s : State) (p drive : Nat) : Option (Bool × Nat × Nat) :=
  let x := s.snapOf p
  let l := if drive < 16 then 1 else 2
  match x.saves.find? (fun v => v.running && driveOf v.r l == drive && v.parts.any (fun y => y.layer == l && y.busy && y.res.isNone)) with
  | some v => some (true, v.idx, l)
  | none => (x.fills.find? (fun f => f.running && f.todo.headD 3 == l && driveOf f.r l == drive && f.busy)).map (fun f => (false, f.idx, l))

/-- Whether the end of a drive's command waits for a line: of the source of a SAVE layer, or of those that a FILL writes (R27, R244). -/
def driveWaits (s : State) (p drive : Nat) : Bool :=
  match s.driveUser p drive with
  | none => false
  | some (true, idx, l) => (s.saveOf p idx).any (fun v => s.sourceWaits p v.r l)
  | some (false, idx, _) => (s.fillOf p idx).any (fun f => s.fillWaits p f.r)

/-- A drive has ended the command under way for a partition with data. -/
def driveDone (s : State) (p drive : Nat) (data : List Byte) : State :=
  match s.driveUser p drive with
  | none => s
  | some (true, idx, l) => s.layerStep p idx l (ofLeBytes (data.take 64))
  | some (false, idx, _) => s.fillStep p idx data

/-- The layer that uses a drive fails with LINK_DOWN; true where there was one (R455, R458). -/
def driveFails (s : State) (p drive : Nat) : State × Bool :=
  match s.driveUser p drive with
  | none => (s, false)
  | some (true, idx, l) => (s.layerRes p idx l (.failed linkDownCode), true)
  | some (false, idx, _) => (s.fillFails p idx linkDownCode, true)

/-- The layers that wait for a store's connection go on, or fail where it was refused (R454, R455). -/
def storeOpened (s : State) (p t : Nat) (ok : Bool) : State :=
  let s := (s.snapOf p).saves.foldl (fun s v =>
    if v.running && v.r.target == t && v.parts.any (fun y => y.layer == 2 && y.phase == 0 && y.res.isNone)
        && v.parts.all (fun y => y.layer != 0 || y.ended) then (if ok then s.layerEnter p v.idx 2 1 else s.layerRes p v.idx 2 (.failed linkDownCode)) else s) s
  (s.snapOf p).fills.foldl (fun s f =>
    if f.running && f.todo.headD 3 == 2 && f.r.target == t && f.phase == 0 then
      (if ok then fillRun 40 p f.idx s else s.fillFails p f.idx linkDownCode) else s) s

/-- A sag is indicated (R414): the flash layers that run issue nothing more, though it may clear before their command ends. -/
def sagFlash (s : State) : State :=
  (List.range 4).foldl (fun s p => (s.snapOf p).saves.foldl (fun s v =>
    s.modLayer p v.idx 1 (fun x => if v.running && x.res.isNone && x.phase ≠ 0 then { x with sagged := true } else x)) s) s

/-- PFW_N is asserted (R414): outstanding writes of running flash layers are aborted, and the layers fail. -/
def tearFlash (s : State) : State :=
  (List.range 4).foldl (fun s p => (s.snapOf p).saves.foldl (fun s v =>
    match s.saveLayer p v.idx 1 with
    | some x => if v.running && x.res.isNone && x.phase ≠ 0 then
        s.layerRes p v.idx 1 (.failed (if x.busy && (x.phase = 3 || x.phase = 4 || x.phase = 5 || x.phase = 7) then 0x0B01 else 0x0A01)) else s
    | none => s) s) s

/-- A SAVE that ends from outside (R419): each layer not yet ended fails with the code and is counted (R422), and the slot that it was writing stays
WRITING. -/
def abortSave (s : State) (p code : Nat) (v : Save) : State :=
  let left := (v.parts.filter (fun y => !y.ended)).map SaveLayer.layer
  left.foldl (fun s l =>
    let n := 16 + 16 * p + l
    ((s.bumpSnp p 0x108 1).setReg (home .snp p 0x18) (code + l * 65536)).progress n 4 3 code (s.reg (home .prog n 8)) (s.reg (home .prog n 0x10))) s

/-- The layers of a SAVE that ended as `f` says, as a mask. -/
def endMask (v : Save) (f : SaveLayer → Bool) : Nat := (v.parts.filter f).foldl (fun a y => a + 2 ^ y.layer) 0

/-- SAVEs and FILLs of a partition end from outside (R419); a disable, which leaves the event ring standing, posts their end (R421). -/
def abortSnaps (s : State) (p code : Nat) : State :=
  let x := s.snapOf p
  let tell := code == 0x0901
  let s := x.saves.foldl (fun s v =>
    let s := s.abortSave p code v
    if !tell then s else
    s.post p 0x0401 code 3 v.idx (endMask v (fun y => y.ended && y.res == some .completed)
      + endMask v (fun y => !y.ended || (y.res != some .completed && y.res != some .skipped)) * 8
      + endMask v (fun y => y.ended && y.res == some .skipped) * 64) v.step) s
  let s := x.fills.foldl (fun s f =>
    let s := (s.setReg (home .snp p 0x18) (code + 3 * 65536)).fillProgress p f 4 code (s.reg (home .prog (19 + 16 * p + f.block) 8))
    if tell then s.post p 0x0405 code 3 f.idx 3 f.step else s) s
  let ended := (x.saves.map Save.idx) ++ (x.fills.map Fill.idx)
  ended.foldl (fun s i => s.endCmd p 3 i code) (s.setSnap p {})

end State

end Sys2Proof.Machine
end

