-- ==== Sys2Proof/Machine/Answer.lean ====
section
/-! DEFINITION. What the answer to a remote request does (R224, R353). -/

namespace Sys2Proof.Machine

namespace State

/-- A lane of a thread's remote access answered: a load's data are kept until its instruction ends (R190); a refusal raises the EXTENT fault with
bits [43:0] of the global address, whatever the code (R224, R353). -/
def laneAnswered (s : State) (id lane : Nat) (q : Txn) (code : Option Nat) (data : List Byte) : State :=
  match s.op id with
  | none => s
  | some o =>
    if o.hasResult then
      let v := extendLoad o.bytes o.signed (ofLeBytes data)
      let got := o.got ||| 2 ^ lane
      (s.setOp id { o with lanes := o.lanes.map (fun x => if x.lane = lane then { x with data := v } else x), got := got,
                           answered := o.lanes.all (fun x => got.testBit x.lane),
                           faults := if code.isSome then o.faults ++ [(lane, 1, q.pa)] else o.faults }).endInstr o.instr
    else
      let s := if code.isSome && s.mayFault o.unit o.slot o.part o.cmd then s.threadFault o.unit o.slot 1 (2 ^ lane) o.pc q.pa else s
      s.laneDone id lane

/-- A transfer's remote write answered: a refusal fails the command with its code (R353). -/
def copyWritten (s : State) (p st idx : Nat) (q : Txn) (code : Option Nat) : State :=
  match code, (s.cmdOf p st idx).bind Cmd.engine with
  | some c, some e => s.xferFail p st idx e c (globalOf (some q.dst) q.pa)
  | _, _ => s

/-- A transfer's remote read answered: the data are written at their destination and the next line follows, or the command fails. -/
def copyRead (s : State) (p st idx dst : Nat) (q : Txn) (code : Option Nat) (data : List Byte) : State :=
  match (s.cmdOf p st idx).bind Cmd.engine with
  | none => s
  | some e => match code with
    | some c => s.xferFail p st idx e c (globalOf (some q.dst) q.pa)
    | none =>
      if ((s.cmdOf p st idx).map (fun c => c.notes.isEmpty)) ≠ some true then s else
      let dev := if dst.testBit 60 then some (bits dst 44 12) else none
      let mcast := ((s.cmdOf p st idx).map (fun c => (s.xferOf p c).mcast)).getD []
      let (s, bad) := s.xferWrite p st idx dev mcast (bits dst 0 44) data
      match bad with
      | some c => s.xferFail p st idx e c (globalOf dev (bits dst 0 44))
      | none =>
        let s := s.bump (home .xfe e 0x100) data.length
        match s.cmdOf p st idx with
        | some c => if c.issued then s else xferPieces s p st idx e (s.xferOf p c) c.piece s
        | none => s

/-- Whether the acceptance of a write, or the `n` bytes that answer a read, lead to lines of this device that wait (R27, R244). -/
def answerWaits (s : State) (w : Requester) (n : Nat) : Bool :=
  match w with
  | .copyRead p st idx dst =>
    !dst.testBit 60 && (s.paWaits p (bits dst 0 44) n
      || (((s.cmdOf p st idx).map (fun c => (s.xferOf p c).mcast)).getD []).any (fun k => !s.domOn k))
  | .snapRead p idx what off => s.snapReadWaits p idx what off n
  | .snapWrite p idx => s.snapWriteWaits p idx
  | _ => false

/-- The answer to a request of this device: `code` none for an acceptance or data, else why it was refused. -/
def answered (s : State) (w : Requester) (q : Txn) (code : Option Nat) (data : List Byte) : State :=
  match w with
  | .lane id lane => s.laneAnswered id lane q code data
  | .copyWrite p st idx => s.copyWritten p st idx q code
  | .copyRead p st idx dst => s.copyRead p st idx dst q code data
  | .permute p _ idx _ => match code, (s.xchOf p).perm with
    | some c, some x => if x.idx = idx then s.failPerm p c else s
    | _, _ => s
  | .snapWrite p idx => s.snapWritten p idx q.bytes code
  | .snapRead p idx what off => s.snapRead p idx what off code data

end State

end Sys2Proof.Machine
end

