-- ==== Sys2Proof/Machine/SnapRows.lean ====
section
/-! DEFINITION. The snapshot commands (R403, R404, R407, R408, R415, R418). -/

namespace Sys2Proof.Machine

namespace State

/-- A SNAPSHOT as its record gives it: whether it is a FILL, and the record resolved; or the code it fails with (R403, R404). -/
def snapParams (s : State) (p : Nat) (c : Cmd) : Except Nat (Bool × SnapRec) :=
  match s.readRecord p (s.addrOf p (c.w64 0x10)).2 128 with
  | .error code => .error code
  | .ok l =>
    let w (o : Nat) : Nat := rec32 l o
    let layers := (List.range 3).filter (fun k => (c.f 0x20 0 3).testBit k)
    let has (k : Nat) : Bool := layers.contains k
    let fill := bits (w 0) 0 2 = 1
    let img := rec64 l 0x10
    let blobBytes := bits (w 0x20) 0 13
    let stage := rec64 l 0x28
    let area := rec64 l 0x30
    let port := bits (w 0x38) 0 2
    let link := bits (w 0x38) 2 2
    if 2 ≤ bits (w 0) 0 2 || bits (w 0) 2 2 ≠ 0 || bits (w 0) 16 16 ≠ 0 || bits (w 0x20) 13 19 ≠ 0 || bits (w 0x24) 15 17 ≠ 0
        || bits (w 0x38) 4 28 ≠ 0 || bits (w 0x48) 4 28 ≠ 0 || bits (w 0x58) 12 4 ≠ 0 || bits (w 0x58) 28 4 ≠ 0 || ofLeBytes (l.drop 0x5C) ≠ 0
        || layers.isEmpty || img = 0 || img % 128 ≠ 0 || 0x1000000000 < img || 4096 < blobBytes || blobBytes % 8 ≠ 0
        || (fill && stage != 0) || (has 0 && (bits (w 0) 4 4 == 0 || bits (w 0) 8 8 == 0 || decide (2 ^ 44 ≤ area)))
        || (has 1 && (s.pcxRole port != 2 || decide (s.pcxLinks port ≤ link))) || (has 2 && !s.storeValid (bits (w 0x48) 0 4)) then
      .error 0x0102
    else match s.recAddrs p ([rec64 l 8, rec64 l 0x18] ++ (if stage = 0 then [] else [stage])) with
    | .error code => .error code
    | .ok as =>
      let stage := (as[2]?).getD 0
      let r : SnapRec := {
        layers := layers, dims := bits (w 0) 4 4, mask := bits (w 0) 8 8, job := w 4, src := as.headD 0, img := img, blob := (as[1]?).getD 0,
        blobBytes := blobBytes, capture := if bits (w 0x24) 14 1 = 1 then some (bits (w 0x24) 12 2 * 4096 + bits (w 0x24) 0 12) else none,
        stage := stage, area := area, port := port, link := link, fnsid := w 0x3C, flba := rec64 l 0x40, target := bits (w 0x48) 0 4,
        snsid := w 0x4C, slba := rec64 l 0x50, source := bits (w 0x58) 0 12, partner := bits (w 0x58) 16 12 }
      let areaBytes := 2 * popcount 8 r.mask * slotSize r
      let ranges := [(r.src, img), (r.blob, blobBytes)] ++ (if stage = 0 then [] else [(stage, img + 4096)])
        ++ (if has 0 then [(area, areaBytes)] else [])
      let perm (a n : Nat) (write : Bool) : Bool := n == 0 || (if write then s.writable p a n else s.translatesAll p a n 1)
      let meet := ranges.zipIdx.any (fun x => (ranges.take x.2).any (fun y => rangesMeet x.1.1 x.1.2 y.1 y.2))
      if meet || !perm r.src img fill || !perm r.blob blobBytes fill
          || (stage != 0 && (!perm stage (img + 4096) false || !perm stage (img + 4096) true)) || (has 0 && !s.translatesAll p area areaBytes 0x23)
          || r.capture.any (fun k => !s.ownsRegion p (k / 4096)) then .error 0x0802
      else .ok (fill, r)

/-- A waiting SAVE may run: no layer of it is in use or wanted by an earlier SAVE, and no FILL runs or came first (R408). -/
def saveReady (s : State) (p : Nat) (v : Save) : Bool :=
  let x := s.snapOf p
  !v.running && !(x.saves.takeWhile (fun y => y.idx != v.idx)).any (fun y => y.parts.any (fun l => !l.ended && v.r.layers.contains l.layer))
    && !x.fills.any (fun f => f.running || decide (f.idx < v.idx))

/-- A waiting FILL may run (R408, R418). -/
def fillReady (s : State) (p : Nat) (f : Fill) : Bool :=
  let x := s.snapOf p
  !f.running && (x.fills.head?.map Fill.idx) == some f.idx && !x.saves.any (fun v => v.running || decide (v.idx < f.idx))

/-- A FILL starts to run. -/
def fillStart (s : State) (p : Nat) (f : Fill) : State :=
  fillRun 40 p f.idx ((s.modFill p f.idx (fun f => { f with running := true })).fillProgress p f 2 0 0)

/-- Whether a FILL stands because a line waited (R244). -/
def fillStands (f : Fill) : Bool := f.running && !f.busy && (f.phase == 4 || f.phase == 7 || (f.phase == 0 && f.todo.headD 3 == 0))

/-- What waits and may run, starts (R408, R418); a FILL that stood for a line goes on. -/
def snapNext (s : State) (p : Nat) : State :=
  match (s.snapOf p).saves.find? (fun v => s.saveReady p v && !s.stageWaits p v.r) with
  | some v => s.saveRun p v
  | none => match (s.snapOf p).fills.find? (s.fillReady p) with
    | some f => s.fillStart p f
    | none => match (s.snapOf p).fills.find? fillStands with
      | some f => fillRun 40 p f.idx s
      | none => s

/-- A SAVE is accepted: it runs, or waits with its layers' blocks QUEUED (R407, R408); not before the lines that it stages may be read and written
(R244). -/
def saveAccept (s : State) (p : Nat) (c : Cmd) (r : SnapRec) (far : List Nat) : State :=
  let v : Save := { idx := c.idx, step := c.w64 0x18, r := r, far := far, running := false, stagePoison := false, captured := false,
                    partner := 0, entry := 0, parts := r.layers.map (fun l => { layer := l }) }
  if s.stageWaits p r then s else
  let x := s.snapOf p
  let s := (s.begin p 3 c).setSnap p { x with saves := x.saves ++ [v] }
  if s.saveReady p v then s.saveRun p v else
  r.layers.foldl (fun s l => s.saveBlock p l 1 0 0 0) s

/-- A FILL is accepted where one of the two blocks is free: it runs, or waits QUEUED (R418). -/
def fillAccept (s : State) (p : Nat) (c : Cmd) (r : SnapRec) : State :=
  let x := s.snapOf p
  match [0, 1].find? (fun b => !x.fills.any (fun f => f.block == b)) with
  | none => s
  | some b =>
    let f : Fill := { idx := c.idx, step := c.w64 0x18, r := r, block := b, running := false, todo := r.layers, phase := 0, busy := false,
                      hdrs := [none, none], slots := [], off := 0, fell := none }
    let s := (s.begin p 3 c).setSnap p { x with fills := x.fills ++ [f] }
    if s.fillReady p f then s.fillStart p f else s.fillProgress p f 1 0 0

end State

/-! ### The commands -/

/-- SNAPSHOT_SAVE (R407): the next command of stream X of partition `p`, if it is a SNAPSHOT that is no FILL. `far` holds, for each dimension,
the feed group of the device two hops away in bits 7-0 and whether the second port of that route is UP in bit 8, as the housekeeping firmware
has learnt them (R409). -/
def execSnapshotSave (p : Fin 4) (far : List Nat) (s : State) : Out :=
  .next (s.starting p.val 3 0x23 (fun c s => s.withRecord p.val (s.addrOf p.val (c.w64 0x10)).2 128 (fun t => match t.snapParams p.val c with
    | .error code => t.beginEnd p.val 3 c code
    | .ok (true, _) => s
    | .ok (false, r) => t.saveAccept p.val c r far)))

/-- SNAPSHOT_FILL (R415): the next command of stream X of partition `p`, if it is a SNAPSHOT that is a FILL. -/
def execSnapshotFill (p : Fin 4) (s : State) : Out :=
  .next (s.starting p.val 3 0x23 (fun c s => s.withRecord p.val (s.addrOf p.val (c.w64 0x10)).2 128 (fun t => match t.snapParams p.val c with
    | .error code => t.beginEnd p.val 3 c code
    | .ok (true, r) => t.fillAccept p.val c r
    | .ok (false, _) => s)))

/-- SNAPSHOT_LAYER_END (R407) of layer `l` of the SAVE with index `idx`. -/
def execSnapshotLayerEnd (p : Fin 4) (idx : W32) (l : Fin 3) (s : State) : Out := .next (s.layerEnded p.val idx.toNat l.val)

/-- SNAPSHOT_QUEUED_START (R408, R418). -/
def execSnapshotQueuedStart (p : Fin 4) (s : State) : Out := .next (s.snapNext p.val)

end Sys2Proof.Machine
end

