-- ==== Sys2Proof/Machine/LinkRows.lean ====
section
/-! DEFINITION. The commands of the Griwald ports (R347 to R370): flits in and out, link messages, training, and the transactions that
have arrived for this device. -/

namespace Sys2Proof.Machine

namespace State

/-! ### Replay (R349) -/

/-- The flits of the replay buffer from a SEQ on are sent again and counted; a flit replayed 16 times without an acknowledgement
takes the port DOWN with cause RETRY. -/
def replayFrom (s : State) (g seq : Nat) : State :=
  let x := s.port g
  let hit (r : Replay) : Bool := decide ((r.seq + 4096 - seq) % 4096 < 2048)
  let l := x.replay.filter hit
  let s := s.setPort g { x with replay := x.replay.map (fun r => if hit r then { r with count := r.count + 1 } else r) }
  let s := l.foldl (fun s r => s.emit (.flit g r.flit)) s
  let s := s.bumpPort g 0x128 l.length
  if l.any (fun r => decide (15 ≤ r.count)) then s.portDown g 4 else s

/-! ### Lanes (R364) -/

/-- The port moves to an active-lane mask: LANES_CHANGED is posted where it differs. -/
def setLanes (s : State) (g mask : Nat) : State :=
  let x := s.port g
  if x.lanes = mask then s else
  (s.setPort g { x with lanes := mask }).postAll 0x0103 0 (g + laneCount x.lanes * 16 + laneCount mask * 256 + x.failed * 4096) 0

/-- The lanes of a port that are good in both directions as far as it knows. -/
def goodLanes (x : Glp) : Nat := 0xFFF ^^^ (x.failed % 4096)

/-- The largest allowed count of lanes out of a mask, as the lowest of them (notes/assumptions/25.md). -/
def bestLanes (mask : Nat) : Nat := lowestLanes 12 (laneCount mask) mask

/-- The lanes of a mask have failed, here or at the peer, and rejoin only with training: the largest allowed count of the good ones becomes active,
or the port goes DOWN with cause LANES where fewer than 8 are left; `tell` proposes the good lanes to the peer (R364). -/
def loseLanes (s : State) (g mask : Nat) (tell : Bool) : State :=
  let x := s.port g
  let x := { x with failed := x.failed ||| mask }
  let s := s.setPort g x
  let good := goodLanes x
  if laneCount good < 8 then s.portDown g 3 else
  let s := if tell then s.setPort g { x with ctlOut := x.ctlOut ++ [[4 + good * 2 ^ 32]] } else s
  s.setLanes g (bestLanes good)

/-! ### The neighbour record (R367, R368) -/

/-- The checks of R368 in order on the two slots of a record: the cause of the first that fails, 0 if none. -/
def recordCheck (s : State) (g a : Nat) : Nat :=
  if bits a 8 3 ≠ g / 2 ∨ bits a 11 1 = g % 2 then 6
  else if bits a 48 16 ≠ s.pkg.sizes then 7
  else if bits a 72 2 ≠ s.pkg.layout then 8
  else 0

/-- The device number that a peer's coordinates give by way of port `g` (R368). -/
def derived (s : State) (g peer : Nat) : Nat :=
  let d := g / 2
  let l := max 1 (s.torus d)
  let x := coord peer d
  putBits peer (3 * d) 3 (if g % 2 = 1 then (x + 1) % l else (x + l - 1) % l)

/-- A record received in NEGOTIATE (R368): checked, the device's coordinates derived or compared, and the port UP once both devices'
are known. -/
def takeRecord (s : State) (g a b : Nat) : State :=
  let x := s.port g
  if x.state ≠ 2 then s else
  let cause := s.recordCheck g a
  if cause ≠ 0 then s.portDown g cause else
  let peer := bits a 32 12
  let s := s.setPort g { x with peerDev := peer, peerPort := bits a 8 3 * 2 + bits a 11 1, peerFeed := bits a 64 8,
                                peerLayout := bits a 72 2, peerSerial := bits b 0 64, recordOk := true }
  if !bit a 44 then s else
  let s := if s.pkg.device.isNone then { s with pkg := { s.pkg with device := some (s.derived g peer) } } else s
  if s.derived g peer ≠ s.self then s.portDown g 9 else s.portUp g

/-- The oldest link message that port `g` received, taken out, if its code is `code`. -/
def takeCtl (s : State) (g code : Nat) : Option (Nat × Nat × State) :=
  let x := s.port g
  match x.ctlIn with
  | [] => none
  | m :: rest =>
    if bits (m.headD 0) 0 8 = code then some (m.headD 0, (m[1]?).getD 0, s.setPort g { x with ctlIn := rest }) else none

/-! ### Requests that arrive (R59, R268, R269, R353) -/

/-- Entry `k` of the transactions that have arrived, if its operation is `op`. -/
def arrivedTxn (s : State) (k op : Nat) : Option InTxn :=
  match s.inTxn[k]? with
  | some x => if x.t.op = op then some x else none
  | none => none

/-- An arrived transaction has been dealt with: its receive buffer is free. -/
def dropTxn (s : State) (k : Nat) (x : InTxn) : State := { s with inTxn := s.inTxn.eraseIdx k }.release x.held

/-- Whether transactions `a` and `b` touch a common 128-byte line. -/
def sameLine (a b : Txn) : Bool :=
  decide (a.pa / 128 ≤ (b.pa + b.bytes - 1) / 128) && decide (b.pa / 128 ≤ (a.pa + a.bytes - 1) / 128)

/-- Whether request `k` must wait for an earlier one of the same source that has not been performed: under NATIVE ordering any earlier
request, under TP3 ordering any earlier write for WRITE_FINAL and an earlier write of the line for READ (R268, R269). -/
def mustWait (s : State) (k : Nat) (t : Txn) : Bool :=
  (s.inTxn.take k).any (fun e =>
    let u := e.t
    decide (u.src = t.src) && decide (u.part = t.part) && decide (u.op = 1 || u.op = 2 || u.op = 3) &&
    (!t.tp3 || (t.op == 2 && u.op != 3) || (t.op == 3 && u.op != 3 && sameLine u t)))

/-- Why this device refuses a request, 0 if it does not: no such partition, a partition that refuses (R432, R436), or no translation with
permission G (R59). -/
def refusal (s : State) (t : Txn) : Nat :=
  if s.nParts ≤ t.part then 0x0802
  else if 2 ≤ s.prtState t.part then 0x0901
  else if 2 ^ 44 < t.pa + t.bytes || !s.translatesAll t.part t.pa t.bytes 32 then 0x0802
  else 0

/-- A request that has arrived is refused with a NAK, waits, or is performed with `f` and answered. -/
def serve (s : State) (k : Nat) (x : InTxn) (f : State → State) : State :=
  let code := s.refusal x.t
  if code ≠ 0 then (s.dropTxn k x).respond x.t 6 code []
  else if s.mustWait k x.t || s.paWaits x.t.part x.t.pa x.t.bytes then s
  else f (s.dropTxn k x)

/-- A remote write performed and acknowledged (R353). -/
def serveWrite (s : State) (k : Nat) (x : InTxn) : State :=
  s.serve k x (fun s => (s.pokePa x.t.part x.t.pa x.t.data).respond x.t 5 0 [])

/-! ### Responses (R353, R354) -/

/-- The port and request that a response answers: the first port on which its tag is in use for the same partition and PA. -/
def answers (s : State) (t : Txn) (ok : Txn → Bool) : Option (Nat × Requester) :=
  (List.range 8).findSome? (fun g => match s.tagUse g t.tag with
    | some (w, q) => if q.pa = t.pa ∧ q.part = t.part ∧ ok q then some (g, w) else none
    | none => none)

/-- A response taken: its request is answered with `f` and its tag freed, or it is discarded and counted (R354). -/
def takeResponse (s : State) (k : Nat) (x : InTxn) (ok : Txn → Bool) (f : Nat → Requester → Txn → State → State) : State :=
  match s.answers x.t ok with
  | none => (s.dropTxn k x).bumpPort x.port 0x150 1
  | some (g, w) =>
    let q := match s.tagUse g x.t.tag with
      | some (_, q) => q
      | none => x.t
    f g w q ((s.dropTxn k x).freeTagOf g x.t.tag)

end State

/-! ### The commands -/

/-- FLIT_RECEIVE (R349) on port `g`. -/
def execFlitReceive (g : Fin 8) (f : BitVec 2048) (s : State) : Out := .next (s.flitArrived g.val f.toNat)

/-- RETRY_REPEAT (R349): the expected SEQ has not arrived. -/
def execRetryRepeat (g : Fin 8) (s : State) : Out :=
  let x := s.port g.val
  .next (if (x.state = 2 || x.state = 3) && x.retry then s.sendRetry g.val else s)

/-- ACK_TIMER (R349). -/
def execAckTimer (g : Fin 8) (s : State) : Out :=
  .next (if (s.port g.val).state = 3 then s.sendIdle g.val else s)

/-- RECORD (R367, R368). -/
def execRecord (g : Fin 8) (s : State) : Out :=
  match s.takeCtl g.val 1 with
  | some (a, b, s) => .next (s.takeRecord g.val a b)
  | none => .next s

/-- RETRY (R349). -/
def execRetry (g : Fin 8) (s : State) : Out :=
  match s.takeCtl g.val 2 with
  | some (a, _, s) => .next (if (s.port g.val).state = 3 then s.replayFrom g.val (bits a 32 12) else s)
  | none => .next s

/-- The cause that a port records when the DOWN message of its peer carries one (R366, R368): the same of a link's own trouble, and PEER_RESET where
the peer is reset, loses its power or fails (notes/assumptions/104.md). -/
def State.peerCause (c : Nat) : Nat := if 1 ≤ c ∧ c ≤ 9 then c else 5

/-- DOWN (R360, R366). -/
def execDown (g : Fin 8) (s : State) : Out :=
  match s.takeCtl g.val 3 with
  | some (a, _, s) =>
    .next (if (s.port g.val).state = 2 || (s.port g.val).state = 3 then s.portDown g.val (State.peerCause (bits a 32 8)) else s)
  | none => .next s

/-- LANES (R360, R364): the lanes that the peer's proposal leaves out have failed there (notes/assumptions/25.md); where this port knows of others, it
proposes what is left. -/
def execLanes (g : Fin 8) (s : State) : Out :=
  match s.takeCtl g.val 4 with
  | some (a, _, s) =>
    let x := s.port g.val
    let mask := bits a 32 12
    .next (if x.state = 2 || x.state = 3 then s.loseLanes g.val (0xFFF ^^^ mask) (State.goodLanes x &&& mask != mask) else s)
  | none => .next s

/-- LANE_FAILURE (R364) of the lanes in a mask: where one of them is active, the port moves to what its good lanes allow. -/
def execLaneFailure (g : Fin 8) (mask : BitVec 12) (s : State) : Out :=
  let x := s.port g.val
  .next (if x.state = 2 || x.state = 3 then
    if x.lanes &&& mask.toNat = 0 then s.setPort g.val { x with failed := x.failed ||| mask.toNat } else s.loseLanes g.val mask.toNat true
  else s)

/-- GRIWALD_PORT_FAULT (R37, R366): the port goes DOWN with cause FAULT and stays so. -/
def execGriwaldPortFault (g : Fin 8) (s : State) : Out :=
  .next (if (s.port g.val).state = 0 || ((s.port g.val).state = 4 && (s.port g.val).cause = 11) then s else s.portDown g.val 11)

/-- PORT_TRAINING_END (R364, R365): electrical training ends with the lanes of a mask good. -/
def execPortTrainingEnd (g : Fin 8) (good : BitVec 12) (s : State) : Out :=
  let x := s.port g.val
  .next (if x.state = 1 then
    let s := s.setPort g.val { x with failed := 0xFFF ^^^ good.toNat, lanes := State.bestLanes good.toNat }
    if State.laneCount good.toNat < 8 then s.portDown g.val 3
    else let x := s.port g.val; s.setPort g.val { x with state := 2, recordOk := false, ctlIn := [], ctlOut := [] }
  else s)

/-- NEGOTIATE_RECORD_SEND (R365). -/
def execNegotiateRecordSend (g : Fin 8) (s : State) : Out :=
  .next (if (s.port g.val).state = 2 then s.sendControl g.val (s.recordOf g.val) else s)

/-- NO_PEER (R366): TRAINING or NEGOTIATE ran out of time. -/
def execNoPeer (g : Fin 8) (s : State) : Out :=
  .next (if (s.port g.val).state = 1 || (s.port g.val).state = 2 then s.portDown g.val 1 else s)

/-- LOST (R366): no valid flit for 10 µs. -/
def execLost (g : Fin 8) (s : State) : Out := .next (if (s.port g.val).state = 3 then s.portDown g.val 2 else s)

/-- RETRAIN (R366): a DOWN port with one of the causes 1 to 5 trains again. -/
def execRetrain (g : Fin 8) (s : State) : Out :=
  let x := s.port g.val
  .next (if x.state = 4 && 1 ≤ x.cause && x.cause ≤ 5 && s.domOn (48 + g.val) then s.setPort g.val { x with state := 1 } else s)

/-- TXN_WRITE (R353): the arrived transaction number `k` is a WRITE. -/
def execTxnWrite (k : Nat) (s : State) : Out :=
  match s.arrivedTxn k 1 with
  | some x => .next (s.serveWrite k x)
  | none => .next s

/-- WRITE_FINAL (R269, R353). -/
def execWriteFinal (k : Nat) (s : State) : Out :=
  match s.arrivedTxn k 2 with
  | some x => .next (s.serveWrite k x)
  | none => .next s

/-- TXN_READ (R353). A read that meets a poisoned word is answered with NAK POISON, so that whoever asked fails as it would on a poisoned line of its own
(R236, R247, R251; notes/assumptions/26.md). -/
def execTxnRead (k : Nat) (s : State) : Out :=
  match s.arrivedTxn k 3 with
  | some x =>
    .next (s.serve k x (fun s =>
      let s := s.readPa x.t.part x.t.pa x.t.bytes
      if s.poisonedPa x.t.part x.t.pa x.t.bytes then s.respond x.t 6 0x0801 []
      else s.respond x.t 4 0 (s.peekPa x.t.part x.t.pa x.t.bytes)))
  | none => .next s

/-- READ_DATA (R353): it waits while what it brings goes to lines that wait (R27, R244). -/
def execReadData (k : Nat) (s : State) : Out :=
  match s.arrivedTxn k 4 with
  | some x =>
    if (s.answers x.t (fun q => q.op == 3)).any (fun w => s.answerWaits w.2 x.t.data.length) then .next s
    else .next (s.takeResponse k x (fun q => q.op == 3) (fun _ w q s => s.answered w q none x.t.data))
  | none => .next s

/-- ACK (R353): it waits while what follows it reads lines that wait (R27, R244). -/
def execAck (k : Nat) (s : State) : Out :=
  match s.arrivedTxn k 5 with
  | some x =>
    if (s.answers x.t (fun q => q.op != 3)).any (fun w => s.answerWaits w.2 0) then .next s
    else .next (s.takeResponse k x (fun q => q.op != 3) (fun _ w q s => s.answered w q none []))
  | none => .next s

/-- NAK (R353). -/
def execNak (k : Nat) (s : State) : Out :=
  match s.arrivedTxn k 6 with
  | some x =>
    .next (s.takeResponse k x (fun _ => true) (fun g w q s => (s.bumpPort g 0x140 1).answered w q (some x.t.code) []))
  | none => .next s

/-- RESP_TIMEOUT (R354): the request with tag `tag` of port `g` is unanswered. -/
def execRespTimeout (g : Fin 8) (tag : Fin 4096) (s : State) : Out :=
  match s.tagUse g.val tag.val with
  | none => .next s
  | some (w, q) =>
    let x := s.port g.val
    let s := s.setPort g.val { x with tags := x.tags.set .free tag.val .withheld, failedReqs := x.failedReqs + 1 }
    .next ((s.bumpPort g.val 0x148 1).answered w q (some 0x0701) [])

/-- TAG_WITHHOLD_END (R354). -/
def execTagWithholdEnd (g : Fin 8) (tag : Fin 4096) (s : State) : Out :=
  .next (if (s.port g.val).tags.get .free tag.val = .withheld then s.freeTagOf g.val tag.val else s)

end Sys2Proof.Machine
end

