-- ==== Sys2Proof/Machine/Exchange.lean ====
section
/-! DEFINITION. The gradient exchange (R371 to R392, R401, R402): parameters, scale agreement, quantisation, the transit adders, checksums,
verdicts, closing and the spectrograph. -/

namespace Sys2Proof.Machine

/-! ### Numbers (R378 to R382, R387, R391, R392) -/

/-- Bits of a number above 0. -/
def bitLen (m : Nat) : Nat := if m = 0 then 0 else Nat.log2 m + 1

/-- The local exponent of a first-stage block from its FP32 codes, and whether it is finite and too large (R378). -/
def localExpFp32 (l : List Nat) : Nat × Bool :=
  let vs := l.map (decodeFp fp32)
  if vs.any (fun v => !v.isFin) then (0xFF, false) else
  let e := vs.foldl (fun a v => match v with
    | .fin _ m x => if m = 0 then a else max a (x + bitLen m + 127).toNat
    | _ => a) 0
  if 254 < e then (0xFF, true) else (e, false)

/-- The local exponent of a later stage from the sums held at exponent `e` (R378). -/
def localExpSum (l : List Int) (e : Nat) : Nat :=
  if e = 0xFF then 0xFF else
  let m := l.foldl (fun a x => max a x.natAbs) 0
  if m = 0 then 0 else e + bitLen m - 15

/-- The local exponent of a block's values. -/
def BlockVals.localExp (b : BlockVals) : Nat × Bool :=
  match b.held with
  | none => localExpFp32 (b.vals.map Int.toNat)
  | some e => (localExpSum b.vals e, false)

/-- The headroom of a ring of `l` devices (R379). -/
def headroom (l : Nat) : Nat := bitLen (l - 1)

/-- The agreed exponent (R379). -/
def agreeExp (m h : Nat) : Nat := if m = 0xFF || 254 < m + h then 0xFF else m + h

/-- One value quantised at the agreed exponent, and whether it was clamped (R380). -/
def quantise (v : Fv) (e h : Nat) : Int × Bool :=
  if e = 0xFF then (0, false) else
  match v with
  | .fin neg m x =>
    let lim : Int := (2 ^ (15 - h) : Nat) - 1
    let r : Int := roundInt .rne m (x + 142 - e)
    let r := if neg then -r else r
    if r < -lim then (-lim, true) else if lim < r then (lim, true) else (r, false)
  | _ => (0, false)

/-- The exact value of one of a block's values (R380). -/
def BlockVals.value (b : BlockVals) (x : Int) : Fv :=
  match b.held with
  | none => decodeFp fp32 x.toNat
  | some e => Fv.ofInt x ((e : Int) - 142)

/-- A 16-bit two's-complement value from an integer (R381). -/
def wrap16 (i : Int) : Int := toSigned 16 (ofSigned 16 i)

/-- The checksums of a block (R382). -/
def checksums (q : List Int) : Nat × Nat :=
  (ofSigned 32 (q.foldl (· + ·) 0),
   ((q.zipIdx.foldl (fun (a : Int) p => a + (p.2 + 1) * p.1) 0) % 0x7FFFFFFF).toNat)

/-- Two pairs of checksums added (R382). -/
def addChecksums (a b : Nat × Nat) : Nat × Nat := ((a.1 + b.1) % 2 ^ 32, (a.2 + b.2) % 0x7FFFFFFF)

/-- The sum of the squares of a block's values. -/
def sumSquares (q : List Int) : Nat := q.foldl (fun a x => a + x.natAbs * x.natAbs) 0

/-- An FP64 sum with one more addend, rounded once (R391). -/
def add64 (a : Nat) (v : Fv) : Nat := (encodeFp fp64 .rne ((decodeFp fp64 a).add v).1).1

/-- The FP64 sum of squares over blocks, those of exponent 0xFF skipped (R391). -/
def squares64 (l : List (Nat × Nat)) : Nat :=
  l.foldl (fun a b => if b.2 = 0xFF then a else add64 a (.fin false b.1 (2 * ((b.2 : Int) - 142)))) 0

/-- An FP64 quotient by a whole number above 0. -/
def div64 (a d : Nat) : Nat :=
  match decodeFp fp64 a with
  | .nan => fp64.nan
  | .inf n => fp64.signBit n + fp64.infCode
  | .fin n m e => (encodeQuot fp64 .rne n m e d).1

/-- The 64-byte spectrograph record (R392). -/
def spectrograph (step gscale batch n : Nat) (t : XTuple) : List Byte :=
  let c := decodeFp fp32 gscale
  let c2 := (encodeFp fp64 .rne (c.mul c).1).1
  let s1 := (fMul fp64 .rne c2 t.a).1
  let s2 := (fMul fp64 .rne c2 t.f).1
  let gsq := div64 (fSub fp64 .rne s2 s1).1 (n * (n - 1))
  let b := (encodeFp fp64 .rne (.fin false batch 0)).1
  let tr := div64 (fMul fp64 .rne b (fSub fp64 .rne s1 (div64 s2 n)).1).1 (n - 1)
  let v (x : Nat) : Nat := if t.void then fp64.nan else x
  leBytes 8 step ++ leBytes 8 (v s1) ++ leBytes 8 (v s2) ++ leBytes 8 (v gsq) ++ leBytes 8 (v tr) ++ leBytes 4 (n + b2n t.void * 65536)
    ++ leBytes 4 batch ++ leBytes 8 t.nonfinite ++ leBytes 8 0

/-! ### Sending and registers -/

/-- The dimensions of a DIMS mask, ascending. -/
def dimsOf (m : Nat) : List Nat := (List.range 4).filter (fun d => m.testBit d)

/-- The ports of dimensions. -/
def portsOf (dims : List Nat) : List Nat := (dims.map (fun d => [2 * d, 2 * d + 1])).flatten

namespace State

/-- The exchange of a partition changed. -/
def setExch (s : State) (p : Nat) (e : Option Exch) : State := s.setXch p { s.xchOf p with exch := e }

/-- A counter of the exchange block of dimension `d` in the page set of partition `p`. -/
def bumpX (s : State) (p d off n : Nat) : State := s.bump (pages .xch p d off) n

/-- An EXCH transaction to the neighbour on a port (R384); a port that is not UP carries none. -/
def exchSend (s : State) (p g kind stage dir bucket block : Nat) (data : List Byte) : State :=
  let x := s.port g
  if x.state ≠ 3 then s else
  s.enqueue g 5 { op := 7, dst := x.peerDev, src := s.self, part := p, tp3 := false,
                  pa := kind + stage * 2 ^ 4 + dir * 2 ^ 6 + bucket * 2 ^ 8 + block * 2 ^ 20, bytes := data.length, tag := 0, code := 0,
                  data := data } false none

/-- The number of devices over dimensions. -/
def deviceCount (s : State) (dims : List Nat) : Nat := dims.foldl (fun a d => a * max 1 (s.torus d)) 1

/-- The owner index of this device over dimensions in ascending order (R372). -/
def ownerIndex (s : State) (dims : List Nat) : Nat := dims.foldl (fun a d => a * max 1 (s.torus d) + s.pos d) 0

/-- ABORT of a command on ports (R384, R390). -/
def sendAbort (s : State) (p : Nat) (ports : List Nat) (code dev command slot : Nat) : State :=
  ports.foldl (fun s g => s.exchSend p g 5 slot (g % 2) 0 0 (leBytes 16 (code + dev * 2 ^ 16 + command * 2 ^ 28))) s

/-- What a failed collective records: XCH_LAST_ERROR of its dimensions and COLLECTIVE_ABORT (R390, R401, R402). -/
def noteAbort (s : State) (p : Nat) (dims : List Nat) (code dev command idx step : Nat) : State :=
  let s := dims.foldl (fun s d => s.setReg (pages .xch p d 0x18) (code + dev * 65536)) s
  s.post p 0x0302 code 3 idx (command + dev * 16) step

/-- An EXCHANGE fails with a code that arose on device `dev`: ABORT goes out on the ports of its dimensions but `skip` (R390). -/
def failExch (s : State) (p : Nat) (e : Exch) (code sent dev : Nat) (skip : List Nat) : State :=
  let s := s.sendAbort p ((portsOf e.dims).filter (fun g => !skip.contains g)) sent dev 1 0
  let s := s.noteAbort p e.dims code dev 1 e.idx e.step
  (s.setExch p none).endCmd p 3 e.idx code

/-- What the failure of an EXCHANGE or GATHER that is not in progress sends: ABORT on every port of the dimensions that it names, and
COLLECTIVE_ABORT (R390). -/
def collectiveFell (s : State) (p : Nat) (c : Cmd) (dims : List Nat) (command slot code : Nat) : State :=
  let s := s.sendAbort p (portsOf dims) code s.self command slot
  s.noteAbort p dims code s.self command c.idx (c.w64 0x18)

/-- An EXCHANGE or GATHER that fails at its start (R390). -/
def refuseCollective (s : State) (p : Nat) (c : Cmd) (dims : List Nat) (command slot code : Nat) : State :=
  (s.collectiveFell p c dims command slot code).beginEnd p 3 c code

/-- An exchange command that fails at parse (R390, R402): EXCHANGE names its dimensions in its slot; the record in which GATHER names its own has not
been read, so it names none (notes/assumptions/80.md). -/
def exchFellParse (s : State) (p : Nat) (c : Cmd) (code : Nat) : State :=
  match c.op with
  | 0x20 => s.collectiveFell p c (dimsOf (c.f 0x20 0 4)) 1 0 code
  | 0x21 => s.collectiveFell p c [] 2 0 code
  | 0x22 => s.permFell p code
  | _ => s

/-! ### READY (R385) -/

/-- The 64 bytes that announce an EXCHANGE. -/
def exchReady (e : Exch) : Nat :=
  1 + (e.dims.foldl (fun a d => a + 2 ^ d) 0) * 2 ^ 4 + e.job * 2 ^ 32 + e.step * 2 ^ 64 + e.blocks * 2 ^ 128 + e.bucket * 2 ^ 160

/-! ### Starting (R371, R373 to R375, R385) -/

/-- An EXCHANGE as its record gives it, or the code it fails with (R371, R374, R375). -/
def exchParams (s : State) (p : Nat) (c : Cmd) : Except Nat Exch :=
  let dims := dimsOf (c.f 0x20 0 4)
  if dims.isEmpty || dims.any (fun d => decide (s.torus d < 2)) then .error 0x0102 else
  match s.readRecord p (s.addrOf p (c.w64 0x10)).2 64 with
  | .error code => .error code
  | .ok l =>
    match s.recAddrs p ([rec64 l 0, rec64 l 8, rec64 l 16] ++ (if rec64 l 0x28 = 0 then [] else [rec64 l 0x28])) with
    | .error code => .error code
    | .ok as =>
      let n := s.deviceCount dims
      let src := as.headD 0
      let dst := (as[1]?).getD 0
      let stg := (as[2]?).getD 0
      let blocks := rec32 l 0x18
      let bucket := rec32 l 0x1C
      let stgSize := rec32 l 0x20 * 65536
      if bucket = 0 || blocks % bucket ≠ 0 || bucket % (2 * n) ≠ 0 || 4096 < blocks / bucket || stgSize < 8192 * bucket || rec32 l 0x34 = 0
          || rec64 l 0x38 ≠ 0 || rangesMeet src (blocks * 1024) dst (blocks * 1024 / n) || rangesMeet src (blocks * 1024) stg stgSize
          || rangesMeet dst (blocks * 1024 / n) stg stgSize then .error 0x0102
      else if (blocks ≠ 0 && (!s.translatesAll p src (blocks * 1024) 1 || !s.writable p dst (blocks * 1024 / n)))
          || (stgSize ≠ 0 && (!s.translatesAll p stg stgSize 3 || !s.writable p stg stgSize))
          || (rec64 l 0x28 ≠ 0 && !s.writable p ((as[3]?).getD 0) 64) then .error 0x0802
      else if (portsOf dims).any (fun g => (s.port g).state != 3) then .error 0x0701
      else .ok { idx := c.idx, step := c.w64 0x18, dims := dims, src := src, dst := dst, blocks := blocks, bucket := bucket,
                 job := rec32 l 0x24, record := as[3]?, gscale := rec32 l 0x30, batch := rec32 l 0x34, marked := c.ledSkip,
                 ready := [], next := 0, jobs := [], held := [], asq := [], fin := [], nonfinite := 0, void := false, mism := [],
                 closing := none, stg := stg, stgSize := stgSize }

/-! ### Closing (R387 to R392) -/

/-- The void blocks of DST: each keeps its value or takes its decoded sum, either one (R388). -/
def writeDst (s : State) (p : Nat) (e : Exch) (void : Bool) : State :=
  e.fin.foldl (fun s b => match b.2 with
    | none => s
    | some v =>
      let (x, s) := if void then s.draw else (1, s)
      if x % 2 = 0 then s else
      let code (q : Int) : Nat := match v.held with
        | some 0xFF | none => fp32.nan
        | some k => (encodeFp fp32 .rne (Fv.ofInt q ((k : Int) - 142))).1
      s.xchWrite p (e.dst + b.1 * 1024) ((v.vals.map (fun q => leBytes 4 (code q))).flatten)) s

/-- The exchange ends with its final tuple. A void step fails it on every device alike, so it sends no ABORT and posts STEP_VOID in place of
COLLECTIVE_ABORT (R388; notes/assumptions/78.md). -/
def exchEnd (s : State) (p : Nat) (e : Exch) (t : XTuple) : State :=
  let n := s.deviceCount e.dims
  let s := s.writeDst p e t.void
  let s := match e.record with
    | some pa => s.xchWrite p pa (spectrograph e.step e.gscale e.batch n t)
    | none => s
  let s := s.setExch p none
  if t.void then
    let s := e.dims.foldl (fun s d => (s.bumpX p d 0x138 1).setReg (pages .xch p d 0x18) (0x0502 + s.self * 65536)) s
    (s.post p 0x0301 0x0502 3 e.idx e.step t.nonfinite).endCmd p 3 e.idx 0x0502
  else s.endCmd p 3 e.idx 0

/-- Whether the end of an exchange waits for a line of DST or of the record (R27, R244). -/
def endWaits (s : State) (p : Nat) (e : Exch) : Bool :=
  s.paWaits p e.dst (e.blocks * 1024 / s.deviceCount e.dims) || e.record.any (fun pa => s.paWaits p pa 64)

/-- A closing tuple as its 32 bytes, and back (R384, R387). -/
def tupleBytes (t : XTuple) : List Byte := leBytes 8 t.a ++ leBytes 8 t.f ++ leBytes 8 t.nonfinite ++ leBytes 8 (b2n t.void)
/-- The tuple in 32 bytes. -/
def bytesTuple (l : List Byte) : XTuple := { a := rec64 l 0, f := rec64 l 8, nonfinite := rec64 l 16, void := rec64 l 24 % 2 == 1 }

/-- A dimension's part of the closing begins: this device's tuple goes out in the + direction. -/
def closeStage (s : State) (p : Nat) (e : Exch) (i : Nat) (own : XTuple) : State :=
  match e.dims[i]? with
  | none => s.exchEnd p e own
  | some d => (s.setExch p (some { e with closing := some { stage := i, own := own, got := [] } })).exchSend p (2 * d) 6 i 0 0 0 (tupleBytes own)

/-- The closing begins once every bucket has passed its last stage and every neighbour is ready (R385, R387). -/
def exchAdvance (s : State) (p : Nat) : State :=
  match (s.xchOf p).exch with
  | none => s
  | some e =>
    let n := s.deviceCount e.dims
    if e.closing.isSome || e.fin.length ≠ e.blocks / n || (portsOf e.dims).any (fun g => !e.ready.contains g) then s else
    let a := squares64 ((List.range e.blocks).filterMap (fun k => e.asq.get none k))
    let f := squares64 ((List.range (e.blocks / n)).filterMap (fun k => (e.fin.get none k).map (fun v => (sumSquares v.vals, v.held.getD 0xFF))))
    s.closeStage p e 0 { a := a, f := f, nonfinite := e.nonfinite, void := e.marked || e.void }

/-! ### Buckets and halves (R376, R377) -/

/-- The job of a bucket and stage. -/
def jobOf (e : Exch) (bucket stage : Nat) : Option XJob := e.jobs.find? (fun j => j.bucket == bucket && j.stage == stage)

/-- The exchange with a job changed. -/
def putJob (e : Exch) (j : XJob) : Exch :=
  { e with jobs := e.jobs.map (fun x => if x.bucket = j.bucket && x.stage = j.stage then j else x) }

/-- The shard and the direction of a block of a job in a ring of `l` (R376). -/
def halfOf (j : XJob) (l block : Nat) : Nat × Nat :=
  let m := j.n / l
  ((block - j.first) / m, if (block - j.first) % m < m / 2 then 0 else 1)

/-- The blocks of the half of shard `o` that travels in direction `dir`. -/
def halfBlocks (j : XJob) (l o dir : Nat) : List Nat :=
  let m := j.n / l
  (List.range (m / 2)).map (fun i => j.first + o * m + dir * (m / 2) + i)

/-- The position after `x` in a direction. -/
def after (l dir x : Nat) : Nat := if dir = 0 then (x + 1) % l else (x + l - 1) % l

/-- The port by which a half leaves. -/
def outPort (d dir : Nat) : Nat := 2 * d + dir

/-- Exponents of consecutive blocks sent on (R384). -/
def sendExps (s : State) (p d : Nat) (j : XJob) (dir block : Nat) (l : List Nat) : State :=
  ((pieces 512 (l.length + 1) l).foldl (fun (a : State × Nat) x =>
    (a.1.exchSend p (outPort d dir) 1 j.stage dir j.bucket a.2 (x.map (BitVec.ofNat 8)), a.2 + x.length)) (s, block)).1

/-- The quantised values of consecutive blocks sent by the first contributor, each group of 16 followed by its checksums (R384). -/
def sendData (s : State) (p d : Nat) (j : XJob) (dir : Nat) (blocks : List Nat) : State :=
  let q (b : Nat) : List Int := j.q.get [] b
  let s := (pieces 16 (blocks.length + 1) blocks).foldl (fun s g =>
    let s := g.foldl (fun s b => s.exchSend p (outPort d dir) 2 j.stage dir j.bucket b (((q b).map (fun x => leBytes 2 (ofSigned 16 x))).flatten)) s
    s.exchSend p (outPort d dir) 3 j.stage dir j.bucket (g.headD 0)
      ((g.map (fun b => let c := checksums (q b); leBytes 4 c.1 ++ leBytes 4 c.2)).flatten)) s
  s.bumpX p d 0x100 blocks.length

/-- The agreed exponents of consecutive blocks kept and the blocks quantised (R379, R380). -/
def takeAgreed (s : State) (p d : Nat) (e : Exch) (j : XJob) (block : Nat) (l : List Nat) : State × Exch × XJob :=
  let h := headroom (s.torus d)
  let (s, j, e) := l.zipIdx.foldl (fun (a : State × XJob × Exch) x =>
    let b := block + x.2
    let v := (a.2.1.vals[b - j.first]?).getD { held := none, vals := [] }
    let r := v.vals.map (fun y => quantise (v.value y) x.1 h)
    let q := r.map Prod.fst
    let s := a.1.bumpX p d 0x120 ((r.filter (fun y => y.2)).length)
    let e := a.2.2
    let e := if j.stage = 0 then { e with asq := e.asq.set none (j.bucket * e.bucket + b) (some (sumSquares q, x.1)) } else e
    (s, { a.2.1 with agreed := a.2.1.agreed.set none b (some x.1), q := a.2.1.q.set [] b q }, { e with void := e.void || x.1 == 0xFF }))
    (s, j, e)
  (s, putJob e j, j)

/-- Where `n` blocks go in the staging area: a free place of it, since the spec does not lay it out (R374; notes/assumptions/32.md). -/
def stagePlace (s : State) (e : Exch) (n : Nat) : Nat := e.stg + s.draw.1 % (e.stgSize + 1 - 1024 * n)

/-- What `n` blocks leave in the staging area: free bytes (R374; notes/assumptions/32.md). -/
def stageBytes (s : State) (p : Nat) (e : Exch) (n pa : Nat) : State :=
  if e.stgSize < 1024 * n then s else
  let (l, s) := s.draw.2.drawBytes (1024 * n)
  s.xchWrite p pa l

/-- A bucket enters its next stage (R377), once its lines may be read and the staging area written (R244): the local exponents are formed, and this
device sends those of the two halves it contributes to first. -/
def stageStart (s : State) (p : Nat) (e : Exch) (b : Nat) : State :=
  let h := e.held.get {} b
  match e.dims[h.stage]? with
  | none => s
  | some d =>
    let may := decide (b < e.blocks / max 1 e.bucket) && !e.jobs.any (fun j => j.bucket == b)
      && (if h.stage = 0 then b == e.next else true) && decide ((e.jobs.filter (fun j => j.stage == h.stage)).length < 4)
      && e.ready.contains (2 * d) && e.ready.contains (2 * d + 1)
    if !may then s else
    let n := if h.stage = 0 then e.bucket else h.n
    let first := if h.stage = 0 then 0 else h.first
    let pa (i : Nat) : Nat := e.src + (b * e.bucket + i) * 1024
    let place := s.stagePlace e n
    if (h.stage = 0 && s.paWaits p (pa 0) (n * 1024)) || (decide (1024 * n ≤ e.stgSize) && s.paWaits p place (1024 * n)) then s else
    let (vals, s) := if h.stage = 0 then (List.range n).foldl (fun (x : List BlockVals × State) i =>
        let (l, s) := x.2.loadPa p (pa i) 1024
        (x.1 ++ [{ held := none, vals := (List.range 256).map (fun k => (rec32 l (4 * k) : Int)) }], s)) ([], s) else (h.vals, s)
    let lost (i : Nat) : Bool := h.stage == 0 && (e.marked || s.poisonedPa p (pa i) 1024)
    let beyond := (vals.zipIdx.filter (fun v => !lost v.2 && v.1.localExp.2)).length
    let exps := vals.zipIdx.map (fun v => if lost v.2 then 0xFF else v.1.localExp.1)
    let l := s.torus d
    let x := s.pos d
    let j : XJob := { bucket := b, stage := h.stage, first := first, n := n, vals := vals, exps := exps, passed := [], agreed := [], q := [],
                      sums := [], carried := [], okHalf := [], res := [], clean := [] }
    let mine := [(after l 1 x, 0), (after l 0 x, 1)].map (fun o => (o.2, halfBlocks j l o.1 o.2))
    let j := { j with passed := (mine.map Prod.snd).flatten }
    let s := s.setExch p (some { e with jobs := e.jobs ++ [j], next := if h.stage = 0 then e.next + 1 else e.next })
    let s := (s.bumpX p d 0x130 beyond).stageBytes p e n place
    mine.foldl (fun s m => s.sendExps p d j m.1 (m.2.headD 0) (m.2.map (fun b => (exps[b - first]?).getD 0))) s

/-! ### What arrives (R379 to R383) -/

/-- The fields of an exchange address (R384): stage, direction, bucket, block. -/
def exchAddr (t : Txn) : Nat × Nat × Nat × Nat := (bits t.pa 4 2, bits t.pa 6 1, bits t.pa 8 12, bits t.pa 20 24)

/-- Entry `k` of the arrived transactions, if it is EXCH of a kind. -/
def arrivedExch (s : State) (k kind : Nat) : Option InTxn :=
  match s.arrivedTxn k 7 with
  | some x => if x.t.pa % 16 = kind then some x else none
  | none => none

/-- The exchange and job that an arrived transaction of a stage concerns; where the partition runs no EXCHANGE it is discarded, where the
stage has not begun it waits. -/
def withJob (s : State) (k kind : Nat) (f : State → InTxn → Nat → Exch → XJob → State) : State :=
  match s.arrivedExch k kind with
  | none => s
  | some x =>
    let (stage, _, bucket, block) := exchAddr x.t
    match (s.xchOf x.t.part).exch with
    | none => s.dropTxn k x
    | some e => match jobOf e bucket stage with
      | none => s
      | some j =>
        if block < j.first || j.first + j.n ≤ block || e.dims[stage]? ≠ some (x.port / 2) then s.dropTxn k x
        else f s x (x.port / 2) e j

/-- EXPONENT: joined to the maximum on its first passing, agreed at the owner, kept on its second (R379). -/
def takeExponent (s : State) (k : Nat) : State :=
  s.withJob k 1 (fun s x d e j =>
    let p := x.t.part
    let (_, dir, _, block) := exchAddr x.t
    let l := s.torus d
    let me := s.pos d
    let (o, _) := halfOf j l block
    let got := x.t.data.map BitVec.toNat
    let s := s.dropTxn k x
    if !j.passed.contains block then
      let m := got.zipIdx.map (fun v => max v.1 ((j.exps[block + v.2 - j.first]?).getD 0))
      let j := { j with passed := j.passed ++ (List.range got.length).map (block + ·) }
      if me ≠ o then (s.setExch p (some (putJob e j))).sendExps p d j dir block m
      else
        let a := m.map (fun v => agreeExp v (headroom l))
        let bad := (a.filter (· == 0xFF)).length
        let (s, e, j) := s.takeAgreed p d { e with nonfinite := e.nonfinite + bad } j block a
        ((s.bumpX p d 0x128 bad).setExch p (some e)).sendExps p d j dir block a
    else
      let (s, e, j) := s.takeAgreed p d e j block got
      let s := s.setExch p (some e)
      let s := if after l dir me = o then s else s.sendExps p d j dir block got
      if after l dir o = me then s.sendData p d j dir ((List.range got.length).map (block + ·)) else s)

/-- A device has clean verdicts from every owner: it has finished the stage of the bucket and holds its shard's sums (R376, R383). -/
def stageEnd (s : State) (p d : Nat) (e : Exch) (j : XJob) : State :=
  let l := s.torus d
  if j.clean.length < l then s.setExch p (some (putJob e j)) else
  let m := j.n / l
  let first := j.first + s.pos d * m
  let vals := (List.range m).map (fun i =>
    ({ held := some ((j.agreed.get none (first + i)).getD 0xFF), vals := j.sums.get [] (first + i) } : BlockVals))
  let e := { e with jobs := e.jobs.filter (fun y => !(y.bucket == j.bucket && y.stage == j.stage)) }
  let e := if j.stage + 1 < e.dims.length then
      { e with held := e.held.set {} j.bucket { stage := j.stage + 1, first := first, n := m, vals := vals } }
    else { e with held := e.held.set {} j.bucket { stage := j.stage + 1 },
                  fin := vals.zipIdx.foldl (fun (f : SMap (Option BlockVals)) v => f.set none (j.bucket * m + v.2) (some v.1)) e.fin }
  (s.setExch p (some e)).exchAdvance p

/-- The owner's check of its halves (R382, R383): a half whose sums and carried checksums are all there is compared; once both are, the
verdict goes out. At the third mismatch of a half the EXCHANGE fails, and the half's port goes DOWN once its ABORT has left (R390). -/
def ownerCheck (s : State) (p d : Nat) (e : Exch) (j : XJob) : State :=
  let l := s.torus d
  let me := s.pos d
  let key (dir : Nat) : Nat := (j.bucket * 8 + j.stage) * 2 + dir
  let step (a : State × Exch × XJob) (dir : Nat) : State × Exch × XJob :=
    let (s, e, j) := a
    let bs := halfBlocks j l me dir
    if j.okHalf.contains dir || j.res.any (fun r => r.1 == dir)
        || bs.any (fun b => (j.carried.get none b).isNone || (j.sums.get [] b).isEmpty) then a
    else
      let bad := bs.any (fun b => j.carried.get none b != some (checksums (j.sums.get [] b)))
      let j := { j with res := j.res ++ [(dir, bad)] }
      if !bad then (s, e, j) else
      let n := e.mism.get 0 (key dir) + 1
      let s := (s.bumpX p d 0x110 1).post p 0x0303 0 3 e.idx (j.bucket + j.stage * 2 ^ 12 + dir * 2 ^ 14 + n * 2 ^ 15) (bs.headD 0)
      (s, { e with mism := e.mism.set 0 (key dir) n },
       { j with sums := bs.foldl (fun m b => m.set [] b []) j.sums, carried := bs.foldl (fun m b => m.set none b none) j.carried })
  let (s, e, j) := [0, 1].foldl step (s, e, j)
  match [0, 1].find? (fun dir => decide (3 ≤ e.mism.get 0 (key dir))) with
  | some dir =>
    let g := 2 * d + 1 - dir
    let s := s.failExch p e 0x0601 0x0601 s.self []
    if (s.port g).state = 3 then s.setPort g { s.port g with downAfter := true } else s.portDown g 11
  | none =>
    if j.okHalf.length + j.res.length < 2 || j.res.isEmpty then s.setExch p (some (putJob e j)) else
    let badDir (dir : Nat) : Bool := j.res.any (fun r => r.1 == dir && r.2)
    let j := { j with okHalf := j.okHalf ++ (j.res.filter (fun r => !r.2)).map Prod.fst, res := [] }
    let v := me + b2n (badDir 0) * 2 ^ 8 + b2n (badDir 1) * 2 ^ 9
    let j := if j.okHalf.length = 2 then { j with clean := j.clean ++ [me] } else j
    (s.exchSend p (2 * d) 4 j.stage 0 j.bucket j.first (leBytes 16 v)).stageEnd p d e j

/-- DATA: this device's contribution is added, and the block goes on or stays with its owner (R381). -/
def takeData (s : State) (k : Nat) : State :=
  s.withJob k 2 (fun s x d e j =>
    let p := x.t.part
    let (_, dir, _, b) := exchAddr x.t
    let l := s.torus d
    let (o, _) := halfOf j l b
    if (j.agreed.get none b).isNone then s else
    let own := j.q.get [] b
    let sum := own.zipIdx.map (fun v => wrap16 (v.1 + toSigned 16 (ofLeBytes ((x.t.data.drop (2 * v.2)).take 2))))
    let s := s.dropTxn k x
    if s.pos d = o then s.ownerCheck p d e { j with sums := j.sums.set [] b sum }
    else
      ((s.exchSend p (outPort d dir) 2 j.stage dir j.bucket b ((sum.map (fun v => leBytes 2 (ofSigned 16 v))).flatten)).bumpX p d 0x100 1).bumpX
        p d 0x108 1)

/-- CHECKSUM: added in transit, or kept by the owner for its comparison (R382). -/
def takeChecksum (s : State) (k : Nat) : State :=
  s.withJob k 3 (fun s x d e j =>
    let p := x.t.part
    let (_, dir, _, block) := exchAddr x.t
    let l := s.torus d
    let (o, _) := halfOf j l block
    let n := x.t.data.length / 8
    if (List.range n).any (fun i => (j.agreed.get none (block + i)).isNone) then s else
    let sum := (List.range n).map (fun i =>
      addChecksums (rec32 x.t.data (8 * i), rec32 x.t.data (8 * i + 4)) (checksums (j.q.get [] (block + i))))
    let s := s.dropTxn k x
    if s.pos d = o then
      s.ownerCheck p d e { j with carried := sum.zipIdx.foldl (fun (m : SMap (Option (Nat × Nat))) v => m.set none (block + v.2) (some v.1)) j.carried }
    else s.exchSend p (outPort d dir) 3 j.stage dir j.bucket block ((sum.map (fun c => leBytes 4 c.1 ++ leBytes 4 c.2)).flatten))

/-- VERDICT: it goes on around the ring; the first contributor of a mismatched half sends it again; clean verdicts are counted (R383). -/
def takeVerdict (s : State) (k : Nat) : State :=
  s.withJob k 4 (fun s x d e j =>
    let p := x.t.part
    let l := s.torus d
    let me := s.pos d
    let v := ofLeBytes x.t.data
    let o := bits v 0 8
    let s := s.dropTxn k x
    let s := if after l 0 me = o then s else s.exchSend p (2 * d) 4 j.stage 0 j.bucket j.first x.t.data
    let s := [0, 1].foldl (fun s dir =>
      if v.testBit (8 + dir) && after l dir o = me then (s.sendData p d j dir (halfBlocks j l o dir)).bumpX p d 0x118 1 else s) s
    if bits v 8 2 = 0 && !j.clean.contains o then s.stageEnd p d e { j with clean := j.clean ++ [o] } else s)

/-- CLOSE: the neighbour's tuple is kept and sent on; with all of a ring's tuples the dimension's sum is formed in ascending position
(R387), in the last dimension once DST and the record may be written (R244). -/
def takeClose (s : State) (k : Nat) : State :=
  match s.arrivedExch k 6 with
  | none => s
  | some x =>
    let p := x.t.part
    let stage := bits x.t.pa 4 2
    match (s.xchOf p).exch with
    | none => s.dropTxn k x
    | some e => match e.closing with
      | none => s
      | some c =>
        if c.stage ≠ stage then (if stage < c.stage then s.dropTxn k x else s) else
        let d := x.port / 2
        let l := s.torus d
        let me := s.pos d
        let got := c.got ++ [bytesTuple x.t.data]
        if got.length = l - 1 && e.dims.length = stage + 1 && s.endWaits p e then s else
        let s := s.dropTxn k x
        let s := if got.length < l - 1 then s.exchSend p (2 * d) 6 stage 0 0 0 x.t.data else s
        if got.length < l - 1 then s.setExch p (some { e with closing := some { c with got := got } }) else
        let at_ (i : Nat) : XTuple := let h := (me + l - i) % l; if h = 0 then c.own else (got[h - 1]?).getD c.own
        let sum := (List.range (l - 1)).foldl (fun (a : XTuple) i =>
          let t := at_ (i + 1)
          { a := add64 a.a (decodeFp fp64 t.a), f := add64 a.f (decodeFp fp64 t.f), nonfinite := (a.nonfinite + t.nonfinite) % 2 ^ 64,
            void := a.void || t.void }) (at_ 0)
        s.closeStage p e (stage + 1) sum

end State

end Sys2Proof.Machine
end

