-- ==== Sys2Proof/Machine/Gather.lean ====
section
/-! DEFINITION. Parameter gathers (R393 to R397) and what exchanges and gathers share: READY, ABORT, timeouts (R385, R386, R390); the
commands of the gradient exchange. -/

namespace Sys2Proof.Machine

namespace State

/-! ### Gathers -/

/-- A gather of a partition changed. -/
def setGath (s : State) (p : Nat) (g : Gath) : State :=
  let x := s.xchOf p
  s.setXch p { x with gathers := x.gathers.map (fun y => if y.idx = g.idx then g else y) }

/-- A gather of a partition ended. -/
def dropGath (s : State) (p idx : Nat) : State :=
  let x := s.xchOf p
  s.setXch p { x with gathers := x.gathers.filter (fun y => y.idx != idx) }

/-- The GATHER of a partition with index `idx`. -/
def gathOf (s : State) (p idx : Nat) : Option Gath := (s.xchOf p).gathers.find? (fun g => g.idx == idx)

/-- A GATHER fails with a code that arose on device `dev` (R390). -/
def failGath (s : State) (p : Nat) (g : Gath) (code sent dev : Nat) (skip : List Nat) : State :=
  let s := s.sendAbort p ((portsOf g.dims).filter (fun x => !skip.contains x)) sent dev 2 (g.layer % 4)
  let s := s.noteAbort p g.dims code dev 2 g.idx g.step
  (s.dropGath p g.idx).endCmd p 3 g.idx code

/-- A GATHER fails its version check (R396). -/
def failVersion (s : State) (p : Nat) (g : Gath) (tagStep : Nat) : State :=
  (s.post p 0x0304 0x0602 3 g.idx (g.layer + s.self * 65536) tagStep).failGath p g 0x0602 0x0602 s.self []

/-- The 64 bytes that announce a GATHER (R385). -/
def gathReady (g : Gath) : Nat :=
  2 + (g.dims.foldl (fun a d => a + 2 ^ d) 0) * 2 ^ 4 + g.job * 2 ^ 32 + g.step * 2 ^ 64 + g.bytes * 2 ^ 128 + g.layer * 2 ^ 192

/-- The position in dimension `d` of the device with owner index `o` over dimensions in ascending order (R372). -/
def ownerPos (s : State) (dims : List Nat) (o d : Nat) : Nat :=
  (dims.reverse.foldl (fun (a : Nat × Nat) x =>
    let l := max 1 (s.torus x)
    (a.1 / l, if x = d then a.1 % l else a.2)) (o, 0)).2

/-- The owner indices of the pieces that this device holds after `stage` stages of a gather (R395). -/
def piecesHeld (s : State) (g : Gath) (stage : Nat) : List Nat :=
  (List.range (s.deviceCount g.dims)).filter (fun o => (g.dims.drop stage).all (fun d => s.ownerPos g.dims.reverse o d == s.pos d))

/-- Hops of a piece in a direction of a ring of `l` (R395). -/
def hopsOf (l dir : Nat) : Nat := if dir = 0 then l / 2 else (l - 1) / 2

/-- One piece sent by a port, in units of 512 bytes. -/
def sendPiece (s : State) (p port dir : Nat) (g : Gath) (o : Nat) : State :=
  (List.range (g.bytes / 512)).foldl (fun s u =>
    let (l, s) := s.loadPa p (g.dst + o * g.bytes + u * 512) 512
    s.exchSend p port 7 (g.layer % 4) dir o u l) s

/-- Whether a port still holds data of a gather to send. -/
def gathQueued (s : State) (p : Nat) (g : Gath) : Bool :=
  (portsOf g.dims).any (fun x => ((s.port x).txq.get [] 5).any (fun e =>
    e.part == p && (e.begun || (bits (e.slots.headD 0) 32 4 == 7 && bits (e.slots.headD 0) 36 2 == g.layer % 4))))

/-- Whether what a stage of a gather sends waits for a line of the pieces, or in the first stage of the tag or the shard (R27, R244). -/
def sendWaits (s : State) (p : Nat) (g : Gath) : Bool :=
  (s.piecesHeld g g.stage).any (fun o => s.paWaits p (g.dst + o * g.bytes) g.bytes)
  || (g.stage == 0 && (s.paWaits p g.tag 16 || s.paWaits p g.shard g.bytes))

/-- A gather goes on as far as it can: a stage sends its pieces once both neighbours are ready and its lines may be read, ends when its ring's pieces are here, and
the gather completes when nothing is left to send. The checksum is compared after the first stage's send (R395, R396). -/
def gathAdvance (fuel : Nat) (p idx : Nat) (s : State) : State :=
  match fuel with
  | 0 => s
  | n + 1 => match s.gathOf p idx with
    | none => s
    | some g => match g.dims[g.stage]? with
      | none => if s.gathQueued p g then s else (s.dropGath p idx).endCmd p 3 idx 0
      | some d =>
        if !g.sent then
          if !g.ready.contains (2 * d) || !g.ready.contains (2 * d + 1) || s.sendWaits p g then s else
          let l := max 1 (s.torus d)
          let s := (s.piecesHeld g g.stage).foldl (fun s o =>
            let s := if 0 < hopsOf l 0 then s.sendPiece p (2 * d) 0 g o else s
            if 0 < hopsOf l 1 then s.sendPiece p (2 * d + 1) 1 g o else s) s
          let (tag, s) := if g.stage = 0 then s.loadPa p g.tag 16 else ([], s)
          let (own, s) := if g.stage = 0 then s.loadPa p g.shard g.bytes else ([], s)
          let sum := (pieces 4 (g.bytes / 4 + 1) own).foldl (fun a w => a + ofLeBytes w) 0 % 2 ^ 32
          if g.stage = 0 && sum != rec32 tag 8 then s.failVersion p g (rec64 tag 0)
          else gathAdvance n p idx (s.setGath p { g with sent := true })
        else if (s.piecesHeld g (g.stage + 1)).all (fun o => g.got.get 0 o == g.bytes / 512) then
          gathAdvance n p idx (s.setGath p { g with stage := g.stage + 1, sent := false })
        else s

/-- The dimensions that a GATHER's record names, and its slot; none where the record cannot be read. -/
def gathNames (s : State) (p : Nat) (c : Cmd) : Option (List Nat × Nat) :=
  match s.readRecord p (s.addrOf p (c.w64 0x10)).2 64 with
  | .error _ => none
  | .ok l => some (dimsOf (bits (rec64 l 0x18) 32 4), bits (rec64 l 0x20) 32 2)

/-- A GATHER as its record gives it, or the code it fails with (R371, R394). -/
def gathParams (s : State) (p : Nat) (c : Cmd) : Except Nat Gath :=
  match s.readRecord p (s.addrOf p (c.w64 0x10)).2 64 with
  | .error code => .error code
  | .ok l =>
    let dims := dimsOf (bits (rec64 l 0x18) 32 4)
    let bytes := rec32 l 0x18
    if c.f 0x20 0 2 = 3 || bytes % 512 ≠ 0 || bits (rec64 l 0x18) 36 28 ≠ 0 || bits (rec64 l 0x20) 48 16 ≠ 0 || ofLeBytes (l.drop 0x28) ≠ 0
        || dims.isEmpty || dims.any (fun d => decide (s.torus d < 2)) then .error 0x0102 else
    match s.recAddrs p [rec64 l 0, rec64 l 8, rec64 l 16] with
    | .error code => .error code
    | .ok as =>
      let shard := as.headD 0
      let tag := (as[1]?).getD 0
      let dst := (as[2]?).getD 0
      if (bytes ≠ 0 && (!s.translatesAll p shard bytes 1 || !s.writable p dst (bytes * s.deviceCount dims)))
          || !s.translatesAll p tag 16 1 then .error 0x0802
      else if (portsOf dims).any (fun g => (s.port g).state != 3) then .error 0x0701
      else .ok { idx := c.idx, step := c.w64 0x18, dims := dims.reverse, shard := shard, tag := tag, dst := dst, bytes := bytes,
                 job := rec32 l 0x20, layer := bits (rec64 l 0x20) 32 16, look := c.f 0x20 0 2, ready := [], stage := 0, sent := false,
                 got := [] }

/-! ### READY (R385) -/

/-- READY sent on every port of dimensions. -/
def sendReady (s : State) (p : Nat) (dims : List Nat) (stage body : Nat) : State :=
  (portsOf dims).foldl (fun s g => s.exchSend p g 0 stage (g % 2) 0 0 (leBytes 64 body)) s

/-- A READY matched with the oldest command of its kind in progress that takes part on its port and has none from there; false where
there is no such command. -/
def matchReady (s : State) (p port body : Nat) : State × Bool :=
  let x := s.xchOf p
  if body % 16 = 1 then
    match x.exch with
    | some e =>
      if !(portsOf e.dims).contains port || e.ready.contains port then (s, false)
      else if body ≠ exchReady e then (s.failExch p e 0x0102 0x0102 s.self [], true)
      else ((s.setExch p (some { e with ready := e.ready ++ [port] })).exchAdvance p, true)
    | none => (s, false)
  else
    match x.gathers.find? (fun g => (portsOf g.dims).contains port && !g.ready.contains port) with
    | some g =>
      if body ≠ gathReady g then (s.failGath p g 0x0102 0x0102 s.self [], true)
      else (gathAdvance 10 p g.idx (s.setGath p { g with ready := g.ready ++ [port] }), true)
    | none => (s, false)

/-- The READYs held for a partition are matched again, oldest first. -/
def matchHeld (s : State) (p : Nat) : State :=
  (s.xchOf p).held.foldl (fun s r =>
    let (s, used) := s.matchReady p r.port r.body
    if used then let x := s.xchOf p; s.setXch p { x with held := x.held.erase r } else s) s

/-- A READY that arrived on a port (R385). -/
def takeReady (s : State) (p port body : Nat) : State :=
  if 2 ≤ s.prtState p then s.sendAbort p [port] 0x0901 s.self (body % 16) (bits body 192 2)
  else if body % 16 ≠ 1 && body % 16 ≠ 2 then s else
  let (s, used) := s.matchReady p port body
  if used then s else
  let x := s.xchOf p
  if 8 ≤ (x.held.filter (fun r => r.port == port)).length then s
  else s.setXch p { x with held := x.held ++ [{ port := port, part := p, body := body }] }

/-! ### Starting -/

/-- An EXCHANGE starts, or waits for its turn (R373, R376). -/
def startExch (s : State) (p : Nat) (c : Cmd) : State :=
  let x := s.xchOf p
  if x.exch.isSome || x.perm.isSome then s else
  s.withRecord p (s.addrOf p (c.w64 0x10)).2 64 fun s =>
  match s.exchParams p c with
  | .error code => s.refuseCollective p c (dimsOf (c.f 0x20 0 4)) 1 0 code
  | .ok e =>
    let s := (s.begin p 3 c).setExch p (some e)
    let s := e.dims.foldl (fun s d => s.setReg (pages .xch p d 0x20) e.step) s
    ((s.sendReady p e.dims 0 (exchReady e)).matchHeld p).exchAdvance p

/-- Whether a GATHER waits for its turn: for a PERMUTE, for the LOOKAHEAD of the oldest GATHER, or for the GATHER that holds its slot (R373, R397). -/
def gathWaits (s : State) (p : Nat) (c : Cmd) : Bool :=
  let x := s.xchOf p
  x.perm.isSome || (x.gathers.head?).any (fun g => decide (1 + g.look ≤ x.gathers.length))
    || (s.gathNames p c).any (fun r => x.gathers.any (fun y => y.layer % 4 == r.2))

/-- A GATHER starts, or waits for its turn or for a line that it reads or writes (R244, R373, R397): its tag is checked and its own shard copied
(R395, R396). -/
def startGath (s : State) (p : Nat) (c : Cmd) : State :=
  if s.gathWaits p c then s else
  s.withRecord p (s.addrOf p (c.w64 0x10)).2 64 fun s' =>
  match s'.gathParams p c with
  | .error code => s'.refuseCollective p c ((s.gathNames p c).map Prod.fst |>.getD []) 2 ((s.gathNames p c).map Prod.snd |>.getD 0) code
  | .ok g =>
    let o := s'.ownerIndex g.dims.reverse
    if s'.paWaits p g.tag 16 || s'.paWaits p g.shard g.bytes || s'.paWaits p (g.dst + o * g.bytes) g.bytes then s else
    let x := s'.xchOf p
    let s := (s'.begin p 3 c).setXch p { x with gathers := x.gathers ++ [g] }
    let s := s.sendReady p g.dims (g.layer % 4) (gathReady g)
    let (tag, s) := s.loadPa p g.tag 16
    if s.poisonedPa p g.tag 16 || s.poisonedPa p g.shard g.bytes then s.failGath p g 0x0801 0x0801 s.self []
    else if rec64 tag 0 ≠ g.step || rec32 tag 0xC ≠ g.bytes then s.failVersion p g (rec64 tag 0)
    else
      let (own, s) := s.loadPa p g.shard g.bytes
      let s := s.xchWrite p (g.dst + o * g.bytes) own
      gathAdvance 10 p g.idx ((s.setGath p { g with got := g.got.set 0 o (g.bytes / 512) }).matchHeld p)

/-! ### What arrives -/

/-- READY number `k` of the arrived transactions. -/
def readyArrived (s : State) (k : Nat) : State :=
  match s.arrivedExch k 0 with
  | some x => (s.dropTxn k x).takeReady x.t.part x.port (ofLeBytes x.t.data)
  | none => s

/-- The code with which a received ABORT fails the command here (R390). -/
def peerCode (code : Nat) : Nat := if code = 0x0301 || code = 0x0902 then 0x0101 else code

/-- ABORT number `k` of the arrived transactions (R390): forwarded, and the command fails; without such a command it is dropped. -/
def abortArrived (s : State) (k : Nat) : State :=
  match s.arrivedExch k 5 with
  | none => s
  | some x =>
    let p := x.t.part
    let v := ofLeBytes x.t.data
    let s := s.dropTxn k x
    let code := bits v 0 16
    let dev := bits v 16 12
    if bits v 28 4 = 1 then
      match (s.xchOf p).exch with
      | some e => if (portsOf e.dims).contains x.port then
          (s.bumpX p (x.port / 2) 0x148 1).failExch p e (peerCode code) code dev [x.port] else s
      | none => s
    else
      match (s.xchOf p).gathers.find? (fun g => bits x.t.pa 4 2 == g.layer % 4 && (portsOf g.dims).contains x.port) with
      | some g => (s.bumpX p (x.port / 2) 0x148 1).failGath p g (peerCode code) code dev [x.port]
      | none => s

/-- GATHER_DATA number `k` of the arrived transactions (R395): written at its owner's offset once its lines may be
(R244), and forwarded while hops remain. -/
def gathArrived (s : State) (k : Nat) : State :=
  match s.arrivedExch k 7 with
  | none => s
  | some x =>
    let p := x.t.part
    let (slot, dir, o, u) := exchAddr x.t
    let d := x.port / 2
    match (s.xchOf p).gathers.find? (fun g => slot == g.layer % 4 && g.dims.contains d) with
    | none => s.dropTxn k x
    | some g =>
      let l := max 1 (s.torus d)
      let me := s.pos d
      let from_ := s.ownerPos g.dims.reverse o d
      let hops := if dir = 0 then (me + l - from_) % l else (from_ + l - me) % l
      let on := decide (hops < hopsOf l dir)
      if on && !g.ready.contains (outPort d dir) then s
      else if s.deviceCount g.dims ≤ o || g.bytes / 512 ≤ u then s.dropTxn k x
      else if s.paWaits p (g.dst + o * g.bytes + u * 512) x.t.data.length then s
      else
        let s := (s.dropTxn k x).xchWrite p (g.dst + o * g.bytes + u * 512) x.t.data
        let s := s.bumpX p d 0x140 x.t.data.length
        let s := s.setGath p { g with got := g.got.modify 0 o (· + 1) }
        let s := if on then s.exchSend p (outPort d dir) 7 slot dir o u x.t.data else s
        gathAdvance 10 p g.idx s

/-- The gathers of every partition go on, after a port has sent. -/
def gathersAdvance (s : State) : State :=
  (List.range 4).foldl (fun s p => (s.xchOf p).gathers.foldl (fun s g => gathAdvance 10 p g.idx s) s) s

/-! ### Ending from outside (R386, R390) -/

/-- The commands in progress that wait on a port fail with LINK_DOWN (R386, R400). -/
def xchTimeout (s : State) (p idx port : Nat) : State :=
  let x := s.xchOf p
  match x.exch.filter (fun e => e.idx == idx && (portsOf e.dims).contains port), x.gathers.find? (fun g => g.idx == idx && (portsOf g.dims).contains port) with
  | some e, _ => (s.bumpX p (port / 2) 0x150 1).failExch p e 0x0701 0x0701 s.self []
  | none, some g => (s.bumpX p (port / 2) 0x150 1).failGath p g 0x0701 0x0701 s.self []
  | none, none => if (x.perm.map Perm.idx) = some idx then s.failPerm p 0x0701 else s

/-- Every collective of a partition fails: a context kill, a partition reset or a disable (R295, R390). -/
def abortCollectives (s : State) (p code : Nat) : State :=
  let s := match (s.xchOf p).exch with
    | some e => s.failExch p e code code s.self []
    | none => s
  let s := (s.xchOf p).gathers.foldl (fun s g => s.failGath p g code code s.self []) s
  s.failPerm p code

end State

/-! ### The commands -/

/-- EXCHANGE (R371 to R377): the next command of stream X of partition `p`. -/
def execExchange (p : Fin 4) (s : State) : Out := .next (s.starting p.val 3 0x20 (fun c s => s.startExch p.val c))

/-- GATHER (R395). -/
def execGather (p : Fin 4) (s : State) : Out := .next (s.starting p.val 3 0x21 (fun c s => s.startGath p.val c))

/-- READY (R385): entry `k` of the arrived transactions. -/
def execReady (k : Nat) (s : State) : Out := .next (s.readyArrived k)

/-- EXPONENT (R379). -/
def execExponent (k : Nat) (s : State) : Out := .next (s.takeExponent k)

/-- DATA (R381). -/
def execData (k : Nat) (s : State) : Out := .next (s.takeData k)

/-- CHECKSUM (R382). -/
def execChecksum (k : Nat) (s : State) : Out := .next (s.takeChecksum k)

/-- VERDICT (R383). -/
def execVerdict (k : Nat) (s : State) : Out := .next (s.takeVerdict k)

/-- ABORT (R390). -/
def execAbort (k : Nat) (s : State) : Out := .next (s.abortArrived k)

/-- CLOSE (R387). -/
def execClose (k : Nat) (s : State) : Out := .next (s.takeClose k)

/-- GATHER_DATA (R395). -/
def execGatherData (k : Nat) (s : State) : Out := .next (s.gathArrived k)

/-- BUCKET_STAGE_START (R377): bucket `b` of partition `p`. -/
def execBucketStageStart (p : Fin 4) (b : Nat) (s : State) : Out :=
  match (s.xchOf p.val).exch with
  | some e => .next (s.stageStart p.val e b)
  | none => .next s

/-- XCH_TIMEOUT (R386): command `idx` of partition `p` has waited on port `g`. -/
def execXchTimeout (p : Fin 4) (idx : W32) (g : Fin 8) (s : State) : Out := .next (s.xchTimeout p.val idx.toNat g.val)

/-- A port that was to go DOWN once its EXCH messages have left does so (R383, R390). -/
def State.faultAfter (s : State) (g : Nat) : State :=
  if (s.port g).downAfter && ((s.port g).txq.get [] 5).isEmpty then s.portDown g 11 else s

/-- FLIT_SEND (R356) on port `g`; a gather whose last data leave by it may end (R395). -/
def execFlitSend (g : Fin 8) (s : State) : Out := .next ((s.sendFlit g.val (s.turnOrder (512 + g.val))).faultAfter g.val).gathersAdvance

end Sys2Proof.Machine
end

