-- ==== Sys2Proof/Machine/Ports.lean ====
section
/-! DEFINITION. The commands of the Ethernet and PCIe/CXL ports (R441 to R460). Frames that leave carry a kind of the model's own: 1 REP,
2 REJ, 3 DREP, 4 REQ, 5 a reply to a control frame, 6 CNP, 7 PAUSE, 8 retransmission, 9 a recovery message (notes/assumptions/34.md). -/

namespace Sys2Proof.Machine

namespace State

/-! ### RoCE -/

/-- A NAK on a queue pair: 1 Invalid Request, 2 Remote Access Error, 3 Remote Operational Error. -/
def sendNak (s : State) (n code : Nat) : State :=
  let q := s.qp n
  (s.sendOn n 0 (.roce n (some code))).bumpEth q.part q.port 0x118 1

/-- A packet marked Congestion Experienced is answered with a CNP, at most one for each 50 µs (R450). -/
def ceMark (s : State) (n : Nat) (ce : Bool) : State :=
  let q := s.qp n
  if !ce || q.lastCnp.any (fun t => decide (s.pkg.time < t + 50000)) then s else
  ((s.setQp n { q with lastCnp := some s.pkg.time }).sendOn n 0 (.frame q.port 6 (leBytes 4 n))).bumpEth q.part q.port 0x130 1

/-- A message that arrives on a queue pair is served with `f`; one of a partition that refuses is answered with Remote Operational Error, one
on any other queue pair that is not connected is dropped (R449). -/
def onQp (s : State) (n : Nat) (ce : Bool) (f : Qp → State → State) : State :=
  let q := s.qp n
  if q.conn && !q.held then f q (s.ceMark n ce)
  else if !qpUsed q && s.qps.any (fun e => e.1 == n) && decide (2 ≤ s.prtState q.part) then s.sendNak n 3
  else s

/-- The lines of an RDMA WRITE performed in order, until one is refused (R447, R448): memory under permission H; register pages refuse
(R51). -/
def rdmaLines (s : State) (p va : Nat) (data : List Byte) : State × Bool :=
  (cuts 128 va data.length).foldl (fun (a : State × Bool) c =>
    if !a.2 then a else
    match a.1.translate p c.1 16 with
    | none => (a.1, false)
    | some lpa =>
      if place lpa = .control || place lpa = .reserved then (a.1, false)
      else (a.1.pokeLine p lpa ((data.drop (c.1 - va)).take c.2), true)) (s, true)

/-- A request that is refused (R448): NAK Remote Access Error, and the queue pair enters error. The spec gives the event no cause for this
case. -/
def refuseAccess (s : State) (n : Nat) : State :=
  let (x, s) := (s.sendNak n 2).draw
  s.qpFail n (x % 256)

/-- An RDMA WRITE on a queue pair (R447, R448). -/
def rdmaWrite (s : State) (n rkey va : Nat) (data : List Byte) (q : Qp) : State :=
  let s := s.bumpEth q.part q.port 0x100 data.length
  if rkey ≠ s.windowKey q.part || 2 ^ 44 < va + data.length then s.refuseAccess n
  else
    let (s, ok) := s.rdmaLines q.part va data
    if ok then s.sendOn n 0 (.roce n none) else s.refuseAccess n

/-- The lines of an RDMA READ: the data up to the first line that is refused or poisoned, and 0 for success, else the NAK. -/
def readLines (s : State) (p va n : Nat) : List Byte × State × Nat :=
  (cuts 128 va n).foldl (fun (a : List Byte × State × Nat) c =>
    if a.2.2 ≠ 0 then a else
    match a.2.1.translate p c.1 16 with
    | none => (a.1, a.2.1, 2)
    | some lpa =>
      let s := a.2.1.readLine p lpa c.2
      if s.poisonedIn lpa c.2 then (a.1, s, 3) else let (l, s) := s.busRead lpa c.2; (a.1 ++ l, s, 0)) ([], s, 0)

/-- An RDMA READ on a queue pair (R447, R448). -/
def rdmaRead (s : State) (n rkey va len : Nat) (q : Qp) : State :=
  if rkey ≠ s.windowKey q.part || 2 ^ 44 < va + len then s.refuseAccess n
  else
    let (l, s, bad) := s.readLines q.part va len
    let s := s.sendOn n l.length (.readData n l)
    if bad = 2 then s.refuseAccess n else if bad = 3 then s.sendNak n 3 else s

/-! ### Stores (R454, R455) -/

/-- STORE_ERROR for a target (R459). -/
def storeError (s : State) (p t status : Nat) : State :=
  let port := s.storePort t
  s.post p 0x0604 linkDownCode 0 0 (port + t * 16) status

/-- A response capsule on a store I/O queue pair. -/
def storeCapsule (s : State) (status : Nat) (data : List Byte) (q : Qp) : State :=
  if q.kind ≠ 3 then s
  else if status = 0 then s.driveDone q.part (16 + q.target) data
  else
    let s := s.setReg (home .eth q.port 0x24) (status + q.target * 65536)
    ((s.storeError q.part q.target status).driveFails q.part (16 + q.target)).1

/-- The response to a management request on queue pair `n` (R289); one that cannot be sent is dropped (R292). -/
def respondMgmt (s : State) (p n msg code : Nat) : State :=
  let q := s.qp n
  if !q.conn then s else
  let v := bits msg 0 8 + bits msg 16 16 * 2 ^ 16 + s.ctxNum p * 2 ^ 32 + code * 2 ^ 48 + (s.ctxOf p).state * 2 ^ 64
  s.sendOn n 64 (.response n v)

/-- Requests of an unknown code at the front of a partition's queue are answered with BAD_COMMAND (R289). -/
def answerUnknown (fuel : Nat) (p : Nat) (s : State) : State :=
  match fuel with
  | 0 => s
  | fuel + 1 =>
    match s.mgmt.get [] p with
    | (n, msg) :: l =>
      if 1 ≤ bits msg 0 8 && bits msg 0 8 ≤ 5 then s
      else answerUnknown fuel p ({ s with mgmt := s.mgmt.set [] p l }.respondMgmt p n msg 0x0102)
    | [] => s

/-- A management request joins those of its partition (R289), which the hub serves once the package is ready (R473). -/
def mgmtArrived (s : State) (p n msg : Nat) : State :=
  let s := { s with mgmt := s.mgmt.set [] p (s.mgmt.get [] p ++ [(n, msg)]) }
  if s.dome.boot.state ≠ 1 then s else
  answerUnknown (s.mgmt.get [] p).length p s

/-! ### SEND (R445) -/

/-- A management request of 256 bytes, or a response capsule in its low 16 bytes; refused on a data queue pair (R445). -/
def roceSend (s : State) (n msg : Nat) (q : Qp) : State :=
  if q.kind = 1 then s.sendNak n 1
  else
    let s := (s.sendOn n 0 (.roce n none)).bumpEth q.part q.port 0x100 (if q.kind = 0 then 256 else 16)
    if q.kind = 0 then s.mgmtArrived q.part n msg else s.storeCapsule (bits msg 113 15) [] q

/-! ### The messages of a queue pair, in order (R265) -/

/-- Whether the length of a message lies outside R442's 1 byte to 2 GiB. -/
def badSize (m : QpMsg) : Bool :=
  match m with
  | .write _ _ data => data.isEmpty || decide (2 ^ 31 < data.length)
  | .read _ _ len => len == 0 || decide (2 ^ 31 < len)
  | _ => false

/-- A message performed. One whose length R442 does not support is refused as the table's other unsupported verbs are, with NAK Invalid
Request (notes/assumptions/105.md). -/
def qpPerform (s : State) (n : Nat) (q : Qp) (m : QpMsg) : State :=
  if badSize m then s.sendNak n 1 else
  match m with
  | .write rkey va data => s.rdmaWrite n rkey va data q
  | .read rkey va len => s.rdmaRead n rkey va len q
  | .send msg => s.roceSend n msg q
  | .atomic => (s.sendNak n 1).bumpEth q.part q.port 0x120 1

/-- Whether a message must wait for a line it names (R27, R240, R244); one that is refused waits for nothing. -/
def qpMustWait (s : State) (q : Qp) (m : QpMsg) : Bool :=
  match m with
  | .write rkey va data => decide (rkey = s.windowKey q.part) && decide (va + data.length ≤ 2 ^ 44) && s.paWaits q.part va data.length
  | .read rkey va len => decide (rkey = s.windowKey q.part) && decide (va + len ≤ 2 ^ 44) && s.paWaits q.part va len
  | .send _ => q.kind == 3 && s.driveWaits q.part (16 + q.target)
  | .atomic => false

/-- The waiting messages of a queue pair that may be performed now, in order. -/
def qpDrain (fuel n : Nat) (s : State) : State :=
  match fuel with
  | 0 => s
  | fuel + 1 =>
    let q := s.qp n
    match q.waiting with
    | [] => s
    | m :: l => if q.held || s.qpMustWait q m then s else qpDrain fuel n ((s.setQp n { q with waiting := l }).qpPerform n { q with waiting := l } m)

/-- The waiting messages of every queue pair that may be performed now. -/
def qpDrainAll (s : State) : State :=
  if s.qps.all (fun e => e.2.waiting.isEmpty) then s
  else s.qps.foldl (fun s e => qpDrain e.2.waiting.length e.1 s) s

/-- Whether a message is an RDMA READ. -/
def isRead : QpMsg → Bool
  | .read _ _ _ => true
  | _ => false

/-- The bytes of the writes that a port has received and that still wait for their lines: what fills its receive buffer (R451). -/
def rxHeld (s : State) (port : Nat) : Nat :=
  (s.qps.filter (fun e => e.2.port == port)).foldl (fun a e => e.2.waiting.foldl (fun a m => match m with
    | .write _ _ data => a + data.length
    | _ => a) a) 0

/-- Priority flow control (R451): with less than 1 MiB of the 4 MiB receive buffer free the port sends PAUSE for its priority, and it resumes, with a time of
0, at 2 MiB free. -/
def pauseCheck (s : State) (port : Nat) : State :=
  let x := s.ethOf port
  let used := s.rxHeld port
  if s.cfg (0x100 + 64 * port) 63 1 ≠ 1 || !x.up then s else
  let tell (on : Bool) : State := (s.setEth port { x with pausing := on }).emit
    (.frame port 7 (leBytes 1 (s.cfg (0x108 + 64 * port) 8 3) ++ leBytes 2 (if on then 0xFFFF else 0)))
  if !x.pausing && decide (3 * 2 ^ 20 < used) then tell true
  else if x.pausing && decide (used ≤ 2 * 2 ^ 20) then tell false
  else s

/-- The waiting messages of every queue pair that may be performed now, and the flow control of the ports. -/
def qpServe (s : State) : State :=
  if s.qps.all (fun e => e.2.waiting.isEmpty) then s else (List.range 4).foldl pauseCheck s.qpDrainAll

/-- A message arrives on a queue pair: performed, or kept behind those that wait. An RDMA READ beyond the 16 of R442 is refused as the table's unsupported
verbs are (notes/assumptions/105.md). -/
def qpArrive (s : State) (n : Nat) (ce : Bool) (m : QpMsg) : State :=
  s.onQp n ce (fun _ s =>
    let s := qpDrain (s.qp n).waiting.length n s
    let q := s.qp n
    if !q.conn then s
    else if isRead m && decide (16 ≤ (q.waiting.filter isRead).length) then s.sendNak n 1
    else if !q.waiting.isEmpty || s.qpMustWait q m then (s.setQp n { q with waiting := q.waiting ++ [m] }).pauseCheck q.port
    else s.qpPerform n q m)

/-! ### Connections (R444) -/

/-- The partition and kind of a service ID, if it is well formed: kind 0 management, 1 data. -/
def serviceOf (svc : Nat) : Option (Nat × Nat) :=
  if svc / 256 ≠ 0x4E594C50000000 || 1 < bits svc 4 4 || bits svc 2 2 ≠ 0 then none else some (bits svc 0 2, bits svc 4 4)

/-- Whether the partitions have been formed since start-up began (R472, R473). -/
def formed (s : State) : Bool := s.dome.boot.state == 1 || s.dome.boot.stage == 8

/-- A REQ of an orchestrator on a port, with the path MTU that it names (R442): connected with REP, or refused with REJ. -/
def cmReq (s : State) (port svc peer mtu : Nat) : State :=
  if !(s.ethOf port).up then s else
  let rej := s.sendCm (svc % 4) port (.frame port 2 (leBytes 4 peer))
  match serviceOf svc with
  | none => rej
  | some (p, kind) =>
    if !s.formed || s.nParts ≤ p || s.prtState p ≠ 0 || (kind = 0 && s.qps.any (fun e => e.2.conn && e.2.part == p && e.2.kind == 0)) then rej
    else match s.allocQp p with
      | none => rej
      | some (n, s) =>
        (s.setQp n { part := p, port := port, kind := kind, peer := peer, conn := true, mtu := mtu }).sendCm p port
          (.frame port 1 (leBytes 4 n ++ leBytes 4 peer ++ leBytes 4 p ++ leBytes 4 (s.windowKey p) ++ leBytes 4 s.self))

/-! ### Drives (R458) -/

/-- NVME_ERROR for a link (R459). -/
def nvmeError (s : State) (p port link status : Nat) : State := s.post p 0x0607 linkDownCode 0 0 (port + link * 4) status

/-- PCX_STATUS with the links of a mask up (R460). -/
def setLinks (s : State) (port mask : Nat) : State :=
  let v := s.reg (home .pcx port 0x10)
  s.setReg (home .pcx port 0x10) (putBits (putBits v 8 4 mask) 2 1 (b2n (decide (mask ≠ 0))))

end State

/-! ### The commands of the Ethernet ports -/

/-- ETH_CONTROL_FRAME (R441): kind 0 ARP, 1 IPv6 neighbour discovery, 2 ICMP echo over IPv4, 3 over IPv6; 4 any other frame, discarded. One that asks for
the port's own address, with its VLAN identifier where the image enables tagging and untagged where it does not, is answered with the MAC address (and
the data of an echo); in RECOVERY the port serves the recovery transfer alone (R481). -/
def execEthControlFrame (port : Fin 4) (kind : Fin 5) (data : ControlFrame) (s : State) : Out :=
  let o := 0x100 + 64 * port.val
  let mine := if kind.val % 2 = 0 then s.cfg (o + 0x10) 0 32 else s.cfg (o + 0x20) 0 64 + s.cfg (o + 0x28) 0 64 * 2 ^ 64
  let tag := if s.cfg o 50 1 = 1 then some (BitVec.ofNat 12 (s.cfg o 51 12)) else none
  .next (if !(s.ethOf port.val).up then s
    else if kind.val = 4 then s.bump (home .eth port.val 0x110) 1
    else if s.dome.boot.state = 2 || data.vlan ≠ tag || data.asked.toNat ≠ mine then s
    else s.emit (.frame port.val 5 (leBytes 1 kind.val ++ (tag.map (fun v => leBytes 2 v.toNat)).getD [] ++ leBytes 6 (s.cfg o 0 48)
      ++ leBytes 16 mine ++ data.data)))

/-- CM_REQ (R444) on a port: service ID, and the peer's queue pair with the path MTU (R442). -/
def execCmReq (port : Fin 4) (svc : W64) (peer : CmPeer) (s : State) : Out :=
  .next (s.cmReq port.val svc.toNat peer.qp.toNat (1024 * 2 ^ peer.mtu.val))

/-- CM_DREQ (R446) for queue pair `n`. -/
def execCmDreq (n : Nat) (s : State) : Out :=
  .next (if (s.qp n).conn then (s.sendCm (s.qp n).part (s.qp n).port (.frame (s.qp n).port 3 (leBytes 4 n))).qpFail n 0 else s)

/-- CM_REP (R444): the peer's queue pair for a REQ of this device. -/
def execCmRep (n : Nat) (peer : W32) (s : State) : Out :=
  let q := s.qp n
  .next (if q.wait then
    let s := s.setQp n { q with wait := false, conn := true, peer := peer.toNat }
    if s.storeOpen q.part q.target then s.storeOpened q.part q.target true else s
  else s)

/-- CM_REJ (R455): the store refuses the connection. -/
def execCmRej (n : Nat) (s : State) : Out :=
  let q := s.qp n
  .next (if q.wait then
    let s := s.setQp n { q with wait := false }
    let c := s.stores.get {} (q.part * 16 + q.target)
    let c : StoreConn := { admin := if c.admin = n then 0 else c.admin, io := if c.io = n then 0 else c.io }
    let s := { s with stores := s.stores.set {} (q.part * 16 + q.target) c }
    (s.storeError q.part q.target 0).storeOpened q.part q.target false
  else s)

/-- ROCE_SEND (R445): a management request of 256 bytes, or a response capsule in its low 16 bytes; refused on a data queue pair. -/
def execRoceSend (n : Nat) (msg : BitVec 2048) (ce : Bool) (s : State) : Out :=
  .next (s.qpArrive n ce (.send msg.toNat))

/-- RDMA_WRITE (R447). -/
def execRdmaWrite (n : Nat) (rkey : W32) (va : W64) (data : List Byte) (ce : Bool) (s : State) : Out :=
  .next (s.qpArrive n ce (.write rkey.toNat va.toNat data))

/-- RDMA_WRITE_WITH_IMMEDIATE (R447): performed as RDMA WRITE. -/
def execRdmaWriteWithImmediate (n : Nat) (rkey : W32) (va : W64) (data : List Byte) (imm : W32) (ce : Bool) (s : State) : Out :=
  let _ := imm
  .next (s.qpArrive n ce (.write rkey.toNat va.toNat data))

/-- RDMA_READ (R447). -/
def execRdmaRead (n : Nat) (rkey : W32) (va : W64) (len : W32) (ce : Bool) (s : State) : Out :=
  .next (s.qpArrive n ce (.read rkey.toNat va.toNat len.toNat))

/-- ATOMIC_VERB (R442). -/
def execAtomicVerb (n : QpArrival) (s : State) : Out :=
  .next (s.qpArrive n.qp n.ce .atomic)

/-- CNP (R450). -/
def execCnp (n : Nat) (s : State) : Out :=
  let q := s.qp n
  .next (if q.conn then (s.setQp n { q with cnp := true }).bumpEth q.part q.port 0x138 1 else s)

/-- The rate of a queue pair after an epoch (R450), in Mb/s. -/
def epochQp (ai minRate : Nat) (q : Qp) : Qp :=
  let hist := (q.hist * 2 + b2n q.cnp) % 256
  let clean := if q.cnp then 0 else min (q.clean + 1) 8
  let rate := if q.cnp then q.rate - q.rate * popcount 8 hist / 32
    else if 2 ≤ clean then q.rate + ai * 2 ^ (clean - 2) else q.rate
  { q with hist := hist, clean := clean, rate := max minRate (min 400000 rate), cnp := false }

/-- CNP_EPOCH (R450): every connected queue pair ends its epoch. -/
def execCnpEpoch (s : State) : Out :=
  .next ((s.qps.filter (fun e => e.2.conn)).foldl (fun s e =>
    let c := s.reg (home .eth e.2.port 0x20)
    s.setQp e.1 (epochQp (bits c 10 11) (bits c 21 11) e.2)) s)

/-- PFC_PAUSE (R451): a pause of a priority for a number of quanta of 512 bit times. -/
def execPfcPause (port : Fin 4) (prio : Fin 8) (quanta : BitVec 16) (s : State) : Out :=
  let x := s.ethOf port.val
  .next (if s.cfg (0x100 + 64 * port.val) 63 1 = 1 && s.cfg (0x108 + 64 * port.val) 8 3 = prio.val then
    let t := x.acc + quanta.toNat * 512
    ((s.setEth port.val { x with paused := decide (quanta.toNat ≠ 0), acc := t % 400000 }).bump
      (home .eth port.val 0x140) (t / 400000)).drainPort port.val
  else s)

/-- PFC_PAUSE_END (R451): what waits leaves. -/
def execPfcPauseEnd (port : Fin 4) (s : State) : Out :=
  .next ((s.setEth port.val { s.ethOf port.val with paused := false }).drainPort port.val)

/-- ROCE_NAK (R446). -/
def execRoceNak (n : Nat) (s : State) : Out := .next (if (s.qp n).conn then s.qpFail n 2 else s)

/-- ROCE_RETRY_EXHAUSTED (R446). -/
def execRoceRetryExhausted (n : Nat) (s : State) : Out := .next (if (s.qp n).conn then s.qpFail n 1 else s)

/-- LOCAL_ACK_TIMEOUT (R442): the unacknowledged packets go out again; after the seventh
time the retries are exhausted (R446). The timers of a held queue pair stand (R453). -/
def execLocalAckTimeout (n : Unanswered) (s : State) : Out :=
  let q := s.qp n.qp
  .next (if !q.conn || q.held then s
    else if n.tries.val = 7 then s.qpFail n.qp 1
    else (s.sendOn n.qp 0 (.frame q.port 8 (leBytes 4 n.qp))).bumpEth q.part q.port 0x128 1)

/-- ETH_LINK_DOWN (R453). -/
def execEthLinkDown (port : Fin 4) (s : State) : Out :=
  .next (if (s.ethOf port.val).up then
    let mine := s.qps.filter (fun e => e.2.conn && e.2.port == port.val)
    let x := s.ethOf port.val
    let s := s.setEth port.val { x with up := false, paused := false, pausing := false, tx := x.tx.filter (fun f => f.qp != 1) }
    (mine.foldl (fun s e => s.setQp e.1 { e.2 with held := true }) s).postAll 0x0602 0 port.val mine.length
  else s)

/-- ETH_LINK_UP (R453): a port in service comes up. -/
def execEthLinkUp (port : Fin 4) (s : State) : Out :=
  .next (if !(s.ethOf port.val).up && s.domOn (56 + port.val) && s.cfg (0x100 + 64 * port.val) 49 1 = 1 then
    let mine := s.qps.filter (fun e => e.2.conn && e.2.port == port.val)
    let s := s.setEth port.val { s.ethOf port.val with up := true }
    ((mine.foldl (fun s e => s.setQp e.1 { e.2 with held := false }) s).drainPort port.val).postAll 0x0601 0 port.val 0
  else s)

/-- ETH_HOLD_EXPIRY (R453). -/
def execEthHoldExpiry (port : Fin 4) (s : State) : Out :=
  .next (if (s.ethOf port.val).up then s else
    ((s.qps.filter (fun e => e.2.held && e.2.port == port.val)).map Prod.fst).foldl (fun s n => s.qpFail n 3) s)

/-- STORE_RESPONSE_CAPSULE (R454): the status of the command under way on queue pair `n`, with the header bytes of a header's Read; it is taken once no
line that its command leads to waits (R27, R244). -/
def execStoreResponseCapsule (n : Nat) (status : BitVec 16) (data : CapsuleBody) (s : State) : Out :=
  .next (if s.driveWaits (s.qp n).part (16 + (s.qp n).target) then s else
    s.onQp n data.ce (fun q s =>
      ((s.sendOn n 0 (.roce n none)).bumpEth q.part q.port 0x100 (16 + data.data.length)).storeCapsule status.toNat data.data q))

/-- STORE_TIMEOUT (R455): target `t` has not answered partition `p`. -/
def execStoreTimeout (p : Fin 4) (t : Fin 16) (s : State) : Out :=
  let (s1, hit) := s.driveFails p.val (16 + t.val)
  .next (if hit then s1.storeError p.val t.val 65536
    else if (s.qps.any (fun e => e.2.wait && e.2.part == p.val && e.2.target == t.val)) then
      (s.storeError p.val t.val 65536).storeOpened p.val t.val false
    else s)

/-! ### The commands of the PCIe/CXL ports -/

/-- NVME_COMPLETION (R458): the drive on a link ends the command under way with a status and the data it read, whose
bytes are counted (R460). -/
def execNvmeCompletion (port : Fin 4) (link : Fin 4) (status : BitVec 16) (data : List Byte) (s : State) : Out :=
  let p := s.linkPart port.val link.val
  let drive := port.val * 4 + link.val
  .next (if (s.driveUser p drive).isNone || s.driveWaits p drive then s
    else if status.toNat = 0 then (s.bump (pages .pcx p port.val 0x100) data.length).driveDone p drive data
    else
      let s := s.setReg (home .pcx port.val 0x20) (status.toNat + link.val * 65536)
      ((s.nvmeError p port.val link.val status.toNat).driveFails p drive).1)

/-- NVME_TIMEOUT (R458). -/
def execNvmeTimeout (port : Fin 4) (link : Fin 4) (s : State) : Out :=
  let p := s.linkPart port.val link.val
  let (s1, hit) := s.driveFails p (port.val * 4 + link.val)
  .next (if hit then s1.nvmeError p port.val link.val 65536 else s)

/-- PCIE_LINK_DOWN (R458). -/
def execPcieLinkDown (port : Fin 4) (link : Fin 4) (s : State) : Out :=
  let v := s.reg (home .pcx port.val 0x10)
  .next (if bits v 0 2 = 2 && bit v (8 + link.val) then
    let p := s.linkPart port.val link.val
    let s := (s.setLinks port.val (bits v 8 4 - 2 ^ link.val)).bump (home .pcx port.val 0x128) 1
    ((s.driveFails p (port.val * 4 + link.val)).1).nvmeError p port.val link.val 0
  else s)

/-- PCIE_LINK_RETRAIN (R540): PERST_N is pulsed, and the link returns with its SSD. -/
def execPcieLinkRetrain (port : Fin 4) (link : Fin 4) (s : State) : Out :=
  let v := s.reg (home .pcx port.val 0x10)
  .next (if bits v 0 2 = 2 && !bit v (8 + link.val) && s.domOn (60 + port.val) && decide (link.val < s.pcxLinks port.val) then
    ((s.emit (.pin (0x100 + port.val * 4 + link.val) 0)).emit (.pin (0x100 + port.val * 4 + link.val) 1)).setLinks port.val
      (bits v 8 4 + 2 ^ link.val)
  else s)

/-- CXL_LINK_DOWN (R254, R457): dirty lines of the window are discarded. -/
def execCxlLinkDown (port : Fin 4) (s : State) : Out :=
  .next (if bits (s.reg (home .pcx port.val 0x10)) 0 2 = 1 && s.cxlUp port.val then
    let mine := (s.lines.filter (fun l => l.2.present && l.2.dirty != 0 && place (l.1 * 128) == .cxl port.val)).map Prod.fst
    let s := mine.foldl (fun s k => s.setLine (k * 128) {}) s
    ((s.setLinks port.val 0).bump (home .pcx port.val 0x128) 1).postAll 0x0605 0 port.val 0
  else s)

/-- CXL_RETRAIN (R457): the link is retrained, and returns or not. -/
def execCxlRetrain (port : Fin 4) (returns : Bool) (s : State) : Out :=
  .next (if returns && bits (s.reg (home .pcx port.val 0x10)) 0 2 = 1 && !s.cxlUp port.val && s.domOn (60 + port.val) then
    (s.setLinks port.val 1).postAll 0x0606 0 port.val (s.reg (home .pcx port.val 0x18))
  else s)

end Sys2Proof.Machine
end

