-- ==== Sys2Proof/Machine/Streams.lean ====
section
/-! DEFINITION. Stream sequencers (R297 to R318): link slots, parsing, completion; and the commands NOP, SIGNAL, WAIT, FENCE, REGWRITE,
EVENT, the object commands, and redo spans (R96 to R100, R311). -/

namespace Sys2Proof.Machine

namespace State

/-! ### Link slots (R297, R298) -/

/-- The fields of a link slot that breaks no rule: NEXT, FIRST and COUNT. -/
def linkFields (x : Nat) : Option (Nat × Nat × Nat) :=
  let first := bits x 96 6
  let count := bits x 104 6
  if bits x 0 12 ≠ 0 || bits x 44 20 ≠ 0 || bits x 102 2 ≠ 0 || bits x 110 18 ≠ 0 || bits x 128 384 ≠ 0
      || 62 < first || count = 0 || 63 < first + count then none
  else some (bits x 12 32 * 4096, first, count)

/-- A parked sequencer reads its slot (R298): it follows it where SEQ matches and the slot breaks no rule; otherwise it stays parked, with
BAD_COMMAND on the error fence where SEQ matched. A slot whose line waits is read once it may be (R244). A slot that
cannot be read, or is poisoned, counts as unwritten (notes/assumptions/27.md); the record of the fault names no command, so its index is free (notes/assumptions/28.md). -/
def readLink (s : State) (p st : Nat) : State :=
  let x := s.str p st
  if (s.ctxOf p).state ≠ 1 || x.stopped || x.draining || x.block.isSome then s else
  if s.recordWaits p x.park 64 then s.setStr p st { x with woken := true } else
  let s := s.fetched p x.park 64
  match s.readRecord p x.park 64 with
  | .error _ => s
  | .ok l =>
    let w := ofLeBytes l
    if bits w 64 32 ≠ x.seq then s else
    let bad (s : State) : State := let (i, s) := s.draw; s.fenceFault p x.errFence 0x0102 st (i % 2 ^ 32) false
    match linkFields w with
    | none => bad s
    | some (next, first, count) =>
      if s.translatesAll p next 4096 1 && ((s.translate p next 1).map place) == some .hbm then
        s.setStr p st { x with block := some next, next := first, last := first + count - 1, woken := false }
      else bad s

/-- The sequencer moves past the slot it parsed: to the next, or onto the block's link slot, expecting the next SEQ (R298). -/
def nextSlot (s : State) (p st : Nat) : State :=
  let x := s.str p st
  if x.next < x.last then s.setStr p st { x with next := x.next + 1 }
  else (s.setStr p st { x with block := none, park := x.block.getD 0 + 0xFC0, seq := (x.seq + 1) % 2 ^ 32, woken := false }).readLink p st

/-! ### Parsing (R302, R303) -/

/-- The command index after `i`: 0 and 0xFFFFFFFF are skipped (R302). -/
def nextIndex (i : Nat) : Nat := if 0xFFFFFFFE ≤ i then 1 else i + 1

/-- A command joins its stream; one that failed at parse has started and ended with its code. -/
def joinCmd (s : State) (p st : Nat) (c : Cmd) : State :=
  let x := s.str p st
  s.setStr p st { x with cmds := x.cmds ++ [c], index := c.idx }

/-- The open span of a stream changed. -/
def modSpan (s : State) (p st : Nat) (f : Span → Span) : State :=
  let x := s.str p st
  s.setStr p st { x with span := x.span.map f }

/-- What a parsed command does to the stream's span: REDO_BEGIN opens one, REDO_COMMIT and REDO_END mark it. -/
def spanParsed (s : State) (p st : Nat) (c : Cmd) : State :=
  let x := s.str p st
  match c.op with
  | 0x10 =>
    let z : Span :=
      { beginPa := c.pa, beginIdx := c.idx, id := c.f 0x18 0 16, slots := c.f 0x18 16 4, formats := c.f 0x20 0 96,
        staging := (s.addrOf p (c.w64 0x10)).2, stageCap := c.w32 0x1C, attempt := 0, borrowed := c.borrows.map (fun k => (k, 0)), flags := 0,
        deferred := [], staged := [], parsedCommit := false, commitIdx := 0, committed := false, failed := false, ended := false,
        resume := [x.block.getD 0, x.next, x.last, x.seq] }
    s.setStr p st { x with span := some z }
  | 0x11 => s.modSpan p st (fun z => { z with parsedCommit := true, commitIdx := c.idx })
  | 0x12 => s.modSpan p st (fun z => { z with ended := true, endIdx := c.idx })
  | _ => s

/-- A command that failed at parse inside a span makes the span fail (R311); a failed REDO_COMMIT or REDO_END still ends its part of the
span. `seen` is false where nothing in the command is acted on. -/
def spanFailedParse (s : State) (p st : Nat) (c : Cmd) (seen : Bool) : State :=
  if c.op = 0x10 then (if inSpan (s.str p st) then s.modSpan p st (fun z => { z with failed := true }) else s)
  else if !(s.str p st).span.any (fun z => !z.ended) then s
  else
    let s := if inSpan (s.str p st) then s.modSpan p st (fun z => { z with failed := true }) else s
    if seen && (c.op = 0x12 || (c.op = 0x11 && inSpan (s.str p st))) then s.spanParsed p st c else s

/-- A TILE_INTERLEAVE of F or B parsed: the streams' n-th ones belong together (R328). -/
def ilvParsed (s : State) (p st : Nat) (c : Cmd) : State :=
  if c.op ≠ 0x02 || 2 ≤ st then s else
  let k := s.ctxOf p
  s.setCtx p { k with ilvNo := k.ilvNo.modify st (· + 1) }

/-- The number of a TILE_INTERLEAVE among those of its stream: the last parsed, less those that follow it (R328). -/
def ilvNumber (s : State) (p st : Nat) (c : Cmd) : Nat :=
  (((s.ctxOf p).ilvNo[st]?).getD 0) - ((s.str p st).cmds.filter (fun d => d.op == 0x02 && serialAfter 32 d.idx c.idx)).length

/-- TILE_INTERLEAVE number `n` of a stream failed before it met the other (R328). -/
def ilvFell (s : State) (p st n : Nat) (c : Cmd) : State :=
  if c.op ≠ 0x02 || 2 ≤ st then s else
  let k := s.ctxOf p
  s.setCtx p { k with ilvLost := if k.ilvLost.contains (1 - st, n) then k.ilvLost.erase (1 - st, n) else k.ilvLost ++ [(st, n)] }

/-- A TILE_INTERLEAVE that fails as it is parsed. -/
def ilvFellParse (s : State) (p st : Nat) (c : Cmd) : State :=
  let s := s.ilvParsed p st c
  s.ilvFell p st (((s.ctxOf p).ilvNo[st]?).getD 0) c

/-- A launch that a table governs, or will when it is its turn, and that failed at parse, is to be counted as admitted and completed (R329). -/
def ilvLate (s : State) (p st : Nat) (c : Cmd) : State :=
  if c.op ≠ 0x01 || !s.willGovern p st c then s else
  let k := s.ctxOf p
  s.setCtx p { k with late := k.late ++ [(st, nextIndex (s.str p st).index)] }

/-- One command slot parsed (R302, R303, R305). -/
def parseSlot (s : State) (p st : Nat) : State :=
  let x := s.str p st
  let pa := x.block.getD 0 + 64 * x.next
  let s := s.fetched p pa 64
  let idx := nextIndex x.index
  let base : Cmd := { idx := idx, pa := pa, slot := 0, started := false, refs := [], flags := 0, done := none, engine := none, borrowed := [],
                      errFence := false, span := false, owes := false, issued := false, ledSkip := false, notes := [] }
  let dead (c : Cmd) (code : Nat) (err : Bool) : Cmd := { c with started := true, done := some code, errFence := err, span := inSpan x }
  match s.readRecord p pa 64 with
  | .error code => (s.spanFailedParse p st base false).joinCmd p st (dead base code true)
  | .ok l =>
    let c := { base with slot := BitVec.ofNat 512 (ofLeBytes l) }
    if c.malformed st (s.ctxOf p).num then
      ((((s.spanFailedParse p st c false).ilvFellParse p st c).ilvLate p st c).exchFellParse p c 0x0102).joinCmd p st (dead c 0x0102 true)
    else
      let lost := x.span.any (fun z => z.parsedCommit && z.failed && !z.ended) && c.op != 0x12
      let foreign := c.signal && !s.ownsRegion p (c.fence / 1024)
      if x.skipping && !c.recover then
        ((s.spanFailedParse p st c true).ilvFellParse p st c).joinCmd p st { dead c 0x0101 foreign with fell := true }
      else if lost then
        (((s.spanFailedParse p st c true).ilvFellParse p st c).ilvLate p st c).joinCmd p st (dead c 0x0101 foreign)
      else
        let s := if c.recover then s.setStr p st { x with skipping := false } else s
        let code := s.parseCheck p st c
        if code ≠ 0 then
          let s := if code = 0x0201 then s.bump (home .obj p 0x108) 1 else s
          ((((s.spanFailedParse p st c true).ilvFellParse p st c).ilvLate p st c).exchFellParse p c code).joinCmd p st (dead c code foreign)
        else
          let refs := cmdRefs c
          let s := refs.foldl (fun s h => s.addRef p (bits h 0 16) 1) s
          let s := if c.signal then let f := s.fence c.fence; s.setFence c.fence { f with owed := f.owed + 1 } else s
          let inside := inSpan (s.str p st) && c.op != 0x11
          ((s.spanParsed p st c).ilvParsed p st c).joinCmd p st { c with refs := refs, owes := c.signal, span := inside, ledSkip := x.skipping && c.recover }

/-- Whether the sequencer may parse its next command: fewer than 16 in flight, and no REDO_COMMIT undecided; a REDO_BEGIN waits for the
span before it to close (R302, R311; notes/assumptions/29.md). A slot whose line waits is not read yet (R244). -/
def mayParse (s : State) (p st : Nat) : Bool :=
  let x := s.str p st
  let opNext := (s.translate p (x.block.getD 0 + 64 * x.next) 1).map (fun a => (s.peek a).toNat)
  (s.ctxOf p).state == 1 && !x.stopped && !x.draining && x.block.isSome && decide (x.cmds.length < 16)
    && !s.recordWaits p (x.block.getD 0 + 64 * x.next) 64 && !x.cmds.any (fun c => c.op == 0x11) && !(x.span.any Span.ended && opNext == some 0x10)

/-! ### Completion (R276, R285, R301, R310, R315) -/

/-- COUNTER_DRIFT for every counter of a list whose VALUE differs from the recorded one (R276). -/
def drift (s : State) (p st idx : Nat) (l : List (Nat × Nat)) : State :=
  l.foldl (fun s e =>
    let v := (s.ctr (e.1 / 4096) (e.1 % 4096)).value
    if v = e.2 then s else
    (s.post p 0x0005 0 st idx e.1 (e.2 + v * 2 ^ 32)).bump (home .ctr (e.1 / 4096) 0x218) 1) s

/-- The span's outputs are discarded: UPSTREAM on every fence whose signal was deferred, no staged accumulate applied (R311). -/
def discardSpan (s : State) (p st : Nat) : State :=
  match (s.str p st).span with
  | none => s
  | some z =>
    let s := z.deferred.foldl (fun s d => s.fenceFault p d.1 0x0101 st d.2.2 true) s
    s.modSpan p st (fun z => { z with deferred := [], staged := [], failed := true })

/-- The span closes: the borrowed counters are checked (R276, R311). -/
def closeSpan (s : State) (p st idx : Nat) : State :=
  match (s.str p st).span with
  | none => s
  | some z =>
    let s := if z.committed then s else s.discardSpan p st
    let s := s.drift p st idx z.borrowed
    s.setStr p st { s.str p st with span := none }

/-- A completed command's fence: signalled, deferred inside a span, or faulted (R98, R283, R285). -/
def completeFence (s : State) (p st : Nat) (c : Cmd) (code : Nat) : State :=
  if code = 0 then
    if !c.signal then s
    else if c.span && c.op != 0x10 then s.modSpan p st (fun z => { z with deferred := z.deferred ++ [(c.fence, c.value, c.idx)] })
    else s.fenceSignal c.fence c.value c.idx
  else if c.signal && !c.errFence then s.fenceFault p c.fence code st c.idx c.owes
  else s.fenceFault p (s.str p st).errFence code st c.idx false

/-- The counter signal of a completed command (R310). -/
def completeCounter (s : State) (p st : Nat) (c : Cmd) : State :=
  match c.op with
  | 0x06 => s.signal (c.f 0x10 12 2) (c.f 0x10 0 12) (toSigned 32 (c.w32 0x14)) (0x150 + st) p st c.idx
  | 0x03 =>
    if c.f 0x24 1 1 = 0 then s else
    s.signal (c.f 0x24 14 2) (c.f 0x24 2 12) (toSigned 16 (c.f 0x24 16 16)) (0x140 + c.engine.getD 0) p st c.idx
  | 0x04 =>
    if c.f 0x28 1 1 = 0 then s else
    s.signal (c.f 0x28 14 2) (c.f 0x28 2 12) (toSigned 16 (c.f 0x28 16 16)) (0x140 + c.engine.getD 0) p st c.idx
  | _ => s

/-- The register write of a REGWRITE at completion (R310). -/
def completeWrite (s : State) (p : Nat) (c : Cmd) : State :=
  if c.op ≠ 0x09 then s else
  match (s.translate p (c.w64 0x10) 2).bind s.regAt with
  | none => s
  | some a => if c.f 0x20 0 1 = 1 then s.regWrite64 a (c.w64 0x18) c.idx else s.regWrite a (c.w32 0x18) c.idx

/-- Whether a command whose work has ended may complete: its slot may be written now (R244); a launch's memory operations are performed and its counter messages have arrived; a REDO_COMMIT or REDO_END that failed
at parse follows the commands of its span. -/
def mayComplete (s : State) (p st : Nat) (c : Cmd) : Bool :=
  c.done.isSome
  && !(c.op == 0x01 && s.opList.any (fun e => e.2.part == p && e.2.stream == st && e.2.cmd == c.idx && e.2.unit < 128))
  && !(c.op == 0x01 && s.ctrQ.any (fun e => e.2.any (fun m => m.part == p && m.stream == st && m.cmd == c.idx)))
  && !((c.op == 0x11 || c.op == 0x12) && (s.str p st).cmds.any (fun d => d.span && d.idx != c.idx))
  && !s.paWaits p (c.pa + 0x38) 8

/-- A launch admitted under the current interleave entry has completed (R329). -/
def launchEnded (s : State) (p st idx : Nat) : State :=
  let k := s.ctxOf p
  s.setCtx p { k with inter := k.inter.map (fun i => if i.admitted.contains (st, idx) then { i with finished := i.finished + 1 } else i) }

/-- What a completed command does to its span: its flags and its failure join those of the span; a failed REDO_COMMIT discards the outputs,
REDO_END closes it (R96, R311). -/
def spanCompleted (s : State) (p st : Nat) (c : Cmd) (code : Nat) : State :=
  let s := if c.span && c.op != 0x12 then
      s.modSpan p st (fun z => { z with flags := z.flags ||| c.flags, failed := z.failed || code != 0 }) else s
  match (s.str p st).span with
  | none => s
  | some z =>
    if c.op = 0x11 ∧ z.commitIdx = c.idx ∧ code ≠ 0 ∧ !z.committed then s.discardSpan p st
    else if c.op = 0x12 ∧ z.ended ∧ z.endIdx = c.idx then s.closeSpan p st c.idx
    else s

/-- Whether a parsed command ends its stream's skipping (R305). -/
def endsSkip (s : State) (p st : Nat) (c : Cmd) : Bool := c.recover && !c.malformed st (s.ctxOf p).num

/-- A WAIT that failed puts its stream into skipping (R305): of the commands parsed behind it (`later`), those before the first with RECOVER fail
with UPSTREAM without acting, and where there is none the stream goes on skipping. A REDO_BEGIN among them opens no span. -/
def skipFrom (s : State) (p st : Nat) (later : List Cmd) : State :=
  let x := s.str p st
  let l := later.takeWhile (fun d => !s.endsSkip p st d)
  let gone := l.filter (fun d => !d.started)
  let head := (later.drop l.length).head?.map Cmd.idx
  let unspan := x.span.any (fun z => gone.any (fun d => d.op == 0x10 && d.idx == z.beginIdx))
  let fix (d : Cmd) : Cmd :=
    let d := if gone.any (fun g => g.idx == d.idx) then { d with started := true, done := some 0x0101, fell := true } else d
    let d := if head == some d.idx then { d with ledSkip := true } else d
    if unspan then { d with span := false } else d
  let s := s.setStr p st { x with cmds := x.cmds.map fix, span := if unspan then none else x.span, skipping := x.skipping || head.isNone }
  gone.foldl (fun s d => s.ilvFell p st (s.ilvNumber p st d) d) s

/-- COMMAND_COMPLETE: the completion word, then the borrowed-counter check, the fence, the counter signal and the references. -/
def completeCmd (s : State) (p st : Nat) (c : Cmd) : State :=
  let code := c.done.getD 0
  let s := if code = 0 then s.completeWrite p c else s
  let s := s.pokePa p (c.pa + 0x38) (leBytes 8 (code + (c.flags % 512) * 2 ^ 16 + 2 ^ 31 + c.idx * 2 ^ 32))
  let s := s.drift p st c.idx c.borrowed
  let s := s.spanCompleted p st c code
  let s := s.completeFence p st c code
  let s := if code = 0 then s.completeCounter p st c else s
  let s := c.refs.foldl (fun s h => s.dropRef p h) s
  let s := if c.op = 0x01 then s.launchEnded p st c.idx else s
  let s := s.bump (home .str p (0x128 + 0x40 * st)) 1
  let s := if code = 0 then s else s.bump (home .str p (0x130 + 0x40 * st)) 1
  let x := s.str p st
  let later := (x.cmds.dropWhile (fun d => d.idx ≠ c.idx)).drop 1
  let s := s.setStr p st { x with cmds := x.cmds.filter (fun d => d.idx ≠ c.idx) }
  if c.op = 0x07 ∧ code ≠ 0 ∧ !c.fell then s.skipFrom p st later else s

/-! ### Redo spans (R96 to R100) -/

/-- Where the next record of the numerics log of partition `p` goes (R100). -/
def numSlot (s : State) (p : Nat) : Nat := (s.ctxOf p).numlog + 32 * ((s.ctxOf p).numWr % 4096)

/-- A record of the numerics log (R100): kind, the attempt and formats it names. Which slots' outputs overflowed is not known to the
hub: the spec ties no output to a slot, so SLOTS is free within the span's slots (notes/assumptions/30.md). -/
def numLog (s : State) (p st : Nat) (z : Span) (kind formatsAttempt : Nat) : State :=
  let k := s.ctxOf p
  let (v, s) := s.draw
  let slots := v % 2 ^ z.slots
  let l := leBytes 4 (kind + z.attempt * 2 ^ 8 + st * 2 ^ 16) ++ leBytes 4 (k.num + z.id * 2 ^ 16) ++ leBytes 4 k.numSeq
    ++ leBytes 4 (z.flags % 65536 + slots * 2 ^ 16) ++ leBytes 4 (spanFormats z.formats z.slots formatsAttempt) ++ leBytes 4 0
    ++ leBytes 8 z.beginPa
  let s := s.pokePa p (s.numSlot p) l
  s.setCtx p { k with numWr := (k.numWr + 1) % 4096, numSeq := (k.numSeq + 1) % 2 ^ 32 }

/-- A staged accumulate applied at its line at the commit step (R98, R241). -/
def applyStaged (s : State) (st idx : Nat) (e : Staged) : State :=
  let lanes := ((List.range 32).filter (fun i => e.mask.testBit i)).map (fun i =>
    ({ lane := i, lpa := e.line + 4 * i, pa := 0, data := (e.words[i]?).getD 0, data2 := 0 } : LaneOp))
  s.doAccum s.nextOp
    { kind := .accum, unit := 0xFF, slot := 0, part := e.part, stream := st, cmd := idx, pc := 0, line := e.line, lanes := lanes,
      bytes := 4, signed := false, dst := 255, udst := false, aop := 0, aty := 3, scope := 0, ord := false, final := false, remote := none,
      keepL1 := false, filling := false, queued := false, fromTile := true }

/-- The commit step: staged accumulates in issue order, then the deferred signals (R96, R98). -/
def commitSpan (s : State) (p st : Nat) (z : Span) (c : Cmd) : State :=
  let s := z.staged.foldl (fun s e => s.applyStaged st c.idx e) s
  let s := z.deferred.foldl (fun s d => s.fenceSignal d.1 d.2.1 d.2.2) s
  let s := s.modSpan p st (fun z => { z with staged := [], deferred := [], committed := true })
  s.endCmd p st c.idx (((s.cmdOf p st c.idx).bind (fun c => c.notes.head?)).getD 0)

/-- The span is executed again with the next attempt's formats: outputs discarded, borrowed counters restored, the sequencer back after
REDO_BEGIN (R96, R98, R311). -/
def redoSpan (s : State) (p st : Nat) (z : Span) (c : Cmd) : State :=
  let s := s.numLog p st z 1 (z.attempt + 1)
  let unowe (s : State) (k : Nat) : State := let f := s.fence k; s.setFence k { f with owed := f.owed - 1 }
  let s := z.deferred.foldl (fun s d => unowe s d.1) s
  let s := if c.owes then unowe s c.fence else s
  let s := z.borrowed.foldl (fun s b =>
    let k := s.ctr (b.1 / 4096) (b.1 % 4096)
    (s.setCtr (b.1 / 4096) (b.1 % 4096) { k with value := b.2 }).releaseCtr (b.1 / 4096) (b.1 % 4096)) s
  let x := s.str p st
  let at_ (i : Nat) : Nat := (z.resume[i]?).getD 0
  let z' : Span := { z with attempt := z.attempt + 1, flags := 0, deferred := [], staged := [], parsedCommit := false, commitIdx := 0 }
  (s.setStr p st { x with cmds := x.cmds.filter (fun d => d.idx ≠ c.idx), block := some (at_ 0), next := at_ 1, last := at_ 2, seq := at_ 3,
                          span := some z' }).nextSlot p st

/-- REDO_COMMIT once every command of the span has completed (R96). -/
def redoCommit (s : State) (p st : Nat) (c : Cmd) : State :=
  match (s.str p st).span with
  | none => s.beginEnd p st c 0x0102
  | some z =>
    if (s.str p st).cmds.any (fun d => d.span && d.idx != c.idx) || s.paWaits p (s.numSlot p) 32 then s
    else if z.failed then s.beginEnd p st c 0x0101
    else if !bit z.flags 0 then (s.begin p st c).commitSpan p st z c
    else if z.attempt < 2 && spanFormats z.formats z.slots (z.attempt + 1) != spanFormats z.formats z.slots z.attempt then
      s.redoSpan p st z c
    else ((s.begin p st c).numLog p st z 2 z.attempt).endCmd p st c.idx 0x0501

/-- REDO_BEGIN starts: the borrowed counters' values are recorded; the staging area must be the partition's HBM with R and W. -/
def redoBegin (s : State) (p st : Nat) (c : Cmd) : State :=
  let s := s.modSpan p st (fun z => { z with borrowed := z.borrowed.map (fun b => (b.1, (s.ctr (b.1 / 4096) (b.1 % 4096)).value)) })
  let (_, pa) := s.addrOf p (c.w64 0x10)
  let n := c.w32 0x1C
  let ok := n == 0 || (List.range n).all (fun i =>
    (s.translate p (pa + i * 65536) 3).map place == some .hbm) && (s.translate p (pa + n * 65536 - 1) 3).map place == some .hbm
  if ok then s.beginEnd p st c 0 else (s.beginEnd p st c 0x0802).modSpan p st (fun z => { z with failed := true })

/-! ### The other commands -/

/-- WAIT starts (R274, R284). -/
def startWait (s : State) (p st : Nat) (c : Cmd) : State :=
  let s := s.begin p st c
  let r := c.f 0x10 12 2
  let n := c.f 0x10 0 12
  if c.f 0x10 14 1 = 0 then
    s.ctrWait r n p { agent := 0x150 + st, detail := 0, target := c.w32 0x18, cmd := c.idx, who := .command st c.idx }
  else
    let f := s.fence (r * 1024 + n)
    if f.faulted then s.endCmd p st c.idx 0x0101
    else if f.reached (c.w64 0x18) then s.endCmd p st c.idx 0 else s

/-- OBJECT_CREATE starts (R312, R314), once the lines that it writes may be written (R244). -/
def objectCreate (s : State) (p st : Nat) (c : Cmd) : State :=
  let n := (c.w64 0x10 + 65535) / 65536
  let res := c.w64 0x18
  if !s.translatesAll p res 16 2 then s.beginEnd p st c 0x0802
  else match s.freeIndex p, s.heapFit p n with
    | some i, some g =>
      if s.paWaits p res 16 || (c.f 0x20 0 1 == 1 && s.paWaits p (g * 65536) (n * 65536)) then s else
      if s.reg (home .prt p 0x18) < s.liveGranules p + n then s.beginEnd p st c 0x0202 else
      let gen := (s.obj p i).gen
      let s := s.begin p st c
      let s := (s.setObj p i { live := true, base := g * 65536, size := n, refs := 1, gen := gen }).bump (home .obj p 0x100) 1
      let s := if c.f 0x20 0 1 = 1 then s.pokePa p (g * 65536) (List.replicate (n * 65536) 0) else s
      (s.pokePa p res (leBytes 4 (i + gen * 65536) ++ leBytes 4 0 ++ leBytes 8 (g * 65536))).endCmd p st c.idx 0
    | _, _ => s.beginEnd p st c 0x0202

end State

/-! ### The rows -/

/-- LINK_SLOT_WAKE (R298): a parked sequencer whose slot's line was written reads the slot again. -/
def execLinkSlotWake (p : Fin 4) (st : Fin 4) (s : State) : Out :=
  let x := s.str p.val st.val
  let s := s.noteReady p.val
  .next (if x.woken && x.block.isNone && !x.stopped && !x.draining && (s.ctxOf p.val).state = 1 && !s.recordWaits p.val x.park 64 then
    (((s.setStr p.val st.val { x with woken := false }).bump (home .str p.val (0x120 + 0x40 * st.val)) 1).readLink p.val st.val).ilvMove p.val
  else s)

/-- COMMAND_PARSE (R302). -/
def execCommandParse (p : Fin 4) (st : Fin 4) (s : State) : Out :=
  let s := s.noteReady p.val
  .next (if s.mayParse p.val st.val then ((s.parseSlot p.val st.val).nextSlot p.val st.val).ilvMove p.val else s)

/-- COMMAND_COMPLETE (R301) of the command with index `idx`. -/
def execCommandComplete (p : Fin 4) (st : Fin 4) (idx : W32) (s : State) : Out :=
  let s := s.noteReady p.val
  .next (match s.cmdOf p.val st.val idx.toNat with
    | some c => if s.mayComplete p.val st.val c then (s.completeCmd p.val st.val c).ilvMove p.val else s
    | none => s)

/-- NOP (R306). -/
def execNopCommand (p : Fin 4) (st : Fin 4) (s : State) : Out :=
  .next (s.starting p.val st.val 0x00 (fun c s => s.beginEnd p.val st.val c 0))

/-- SIGNAL (R310): it signals at completion. -/
def execSignal (p : Fin 4) (st : Fin 4) (s : State) : Out :=
  .next (s.starting p.val st.val 0x06 (fun c s => s.beginEnd p.val st.val c 0))

/-- WAIT (R274, R284). -/
def execWait (p : Fin 4) (st : Fin 4) (s : State) : Out :=
  .next (s.starting p.val st.val 0x07 (fun c s => s.startWait p.val st.val c))

/-- FENCE (R310). -/
def execFence (p : Fin 4) (st : Fin 4) (s : State) : Out :=
  .next (s.starting p.val st.val 0x08 (fun c s => s.beginEnd p.val st.val c 0))

/-- REGWRITE (R310): EXTENT outside the partition's register pages; the write happens at completion. -/
def execRegwrite (p : Fin 4) (st : Fin 4) (s : State) : Out :=
  .next (s.starting p.val st.val 0x09 (fun c s =>
    let ok := (s.translate p.val (c.w64 0x10) 2).any (fun a => place a == .control)
    s.beginEnd p.val st.val c (if ok then 0 else 0x0802)))

/-- EVENT (R307, R322). -/
def execEvent (p : Fin 4) (st : Fin 4) (s : State) : Out :=
  .next (s.starting p.val st.val 0x0A (fun c s =>
    (s.post p.val 0x0006 (c.f 0x20 0 16) st.val c.idx (c.w64 0x10) (c.w64 0x18) (c.f 0x20 16 1 == 1)).beginEnd p.val st.val c 0))

/-- REDO_BEGIN (R96, R98). -/
def execRedoBegin (p : Fin 4) (st : Fin 4) (s : State) : Out :=
  .next (s.starting p.val st.val 0x10 (fun c s => s.redoBegin p.val st.val c))

/-- REDO_COMMIT (R96). -/
def execRedoCommit (p : Fin 4) (st : Fin 4) (s : State) : Out :=
  .next (s.starting p.val st.val 0x11 (fun c s => s.redoCommit p.val st.val c))

/-- REDO_END (R311): the span closes as the command completes. -/
def execRedoEnd (p : Fin 4) (st : Fin 4) (s : State) : Out :=
  .next (s.starting p.val st.val 0x12 (fun c s => s.beginEnd p.val st.val c 0))

/-- OBJECT_CREATE (R314). -/
def execObjectCreate (p : Fin 4) (st : Fin 4) (s : State) : Out :=
  .next (s.starting p.val st.val 0x30 (fun c s => s.objectCreate p.val st.val c))

/-- OBJECT_HOLD (R315). -/
def execObjectHold (p : Fin 4) (st : Fin 4) (s : State) : Out :=
  .next (s.starting p.val st.val 0x31 (fun c s =>
    let i := bits (c.w32 0x10) 0 16
    let n := c.f 0x14 0 16
    if 2 ^ 32 ≤ (s.obj p.val i).refs + n then s.beginEnd p.val st.val c 0x0102
    else (s.addRef p.val i n).beginEnd p.val st.val c 0))

/-- OBJECT_RELEASE (R315). -/
def execObjectRelease (p : Fin 4) (st : Fin 4) (s : State) : Out :=
  .next (s.starting p.val st.val 0x32 (fun c s =>
    let i := bits (c.w32 0x10) 0 16
    let n := c.f 0x14 0 16
    if (s.obj p.val i).refs < n then s.beginEnd p.val st.val c 0x0102
    else (s.unref p.val i n).beginEnd p.val st.val c 0))

end Sys2Proof.Machine
end

