-- ==== Sys2Proof/Machine/Work.lean ====
section
/-! DEFINITION. Ending a partition's work: power domains of clusters and region fabrics (R24, R25, R482, R485), context kill (R191, R286,
R295), and the management responses of the hub (R289). -/

namespace Sys2Proof.Machine

/-! ### The number of a register (see `regKey`) -/

/-- The kind code of a register's number. -/
def keyKind (k : Nat) : Nat := k / 0x1000000 / 256 / 16
/-- The partition page set of a register's number. -/
def keyPart (k : Nat) : Nat := k / 0x1000000 / 256 % 16
/-- The instance of a register's number. -/
def keyInst (k : Nat) : Nat := k / 0x1000000 % 256
/-- The offset of a register's number. -/
def keyOff (k : Nat) : Nat := k % 0x1000000

/-- Whether a register of the file is lost when cluster or region domain `d` is switched off (R25, R28): all but the performance counters,
UNIT_CONFIG and ARR_DENSITY_THRESH. -/
def lostKey (d k : Nat) : Bool :=
  let c := keyKind k
  let o := keyOff k
  let inCluster := (c == Kind.unit.code && keyInst k / 4 == d) ||
    ((c == Kind.arr.code || c == Kind.vec.code || c == Kind.cmem.code) && keyInst k == d)
  let inRegion := (c == Kind.ctr.code || c == Kind.fen.code) && keyInst k + 32 == d
  let kept := ((c == Kind.unit.code || c == Kind.arr.code) && o == 0x14)
    || (decide (0x100 ≤ o ∧ o < 0x1000) && !(c == Kind.ctr.code && o == 0x100))
  ((decide (d < 32) && inCluster) || inRegion) && !kept

namespace State

/-- The domain of cluster `c` switched off: its memory and its units, array and vector engine lose their contents (R25), with the low words held for
their registers; the read latches of R9 stay (DESIGN CHOICE, notes/assumptions/125.md). -/
def clusterOff (s : State) (c : Nat) : State :=
  if !s.domOn c then s else
  let lo := cmemLpa c 0
  let hi := cmemLpa (c + 1) 0
  let s := s.setDomain c false
  { s with
    mem := s.mem.dropIf (fun a => decide (lo ≤ a) && decide (a < hi))
    cpoison := s.cpoison.dropIf (fun a => decide (lo / 8 ≤ a) && decide (a < hi / 8))
    banks := s.banks.dropIf (fun b => b / 64 == c)
    units := s.units.dropIf (fun u => u / 4 == c)
    slots := s.slots.dropIf (fun u => u / 4 == c)
    halts := s.halts.dropIf (fun u => u / 4 == c)
    groups := s.groups.dropIf (fun k => k / 128 == c)
    teams := s.teams.dropIf (fun k => k == c)
    arrays := s.arrays.dropIf (fun k => k == c)
    vecs := s.vecs.dropIf (fun k => k == c)
    regs := s.regs.dropIf (lostKey c)
    held := s.held.dropIf (lostKey c) }

/-- The counters and fences of region `r` as at CONTEXT_CREATE (R271, R281). -/
def freshRegion (s : State) (r : Nat) : State :=
  { s with
    ctrs := s.ctrs.dropIf (fun k => k / 4096 == r)
    ctrQ := s.ctrQ.dropIf (fun k => k == r)
    fences := s.fences.dropIf (fun k => k / 1024 == r) }

/-- The fabric domain of region `r` switched off: its counters and fences are lost (R25). -/
def regionOff (s : State) (r : Nat) : State :=
  if !s.domOn (32 + r) then s else
  let s := (s.setDomain (32 + r) false).freshRegion r
  { s with ctrDbg := s.ctrDbg.dropIf (fun k => k == r), regs := s.regs.dropIf (lostKey (32 + r)), held := s.held.dropIf (lostKey (32 + r)) }

/-- The domains of a partition without a context go off (R482). -/
def contextPowerOff (s : State) (p : Nat) : State :=
  (s.regionsOf p).foldl State.regionOff ((s.clustersOf p).foldl State.clusterOff s)

/-- Every compute unit of a partition stops: groups, teams, tile and vector instructions are gone, with the accumulates of an abandoned tile
instruction that no slice has accepted: an accepted one holds or awaits its line until its result is written (R240). The fault records stay (R143,
R191, R192). -/
def stopUnits (s : State) (p : Nat) : State :=
  let s := (s.unitsOf p).foldl (fun s u =>
    s.setUnit u { s.unit u with tileQ := [], vecQ := [], vecLink := none, stopped := false, events := 0 }) s
  let cs := s.clustersOf p
  { s with
    ops := s.ops.filter (fun (e : Nat × Option MemOp) => !(e.2.any (fun o => o.fromTile && cs.contains (o.unit - 256) && !o.filling && !o.queued)))
    halts := s.halts.dropIf (fun u => cs.contains (u / 4))
    groups := s.groups.dropIf (fun k => cs.contains (k / 128))
    teams := s.teams.dropIf (fun k => cs.contains k)
    arrays := cs.foldl (fun m c => m.set {} c { m.get {} c with held := none, runs := [], images := [] }) s.arrays
    vecs := cs.foldl (fun m c => m.set {} c { m.get {} c with run := none, done := [], full := none }) s.vecs }

/-- Whether a request serves a command of partition `p`, not a lane of a thread. -/
def ofCommand (p : Nat) : Requester → Bool
  | .lane _ _ => false
  | .copyWrite q _ _ | .copyRead q _ _ _ | .permute q _ _ _ | .snapWrite q _ | .snapRead q _ _ _ => q == p

/-- Whether an entry of channel `vc` that has not begun to leave is a request of a command of partition `p`. -/
def unsentOf (p : Nat) (x : Glp) (vc : Nat) (e : TxEntry) : Bool :=
  vc != 0 && vc != 5 && !e.fwd && !e.begun && !e.resp && match x.tags.get .free (bits (e.slots.headD 0) 86 12) with
    | .used w _ => ofCommand p w
    | _ => false

/-- The requests of the commands of a partition that a port holds and that have not begun to leave are dropped, and their tags are free (R295, R419). -/
def unsend (p : Nat) (x : Glp) : Glp :=
  let gone := (x.txq.map (fun q => q.2.filter (unsentOf p x q.1))).flatten
  { x with reqQ := x.reqQ.filter (fun r => !ofCommand p r.1)
           txq := x.txq.map (fun q => (q.1, q.2.filter (fun e => !unsentOf p x q.1 e)))
           tags := gone.foldl (fun m e => m.set .free (bits (e.slots.headD 0) 86 12) .free) x.tags }

/-- A request of partition `p` that answers no command of a later context. -/
def orphanReq (p : Nat) (r : Requester) : Requester :=
  if !ofCommand p r then r else
  match r with
  | .lane o l => .lane o l
  | .copyWrite q st _ => .copyWrite q st noCmd
  | .copyRead q st _ d => .copyRead q st noCmd d
  | .permute q st _ n => .permute q st noCmd n
  | .snapWrite q _ => .snapWrite q noCmd
  | .snapRead q _ w o => .snapRead q noCmd w o

/-- A tag whose request answers no command of a later context. -/
def orphanTag (p : Nat) : Tag → Tag
  | .free => .free
  | .withheld => .withheld
  | .used who t => .used (orphanReq p who) t

/-- What is still on its way when a context ends belongs to no group or command of a later one. -/
def orphan (s : State) (p : Nat) : State :=
  let gone (o : MemOp) : MemOp :=
    if o.part = p && !o.housekeeping then { o with slot := o.slot + 0x100000, cmd := noCmd, keepL1 := false } else o
  let ops := s.ops.map (fun (e : Nat × Option MemOp) => (e.1, e.2.map gone))
  let ports := s.ports.map (fun (e : Nat × Glp) =>
    (e.1, { e.2 with tags := e.2.tags.map (fun (t : Nat × Tag) => (t.1, orphanTag p t.2)) }))
  { s with ops := ops, ports := ports }

/-- The commands of a partition's streams are abandoned: no completion word is written, no reference released, links are not followed (R295,
R436). -/
def abandon (s : State) (p : Nat) (halted : Str → Str) : State :=
  let s := (List.range 4).foldl (fun s st => s.setStr p st (halted { s.str p st with cmds := [], span := none, skipping := false })) s
  let ports := s.ports.map (fun (e : Nat × Glp) => (e.1, unsend p e.2))
  { s.setCtx p { s.ctxOf p with ready := [], xq := [] } with ports := ports }

/-- Whether stream `st` has a parsed command that owes fence `k`: in flight, or complete with its signal held back in a span (R98, R286). -/
def owesFence (s : State) (p st k : Nat) : Bool :=
  let x := s.str p st
  x.cmds.any (fun c => c.owes && c.fence == k) || x.span.any (fun z => z.deferred.any (fun d => d.1 == k))

/-- The PENDING fences of a partition, by region and number. -/
def pendingFences (s : State) (p : Nat) : List Nat :=
  (s.fences.filter (fun (e : Nat × Fence) => e.2.state == 1 && s.partOfRegion (e.1 / 1024) == p)).map Prod.fst

/-- Every PENDING fence enters FAULTED with a code, naming no command and the lowest stream that owes it (R286). -/
def faultPending (s : State) (p code : Nat) : State :=
  (s.pendingFences p).foldl (fun s k =>
    s.fenceFault p k code (((List.range 4).find? (fun st => s.owesFence p st k)).getD 0) 0xFFFFFFFF false) s

/-- A context kill with its first-fault record (R191, R277, R286, R295). -/
def kill (s : State) (p : Nat) (r : FaultRec) : State :=
  if (s.ctxOf p).state ≠ 1 || s.prtState p == 4 then s else
  let s := s.setCtx p { s.ctxOf p with state := 2, firstFault := r }
  let s := (s.stopUnits p).abortCollectives p 0x0301
  let s := s.abortSnaps p 0x0301
  let s := (s.faultPending p 0x0301).abandon p (fun x => { x with stopped := true })
  let s := { s with faultQ := s.faultQ.set [] p [] }
  s.post p 0x0002 0 0 0 (bits (faultBits r) 0 64) r.pc

/-- The objects of a partition are freed: each generation advances (R296, R315). -/
def freeAll (s : State) (p : Nat) : State := (s.liveObjs p).foldl (fun s i => s.freeObj p i) s

/-- A partition returns to NONE; what only a context has is cleared, its number is kept (R292, R294). -/
def endContext (s : State) (p : Nat) : State :=
  let c := s.ctxOf p
  let s := s.setCtx p { num := c.num, firstFault := c.firstFault, numWr := c.numWr, numSeq := c.numSeq, inter := c.inter, conc := c.conc }
  let s := s.orphan p
  { s with strs := s.strs.dropIf (fun k => k / 4 == p), faultQ := s.faultQ.set [] p [] }

/-! ### Queue pairs of a partition that refuses (R449) -/

/-- Every queue pair of a partition enters error and is freed (R449); the cause is the partition's (R446). -/
def freeQps (s : State) (p : Nat) : State :=
  let s := (s.qps.filter (fun (e : Nat × Qp) => e.2.part == p && qpUsed e.2)).foldl (fun s e => s.qpFail e.1 4) s
  { s with mgmt := s.mgmt.set [] p [] }

end State

end Sys2Proof.Machine
end

