-- ==== Sys2Proof/Machine/Parts.lean ====
section
/-! DEFINITION. Partitions (R423 to R440): arbitration and shares, disabling and resetting, forming a partition, and the errors on which the Dome
acts (R36, R435). -/

namespace Sys2Proof.Machine

/-! ### Arbitration (R426) -/

/-- Entry `p` of a list of numbers, 0 where there is none. -/
def at4 (l : List Nat) (p : Nat) : Nat := (l[p]?).getD 0

/-- One unit more for the lowest partition that still wants one. -/
def oneMore (d g : List Nat) : List Nat :=
  match (List.range 4).find? (fun p => decide (at4 g p < at4 d p)) with
  | some p => g.set p (at4 g p + 1)
  | none => g

/-- The loop of R426 over the units left. -/
def arbLoop (fuel left : Nat) (d w g : List Nat) : List Nat :=
  match fuel with
  | 0 => g
  | fuel + 1 =>
    if left = 0 then g else
    let wants (p : Nat) : Bool := decide (at4 g p < at4 d p)
    let sum := (List.range 4).foldl (fun a p => if wants p then a + at4 w p else a) 0
    if sum = 0 then g else
    let add := (List.range 4).map (fun p => if wants p then min (at4 d p - at4 g p) (left * at4 w p / sum) else 0)
    let given := add.foldl (· + ·) 0
    if given = 0 then arbLoop fuel (left - 1) d w (oneMore d g)
    else arbLoop fuel (left - given) d w ((List.range 4).map (fun p => at4 g p + at4 add p))

/-- The grants of a round of `r` units for demands, weights and floors (R426). -/
def arbitrate (r : Nat) (d w f : List Nat) : List Nat :=
  let g := (List.range 4).map (fun p => min (at4 d p) (at4 f p * r / 100))
  arbLoop (r + 1) (r - g.foldl (· + ·) 0) d w g

namespace State

/-! ### Shares (R425 to R430) -/

/-- The share register of a resource (R440). -/
def shareReg (p res : Nat) : RegAddr := home .prt p (0x40 + 4 * res)
/-- The weights in force of a resource. -/
def weights (s : State) (res : Nat) : List Nat := (List.range 4).map (fun p => bits (s.reg (shareReg p res)) 0 8)
/-- The floors in force of a resource. -/
def floors (s : State) (res : Nat) : List Nat := (List.range 4).map (fun p => bits (s.reg (shareReg p res)) 8 7)

/-- Whether a partition may have demand: it exists and is READY, neither DISABLED nor being drained, scrubbed or reset (R426, R436, R437). -/
def demands (s : State) (p : Nat) : Bool := decide (p < s.nParts) && decide (s.prtState p = 0)

/-- A demand list with 0 for the partitions that may have none. -/
def demandOf (s : State) (d : List Nat) : List Nat := (List.range 4).map (fun p => if s.demands p then at4 d p else 0)

/-- The flit slots that wait at a port for each partition (R356, R425). -/
def linkDemand (s : State) (g : Nat) : List Nat :=
  let x := s.port g
  let es := ((List.range 5).map (fun vc => x.txq.get [] (vc + 1))).flatten
  (List.range 4).map (fun p => total ((es.filter (fun e => e.part == p)).map (fun e => e.slots.length)))

/-- The packets that wait at an Ethernet port for each partition (R425, R452). -/
def ethDemand (s : State) (port : Nat) : List Nat :=
  (List.range 4).map (fun p => total (((s.ethOf port).tx.filter (fun f => f.part == p)).map s.packetsOf))

/-- Whether a share change is still awaited at a point of its resource. -/
def ShareChange.awaits (c : ShareChange) (res pt : Nat) : Bool := c.res == res && c.points.contains pt

/-- A change of a share is in force (R430, R497): SHARE_CHANGED, and the response to its request. -/
def shareInForce (s : State) (c : ShareChange) : State :=
  (s.postAll 0x0205 0 (c.part + c.res * 16) c.value).mbxAnswer c.req 0 0

/-- An arbitration point or a slice now serves by the shares in the registers: the changes for which it was the last are in force (R430). -/
def sharesMet (s : State) (res pt : Nat) : State :=
  let l := s.dome.changes.map (fun c => if c.res = res then { c with points := c.points.filter (· != pt) } else c)
  let s := { s with dome := { s.dome with changes := l.filter (fun c => !c.points.isEmpty) } }
  (l.filter (fun c => c.points.isEmpty)).foldl shareInForce s

/-- The points that still serve what was granted under the shares before a change (R430): the points of a round with grants left, every slice whose
domain is on, and the Dome. -/
def pointsOf (s : State) (res : Nat) : List Nat :=
  if res = 1 then (List.range 192).filter (fun i => s.domOn (36 + stackOf i))
  else if res = 4 then [0]
  else (s.shares.filter (fun (e : Nat × Share) => e.1 / 256 == res && e.2.grants.any (fun n => n != 0))).map (fun e => e.1 % 256)

/-- A round begins at an arbitration point (R426). -/
def roundBegins (s : State) (res pt : Nat) (d : List Nat) : State :=
  let key := res * 256 + pt
  let g := arbitrate 64 (s.demandOf d) (s.weights res) (s.floors res)
  let x : Share := s.shares.get {} key
  { s with shares := s.shares.set {} key { x with grants := g } }.sharesMet res pt

/-- A slice recomputes its way targets (R428); the first recomputation after a change of the L2 shares begins its shedding (R430). -/
def wayTargets (s : State) (slice : Nat) : State :=
  let x := s.slices.get {} slice
  let mine := s.lines.filter (fun (e : Nat × L2Line) => e.2.present && (s.sliceOf (e.1 * 128)).1 == slice)
  let d := (List.range 4).map (fun p => if x.missed.testBit p || mine.any (fun e => e.2.owner == p) then 16 else 0)
  let t := arbitrate 16 (s.demandOf d) (s.weights 1) (s.floors 1)
  let shed := x.shedding || s.dome.changes.any (fun c => ShareChange.awaits c 1 slice)
  { s with slices := s.slices.set {} slice { x with targets := t, missed := 0, shedding := shed } }.sharesMet 1 slice

/-- The unlocked lines of a slice that belong to a partition with more ways of their set than its target (R430). -/
def beyondTarget (s : State) (slice : Nat) : List (Nat × L2Line) :=
  let mine := s.lines.filter (fun (e : Nat × L2Line) => e.2.present && (s.sliceOf (e.1 * 128)).1 == slice)
  mine.filter (fun e => e.2.lock.isNone && decide (s.wayTarget slice e.2.owner
    < (mine.filter (fun f => f.2.owner == e.2.owner && s.sliceOf (f.1 * 128) == s.sliceOf (e.1 * 128))).length))

/-- The line allocated longest ago. -/
def oldestLine (l : List (Nat × L2Line)) : Option (Nat × L2Line) :=
  l.find? (fun e => l.all (fun f => decide (e.2.born ≤ f.2.born)))

/-- A slice that sheds after a change of shares writes back and invalidates the oldest line beyond a target, until each partition is within its own
(R430). -/
def shed (s : State) (slice : Nat) : State :=
  let x := s.slices.get {} slice
  if !x.shedding then s else
  match oldestLine (s.beyondTarget slice) with
  | some e => (s.evict (e.1 * 128)).bump (home .prt e.2.owner 0x100) 1
  | none => { s with slices := s.slices.set {} slice { x with shedding := false } }

/-! ### Forming a partition (R52, R313, R321, R436, R447) -/

/-- The firmware entries of a partition's extent table (R52). -/
def firmwareExtents (s : State) (p : Nat) : List Extent :=
  let (hb, hn) := s.hbmRange p
  let cs := s.clustersOf p
  let c0 := cmemLpa (cs.headD 0) 0
  let pages := 0xF1000000000 + p * 0x100000000
  let ext (lo n perm : Nat) : Extent := { base := lo / 65536, limit := (lo + n - 1) / 65536, target := lo / 65536, perm := perm, valid := true }
  [{ ext 0 hn 63 with target := hb / 65536 }, ext c0 (cs.length * 0x1000000) 59, ext 0xF0000000000 0x100000 17, ext pages 0x100000000 19]
  ++ (List.range 4).map (fun n =>
    let cap := s.reg (home .pcx n 0x18) / 65536 * 65536
    if s.pcxRole n = 1 && s.cxlPart n == p && cap != 0 then ext (0x10000000000 + n * 0x20000000000) cap 27 else {})

/-- Whether a register of the file is a performance counter of a block that belongs to a partition, or of its own page set (R144, R436). -/
def perfOf (s : State) (p k : Nat) : Bool :=
  let i := keyInst k
  let o := keyOff k
  let isPerf (d : Kind) : Bool := d.code == keyKind k && (findDef (regDefs d) o).any (fun x => x.w1c != 0)
  let own (l : List Kind) (mine : Bool) : Bool := mine && l.any isPerf
  own [.unit] (s.partOfCluster (i / 4) == p) || own [.arr, .vec, .cmem] (s.partOfCluster i == p)
  || own [.xfe] (s.partOfRegion (i / 4) == p) || own [.ctr, .fen] (s.partOfRegion i == p)
  || own [.hbm] (s.partOfStack i == p) || own [.str, .obj, .prt, .snp] (i == p) || own [.slc, .xch] (keyPart k == p)
  || own [.glp] (keyPart k == p && decide (0x168 ≤ o))
  || own [.eth] (keyPart k == p && (decide (o < 0x110) || decide (0x118 ≤ o ∧ o < 0x140) || decide (0x148 ≤ o)))
  || own [.pcx] (keyPart k == p && decide (o < 0x110))

/-- A window key for a partition, never 0 (R447). -/
def newKey (s : State) (p : Nat) : State :=
  let (x, s) := s.draw
  let r := x % 2 ^ 30
  let r := if p = 0 && r = 0 then 1 else r
  (List.range 4).foldl (fun s port => s.setReg (pages .eth p port 0x14) (p * 2 ^ 30 + r)) s

/-- Partition state (R440). -/
def setPrtState (s : State) (p st : Nat) : State := s.setReg (home .prt p 0x10) (putBits (s.reg (home .prt p 0x10)) 0 3 st)

/-- A partition is formed: READY, with PARTITION_READY as SEQ 0 of its own ring (R436, R472). The first-fault record that the Dome kept of a
context killed before the action (R38) is the partition's again, and the event's DATA1 holds its first 8 bytes (notes/assumptions/100.md). The read
latches of R9 and the low words held for its registers stay (DESIGN CHOICE, notes/assumptions/125.md). -/
def form (s : State) (p : Nat) : State :=
  let ext := s.firmwareExtents p
  let table := (ext.zipIdx).foldl (fun m e => m.set {} (p * 64 + e.2) e.1) (s.extents.dropIf (fun k => k / 64 == p))
  let s := { s with
    extents := table
    rings := s.rings.set {} p {}
    objs := s.objs.dropIf (fun k => k / 65536 == p)
    faultQ := s.faultQ.set [] p []
    mgmt := s.mgmt.set [] p []
    snaps := s.snaps.set {} p {}
    xch := s.xch.set {} p {}
    regs := s.regs.dropIf (s.perfOf p) }
  let s := (s.regionsOf p).foldl State.freshRegion s
  let s := (s.unitsOf p).foldl (fun s u => s.setUnit u { s.unit u with fault := {} }) s
  let s := (s.setPrtState p 0).checkQuota p
  let r := s.dome.kept.get {} p
  let s := if r = ({} : FaultRec) then s else
    { s.setCtx p { s.ctxOf p with firstFault := r } with dome := { s.dome with kept := s.dome.kept.set {} p {} } }
  (s.newKey p).post p 0x0204 0 0 0 p (bits (faultBits r) 0 64)

/-- An event on the ring of every partition, DISABLED ones included (R432). -/
def postEvery (s : State) (type code d0 d1 : Nat) : State :=
  (List.range s.nParts).foldl (fun s q => s.post q type code 0 0 d0 d1) s

/-- An event on the ring of every partition but one, DISABLED ones included (R436). -/
def postOthers (s : State) (p type code d0 d1 : Nat) : State :=
  ((List.range s.nParts).filter (· != p)).foldl (fun s q => s.post q type code 0 0 d0 d1) s

/-- An event on the ring of every partition but one that is not DISABLED (R472). -/
def postUp (s : State) (p type code d0 d1 : Nat) : State :=
  ((List.range s.nParts).filter (fun q => q != p && s.prtState q != 3)).foldl (fun s q => s.post q type code 0 0 d0 d1) s

/-- The HBM controllers are on but for those of R482: the stack's partition is DISABLED, and no CXL port of the edge die is granted to one that
is not. -/
def hbmDomains (s : State) : State :=
  (List.range 12).foldl (fun s st =>
    let die := st / 3
    let off := s.prtState (s.partOfStack st) == 3 && !(s.pcxRole die == 1 && s.prtState (s.cxlPart die) != 3)
    s.setDomain (36 + st) (!off)) s

/-! ### Disable and reset (R432 to R437) -/

/-- The action under way at a partition. -/
def actOf (s : State) (p : Nat) : Option PartAct := (s.dome.acts.find? (fun e => e.1 == p)).map Prod.snd

/-- The state with a partition's action changed. -/
def setAct (s : State) (p : Nat) (a : Option PartAct) : State :=
  { s with dome := { s.dome with acts := s.dome.acts.filter (fun e => e.1 != p) ++ (a.map (fun x => (p, x))).toList } }

/-- Steps 1 and 2 of a disable (R432). -/
def beginDisable (s : State) (p : Nat) (answer : List DomReq) : State :=
  let s := s.postEvery 0x0201 0 p (s.reg (home .prt p 0x14) * 1000)
  let s := s.setPrtState p 1
  let s := (List.range 4).foldl (fun s st => s.setStr p st { s.str p st with draining := true }) s
  s.setAct p (some { kind := .disable, scrubbing := false, answer := answer, aborted := 0, began := s.pkg.time, thenDisable := [] })

/-- The memory of a partition (R432): its HBM range, its cluster memories, and the capacity of its CXL ports. -/
def ownsLpa (s : State) (p lpa : Nat) : Bool :=
  match place lpa with
  | .hbm => let (b, n) := s.hbmRange p; decide (b ≤ lpa) && decide (lpa < b + n)
  | .cmem c _ => s.partOfCluster c == p
  | .cxl n => s.pcxRole n == 1 && s.cxlPart n == p
      && decide (lpa - 0x10000000000 - n * 0x20000000000 < s.reg (home .pcx n 0x18))
  | _ => false

/-- The bytes that the scrub of a partition writes. -/
def scrubBytes (s : State) (p : Nat) : Nat :=
  (s.hbmRange p).2 + (s.clustersOf p).length * 0xC00000
    + total ((List.range 4).map (fun n => if s.pcxRole n == 1 && s.cxlPart n == p then s.reg (home .pcx n 0x18) else 0))

/-- The slice lines of a partition's memory gone without write-back (R432). -/
def dropLines (s : State) (p : Nat) : State := { s with lines := s.lines.dropIf (fun k => s.ownsLpa p (k * 128)) }

/-- The link requests of a partition that wait for a tag are not sent: those of its commands and of its threads' lanes (R436). -/
def dropRequests (s : State) (p : Nat) : State :=
  let mine (r : Requester) : Bool := ofCommand p r || match r with
    | .lane o _ => (s.op o).any (fun x => x.part == p && !x.housekeeping)
    | _ => false
  { s with ports := s.ports.map (fun (e : Nat × Glp) => (e.1, { e.2 with reqQ := e.2.reqQ.filter (fun r => !mine r.1) })) }

/-- A partition's work has stopped: its requests are refused and its scrub begins (R432, R436). -/
def beginScrub (s : State) (p : Nat) : State :=
  let s := ((((s.dropRequests p).stopUnits p).freeAll p).endContext p).contextPowerOff p
  let s := (s.freeQps p).dropLines p
  s.progress (22 + 16 * p) 2 6 0 0 (s.scrubBytes p)

/-- Step 4 of a disable (R432): what is still parsed fails, and the scrub begins. -/
def drainEnd (s : State) (p : Nat) (a : PartAct) : State :=
  let n := total ((List.range 4).map (fun st => (s.str p st).cmds.length))
  let s := (s.abortCollectives p 0x0901).abortSnaps p 0x0901
  let s := (s.faultPending p 0x0901).abandon p (fun x => x)
  let s := (s.bump (home .prt p 0x110) n).setPrtState p 2
  (s.beginScrub p).setAct p (some { a with scrubbing := true, aborted := n })

/-- Steps 1 to 4 of a partition reset (R436); `cause` 0 a request, 1 an uncorrectable error. -/
def beginReset (s : State) (p : Nat) (answer : List DomReq) (cause : Nat) : State :=
  let s := ((s.keepFault p).postOthers p 0x0203 0x0902 (p + cause * 16) 0).setPrtState p 4
  let s := (s.abortCollectives p 0x0902).abortSnaps p 0x0902
  let s := (s.abandon p (fun x => x)).beginScrub p
  s.setAct p (some { kind := .reset, scrubbing := true, answer := answer, aborted := 0, began := s.pkg.time, thenDisable := [] })

/-- A partition reset asked for (R436, R437). -/
def resetPartition (s : State) (p : Nat) (answer : List DomReq) (cause : Nat) : State :=
  match s.actOf p with
  | some a => s.setAct p (some { a with answer := a.answer ++ answer })
  | none => s.beginReset p answer cause

/-- The scrub's writes (R432): every byte of the partition's memory is zero and none is poisoned, and nothing of the partition is in
flight. -/
def scrubbed (s : State) (p : Nat) : State :=
  let s := s.dropLines p
  let ops := s.ops.dropIf (fun i => (s.op i).any (fun o => o.part == p && !o.housekeeping))
  let s := { s with
    mem := s.mem.dropIf (s.ownsLpa p)
    poison := s.poison.dropIf (fun k => s.ownsLpa p (k * 32))
    cpoison := s.cpoison.dropIf (fun k => s.ownsLpa p (k * 8))
    ops := ops }
  let s := (s.regionsOf p).foldl State.freshRegion s
  s.progress (22 + 16 * p) 3 6 0 (s.scrubBytes p) (s.scrubBytes p)

/-- The scrub ends (R432 step 7, R436 step 5, R437). -/
def scrubEnd (s : State) (p : Nat) (a : PartAct) : State :=
  let s := (s.scrubbed p).setAct p none
  match a.kind with
  | .disable =>
    let s := (s.bump (home .prt p 0x108) 1).postEvery 0x0202 0 (p + a.aborted * 2 ^ 32) 0
    let s := s.setPrtState p 3
    let s := { s with dome := { s.dome with disabled := s.dome.disabled.filter (· != p) ++ [p] } }
    a.answer.foldl (fun s r => s.mbxAnswer r 0 0) s.hbmDomains
  | .reset =>
    let s := (s.form p).postOthers p 0x0204 0 p 0
    let s := a.answer.foldl (fun s r => s.mbxAnswer r 0 0) s
    if a.thenDisable.isEmpty then s else s.beginDisable p a.thenDisable

end State

/-! ### The commands -/

/-- ARBITRATION_ROUND (R426): resource 0 MEMORY, 2 LINK or 3 ETHERNET at an arbitration point. The demand at a Griwald
or an Ethernet port is what waits in its queues; at the points of memory the command says what waits (notes/assumptions/36.md). -/
def execArbitrationRound (res : Fin 5) (pt : Fin 256) (d0 d1 d2 d3 : W32) (s : State) : Out :=
  .next (if res.val = 2 then s.roundBegins 2 pt.val (s.linkDemand pt.val)
    else if res.val = 3 then s.roundBegins 3 pt.val (s.ethDemand pt.val)
    else if res.val = 0 then s.roundBegins 0 pt.val [d0.toNat, d1.toNat, d2.toNat, d3.toNat] else s)

/-- L2_SHARE_RECOMPUTE (R428) at a slice. -/
def execL2ShareRecompute (slice : Fin 192) (s : State) : Out := .next (s.wayTargets slice.val)

/-- L2_SHED (R430) at a slice. -/
def execL2Shed (slice : Fin 192) (s : State) : Out := .next (s.shed slice.val)

/-- PARTITION_DRAIN_END (R432): the drain limit has passed, or no parsed command remains. -/
def execPartitionDrainEnd (p : Fin 4) (s : State) : Out :=
  .next (match s.actOf p.val with
    | some a =>
      if a.scrubbing then s
      else if a.began + s.reg (home .prt p.val 0x14) * 1000000 ≤ s.pkg.time || (List.range 4).all (fun st => (s.str p.val st).cmds.isEmpty)
      then s.drainEnd p.val a else s
    | none => s)

/-- PARTITION_SCRUB_END (R432, R436). -/
def execPartitionScrubEnd (p : Fin 4) (s : State) : Out :=
  .next (match s.actOf p.val with
    | some a => if a.scrubbing then s.scrubEnd p.val a else s
    | none => s)

/-- REGION_UNCORRECTABLE_ERROR (R435): in the fabric, the counter bank, the fence bank or a transfer engine of a powered region. -/
def execRegionUncorrectableError (r : Fin 4) (s : State) : Out :=
  .next (if s.domOn (32 + r.val) then s.resetPartition (s.partOfRegion r.val) [] 1 else s)

/-- HUB_UNCORRECTABLE_ERROR (R36): in hub state, the compute-die fabric, an edge-die crossbar or an HBM controller as a whole. A Dome in RECOVERY
leaves it only as R478 says. -/
def execHubUncorrectableError (s : State) : Out := .next (if s.dome.boot.state = 2 then s else s.warmReset 2)

/-- PATROL_SCRUB (R252): the patrol's visit to one HBM line; `e` is what the ECC finds there. -/
def execPatrolScrub (lpa : BitVec 44) (e : Ecc) (s : State) : Out :=
  let b := lpa.toNat / 128 * 128
  let stack := State.stackOf (s.sliceOf b).1
  .next (if place b = .hbm && s.domOn (36 + stack) then
    let ws := s.newPoison b e
    let written := popcount 4 (e.corr ||| e.uncorr)
    let s := ((s.bump (home .hbm stack 0x110) 128).hbmFound b e).postPoison b ws
    s.bump (home .hbm stack 0x118) (32 * written)
  else s)

end Sys2Proof.Machine
end

