-- ==== Sys2Proof/Machine/DomeOps.lean ====
section
/-! DEFINITION. What the Dome shows and decides (R487 to R503): modes, budgets, DOM_STATUS, user calibration, sensors. -/

namespace Sys2Proof.Machine

/-- The package budget of a power mode in W (R3). -/
def modeBudget (m : Nat) : Nat := if m = 0 then 1800 else if m = 1 then 1400 else 1000

/-- A factory value with a user calibration: (value * (1 + gain / 10^6)) + offset, rounded to the register's unit (R501); halves go
up (notes/assumptions/38.md). -/
def calibrate (cal : Nat × Nat) (v : Int) : Int :=
  (v * (1000000 + toSigned 32 cal.2) + 500000) / 1000000 + toSigned 16 cal.1

namespace State

/-- A field of DOM_STATUS set (R503). -/
def setDomStatus (s : State) (lo w v : Nat) : State :=
  s.setReg (home .dom 0 0x10) (putBits (s.reg (home .dom 0 0x10)) lo w v)

/-- The effective package budget: the lower of the mode's and the cap (R490). A lowering change holds its budget from acceptance
(R489). -/
def effective (s : State) : Nat :=
  let d := s.dome
  let b := modeBudget d.mode
  let b := match d.newMode with
    | some (m, _) => min b (modeBudget m)
    | none => b
  if d.cap = 0 then b else min b d.cap

/-- DOM_STATUS.MODE, CHANGING and DOM_BUDGET follow the mode and the cap (R503). -/
def showMode (s : State) : State :=
  let s := (s.setDomStatus 0 2 s.dome.mode).setDomStatus 2 1 (b2n s.dome.newMode.isSome)
  s.setReg (home .dom 0 0x14) (s.effective + s.dome.cap * 2 ^ 16)

/-- The user calibration of a sensor class (R501). -/
def calOf (s : State) (c : Nat) : Nat × Nat := (s.dome.cal[c]?).getD (0, 0)

/-- The reading of a sensor in 1/16 °C below which every sensor must lie before a trip ends: 85 °C (R493). -/
def coolEnough (s : State) : Bool := s.dome.temps.all (fun t => decide (t < 85 * 16))

end State

end Sys2Proof.Machine
end

