-- ==== Sys2Proof/Machine/Bolometer.lean ====
section
/-! DEFINITION. The Bolometer (R504 to R521): its measuring chain, the legal energy register, the log, readings, the UART and the seal-state
output. -/

namespace Sys2Proof.Machine

/-- A commit is atomic: the store becomes what the volatile state holds, with the commit count one higher (R510). -/
def bolCommit (b : BolSt) : BolSt :=
  let now := { b.now with commit := (b.now.commit + 1) % 2 ^ 32 }
  { b with now := now, saved := now }

/-- The entries of the log that are not committed. -/
def bolHeld (b : BolSt) : List BolEntry := b.now.log.filter (fun e => !b.saved.log.contains e)

/-- An entry for the log with the next SEQ (R515). -/
def bolEntry (b : BolSt) (kind detail value : Nat) : BolEntry :=
  { seq := b.now.nextSeq, kind := kind, detail := detail, energy := b.now.energy, commit := b.now.commit, value := value }

/-- An entry written to the log, a ring of 4,096 entries (R515); while the sag line is asserted at most 64 entries are held and further ones
are dropped (R511). -/
def bolLog (b : BolSt) (kind detail value : Nat) : BolSt :=
  if b.sag && decide (64 ≤ (bolHeld b).length) then { b with dropped := b.dropped + 1 }
  else
    let log := b.now.log ++ [bolEntry b kind detail value]
    { b with now := { b.now with log := log.drop (log.length - 4096), nextSeq := b.now.nextSeq + 1 } }

/-- A log entry as its 32 bytes (R515). -/
def entryBytes (e : BolEntry) : List Byte :=
  leBytes 4 e.seq ++ leBytes 2 e.kind ++ leBytes 2 e.detail ++ leBytes 8 e.energy ++ leBytes 4 e.commit ++ leBytes 4 e.value ++ leBytes 8 0

/-- The flag word of a reading (R516). -/
def bolFlags (b : BolSt) : Nat := b2n b.sealed_ + b2n b.fault * 2 + b2n b.sag * 4 + b2n b.clip * 8

/-- The body of a reading (R516). -/
def readingBody (b : BolSt) (seq nonce : Nat) : List Byte :=
  leBytes 4 0x4D4C4F42 ++ leBytes 4 seq ++ leBytes 8 Config.serial.toNat ++ leBytes 8 b.now.energy ++ leBytes 8 b.op
    ++ leBytes 8 b.now.reverse ++ leBytes 4 b.now.commit ++ leBytes 4 (b.saved.nextSeq - 1) ++ leBytes 4 (bolFlags b) ++ leBytes 4 b.mw
    ++ leBytes 8 nonce

/-- A reading: the body with its signature by the Bolometer key (R516). -/
def reading (b : BolSt) (seq nonce : Nat) : List Byte :=
  let body := readingBody b seq nonce
  body ++ partSign .bolometer body

/-- The level of the seal-state output (R520). -/
def sealLevel (b : BolSt) : Bool := b.aux && b.sealed_ && !b.fault

/-- The power of a sample in W (R506): the Kelvin voltage over the shunt resistance, times the feed voltage. -/
def bolPower (k f t shunt : Nat) : Rat := Config.bolKelvin k t / ((shunt : Rat) / 1000000000000) * Config.bolFeed f t

/-- The user calibration applied to a power in W: gain in ppm and offset in mW (R513). -/
def userPower (gain offset : Int) (p : Rat) : Rat := p * (1 + (gain : Rat) / 1000000) + (offset : Rat) / 1000

/-- Energy with its remainder in 2^-32 mJ after an amount is added, modulo 2^64 mJ (R506). -/
def addEnergy (mj rest : Nat) (e : Int) : Nat × Nat :=
  let x := (((mj : Int) * 2 ^ 32 + rest + e) % 2 ^ 96).toNat
  (x / 2 ^ 32, x % 2 ^ 32)

namespace State

/-- The Bolometer changed, with its seal-state output driven where its level changes (R520). -/
def setBol (s : State) (b : BolSt) : State :=
  let t := { s with bol := b }
  if sealLevel b = sealLevel s.bol then t else t.emit (.pin 2 (b2n (sealLevel b)))

/-- A whole number of units from an amount: exact where it is one, else rounded one way or the other (notes/assumptions/43.md). -/
def wholeUnits (s : State) (x : Rat) : Int × State :=
  if x.den = 1 then (x.num, s) else (x.floor + s.draw.1 % 2, s.draw.2)

/-- The energy of one sample in 2^-32 mJ for a power in W (R506); with no shunt resistance set the spec gives no current. -/
def sampleUnits (s : State) (shunt : Nat) (p : Rat) : Int × State :=
  if shunt = 0 then ((s.draw.1 : Int), s.draw.2) else s.wholeUnits (p * 134217728)

/-- The average operational power of the last second in mW (R516). -/
def bolSecond (s : State) : State :=
  let (mw, s) := s.wholeUnits ((s.bol.sum : Rat) / 2 ^ 32)
  { s with bol := { s.bol with mw := ofSigned 32 mw, sum := 0 } }

/-- One sample added to the registers (R506, R508, R509, R513); a second is 32,000 samples. -/
def bolSample (s : State) (k f t : Nat) : State :=
  let b := s.bol
  let p := bolPower k f t b.shunt
  let (e, s) := s.sampleUnits b.shunt p
  let (o, s) := s.sampleUnits b.shunt (userPower b.userGain b.userOffset p)
  let op := addEnergy b.op b.opRest o
  let legal := addEnergy b.now.energy b.now.rest e
  let back := addEnergy b.now.reverse b.now.reverseRest (-e)
  let now := if !b.sealed_ then b.now
    else if 0 ≤ e then { b.now with energy := legal.1, rest := legal.2 }
    else { b.now with reverse := back.1, reverseRest := back.2 }
  let s := { s with bol := { b with now := now, op := op.1, opRest := op.2, sum := b.sum + o, samples := b.samples + 1 } }
  if (b.samples + 1) % 32000 = 0 then s.bolSecond else s

/-- A reading arrives at the Dome, which fills the BOL_ block of every partition from it (R519, R521). -/
def fillBol (s : State) (seq : Nat) (r : List Byte) : State :=
  (List.range 4).foldl (fun s p =>
    let a (o : Nat) : RegAddr := home .bol p o
    let w (o n : Nat) : Nat := ofLeBytes ((r.drop o).take n)
    let s := (s.setReg (a 0x10) seq).setReg (a 0x14) (w 0x30 4 % 16 + 16)
    let s := ((s.setReg (a 0x18) (w 0x10 8)).setReg (a 0x20) (w 0x18 8)).setReg (a 0x28) (w 0x34 4)
    (List.range 32).foldl (fun s i => s.setReg (a (0x100 + 4 * i)) (w (4 * i) 4)) s) s

/-- The next READ_SEQ taken. -/
def nextReading (s : State) : Nat × State :=
  let n := (s.bol.readSeq + 1) % 2 ^ 32
  (n, { s with bol := { s.bol with readSeq := n } })

/-- A commit with its reading on the stream (R510, R519); a Dome that is held in cold reset receives none. -/
def commitAndRead (s : State) : State :=
  let s := { s with bol := bolCommit s.bol }
  let (n, s) := s.nextReading
  if s.domeUp then s.fillBol n (reading s.bol n 0) else s

/-- A reply of the UART (R518). -/
def uartReply (s : State) (cmd status : Nat) (payload : List Byte) : State :=
  let l := leBytes 2 (payload.length + 2) ++ leBytes 1 (cmd + 0x80) ++ leBytes 1 status ++ payload
  s.emit (.uart (leBytes 1 0x7E ++ l ++ leBytes 4 (crc32 l)))

/-- What the bytes received make, from the first 0x7E on (R518): no whole frame yet, or a frame with its command byte and payload, none where its
CRC is bad, and the bytes after it. -/
def uartFrame (l : List Byte) : Option (Option (Nat × List Byte) × List Byte) :=
  let l := l.dropWhile (· != 0x7E)
  let n := ofLeBytes ((l.drop 1).take 2)
  if l.length < 3 || l.length < 7 + n then none else
  let covered := (l.drop 1).take (2 + n)
  let good := n != 0 && crc32 covered == ofLeBytes ((l.drop (3 + n)).take 4)
  some (if good then some (ofLeBytes ((covered.drop 2).take 1), covered.drop 3) else none, l.drop (7 + n))

/-- The bytes of a frame held until more come (R518). -/
def setRx (s : State) (l : List Byte) : State := { s with bol := { s.bol with rx := l } }

/-- Bytes that the UART receives for a command whose payload has `n` bytes (R518): a partial frame is held, one with a bad CRC ignored; a command
with another payload length is malformed, and so, with 1 or 2 as its status, is a command byte that the table does not hold. A frame of another
command is not this one's, and changes nothing. An unpowered Bolometer hears nothing. -/
def uart (s : State) (cmd n : Nat) (bytes : List Byte) (f : List Byte → State → State) : State :=
  if !s.bol.aux then s else
  match uartFrame (s.bol.rx ++ bytes) with
  | none => s.setRx (s.bol.rx ++ bytes)
  | some (none, rest) => s.setRx rest
  | some (some (c, payload), rest) =>
    if c = cmd then (if payload.length = n then f payload (s.setRx rest) else (s.setRx rest).uartReply cmd 2 [])
    else if 1 ≤ c ∧ c ≤ 6 then s
    else (s.setRx rest).draw.2.uartReply c (1 + (s.setRx rest).draw.1 % 2) []

/-- READ (R518). -/
def uartRead (s : State) (nonce : Nat) : State :=
  let (n, s) := s.nextReading
  s.uartReply 1 0 (reading s.bol n nonce)

/-- LOG (R518): the entries asked for that are still in the ring, and the SHUNT_SEALED entry where SEQ 0 is asked for. -/
def uartLog (s : State) (first count : Nat) : State :=
  if count = 0 || 16 < count then s.uartReply 2 2 [] else
  let l := s.bol.saved.log.filter (fun e => decide (first ≤ e.seq ∧ e.seq < first + count))
  let l := if first = 0 then l ++ s.bol.saved.sealEntry.toList else l
  s.uartReply 2 0 (l.map entryBytes).flatten

/-- SHUNT_SET (R513, R514). -/
def shuntSet (s : State) (pohm : Nat) : State :=
  let b := s.bol
  if b.sealed_ then { s with bol := bolLog b 7 0 0 }.uartReply 4 1 []
  else if pohm < 50000000 || 200000000 < pohm then s.uartReply 4 1 []
  else { s with bol := bolLog { b with shunt := pohm } 1 0 pohm }.uartReply 4 0 []

/-- SHUNT_SEAL (R509, R514): the entry is kept permanently, outside the ring. -/
def shuntSeal (s : State) (pohm : Nat) : State :=
  let b := s.bol
  if b.sag || s.dome.sag || b.sealed_ || b.shunt = 0 || pohm ≠ b.shunt then s.uartReply 5 1 []
  else
    let keep (x : BolStore) : BolStore := { x with sealEntry := some (bolEntry b 2 0 pohm), nextSeq := b.now.nextSeq + 1 }
    (s.setBol { b with sealed_ := true, now := keep b.now, saved := keep b.saved }).uartReply 5 0 []

/-- CAL_SET (R513). -/
def calSet (s : State) (offset gain : Nat) : State :=
  let o := toSigned 32 offset
  let g := toSigned 32 gain
  if o < -20000 || 20000 < o || g < -20000 || 20000 < g then s.uartReply 6 1 []
  else { s with bol := bolLog { s.bol with userOffset := o, userGain := g } 8 0 gain }.uartReply 6 0 []

/-- The sag clears (R511): one commit, then the SAG_DEFERRED entry with the whole seconds of the sag and the entries dropped. -/
def bolSagOver (s : State) : State :=
  let s := { s with bol := { s.bol with sag := false } }.commitAndRead
  let b := s.bol
  let b := bolLog b 9 (min b.dropped 0xFFFF) ((b.samples - b.sagSince) / 32000)
  { s with bol := { b with dropped := 0 } }

/-- The supply returns (R512): what is not in the store or fused is lost. -/
def bolRestart (s : State) : State :=
  let b := s.bol
  let c : BolSt := { now := b.saved, saved := b.saved, shunt := b.shunt, sealed_ := b.sealed_, sag := s.dome.sag }
  s.setBol (bolLog c 3 0 0)

/-- A state of the chain that starts or ends: the entry is written on a change (R507, R508, R515). -/
def bolEvent (s : State) (was start : Bool) (b : BolSt) (kind detail : Nat) : State :=
  if s.bol.aux && was != start then s.setBol (if kind = 6 && !start then b else bolLog b kind detail 0) else s

end State

/-! ### The commands -/

/-- BOL_SAMPLE (R506): the codes of the two converters and the temperature of the die. -/
def execBolSample (k f : BitVec 24) (t : BitVec 16) (s : State) : Out :=
  .next (if s.bol.aux then s.bolSample k.toNat f.toNat t.toNat else s)

/-- BOL_COMMIT (R495, R510, R511): none starts while a sag is indicated, nor before the commit that follows it. -/
def execBolCommit (s : State) : Out := .next (if s.bol.aux && !s.bol.sag && !s.dome.sag then s.commitAndRead else s)

/-- BOL_SAG_ASSERT (R511): the Dome's sag line, which follows R494. -/
def execBolSagAssert (s : State) : Out :=
  .next (if s.bol.aux && s.dome.sag && !s.bol.sag then { s with bol := { s.bol with sag := true, sagSince := s.bol.samples } } else s)

/-- BOL_SAG_CLEAR (R511). -/
def execBolSagClear (s : State) : Out := .next (if s.bol.aux && !s.dome.sag && s.bol.sag then s.bolSagOver else s)

/-- BOL_AUX_LOSS (R512, R520). -/
def execBolAuxLoss (s : State) : Out := .next (s.setBol { s.bol with aux := false, rx := [] })

/-- AUX_RESTORE (R512). -/
def execAuxRestore (s : State) : Out := .next (if s.bol.aux then s else s.bolRestart)

/-- OVER_RANGE (R507): clipping starts or ends. -/
def execOverRange (start : Bool) (s : State) : Out := .next (s.bolEvent s.bol.clip start { s.bol with clip := start } 4 (b2n start))

/-- REVERSE (R508): reverse flow starts or ends. -/
def execReverse (start : Bool) (s : State) : Out := .next (s.bolEvent s.bol.back start { s.bol with back := start } 5 (b2n start))

/-- CHAIN_FAULT (R515, R520): a converter's fault starts or ends; the entry is written at its start. -/
def execChainFault (start : Bool) (s : State) : Out := .next (s.bolEvent s.bol.fault start { s.bol with fault := start } 6 0)

/-- BOL_SILENCE_TIMEOUT (R521): VALID reads 0 in every partition. -/
def execBolSilenceTimeout (s : State) : Out :=
  .next ((List.range 4).foldl (fun s p => s.setReg (home .bol p 0x14) (s.reg (home .bol p 0x14) % 16)) s)

/-- UART_FRAME_TIMEOUT (R518): bytes of a partial frame, then a silence of 10 ms, which discards it; a frame that is whole is not one. -/
def execUartFrameTimeout (bytes : List Byte) (s : State) : Out :=
  .next (if (State.uartFrame (s.bol.rx ++ bytes)).isNone then s.setRx [] else s)

/-- READ (R518): an 8-byte nonce. The operand of this and of the commands below is the bytes received. -/
def execRead (bytes : List Byte) (s : State) : Out := .next (s.uart 1 8 bytes (fun l s => s.uartRead (ofLeBytes l)))

/-- LOG (R518): the first SEQ and a count. -/
def execLog (bytes : List Byte) (s : State) : Out :=
  .next (s.uart 2 5 bytes (fun l s => s.uartLog (ofLeBytes (l.take 4)) (ofLeBytes (l.drop 4))))

/-- IDENTITY (R518): the public key and the certificate. -/
def execIdentity (bytes : List Byte) (s : State) : Out :=
  .next (s.uart 3 0 bytes (fun _ s => s.uartReply 3 0 (leBytes 32 (partPublic .bolometer) ++ bolometerCert)))

/-- SHUNT_SET (R514): a resistance in pΩ. -/
def execShuntSet (bytes : List Byte) (s : State) : Out := .next (s.uart 4 4 bytes (fun l s => s.shuntSet (ofLeBytes l)))

/-- SHUNT_SEAL (R514): the resistance again. -/
def execShuntSeal (bytes : List Byte) (s : State) : Out := .next (s.uart 5 4 bytes (fun l s => s.shuntSeal (ofLeBytes l)))

/-- CAL_SET (R513): the offset in mW and the gain in ppm. -/
def execCalSet (bytes : List Byte) (s : State) : Out :=
  .next (s.uart 6 8 bytes (fun l s => s.calSet (ofLeBytes (l.take 4)) (ofLeBytes (l.drop 4))))

end Sys2Proof.Machine
end

