-- ==== Sys2Proof/Machine/Shapes.lean ====
section
/-! DEFINITION. The shape of every operation: what its sources and its result take, its MOD bits and its extension word (R199 to R207, R544). -/

namespace Sys2Proof.Machine

/-- What the extension word of an operation is (R544). -/
inductive ExtUse where
  | none | immB32 | immB64 | immA32 | immA64 | offset | required
  deriving DecidableEq, Repr

/-- The shape of an operation: how many 32-bit registers each source and the result take, whether the result is a predicate,
which MOD bits it defines (bit 0 is word bit 52), and the use of its extension word. -/
structure Shape where
  a : Nat := 0
  b : Nat := 0
  c : Nat := 0
  d : Nat := 0
  pd : Bool := false
  mods : Nat := 0
  ext : ExtUse := .none
  deriving DecidableEq, Repr

/-- Whether source A is replaced by the extension word. -/
def Shape.immA (sh : Shape) (mi : Mi) : Bool :=
  mi.ext.isSome && (sh.ext == .immA32 || sh.ext == .immA64)
/-- Whether source B is replaced by the extension word. -/
def Shape.immB (sh : Shape) (mi : Mi) : Bool :=
  mi.ext.isSome && (sh.ext == .immB32 || sh.ext == .immB64)

/-- The MOD field `lo`..`lo + w - 1`, by its word bit numbers (MOD is word bits 63..52). -/
def modf (mi : Mi) (lo w : Nat) : Nat := bits mi.mod.toNat (lo - 52) w

/-! ### CONTROL (R209) -/

/-- `brx`. -/
def shapeBrx : Shape := { a := 2 }
/-- `call`. -/
def shapeCall : Shape := { d := 2 }
/-- `div`. -/
def shapeDiv : Shape := { mods := 0xF, ext := .required }

/-! ### INTEGER and LOGIC (R212) -/

/-- Two sources and a result of 32 bits, immediate B. -/
def shape2 : Shape := { a := 1, b := 1, d := 1, ext := .immB32 }
/-- Three sources and a result of 32 bits, immediate B. -/
def shape3 : Shape := { a := 1, b := 1, c := 1, d := 1, ext := .immB32 }
/-- One source and a result of 32 bits. -/
def shape1 : Shape := { a := 1, d := 1 }
/-- Two pairs and a pair as the result, 64-bit immediate B. -/
def shapePair : Shape := { a := 2, b := 2, d := 2, ext := .immB64 }

/-! ### FLOAT and DOUBLE (R212, R213) -/

/-- Two FP32 or packed sources. -/
def shapeF2 : Shape := { a := 1, b := 1, d := 1, ext := .immB32 }
/-- Three FP32 or packed sources. -/
def shapeF3 : Shape := { a := 1, b := 1, c := 1, d := 1, ext := .immB32 }
/-- One FP32 or packed source. -/
def shapeF1 : Shape := { a := 1, d := 1 }
/-- Two FP64 sources. -/
def shapeD2 : Shape := { a := 2, b := 2, d := 2, ext := .immB64 }
/-- Three FP64 sources. -/
def shapeD3 : Shape := { a := 2, b := 2, c := 2, d := 2, ext := .immB64 }
/-- A shape of these families with their MOD bits (R213). -/
def Shape.float (sh : Shape) : Shape := { sh with mods := 0x1F }

/-! ### COMPARE and MOVE (R214 to R219) -/

/-- Sources and predicate result of a compare of `n` registers each. -/
def shapeCmp (n mods : Nat) (ext : ExtUse) : Shape := { a := n, b := n, pd := true, mods := mods, ext := ext }
/-- `psetp`. -/
def shapePsetp : Shape := { pd := true, mods := 0xF }
/-- `sel`. -/
def shapeSel : Shape := { a := 1, b := 1, d := 1, mods := 0xF, ext := .immB32 }
/-- A vote with a predicate or, for a ballot, a mask as its result. -/
def shapeVote (pd : Bool) : Shape := { pd := pd, d := if pd then 0 else 1, mods := 0x7 }
/-- `mov`. -/
def shapeMov : Shape := { a := 1, d := 1, ext := .immA32 }
/-- `mov64`. -/
def shapeMov64 : Shape := { a := 2, d := 2, ext := .immA64 }
/-- The registers of a value of format code `c` (R217): FP64 uses pairs. -/
def cvtRegs (c : Nat) : Nat := if c = 3 then 2 else 1
/-- `cvt`. -/
def shapeCvt (mi : Mi) : Shape := { a := cvtRegs (modf mi 56 4), d := cvtRegs (modf mi 52 4), mods := 0x1FF }
/-- `ndec`. -/
def shapeNdec : Shape := { a := 1, b := 1, d := 1, mods := 0xF, ext := .immB32 }
/-- `mximp` and `mxsexp`. -/
def shapeMx1 : Shape := { a := 1, d := 1, mods := 0x7 }
/-- `mxsimp`. -/
def shapeMxsimp : Shape := { a := 1, b := 1, d := 1, mods := 0x7, ext := .immB32 }
/-- `mxexp`. -/
def shapeMxexp : Shape := { a := 1, b := 1, d := 1, mods := 0x107, ext := .immB32 }
/-- `s2r`. -/
def shapeS2r : Shape := { d := 1 }
/-- `shfl`. -/
def shapeShfl : Shape := { a := 1, b := 1, d := 1, mods := 0x3, ext := .immB32 }

/-! ### MEMORY, ATOMIC, ORDER and SYNC (R221 to R227) -/

/-- WIDTH in bytes (R222). -/
def memBytes (mi : Mi) : Nat := 2 ^ modf mi 52 3
/-- WIDTH in 32-bit registers. -/
def memRegs (mi : Mi) : Nat := (memBytes mi + 3) / 4
/-- SCOPE of the MEMORY, ORDER and SYNC families. -/
def memScope (mi : Mi) : Nat := modf mi 56 3
/-- `ld` and `ldc`. -/
def shapeLd (mi : Mi) : Shape := { a := 2, d := memRegs mi, mods := 0x1FF, ext := .offset }
/-- `st`. -/
def shapeSt (mi : Mi) : Shape := { a := 2, b := memRegs mi, mods := 0x3FF, ext := .offset }
/-- `pf` and `dead`. -/
def shapeHint : Shape := { a := 2, mods := 0x1FF, ext := .offset }
/-- `accl`. -/
def shapeAccl : Shape := { a := 2, b := 1, mods := 0x1FF, ext := .offset }
/-- TYPE of `atom` in registers (R225): u64 uses pairs. -/
def atomRegs (mi : Mi) : Nat := if modf mi 55 3 = 2 then 2 else 1
/-- `atom`: only `cas` has an operand c. -/
def shapeAtom (mi : Mi) : Shape :=
  { a := 2, b := atomRegs mi, c := if modf mi 52 3 = 7 then atomRegs mi else 0, d := atomRegs mi, mods := 0x7FF, ext := .offset }
/-- `fence`. -/
def shapeFence : Shape := { mods := 0x70 }
/-- `gbar`. -/
def shapeGbar : Shape := { a := 1, mods := 0x70, ext := .immA32 }
/-- `csig`. -/
def shapeCsig : Shape := { a := 1, b := 1, mods := 0x70, ext := .immB32 }
/-- `cwait`. -/
def shapeCwait : Shape := { a := 1, b := 1, d := 1, mods := 0x70, ext := .immB32 }
/-- `cget`. -/
def shapeCget : Shape := { a := 1, d := 1, mods := 0x70 }

/-! ### TILE, VECTOR and PRIVILEGED (R229, R230, R233) -/

/-- `tile`. -/
def shapeTile : Shape := { mods := 0x3F }
/-- `vop`, whose operands are not registers of the thread. -/
def shapeVop : Shape := { ext := .required }
/-- `ldp`: as `ld`, but no extension word (R544). -/
def shapeLdp (mi : Mi) : Shape := { shapeLd mi with ext := .none }
/-- `stp`: as `st`, but no extension word (R544). -/
def shapeStp (mi : Mi) : Shape := { shapeSt mi with ext := .none }
/-- `csrr`. -/
def shapeCsrr : Shape := { a := 1, d := 1 }
/-- `csrw` and `sev`. -/
def shapeTwo : Shape := { a := 1, b := 1 }

/-! ### The shape of an opcode -/

/-- The shapes of a family's operations, in the order of `familyOps`. -/
def familyShapes (family : Nat) (mi : Mi) : List Shape :=
  match family with
  | 0x0 => [{}, {}, shapeBrx, shapeCall, {}, shapeDiv, {}, {}, {}, {}]
  | 0x1 => [shape2, shape2, shape2, shape2, shape2, shape3, shape2, shape2, shape2, shape2, shape1, shapePair, shapePair, shape1, shape1]
  | 0x2 => [shape2, shape2, shape2, shape2, shape1, shape2, shape2, shape2, shape3, shape3, shape3]
  | 0x3 => [shapeF2, shapeF2, shapeF2, shapeF3, shapeF2, shapeF2, shapeF1, shapeF1].map Shape.float
  | 0x4 => [shapeD2, shapeD2, shapeD2, shapeD3, shapeD2, shapeD2].map Shape.float
  | 0x5 => [shapeCmp 1 0xF .immB32, shapeCmp 1 0x37 .immB32, shapeCmp 2 0x7 .immB64, shapePsetp, shapeSel, shapeVote true, shapeVote true,
      shapeVote false]
  | 0x6 => [shapeMov, shapeMov64, shapeCvt mi, shapeNdec, shapeMx1, shapeMxsimp, shapeMxexp, shapeMx1, shapeS2r, shapeShfl]
  | 0x7 => [shapeLd mi, shapeSt mi, shapeLd mi, shapeHint, shapeHint, shapeAccl]
  | 0x8 => [shapeAtom mi]
  | 0x9 => [shapeFence]
  | 0xA => [shapeGbar, shapeCsig, shapeCwait, shapeCget]
  | 0xB => [shapeTile]
  | 0xC => [shapeVop]
  | 0xE => [shapeLdp mi, shapeStp mi, shapeCsrr, shapeTwo, {}, {}, shapeTwo]
  | _ => []

/-- The shape of the operation with an opcode, if the opcode is defined. -/
def opShape (op : Nat) (mi : Mi) : Option Shape := (familyShapes (op / 16) mi)[op % 16]?

end Sys2Proof.Machine
end

