-- ==== Sys2Proof/Machine/Operands.lean ====
section
/-! DEFINITION. Operands of Mujan instructions: register files, sources, immediates, destinations, the encoding checks that
raise ILLEGAL (R168, R199 to R207, R544), and the issue of an instruction (R172 to R176, R195 to R197, R203). -/

namespace Sys2Proof.Machine

/-- Whether `n` registers from `base` break the pair and quad rule or reach a register at or above the allocation (R168, R200). -/
def badG (alloc base n : Nat) : Bool :=
  base % n != 0 || (List.range n).any (fun i => decide (alloc ≤ base + i) && base + i != 255)

/-- Whether `n` uniform registers from `base` break the rules (R200, R204, R206). -/
def badU (base n : Nat) : Bool := decide (63 < base) || base % n != 0

/-- Whether a source breaks the rules. -/
def badSrc (alloc field n : Nat) (usel : Bool) : Bool := n != 0 && (if usel then badU field n else badG alloc field n)

/-- Whether the extension word breaks R204, R207 or R544. -/
def badExt (sh : Shape) (mi : Mi) : Bool :=
  match sh.ext, mi.ext with
  | .none, some _ => true
  | .required, none => true
  | .immB32, some e => decide (2 ^ 32 ≤ e.toNat) || mi.b != 0 || mi.usel.getLsbD 1
  | .immB64, some _ => mi.b != 0 || mi.usel.getLsbD 1
  | .immA32, some e => decide (2 ^ 32 ≤ e.toNat) || mi.a != 0 || mi.usel.getLsbD 0
  | .immA64, some _ => mi.a != 0 || mi.usel.getLsbD 0
  | .offset, some e => decide (2 ^ 32 ≤ e.toNat)
  | _, _ => false

/-- Whether the destination breaks R168, R200, R202 or R206. -/
def badDst (sh : Shape) (alloc : Nat) (mi : Mi) : Bool :=
  if mi.udst then sh.d == 0 || sh.pd || badU mi.dst.toNat sh.d
  else if sh.pd then decide (8 ≤ mi.dst.toNat)
  else sh.d != 0 && badG alloc mi.dst.toNat sh.d

/-- Whether the encoding of an instruction of a shape is an ILLEGAL fault (R168, R200, R202, R204, R206, R207). -/
def illegal (sh : Shape) (alloc : Nat) (mi : Mi) : Bool :=
  badExt sh mi || (mi.mod.toNat &&& (4095 ^^^ sh.mods)) != 0 || badDst sh alloc mi
  || (!sh.immA mi && badSrc alloc mi.a.toNat sh.a (mi.usel.getLsbD 0))
  || (!sh.immB mi && badSrc alloc mi.b.toNat sh.b (mi.usel.getLsbD 1))
  || badSrc alloc mi.c.toNat sh.c (mi.usel.getLsbD 2)

/-! ### Reading sources (R199, R200, R204) -/

/-- `n` registers from `field` as one number, low register first. -/
def readRegs (g : Grp) (t : Thr) (usel : Bool) (field n : Nat) : Nat :=
  (List.range n).foldl (fun a i => a + (if usel then g.getU (field + i) else t.getG (field + i)) <<< (32 * i)) 0

/-- Operand A of a thread. -/
def opA (sh : Shape) (mi : Mi) (g : Grp) (t : Thr) : Nat :=
  if sh.immA mi then (mi.ext.map BitVec.toNat).getD 0 else readRegs g t (mi.usel.getLsbD 0) mi.a.toNat sh.a
/-- Operand B of a thread. -/
def opB (sh : Shape) (mi : Mi) (g : Grp) (t : Thr) : Nat :=
  if sh.immB mi then (mi.ext.map BitVec.toNat).getD 0 else readRegs g t (mi.usel.getLsbD 1) mi.b.toNat sh.b
/-- Operand C of a thread. -/
def opC (sh : Shape) (mi : Mi) (g : Grp) (t : Thr) : Nat := readRegs g t (mi.usel.getLsbD 2) mi.c.toNat sh.c

/-! ### Writing results (R199, R206) -/

/-- `n` registers of a thread written from `dst` upward; g255 discards. -/
def Thr.setRegs (t : Thr) (dst n v : Nat) : Thr :=
  if dst = 255 then t else (List.range n).foldl (fun t i => t.setG (dst + i) (bits v (32 * i) 32)) t

/-- `n` uniform registers of a group written from `dst` upward; u63 discards. -/
def Grp.setURegs (g : Grp) (dst n v : Nat) : Grp :=
  (List.range n).foldl (fun g i => g.setU (dst + i) (bits v (32 * i) 32)) g

/-- The lanes of a mask in ascending order. -/
def lanesOf (mask : Nat) : List Nat := (List.range 32).filter (fun l => mask.testBit l)

/-- The result of each executing lane written: to its registers, or the lowest lane's to the uniform registers (R206). -/
def Grp.writeAll (g : Grp) (sh : Shape) (mi : Mi) (mask : Nat) (f : Nat → Nat) : Grp :=
  if sh.pd then (lanesOf mask).foldl (fun g l => g.modThr l (fun t => t.setP mi.dst.toNat (f l != 0))) g
  else if mi.udst then (if mask = 0 then g else g.setURegs mi.dst.toNat sh.d (f (lowLane mask)))
  else (lanesOf mask).foldl (fun g l => g.modThr l (fun t => t.setRegs mi.dst.toNat sh.d (f l))) g

/-! ### Issue -/

/-- An instruction at issue: its unit, slot, PC, the PC after it, the threads at the PC and those that execute it. -/
structure Iss where
  u : Nat
  k : Nat
  pc : Nat
  next : Nat
  chosen : Nat
  exec : Nat
  deriving DecidableEq, Repr

namespace State

/-- STARVE_AGE of a unit (R174, R198). -/
def starveAge (s : State) (u : Nat) : Nat := bits (s.reg (unitReg u 0x14)) 8 16

end State

/-- The threads of a group that are ready, as a mask (R172): alive, not waiting at the barrier or a counter, not held by a
result on its way. -/
def Grp.ready (g : Grp) (stall : Nat) : Nat :=
  (List.range 32).foldl (fun a l =>
    let t := g.thr l
    if t.alive && !t.atBar && t.wait.isNone && !stall.testBit l then a + 2 ^ l else a) 0

/-- The threads of `mask` whose PC is `pc`. -/
def Grp.atPc (g : Grp) (mask pc : Nat) : Nat :=
  (lanesOf mask).foldl (fun a l => if (g.thr l).pc = pc then a + 2 ^ l else a) 0

/-- The PC held by the most ready threads; the lower PA wins a tie (R173). -/
def Grp.commonPc (g : Grp) (mask : Nat) : Nat :=
  let score (l : Nat) : Nat := popcount 32 (g.atPc mask (g.thr l).pc)
  let best := (lanesOf mask).foldl (fun (b : Nat × Nat) l =>
    let pc := (g.thr l).pc
    let n := score l
    if b.1 < n || (b.1 == n && decide (pc < b.2)) then (n, pc) else b) (0, 0)
  best.2

/-- The choice of R173 among the ready threads: the PC, and whether rule 1 chose it. -/
def Grp.choosePc (g : Grp) (mask starve : Nat) : Nat × Bool :=
  let oldest := (lanesOf mask).foldl (fun (b : Option (Nat × Nat)) l =>
    let a := (g.thr l).age
    if a < starve then b else
    match b with
    | none => some (a, l)
    | some (a', _) => if a' < a then some (a, l) else b) none
  match oldest with
  | some (_, l) => ((g.thr l).pc, true)
  | none => (g.commonPc mask, false)

/-- The g registers that the sources of an instruction read from banks, source by source, with their reuse bits (R177, R178). -/
def bankSources (sh : Shape) (mi : Mi) : List (Nat × Bool) :=
  let src (used : Nat) (imm usel : Bool) (field : Nat) (reuse : Bool) : List (Nat × Bool) :=
    if imm || usel then [] else ((List.range used).map (fun i => (field + i, reuse))).filter (fun x => decide (x.1 < 255))
  src sh.a (sh.immA mi) (mi.usel.getLsbD 0) mi.a.toNat (mi.reuse.getLsbD 0)
    ++ src sh.b (sh.immB mi) (mi.usel.getLsbD 1) mi.b.toNat (mi.reuse.getLsbD 1)
    ++ src sh.c false (mi.usel.getLsbD 2) mi.c.toNat (mi.reuse.getLsbD 2)

/-- Reads of registers that fall in a bank already read by the instruction (R178, R179). -/
def bankConflicts (regs : List Nat) : Nat :=
  (List.range 8).foldl (fun a b => a + ((regs.filter (fun r => r % 8 == b)).length - 1)) 0

namespace State

/-- Register delivery of an issued instruction (R178, R179): in OC the conflicts; in RC the hits and misses, the conflicts of the
missed sources, and the entries placed in the executing threads' register caches, first in first out. Timing only (R180). -/
def delivery (s : State) (sh : Shape) (mi : Mi) (i : Iss) : State :=
  let srcs := bankSources sh mi
  let rc := decide (i.u < 128) && (s.ctxOf (s.partOfCluster (i.u / 4))).rc
  if !rc then s.bumpUnit i.u 0x108 (bankConflicts (srcs.map Prod.fst)) else
  let g := s.grp i.u i.k
  let hit (r : Nat) : Bool := (lanesOf i.exec).all (fun l => (g.thr l).rcache.contains r)
  let missed := srcs.filter (fun x => !hit x.1)
  let s := s.bumpUnit i.u 0x110 (srcs.length - missed.length)
  let s := s.bumpUnit i.u 0x118 missed.length
  let s := s.bumpUnit i.u 0x108 (bankConflicts (missed.map Prod.fst))
  let place (t : Thr) : Thr := missed.foldl (fun t x =>
    if !x.2 || t.rcache.contains x.1 then t else
    let q := t.rcache ++ [x.1]
    { t with rcache := q.drop (q.length - 6) }) t
  s.setGrp i.u i.k ((lanesOf i.exec).foldl (fun g l => g.modThr l place) g)

/-- Whether a result that is still to come will write one of `n` uniform registers from `d` on (R172, R180): that of a load or an atomic in
flight, or of a counter wait. -/
def uniformPending (s : State) (u k d n : Nat) : Bool :=
  n != 0 && (s.opList.any (fun e =>
      e.2.unit == u && e.2.slot == k && !e.2.fromTile && e.2.hasResult && e.2.udst
      && decide (d < e.2.dst + (e.2.bytes + 3) / 4) && decide (e.2.dst < d + n))
    || (List.range 32).any (fun l => ((s.grp u k).thr l).wait.any (fun c => c.udst && decide (d ≤ c.dst) && decide (c.dst < d + n))))

/-- Whether a load or an atomic in flight of the threads in `mask` will write one of `n` of their registers from `d` on. -/
def generalPending (s : State) (u k mask d n : Nat) : Bool :=
  n != 0 && s.opList.any (fun e =>
    e.2.unit == u && e.2.slot == k && !e.2.fromTile && e.2.hasResult && !e.2.udst && e.2.lanes.any (fun x => mask.testBit x.lane)
    && decide (d < e.2.dst + (e.2.bytes + 3) / 4) && decide (e.2.dst < d + n))

/-- Whether an instruction names a register that does not hold its final value yet, for the threads in `mask` (R172, R180). -/
def pendingHits (s : State) (sh : Shape) (mi : Mi) (u k mask : Nat) : Bool :=
  let held (uni : Bool) (f n : Nat) : Bool := if uni then s.uniformPending u k f n else s.generalPending u k mask f n
  held (mi.usel.getLsbD 0) mi.a.toNat (if sh.immA mi then 0 else sh.a)
    || held (mi.usel.getLsbD 1) mi.b.toNat (if sh.immB mi then 0 else sh.b) || held (mi.usel.getLsbD 2) mi.c.toNat sh.c
    || held mi.udst mi.dst.toNat sh.d

/-- The word at a PC (R201): on a compute unit at a PA of its partition, on a housekeeping unit at an LPA; 0 where there is none. -/
def wordAt (s : State) (u pc : Nat) : Nat := match s.partOfUnit u with
  | none => s.peekNat pc 8
  | some p => match s.translate p pc 4 with
    | none => 0
    | some lpa => s.peekNat lpa 8

end State

/-- The descriptor bases of the stream operands of a vop word (R231). -/
def vecStreams (v : Vi) : List Nat :=
  ([v.dst, v.a, v.b, v.c, v.mask].filter (fun b => bits b.toNat 6 2 == 2)).map (fun b => bits b.toNat 0 6)

namespace State

/-- Whether the next instruction of lane `l` of a group is held (R172): a source, a descriptor's register among them, or its destination
(notes/assumptions/129.md) is not final, or its issue queue is full, or, for `tfence` and `vfence`, the group's instructions have not completed. -/
def laneHeld (s : State) (u k l : Nat) : Bool :=
  let g := s.grp u k
  let x := s.unit u
  let w := s.wordAt u (g.thr l).pc
  let mi := miOfWord 0 0 w 0
  (opShape (opcodeOf w) mi).any (fun sh => s.pendingHits sh mi u k (2 ^ l))
    || (match opcodeOf w with
      | 0x08 => g.tiles != 0
      | 0x09 => g.vecs != 0
      | 0xB0 => decide (2 ≤ x.tileQ.length) || s.uniformPending u k (modf mi 52 6) 20
      | 0xC0 => decide (2 ≤ x.vecQ.length) || (x.vecLink.isSome && x.vecLink != some k)
          || (vecStreams (viOfWord 0 0 w (s.wordAt u ((g.thr l).pc + 8)))).any (fun d => s.uniformPending u k d 8)
      | _ => false)

/-- The lanes of a group that are not ready (R172): those whose next instruction is held, and those that the command names as within a latency. -/
def heldLanes (s : State) (u k stall : Nat) : Nat :=
  (List.range 32).foldl (fun a l =>
    if stall.testBit l || (((s.grp u k).thr l).alive && s.laneHeld u k l) then a + 2 ^ l else a) 0

/-- The threads of a group that are ready (R172). -/
def readyLanes (s : State) (u k stall : Nat) : Nat := (s.grp u k).ready (s.heldLanes u k stall)

/-- Whether the group may issue at all: resident, not faulted, not halted unless it steps, its unit not stopped, no event
awaited (R190, R191, R196, R197, R233). -/
def mayIssue (s : State) (u k : Nat) : Bool :=
  let g := s.grp u k
  g.live && !g.faulted && !(s.unit u).stopped && (!s.groupHalted u k || g.step) && !g.wfe

/-- The PC and threads that the next issue of a group takes: R173 on a compute unit, the active mask on a housekeeping unit
(R175). Nothing where no thread is ready. -/
def choose (s : State) (u k stall : Nat) : Option (Nat × Nat × Bool) :=
  let g := s.grp u k
  let ready := s.readyLanes u k stall
  if u < 128 then
    if ready = 0 then none else
    let (pc, forced) := g.choosePc ready (s.starveAge u)
    some (pc, g.atPc ready pc, forced)
  else if g.active = 0 || (ready &&& g.active) ≠ g.active then none
  else some ((g.thr (lowLane g.active)).pc, g.active, false)

/-- Whether slot `k` is in turn in its unit (R172): of the slots after the one that issued last, in their order, no earlier one has a ready
instruction; the slots in `busy` have one that something else holds back. -/
def slotTurn (s : State) (u k busy : Nat) : Bool :=
  let last := s.slots.get 31 u
  (List.range 32).find? (fun i =>
    let j := (last + 1 + i) % 32
    j == k || (!busy.testBit j && s.mayIssue u j && (s.choose u j 0).isSome)) == some ((k + 31 - last % 32) % 32)

end State

/-- The guard of an instruction in a thread (R203). -/
def guardOf (pred : Nat) (pneg : Bool) (t : Thr) : Bool := t.getP pred != pneg

/-- The threads of `mask` whose guard is true. -/
def Grp.guarded (g : Grp) (mask pred : Nat) (pneg : Bool) : Nat :=
  (lanesOf mask).foldl (fun a l => if guardOf pred pneg (g.thr l) then a + 2 ^ l else a) 0

namespace State

/-- Debug halting is enabled in unit `u` (R195). -/
def dbgEnabled (s : State) (u : Nat) : Bool := bit (s.reg (unitReg u 0x18)) 0

/-- The index of a valid breakpoint at `pc`, if any (R195). -/
def breakpointAt (s : State) (u pc : Nat) : Option Nat :=
  (List.range 4).find? (fun b => let v := s.reg (unitReg u (0x30 + 8 * b)); bit v 63 && bits v 0 44 == pc)

/-- The instruction fetch at `pc` (R52, R189): on a compute unit the PA must be translated with X, and the word not poisoned. On
a housekeeping unit the PC is taken as an LPA (notes/assumptions/15.md). -/
def fetchFault (s : State) (u pc : Nat) : Option Nat :=
  match s.partOfUnit u with
  | none => none
  | some p => match s.translate p pc 4 with
    | none => some 1
    | some lpa => if s.poisonedIn lpa 8 then some 9 else none

/-- The fetch of an instruction and of its extension word: the fault kind and the PA that fails (R52, R189, R209). -/
def fetchFaultAt (s : State) (u pc : Nat) (ext : Bool) : Option (Nat × Nat) :=
  match s.fetchFault u pc with
  | some kind => some (kind, pc)
  | none => if ext then (s.fetchFault u ((pc + 8) % 2 ^ 44)).map (fun kind => (kind, (pc + 8) % 2 ^ 44)) else none

/-- The bookkeeping of an issue: the threads that were ready and not chosen age, the chosen return to zero (R174), the counters
count, the chosen threads' PC moves on, and the slot is the last that issued (R172). -/
def bookIssue (s : State) (i : Iss) (ready : Nat) (forced : Bool) : State :=
  let g := s.grp i.u i.k
  let g := (List.range 32).foldl (fun g l =>
    if i.chosen.testBit l then g.modThr l (fun t => { t with age := 0, pc := i.next })
    else if ready.testBit l && decide (i.u < 128) then g.modThr l (fun t => { t with age := t.age + 1 }) else g) g
  let s := { s.setGrp i.u i.k { g with pass := false } with slots := s.slots.set 31 i.u i.k }
  let s := s.bumpUnit i.u 0x100 1
  if forced then s.bumpUnit i.u 0x140 1 else s

/-- The end of a step (R197): the group that stepped halts again with cause STEP. -/
def afterStep (s : State) (u k : Nat) (stepping : Bool) : State :=
  if !stepping then s else
  let g := s.grp u k
  if !g.live then s else (s.setGrp u k { g with step := false, halted := true }).debugHalt u (some k) 3 0

/-- Whether the word at a PC has an undefined OPCODE (R207, R208). -/
def undefinedAt (s : State) (u pc : Nat) : Bool := !opDefined (opcodeOf (s.wordAt u pc))

/-- An issue at a word with an undefined OPCODE (R207): an ILLEGAL fault of the threads whose guard is true; with none it is a no-operation
(R203). -/
def issueUndefined (s : State) (u k pc chosen stall : Nat) (forced : Bool) : State :=
  let g := s.grp u k
  let w := s.wordAt u pc
  let exec := g.guarded chosen (bits w 0 3) (bit w 3)
  if exec ≠ 0 then s.threadFault u k 3 exec pc 0 else
  let i : Iss := { u := u, k := k, pc := pc, next := (pc + instrBytes w) % 2 ^ 44, chosen := chosen, exec := 0 }
  (s.bookIssue i (s.readyLanes u k stall) forced).afterStep u k g.step

/-- One issue of an instruction (R172, R173, R190, R195, R203): nothing where the group cannot issue it now; a fetch fault; a halt at a
breakpoint; an undefined word; else, where some thread executes, an ILLEGAL fault or, once `ready` says that the executing threads' other
conditions hold (an empty queue, completed instructions), the bookkeeping and the effect `f`. -/
def issue (s : State) (sh : Shape) (mi : Mi) (bad : Bool) (ready : Iss → Bool) (f : Iss → State → State) : State :=
  let u := mi.unit.val
  let k := mi.slot.val
  if !s.mayIssue u k || !s.slotTurn u k mi.busy.toNat then s else
  match s.choose u k mi.stall.toNat with
  | none => s
  | some (pc, chosen, forced) =>
    let g := s.grp u k
    match s.fetchFaultAt u pc mi.ext.isSome with
    | some (kind, fa) => s.threadFault u k kind chosen pc fa
    | none =>
      match (if s.dbgEnabled u && !g.pass && !g.step then s.breakpointAt u pc else none) with
      | some b => s.debugHalt u (some k) 2 b
      | none =>
        let exec := g.guarded chosen mi.pred.toNat mi.pneg
        let i : Iss := { u := u, k := k, pc := pc, next := (pc + (if mi.ext.isSome then 16 else 8)) % 2 ^ 44, chosen := chosen, exec := exec }
        if s.undefinedAt u pc then s.issueUndefined u k pc chosen mi.stall.toNat forced
        else if exec ≠ 0 && (bad || illegal sh g.alloc mi) then s.threadFault u k 3 exec pc 0
        else if exec ≠ 0 && (s.pendingHits sh mi u k exec || !ready i) then s
        else
          let s := s.bookIssue i (s.readyLanes u k mi.stall.toNat) forced
          (if exec = 0 then s else f i (s.delivery sh mi i)).afterStep u k g.step

/-- The effect of an operation on registers alone: each executing lane's result and flags (R95, R220) from its own operands. -/
def writeResults (s : State) (sh : Shape) (mi : Mi) (i : Iss) (f : Grp → Nat → Nat × Nat) : State :=
  let g := s.grp i.u i.k
  let fl := (lanesOf i.exec).foldl (fun a l => a ||| (f g l).2) 0
  let s := s.setGrp i.u i.k (g.writeAll sh mi i.exec (fun l => (f g l).1))
  if g.cmd = 0 then s else s.addFlags g.part g.stream g.cmd fl

/-- An instruction that computes each lane's result from its operands a, b and c. -/
def alu (s : State) (sh : Shape) (mi : Mi) (bad : Bool) (f : Nat → Nat → Nat → Nat × Nat) : State :=
  s.issue sh mi bad (fun _ => true) (fun i s =>
    s.writeResults sh mi i (fun g l => let t := g.thr l; f (opA sh mi g t) (opB sh mi g t) (opC sh mi g t)))

end State

end Sys2Proof.Machine
end

