-- ==== Sys2Proof/Machine/Control.lean ====
section
/-! DEFINITION. The CONTROL family (R171, R175, R195, R209 to R211), the group barrier (R181 to R183) and BARRIER_STALL. -/

namespace Sys2Proof.Machine

/-! ### Barriers (R181) -/

/-- The threads of a group that have ended, as a mask. -/
def Grp.ended (g : Grp) : Nat := (List.range 32).foldl (fun a l => if (g.thr l).alive then a else a + 2 ^ l) 0

/-- The threads of a group that are alive, as a mask. -/
def Grp.aliveMask (g : Grp) : Nat := 0xFFFFFFFF - g.ended

/-- Every arrived thread released once every thread of the instance's mask has arrived or ended. -/
def Grp.checkBar (g : Grp) : Grp :=
  match g.bar with
  | none => g
  | some b =>
    if b.mask &&& (0xFFFFFFFF ^^^ ((b.arrived ||| g.ended) % 2 ^ 32)) = 0 then
      let g := (lanesOf b.arrived).foldl (fun g l => g.modThr l (fun t => { t with atBar := false })) g
      { g with bar := none }
    else g

namespace State

/-- A group whose threads have all ended ends: its slot is free and its team has one group less (R171). -/
def endGroup (s : State) (u k : Nat) : State :=
  let s := (s.setGrp u k {}).retire u k
  if u < 128 then (s.modTeam (u / 4) (fun t => { t with live := t.live - 1 })).checkTeam (u / 4) else s

/-! ### The mask stack of housekeeping units (R175) -/

end State

/-- Pops entries until one with threads: the stack left, and the mask and target popped. -/
def popStack : List (Nat × Nat) → Option (Nat × Nat × List (Nat × Nat))
  | [] => none
  | (pc, m) :: l => if m = 0 then popStack l else some (pc, m, l)

namespace State

/-- join on a housekeeping unit (R175, R176): pops the top entry, passing empty masks; an empty stack is a MASK_STACK fault. -/
def hkuJoin (s : State) (u k pc mask : Nat) : State :=
  let g := s.grp u k
  match popStack g.stack with
  | none => s.threadFault u k 0x0A mask pc 0
  | some (target, m, rest) =>
    let g := { g with stack := rest, active := m }
    s.setGrp u k ((lanesOf m).foldl (fun g l => g.modThr l (fun t => { t with pc := target })) g)

/-- A signed count of 8-byte words from a PA (R209). -/
def branchTarget (pc w off : Nat) : Nat := (((pc : Int) + 8 * toSigned w off) % 2 ^ 44).toNat

/-- The executing threads continue at a PA. -/
def setPcs (s : State) (i : Iss) (mask target : Nat) : State :=
  s.setGrp i.u i.k ((lanesOf mask).foldl (fun g l => g.modThr l (fun t => { t with pc := target })) (s.grp i.u i.k))

end State

/-- The branch offset of an instruction: SRC_C, SRC_B, SRC_A from the high bits down (R209). -/
def branchOff (mi : Mi) : Nat := mi.a.toNat + mi.b.toNat * 256 + mi.c.toNat * 65536

/-- On a housekeeping unit a branch whose guard differs among the active threads is a DIVERGE fault (R176, R210). -/
def State.divergent (_s : State) (i : Iss) : Bool := decide (128 ≤ i.u) && i.exec != i.chosen

/-- nop (R209). -/
def execNopInstruction (mi : Mi) (s : State) : Out := .next (s.issue {} mi false (fun _ => true) (fun _ s => s))

/-- bra (R209, R210). -/
def execBra (mi : Mi) (s : State) : Out :=
  .next (s.issue {} mi false (fun _ => true) (fun i s =>
    if s.divergent i then s.threadFault i.u i.k 0x0C i.chosen i.pc 0
    else s.setPcs i i.exec (State.branchTarget i.pc 24 (branchOff mi))))

/-- brx (R209, R210): every executing thread's target must be a multiple of 8. -/
def execBrx (mi : Mi) (s : State) : Out :=
  let sh := shapeBrx
  .next (s.issue sh mi false (fun _ => true) (fun i s =>
    let g := s.grp i.u i.k
    let target (l : Nat) : Nat := opA sh mi g (g.thr l)
    let bad := (lanesOf i.exec).foldl (fun a l => if target l % 8 = 0 then a else a + 2 ^ l) 0
    let differ := (lanesOf i.exec).any (fun l => target l != target (lowLane i.exec))
    if decide (128 ≤ i.u) && (s.divergent i || differ) then s.threadFault i.u i.k 0x0C i.chosen i.pc 0
    else if bad ≠ 0 then s.threadFault i.u i.k 2 bad i.pc (target (lowLane bad))
    else s.setGrp i.u i.k ((lanesOf i.exec).foldl (fun g l => g.modThr l (fun t => { t with pc := target l % 2 ^ 44 })) g)))

/-- call (R209): writes PA + 8 to the pair. -/
def execCall (mi : Mi) (s : State) : Out :=
  let sh := shapeCall
  .next (s.issue sh mi false (fun _ => true) (fun i s =>
    if s.divergent i then s.threadFault i.u i.k 0x0C i.chosen i.pc 0
    else (s.writeResults sh mi i (fun _ _ => (i.pc + 8, 0))).setPcs i i.exec (State.branchTarget i.pc 24 (branchOff mi))))

/-- exit (R171, R175, R181): the executing threads end; a barrier that waited for them alone completes; the group ends with its
last thread. -/
def execExit (mi : Mi) (s : State) : Out :=
  .next (s.issue {} mi false (fun _ => true) (fun i s =>
    let g := s.grp i.u i.k
    let g := (lanesOf i.exec).foldl (fun g l => g.modThr l (fun t => { t with alive := false })) g
    let keep := 0xFFFFFFFF ^^^ (i.exec % 2 ^ 32)
    let g := ({ g with active := g.active &&& keep, stack := g.stack.map (fun e => (e.1, e.2 &&& keep)) } : Grp).checkBar
    let s := s.setGrp i.u i.k g
    if g.aliveMask = 0 then s.endGroup i.u i.k
    else if 128 ≤ i.u ∧ g.active = 0 then s.hkuJoin i.u i.k i.pc i.exec else s))

/-- div (R175, R176, R209). -/
def execDiv (mi : Mi) (s : State) : Out :=
  .next (s.issue shapeDiv mi false (fun _ => true) (fun i s =>
    if i.u < 128 then s else
    let g := s.grp i.u i.k
    let e := (mi.ext.map BitVec.toNat).getD 0
    let lElse := State.branchTarget i.pc 32 (bits e 0 32)
    let lJoin := State.branchTarget i.pc 32 (bits e 32 32)
    let p := (lanesOf g.active).foldl (fun a l => if (g.thr l).getP (modf mi 52 3) != bit mi.mod.toNat 3 then a + 2 ^ l else a) 0
    if 14 < g.stack.length then s.threadFault i.u i.k 0x0A i.exec i.pc 0 else
    let g' := { g with stack := (lElse, g.active &&& (0xFFFFFFFF ^^^ p)) :: (lJoin, g.active) :: g.stack, active := g.active &&& p }
    let s := s.setGrp i.u i.k g'
    if g'.active = 0 then s.hkuJoin i.u i.k i.pc i.exec else s))

/-- join (R175, R176). -/
def execJoin (mi : Mi) (s : State) : Out :=
  .next (s.issue {} mi false (fun _ => true) (fun i s => if i.u < 128 then s else s.hkuJoin i.u i.k i.pc i.exec))

/-- brk (R195): with debug halting enabled it halts before it executes, unless the group was just resumed or steps; else nothing. -/
def execBrk (mi : Mi) (s : State) : Out :=
  let u := mi.unit.val
  let k := mi.slot.val
  let g := s.grp u k
  let halts := s.dbgEnabled u && !g.pass && !g.step && s.mayIssue u k && s.slotTurn u k mi.busy.toNat && (match s.choose u k mi.stall.toNat with
    | some (pc, chosen, _) => s.fetchFaultAt u pc mi.ext.isSome == none && !s.undefinedAt u pc && !illegal {} g.alloc mi && g.guarded chosen mi.pred.toNat mi.pneg != 0
    | none => false)
  if halts then .next (s.debugHalt u (some k) 1 0) else .next (s.issue {} mi false (fun _ => true) (fun _ s => s))

/-- tfence (R209, R211): issues once every tile instruction of the group has completed. -/
def execTfence (mi : Mi) (s : State) : Out :=
  .next (s.issue {} mi false (fun i => (s.grp i.u i.k).tiles == 0) (fun _ s => s))

/-- vfence (R209, R211). -/
def execVfence (mi : Mi) (s : State) : Out :=
  .next (s.issue {} mi false (fun i => (s.grp i.u i.k).vecs == 0) (fun _ s => s))

/-- gbar (R181, R183, R227): the executing threads arrive in ascending lane order; a mask unlike the instance's is counted. On a
housekeeping unit the mask must be the active mask, a fault at once, and the barrier completes once the group's earlier memory operations
have. -/
def execGbar (mi : Mi) (s : State) : Out :=
  let sh := shapeGbar
  let wrong (s : State) (i : Iss) : Nat :=
    let g := s.grp i.u i.k
    (lanesOf i.exec).foldl (fun a l => if opA sh mi g (g.thr l) = g.active then a else a + 2 ^ l) 0
  .next (s.issue sh mi (decide (4 < memScope mi))
    (fun i => decide (i.u < 128) || wrong s i != 0 || s.busyLanes i.u i.k (fun _ => true) == 0) (fun i s =>
    let g := s.grp i.u i.k
    if 128 ≤ i.u then (if wrong s i ≠ 0 then s.threadFault i.u i.k 0x0B (wrong s i) i.pc 0 else s)
    else
      let (g, mism) := (lanesOf i.exec).foldl (fun (st : Grp × Nat) l =>
        let m := opA sh mi st.1 (st.1.thr l)
        let g := st.1.modThr l (fun t => { t with atBar := true })
        match g.bar with
        | none => ({ g with bar := some { mask := m, arrived := 2 ^ l, opened := s.cycle (i.u / 4), pc := i.pc } }, st.2)
        | some b => ({ g with bar := some { b with arrived := b.arrived ||| 2 ^ l } }, st.2 + (if b.mask = m then 0 else 1))) (g, 0)
      (s.setGrp i.u i.k g.checkBar).bumpUnit i.u 0x148 mism))

/-- BARRIER_STALL (R182): the open instance of a compute unit's group is older than 2^GBAR_LOG2 island cycles and the unit is not
halted: a BARRIER_STALL fault of the threads that wait in it (notes/assumptions/17.md). -/
def execBarrierStall (u : Fin 128) (k : Fin 32) (s : State) : Out :=
  let g := s.grp u.val k.val
  match g.bar with
  | none => .next s
  | some b =>
    let limit := 2 ^ bits (s.reg (State.unitReg u.val 0x14)) 0 5
    if !g.live || g.faulted || s.groupHalted u.val k.val || (s.unit u.val).stopped || s.cycle (u.val / 4) < b.opened + limit then .next s
    else
      .next (s.threadFault u.val k.val 7 b.arrived b.pc 0)

end Sys2Proof.Machine
end

