-- ==== Sys2Proof/Machine/Catalogue.lean ====
section
/-! DEFINITION. The Plynber catalogue (R60 to R65, R474): its records, in ascending type, and its header. -/

namespace Sys2Proof.Machine

/-- A catalogue record (R62): type, instance, flags (bit 0 DISABLED, bit 1 DEGRADED) and the bytes after its header. -/
def catRecord (type inst flags : Nat) (body : List Byte) : List Byte :=
  leBytes 8 (type + (body.length + 8) * 2 ^ 16 + inst * 2 ^ 32 + flags * 2 ^ 48) ++ body

/-- A list with an element inserted before the first that `le` puts after it. -/
def insertBy {α : Type} (le : α → α → Bool) (x : α) : List α → List α
  | [] => [x]
  | y :: l => if le x y then x :: y :: l else y :: insertBy le x l

/-- A list in ascending order. -/
def sortBy {α : Type} (le : α → α → Bool) (l : List α) : List α := l.foldr (insertBy le) []

/-- The OPERATION that progress block `n` serves, and its partition (notes/assumptions/31.md). -/
def progServes (n : Nat) : Nat × Nat :=
  if n = 0 then (1, 0xFF) else if n = 1 then (2, 0xFF) else if n < 16 then (7, 0xFF) else
  let p := (n - 16) / 16
  ((match (n - 16) % 16 with
    | 0 | 1 | 2 => 3
    | 3 | 4 => 4
    | 5 => 5
    | _ => 6), p)

namespace State

/-- The physical site mapped out in the west half: the failing one, else the swing site (R29). -/
def westOut : Nat := if Config.westFailed then Config.westSite.val else 8
/-- The physical site mapped out in the east half. -/
def eastOut : Nat := 17 + (if Config.eastFailed then Config.eastSite.val else 8)

/-- The physical sites of the logical clusters (R29, R30). -/
def clusterSites : List Nat := (List.range 34).filter (fun x => x != westOut && x != eastOut)

/-- Flags, lanes and role of a Griwald port's record (R64, R474). -/
def glpRecord (s : State) (g : Nat) : List Byte :=
  let x := s.port g
  let n := if x.state = 3 then laneCount x.lanes else 0
  let disabled := s.torus (g / 2) == 1 || (x.state == 4 && x.cause == 0x0B)
  let degraded := x.state == 3 && decide (n < 12)
  catRecord 6 g (b2n disabled + b2n degraded * 2) (leBytes 8 ((if disabled then 0 else n) * 256))

/-- The record of an Ethernet port. -/
def ethRecord (s : State) (n : Nat) : List Byte :=
  catRecord 6 (0x10 + n) (b2n (s.cfg (0x100 + 64 * n) 49 1 == 0)) (leBytes 8 ((if (s.eth.get {} n).up then 2 else 0) * 256))

/-- What stage 6 recorded of a PCIe/CXL port: the links trained, and whether they came up short (R474). -/
def trainedAt (s : State) (n : Nat) : Nat × Bool := (s.dome.boot.trained[n]?).getD (0, false)

/-- Whether a PCIe/CXL port is DISABLED (R474): no link of it trained in stage 6. -/
def pcxDisabled (s : State) (n : Nat) : Bool := (s.trainedAt n).1 == 0

/-- The record of a PCIe/CXL port. Its bifurcation count, bits [15:13], is given for a PCIe root only as 1, 2 or 4; for a CXL port they read 0
(DESIGN CHOICE, notes/assumptions/101.md). -/
def pcxRecord (s : State) (n : Nat) : List Byte :=
  let v := s.reg (home .pcx n 0x10)
  let links := if s.pcxRole n = 2 then s.pcxLinks n else 1
  let off := s.pcxDisabled n
  let degraded := !off && (s.trainedAt n).2
  catRecord 6 (0x20 + n) (b2n off + b2n degraded * 2)
    (leBytes 8 (s.pcxRole n + (if off then 0 else bits v 3 5) * 256 + (if s.pcxRole n = 2 then links else 0) * 2 ^ 13))

/-- The record of a partition. -/
def partRecord (s : State) (p : Nat) : List Byte :=
  let mask (l : List Nat) : Nat := l.foldl (fun a i => a + 2 ^ i) 0
  let mine := (List.range 12).filter (fun st => s.partOfStack st == p)
  let cxl := (List.range 4).filter (fun n => s.pcxRole n == 1 && s.cxlPart n == p)
  let (b, n) := s.hbmRange p
  catRecord 8 p 0 (leBytes 8 (mask (s.regionsOf p) + mask mine * 2 ^ 4 + mask cxl * 2 ^ 16) ++ leBytes 8 b ++ leBytes 8 n)

/-! ### The register blocks (R47, R48) -/

/-- The register blocks of the package, as kind, instance, partition (0xFF package-wide) and pages, in the order of R63: a block that holds state
for more than one partition once for each. A HUB block may stand beside them: the spec gives it no register. The catalogue itself, whose page is
fixed (R47) and which holds no BLK_ID (R61), has no record (DESIGN CHOICE, notes/assumptions/119.md). -/
def blockList (s : State) : List (Kind × Nat × Nat × Nat) :=
  let ps := List.range s.nParts
  let own (k : Kind) (n pages : Nat) (part : Nat → Nat) : List (Kind × Nat × Nat × Nat) := (List.range n).map (fun i => (k, i, part i, pages))
  let each (k : Kind) (n : Nat) : List (Kind × Nat × Nat × Nat) := ((List.range n).map (fun i => ps.map (fun p => (k, i, p, 1)))).flatten
  own .unit 128 1 (fun i => s.partOfCluster (i / 4)) ++ own .arr 32 1 s.partOfCluster ++ own .vec 32 1 s.partOfCluster
  ++ own .cmem 32 1 s.partOfCluster ++ each .slc 192 ++ own .hbm 12 1 s.partOfStack ++ own .xfe 16 1 (fun i => s.partOfRegion (i / 4))
  ++ own .ctr 4 2 s.partOfRegion ++ own .fen 4 2 s.partOfRegion ++ own .str s.nParts 1 id ++ own .obj s.nParts 17 id ++ own .prt s.nParts 1 id
  ++ each .glp 8 ++ each .xch 4 ++ own .snp s.nParts 1 id ++ each .eth 4 ++ each .pcx 4 ++ own .hku 4 1 (fun _ => 0xFF)
  ++ own .dom s.nParts 1 id ++ own .bol s.nParts 1 id ++ own .id s.nParts 1 id
  ++ own .prog 3 1 (fun _ => 0xFF) ++ (ps.map (fun p => (List.range 7).map (fun k => (Kind.prog, 16 + 16 * p + k, p, 1)))).flatten

/-- Whether a block lies where R47 puts it: package-wide ones above the catalogue, those of a partition in its 4 GiB. -/
def blockPlaced (s : State) (b : Block) : Bool :=
  let lo := if b.part = 0xFF then 0xF0000100000 else 0xF1000000000 + b.part * 0x100000000
  let hi := if b.part = 0xFF then 0xF1000000000 else lo + 0x100000000
  b.base % 65536 == 0 && b.pages != 0 && decide (b.part = 0xFF || b.part < s.nParts) && decide (lo ≤ b.base)
    && decide (b.base + b.pages * 65536 ≤ hi)

/-- Whether firmware's places of the register blocks are those of the package, each in its range. -/
def blocksPlaced (s : State) (l : List Block) : Bool :=
  ((l.filter (fun b => b.kind != .hub)).map (fun b => (b.kind, b.inst, b.part, b.pages))) == s.blockList && l.all s.blockPlaced

/-- The records of the catalogue (R63, R64). -/
def catRecords (s : State) : List (List Byte) :=
  let text : List Byte := [0x45, 0x4D, 0x58, 0x2D, 0x48, 0x54, 0x50, 0x34]
  let key (b : Block) : Nat := (b.kind.code * 256 + b.inst) * 256 + b.part
  let regs := sortBy (fun a b => decide (key a ≤ key b)) (s.blocks.filter (fun b => b.kind != .prog))
  let progs := sortBy (fun (a b : Block) => decide (a.inst ≤ b.inst)) (s.blocks.filter (fun b => b.kind == .prog))
  let r := s.dome.boot.running
  [catRecord 1 0 0 (text ++ leBytes 4 (Config.stepping.toNat + s.pkg.layout * 2 ^ 8 + s.pkg.feed * 2 ^ 16)
      ++ leBytes 4 (s.self + s.pkg.sizes * 2 ^ 16) ++ leBytes 8 Config.serial.toNat),
   catRecord 2 0 0 (leBytes 4 r.fwVersion ++ leBytes 4 r.cfgVersion)]
  ++ regs.map (fun b => catRecord 3 b.inst 0 (leBytes 4 (b.kind.code + b.part * 2 ^ 8 + 2 ^ 16) ++ leBytes 4 b.pages ++ leBytes 8 b.base))
  ++ [catRecord 4 0 0 ((clusterSites.map (fun x => BitVec.ofNat 8 x))
      ++ leBytes 8 (westOut + eastOut * 2 ^ 8 + b2n Config.westFailed * 2 ^ 16 + b2n Config.eastFailed * 2 ^ 17))]
  ++ (List.range 12).map (fun i => catRecord 5 i 0 (leBytes 8 0 ++ leBytes 8 0xC00000000))
  ++ ((List.range 4).filter (fun n => s.pcxRole n == 1)).map (fun n =>
      catRecord 5 (0x100 + n) 0 (leBytes 8 (0x10000000000 + n * 0x20000000000) ++ leBytes 8 (s.reg (home .pcx n 0x18) / 65536 * 65536)))
  ++ (List.range 8).map s.glpRecord ++ (List.range 4).map s.ethRecord
  ++ (List.range 4).map s.pcxRecord
  ++ progs.map (fun b => let (o, p) := progServes b.inst; catRecord 7 b.inst 0 (leBytes 8 (o + p * 2 ^ 8) ++ leBytes 8 b.base))
  ++ (List.range s.nParts).map s.partRecord
  ++ [catRecord 9 0 0 ((([4096, 1024, 65535, 1024, 64, 0] : List Nat).map (leBytes 4)).flatten)]

/-- The catalogue published (R60, R61): its epoch advances. -/
def publish (s : State) : State :=
  let l := s.catRecords
  let body := l.flatten
  let e := s.dome.boot.epoch + 1
  let head := leBytes 4 0x4E594C50 ++ leBytes 4 (2 ^ 16) ++ leBytes 4 (0x20 + body.length) ++ leBytes 4 l.length ++ leBytes 4 1
    ++ leBytes 4 (crc32 body) ++ leBytes 8 e
  { s with cat := head ++ body, dome := { s.dome with boot := { s.dome.boot with epoch := e } } }

end State

end Sys2Proof.Machine
end

