-- ==== Sys2Proof/Machine/Image.lean ====
section
/-! DEFINITION. The boot flash image (R463 to R469): its header, its sections, the configuration body and the checks of stage 1. -/

namespace Sys2Proof.Machine

/-- A byte of the boot flash; an erased byte reads 0xFF. -/
def flashByte (m : SMap Byte) (a : Nat) : Byte := m.get 0xFF a

/-- `n` bytes of the flash from an offset. -/
def flashBytes (m : SMap Byte) (a n : Nat) : List Byte := (List.range n).map (fun i => flashByte m (a + i))

/-- The number in `n` bytes of the flash. -/
def flashNat (m : SMap Byte) (a n : Nat) : Nat := ofLeBytes (flashBytes m a n)

/-! ### The configuration body (R466, R467, R469 check 7) -/

/-- The defined bits of the 32-bit word of the body at an offset; every other bit is reserved (R466). -/
def bodyDefined (o : Nat) : Nat :=
  if o = 0 then 0x1F3 else if o = 4 || o = 8 then 0xFFFFFF else if o = 0xC then 0xFFFFFFFF
  else if o = 0x10 then 0x3FFFFFF else if o = 0x14 then 0x373FF
  else if 0x20 ≤ o ∧ o < 0x30 then 0x0FFFFFFF
  else if 0x40 ≤ o ∧ o < 0xE0 then (if o % 8 = 0 then 0xFFFF7FFF else 0x7F7F)
  else if 0x100 ≤ o ∧ o < 0x200 then
    let r := o % 64
    if r = 0 || r = 4 || r = 0x10 || (0x20 ≤ r && r < 0x30) then 0xFFFFFFFF
    else if r = 8 then 0x03FF073F else if r = 12 then 0x07FF07FF else 0
  else if 0x200 ≤ o ∧ o < 0xA00 then
    let r := o % 128
    if r = 0 then 0xFFFF000F else if 0x10 ≤ r then 0xFFFFFFFF else 0
  else 0

/-- A name of at most 96 ASCII bytes, zero-padded (R466). -/
def nqnOk (l : List Byte) : Bool :=
  l.all (fun b => decide (b.toNat < 128)) && (l.dropWhile (fun b => b != 0)).all (fun b => b == 0)

/-- Whether the fields of the word of the body at an offset obey R466, R467 and R469. `w` reads a word of the body. -/
def bodyWordOk (body : List Byte) (o : Nat) : Bool :=
  let w (a : Nat) : Nat := State.rec32 body a
  let layout := bits (w 0) 0 2
  let n := 2 ^ layout
  let v := w o
  let role (i : Nat) : Nat := bits (w 8) (2 * i) 2
  let split (i : Nat) : Nat := bits (w 8) (2 * i + 8) 2
  let four := List.range 4
  (v &&& bodyDefined o == v) &&
  (if o = 0 then layout != 3
  else if o = 4 then four.all (fun d => decide (1 ≤ bits v (4 * d) 4 ∧ bits v (4 * d) 4 ≤ 8))
  else if o = 8 then four.all (fun i => (role i == 1 || role i == 2) && split i != 3
      && (n == 1 || role i != 1 || decide (bits v (2 * i + 16) 2 < n)))
  else if o = 0xC then four.all (fun i => n == 1 || role i != 2
      || four.all (fun l => decide (bits v (8 * i + 2 * l) 2 < n)))
  else if o = 0x10 then decide (1 ≤ bits v 0 16) && decide (bits v 16 10 ≤ 1000)
  else if o = 0x14 then decide (360 ≤ bits v 0 10 ∧ bits v 0 10 ≤ 460) && decide (bits v 16 2 < 3) && bit v (12 + bits v 16 2)
  else if 0x20 ≤ o ∧ o < 0x30 then decide (n ≤ (o - 0x20) / 4) || decide (v ≤ 0x9000000000 / n / 65536)
  else if 0x40 ≤ o ∧ o < 0xE0 then
    let b := o / 8 * 8
    let e := State.rec64 body b
    let first := 0x40 + (b - 0x40) / 32 * 32
    let floors := (List.range ((b - first) / 8 + 1)).foldl (fun a i => a + bits (State.rec64 body (first + 8 * i)) 8 7) 0
    if o % 8 = 0 then decide (1 ≤ bits e 0 8) && decide (bits e 16 8 ≤ bits e 0 8) && decide (bits e 0 8 ≤ bits e 24 8)
      && decide (bits e 32 7 ≤ bits e 8 7) && decide (bits e 8 7 ≤ bits e 40 7) && decide (floors ≤ 100)
    else true
  else if 0x200 ≤ o ∧ o < 0xA00 ∧ o % 128 = 0x20 then nqnOk ((body.drop o).take 96)
  else true)

/-- The body offset of the first failing field (R469 check 7, R477). -/
def bodyFault (body : List Byte) : Option Nat := ((List.range 0x400).map (· * 4)).find? (fun o => !bodyWordOk body o)

/-! ### Sections (R465) -/

/-- A section of an image: header, body, digest and signature, by its offset and length. -/
structure Section where
  magic : Nat
  bodyLength : Nat
  svn : Nat
  body : List Byte
  digest : List Byte
  good : Bool
  signature : List Byte
  deriving DecidableEq, Repr

/-- The section at an offset: `good` says that its digest matches the header and body, and that its lengths fit. -/
def sectionAt (m : SMap Byte) (off len : Nat) : Section :=
  let n := flashNat m (off + 4) 4
  let digest := flashBytes m (off + 64 + n) 64
  let fits := n % 64 == 0 && n + 192 == len
  { magic := flashNat m off 4, bodyLength := n, svn := flashNat m (off + 8) 4, body := flashBytes m (off + 64) n, digest := digest,
    good := fits && sha512 (flashBytes m off (64 + n)) == digest, signature := flashBytes m (off + 128 + n) 64 }

/-- Whether a section has its magic, its digest and a signature of a key over the digest. -/
def sectionOk (x : Section) (magic key : Nat) : Bool := x.magic == magic && x.good && edVerify key x.digest x.signature

/-- Whether the offsets and lengths of an image obey R464 within a flash of `size` bytes. -/
def layoutOk (m : SMap Byte) (size : Nat) : Bool :=
  let co := flashNat m 0x08 4
  let cl := flashNat m 0x0C 4
  let fo := flashNat m 0x10 4
  let fl := flashNat m 0x14 4
  co % 4096 == 0 && fo % 4096 == 0 && decide (4096 ≤ co) && decide (4096 ≤ fo) && cl == 0x10C0 && decide (cl + fl ≤ 0x800000)
    && decide (co + cl ≤ size) && decide (fo + fl ≤ size) && !State.rangesMeet co cl fo fl

/-- The owner key: that of the ACTIVE slot (R525). -/
def ownerKey (f : Fuses) : Option Nat := (f.states.findIdx? (· == 1)).map (fun i => (f.keys[i]?).getD 0)

/-- Checks 3 to 7 of R469 on an image: the first failing check as cause and detail (R477), or what the image holds. -/
def imageSections (m : SMap Byte) (f : Fuses) : Except (Nat × Nat) Running :=
  let fw := sectionAt m (flashNat m 0x10 4) (flashNat m 0x14 4)
  let cfg := sectionAt m (flashNat m 0x08 4) (flashNat m 0x0C 4)
  if !sectionOk fw 0x574D5246 (Config.vendorKey.toNat) then .error (3, 0)
  else if fw.svn < f.svnMin then .error (4, f.svnMin)
  else match ownerKey f with
    | none => .error (5, 0)
    | some k =>
      if !sectionOk cfg 0x47464E43 k then .error (6, 0)
      else match bodyFault cfg.body with
        | some o => .error (7, o)
        | none => .ok { fwVersion := flashNat m 0x1C 4, cfgVersion := flashNat m 0x18 4, svn := fw.svn, cfg := cfg.body, fwDigest := fw.digest,
                        cfgDigest := cfg.digest }

/-- The checks of stage 1 in order (R469), on a flash with a valid SFDP table of the given size, if it has one. `begun`: a write was recorded
as begun and not ended (R477). -/
def imageCheck (m : SMap Byte) (size : Option Nat) (f : Fuses) (begun : Bool) : Except (Nat × Nat) Running :=
  let none_ : Nat × Nat := (if begun then 0x0C else 1, 0)
  match size with
  | none => .error none_
  | some n =>
    if flashNat m 0 4 ≠ 0x34505448 || crc32 (flashBytes m 0 0x3C) ≠ flashNat m 0x3C 4 || flashNat m 6 2 ≠ 1 then .error none_
    else if !layoutOk m n then .error (2, 0)
    else imageSections m f

end Sys2Proof.Machine
end

