-- ==== Sys2Proof/Machine/Start.lean ====
section
/-! DEFINITION. Start-up (R461 to R481), image updates and recovery, and the errors and pins that begin a reset (R36, R536 to R540). -/

namespace Sys2Proof.Machine

namespace State

/-- The boot state changed. -/
def setBoot (s : State) (b : Boot) : State := { s with dome := { s.dome with boot := b } }

/-- RECOVERY powers Ethernet port 0 and its domain only (R481): VR_OFF_N is released, and its two rails come up in their order. -/
def recoveryPower (s : State) : State := ((s.setVrOff false).enableRails recoveryRails).setDomain 56 true

/-- Start-up stops with a cause (R477, R478): every domain is off and the Dome is in RECOVERY, where it powers Ethernet port 0. A self-test
under way has FAILED with it (R12). The code that the progress blocks then show is not stated. -/
def stopStart (s : State) (cause detail : Nat) : State :=
  let b := s.dome.boot
  let s := (s.endSelfTest.powerLost.disableRails recoveryRails).setBoot { b with state := 2, cause := cause, detail := detail, replies := [] }
  let (x, s) := s.recoveryPower.draw
  s.progress 0 4 1 (x % 65536) (b.stage - 1) 8

/-- The next stage begins. -/
def nextStage (s : State) (n : Nat) : State := (s.setBoot { s.dome.boot with stage := n }).stageProgress 2 (n - 1)

/-- What the configuration body sets as soon as stage 1 has verified it (R466): the layout, the torus, this device's coordinates where they are
known (R368, R473), the port registers, the supply threshold and the power mode (R488). -/
def configure (s : State) : State :=
  let sizes := s.cfg 4 0 16
  let known := s.cfg 0 8 1 == 1 || sizes == 0x1111
  let pkg : Pkg := { s.pkg with layout := s.cfg 0 0 2, sizes := sizes, anchor := s.cfg 0 8 1 == 1, feed := s.cfg 4 16 8,
                                device := if known then some 0 else none }
  let s := { s with pkg := pkg, dome := { s.dome with mode := s.cfg 0x14 16 2, newMode := none } }
  let s := (List.range 8).foldl (fun s g => s.setReg (home .glp g 0x24) (s.cfg 0x10 0 16 + 20 * 2 ^ 16)) s
  let s := (List.range 4).foldl (fun s n =>
    let o := 0x100 + 64 * n
    ((s.setReg (home .eth n 0x18) (s.cfg o 0 48)).setReg (home .eth n 0x20) (s.cfg (o + 8) 16 10 + s.cfg (o + 12) 0 11 * 2 ^ 10
      + s.cfg (o + 12) 16 11 * 2 ^ 21)).setReg (home .pcx n 0x10) (s.pcxRole n)) s
  let s := s.setReg (home .dom 0 0x1C) (bits (s.reg (home .dom 0 0x1C)) 0 16 + s.cfg 0x14 0 10 * 2 ^ 16)
  s.showMode

/-- The Dome's watchdogs of the housekeeping units start (R36, R477). -/
def startWatchdogs (s : State) : State := (List.range 4).foldl (fun s h => s.kick (128 + h)) s

/-- The firmware of the four housekeeping units starts (R468): one group each, at the entries found (R175). -/
def startHku (s : State) (entries : List Nat) : State :=
  (List.range 4).foldl (fun s h =>
    let pc := (entries[h]?).getD 0
    s.setGrp (128 + h) 0 { live := true, alloc := 256, groups := 1, active := 0xFFFFFFFF,
                           threads := (List.range 32).map (fun l => (l, { alive := true, pc := pc })) }) s

/-- The links of a PCIe/CXL port that stage 6 trained, and whether they came up short: narrower than 16 lanes together, or below 64 GT/s (R456,
R474). A CXL port trains its one link where it has a Type 3 device. -/
def trainedLinks (s : State) (w : StartWork) (n : Nat) : Nat × Bool :=
  let cxl := s.pcxRole n = 1
  let mask := if cxl then b2n (at4 w.capacity n != 0) else bits (at4 w.links n) 0 (s.pcxLinks n)
  let lanes := total ((List.range 4).map (fun l => if mask.testBit l then at4 w.width (4 * n + l) % 32 else 0))
  (mask, decide (lanes < 16) || (w.slow[n]?).getD false)

/-- What the training of the ports found (R456, R457, R468, R474): status, capacities, enumerations; PERST_N of trained ports is released. -/
def portsTrained (s : State) (w : StartWork) : State :=
  let s := s.setBoot { s.dome.boot with trained := (List.range 4).map (s.trainedLinks w) }
  let s := (List.range 4).foldl (fun s n =>
    let mask := (s.trainedLinks w n).1
    let width := if mask = 0 then 0 else at4 w.width (4 * n) % 32
    let s := s.setReg (home .pcx n 0x10) (s.pcxRole n + b2n (mask != 0) * 4 + width * 8 + mask * 256)
    (s.setReg (home .pcx n 0x18) (if s.pcxRole n = 1 then at4 w.capacity n else 0)).drivePerst n mask 1) s
  let s := w.nvme.foldl (fun s e => s.setReg (home .pcx (e.1 % 4) 0x20) (e.2.2 % 65536 + e.2.1 % 4 * 65536)) s
  (List.range 4).foldl (fun s n =>
    if w.eth.testBit n && s.cfg (0x100 + 64 * n) 49 1 = 1 then s.setEth n { s.ethOf n with up := true } else s) s

/-- The partitions of the layout formed (R433, R472): those enabled by the body after a cold reset, later those not held disabled (R434), for
which nothing is queued. Each is announced to the others formed (R436 step 5). -/
def formAll (s : State) : State :=
  let ps := List.range s.nParts
  let off := ps.filter (fun p => if s.dome.boot.fresh then s.cfg 0 (4 + p) 1 == 0 else s.dome.disabled.contains p)
  let s := { s with dome := { s.dome with disabled := off, boot := { s.dome.boot with fresh := false } } }
  let s := ps.foldl (fun s p =>
    let s := (s.setReg (home .prt p 0x14) (s.cfg 0x10 16 10)).setReg (home .prt p 0x18) (s.cfg (0x20 + 4 * p) 0 28)
    (List.range 5).foldl (fun s r => s.setReg (shareReg p r) (s.cfg (0x40 + 8 * (4 * r + p)) 0 15)) s) s
  let s := ps.foldl (fun s p => if off.contains p then { s.setPrtState p 3 with rings := s.rings.set {} p {} } else s.form p) s
  (ps.filter (fun p => !off.contains p)).foldl (fun s p => s.postUp p 0x0204 0 p 0) s

/-- The domains after start-up (R482): clusters and region fabrics off, ports of no use off. -/
def settle (s : State) : State :=
  let s := (List.range 32).foldl State.clusterOff s
  let s := (List.range 4).foldl State.regionOff s
  let s := s.hbmDomains
  let s := (List.range 8).foldl (fun s g =>
    if s.torus (g / 2) == 1 || ((s.port g).state == 4 && (s.port g).cause == 0x0B) then s.setDomain (48 + g) false else s) s
  (List.range 4).foldl (fun s n =>
    let s := if s.cfg (0x100 + 64 * n) 49 1 = 0 && s.torus n == 1 then s.setDomain (56 + n) false else s
    if s.pcxDisabled n then s.setDomain (60 + n) false else s) s

/-- The package is ready (R473): the lock, the catalogue, the mailbox and management requests. -/
def ready (s : State) (w : StartWork) : State :=
  let s := s.settle
  let s := { s with blocks := w.blocks, pkg := { s.pkg with locked := true } }.publish
  let s := (s.setBoot { s.dome.boot with state := 1 }).stageProgress 3 8
  (List.range 4).foldl (fun s p => answerUnknown (s.mgmt.get [] p).length p s) s

/-- The 68 domains powered in stage 2 (R468, R535, R536): the cluster voltage of the mode of the body, the rails in their order, and the domains. -/
def powerUp (s : State) : State :=
  let s := ((s.setVolt (clusterMv s.dome.mode)).setClock (clusterMhz s.dome.mode)).enableRails railOrder
  (List.range 68).foldl (fun s d => s.setDomain d true) s

/-- Every HBM byte written to zero, with no slice line left (R468, R471); a line that an operation of a housekeeping unit holds stays, as zeros. -/
def zeroHbm (s : State) : State :=
  { s with
    mem := s.mem.dropIf (fun a => place a == .hbm)
    poison := s.poison.dropIf (fun k => place (k * 32) == .hbm)
    lines := (s.lines.dropIf (fun k => (s.line (k * 128)).lock.isNone)).map (fun e =>
      (e.1, { e.2 with data := List.replicate 128 0, dirty := 0, poison := 0 })) }

/-- The work of the stage under way has ended with what it found (R468 to R473). A mismatch leaves the SELF_TEST block at the vectors that matched
before it; the first stack whose training failed three times stops start-up. -/
def stageEnded (s : State) (w : StartWork) : State :=
  let b := s.dome.boot
  let vectors := s.reg (home .prog 1 0x10)
  match b.stage with
  | 1 =>
    if b.resetWaits || !b.refclk then s else
    match imageCheck s.flash w.flashBytes s.dome.fuses b.begun with
    | .error (c, d) => s.stopStart c d
    | .ok r => (((s.setBoot { b with running := r }).configure.nextStage 2).setVrOff false).startWatchdogs
  | 2 => ((s.powerUp.startHku w.hku).startWatchdogs.nextStage 3).progress 1 2 2 0 0 (32 * w.records)
  | 3 =>
    match w.mismatch with
    | some (c, r) =>
      ((s.setBoot { b with vector := r % 2 ^ 32 }).progress 1 2 2 0 (min (32 * w.records) vectors) vectors).stopStart 0x0A (c % 32)
    | none => (s.progress 1 3 2 0 vectors vectors).nextStage 4
  | 4 =>
    match w.fails.findIdx? (fun n => decide (3 ≤ n)) with
    | some k => s.stopStart 0x0B (k % 12)
    | none =>
      let s := (List.range 12).foldl (fun s k => s.setReg (home .hbm k 0x10) (putBits (s.reg (home .hbm k 0x10)) 0 1 1)) s.zeroHbm
      let s := (List.range 8).foldl (fun s g => if s.torus (g / 2) == 1 then s else s.setPort g { s.port g with state := 1 }) s
      s.nextStage 6
  | 6 => (s.portsTrained w).nextStage 7
  | 7 => s.formAll.nextStage 8
  | 8 => if s.pkg.device.isSome && s.blocksPlaced w.blocks then s.ready w else s
  | _ => s

/-- Whether start-up is under way. -/
def starting_ (s : State) : Bool := s.dome.boot.state == 0 && s.dome.boot.stage != 0 && !s.dome.boot.cooling

/-! ### Image updates (R479, R480, R495) -/

/-- Image bytes from offset `lo` programmed into the flash (R480): each 4 KiB sector is erased as its first byte comes, and nothing is written to
the header's sector. -/
def program (m : SMap Byte) (lo : Nat) (l : List Byte) : SMap Byte :=
  (l.zipIdx).foldl (fun m e =>
    let a := lo + e.2
    if a < 0x1000 then m else
    (if a % 0x1000 = 0 then m.dropIf (fun b => decide (a ≤ b ∧ b < a + 0x1000)) else m).set 0xFF a e.1) m

/-- The flash changed. -/
def setFlash (s : State) (m : SMap Byte) : State := { s with flash := m }

/-- An update begins (R480): the header sector is erased, and the write is recorded as begun. -/
def beginUpdate (s : State) (u : Update) : State :=
  let s := s.setFlash (s.flash.dropIf (fun a => decide (a < 0x1000)))
  let s := s.setBoot { s.dome.boot with update := some u, begun := true }
  s.progress 2 2 7 0 0 u.length

/-- How far the write of an update has come, with the flash as programmed so far: a recovery transfer has programmed what arrived; how much of an
image that PLDM brings is programmed at a moment is not stated (notes/assumptions/118.md). -/
def updateReach (s : State) (u : Update) : Nat × State :=
  match u.by_ with
  | .recovery => (u.data.length, s)
  | .pldm =>
    let (x, s) := s.draw
    let k := x % (u.length + 1)
    (k, s.setFlash (program s.flash 0 (u.data.take k)))

/-- A cold reset asked for is performed (R461, R499). -/
def coldStart (s : State) : State := (s.setVrOff true).coldReset.holdPerst.beginStart

/-- An update has ended: a reset that waited for it goes on (R480, R499). -/
def updateOver (s : State) : State :=
  let b := s.dome.boot
  let s := s.setBoot { b with update := none, resetWaits := false, coldWaits := false }
  if b.coldWaits then s.coldStart else if b.resetWaits then s.stageProgress 2 0 else s

/-- An update is stopped before its header is written (R480, R495): DONE is the part programmed, which the spec leaves open for a PLDM image
(notes/assumptions/118.md). -/
def tearUpdate (s : State) (code : Nat) : State :=
  match s.dome.boot.update with
  | none => s
  | some u =>
    let (k, s) := s.updateReach u
    (s.progress 2 4 7 code k u.length).updateOver

/-- The bytes of an image as they lie in the flash. -/
def imageMap (l : List Byte) (m : SMap Byte) : SMap Byte := (l.zipIdx).foldl (fun m e => m.set 0xFF e.2 e.1) m

/-- The sections are written and verified, and the header last if they pass (R480); in RECOVERY a success starts stage 1. Answers the cause
of R477, or 0. A write that ran to its end is no longer recorded as begun, whatever the checks found. -/
def finishUpdate (s : State) (u : Update) : State × Nat :=
  let new := imageMap u.data []
  let cause := if !layoutOk new u.data.length then 2 else match imageSections new s.dome.fuses with
    | .error (c, _) => c
    | .ok _ => 0
  let s := if u.by_ = .pldm then s.setFlash (program s.flash 0 u.data) else s
  let s := s.setBoot { s.dome.boot with begun := false }
  if cause ≠ 0 then ((s.progress 2 4 7 cause u.data.length u.length).updateOver, cause)
  else
    let s := ((s.setFlash (imageMap (u.data.take 0x1000) s.flash)).progress 2 3 7 0 u.length u.length).updateOver
    (if s.dome.boot.state = 2 then s.beginStart else s, 0)

/-! ### Recovery (R481) -/

/-- A recovery reply: kind, status, SEQ, a 32-bit and a 64-bit value. -/
def recoveryReply (kind status seq v32 v64 : Nat) : List Byte :=
  leBytes 1 (kind + 0x80) ++ leBytes 1 status ++ leBytes 2 seq ++ leBytes 4 v32 ++ leBytes 8 v64

/-- The addresses of Ethernet port 0 in RECOVERY (R481): the MAC, the link-local IPv6 address that derives from it (the MAC as a modified EUI-64
under fe80::/64, RFC 4291), and the UDP port. -/
def recoveryMac : Nat := 0x02 * 2 ^ 40 + Config.serial.toNat % 2 ^ 40
/-- The link-local IPv6 address of Ethernet port 0 in RECOVERY. -/
def recoveryIp : Nat :=
  0xFE80 * 2 ^ 112 + ((recoveryMac / 2 ^ 24 ^^^ 0x020000) * 2 ^ 40 + 0xFFFE * 2 ^ 24 + recoveryMac % 2 ^ 24)
/-- The UDP port of the recovery transfer. -/
def recoveryUdp : Nat := 4793

/-- A recovery message leaves Ethernet port 0 (R481): as the bytes of its source MAC, IPv6 address and UDP port, then the message. -/
def sendRecovery (s : State) (r : List Byte) : State :=
  s.emit (.frame 0 9 ((leBytes 6 recoveryMac).reverse ++ (leBytes 16 recoveryIp).reverse ++ (leBytes 2 recoveryUdp).reverse ++ r))

/-- A recovery request served in RECOVERY with `f`, which answers the status and the values of the reply; a repeated SEQ gets its earlier reply
(R481). With its domain off, after a trip, the port hears nothing. -/
def recovery (s : State) (kind seq : Nat) (f : State → State × Nat × Nat × Nat) : State :=
  let b := s.dome.boot
  if b.state ≠ 2 || !s.domOn 56 then s
  else match b.replies.find? (fun e => e.1 == seq) with
    | some e => s.sendRecovery e.2
    | none =>
      let (s, status, v32, v64) := f s
      let r := recoveryReply kind status seq v32 v64
      (s.setBoot { s.dome.boot with replies := (seq, r) :: s.dome.boot.replies }).sendRecovery r

/-- A status that the spec does not state, other than success. -/
def freeStatus (s : State) : State × Nat × Nat × Nat := let (x, s) := s.draw; (s, 1 + x % 255, 0, 0)

/-- BEGIN (R481): refused as BUSY while an update runs; one that meets a sag is refused with a status that the spec does not state. -/
def recoveryBegin (s : State) (len : Nat) : State × Nat × Nat × Nat :=
  if s.dome.boot.update.isSome then (s, 1, 0, 0)
  else if s.dome.sag then s.freeStatus
  else (s.beginUpdate { by_ := .recovery, length := len, data := [] }, 0, 0, 0)

/-- DATA (R481): the next bytes in ascending offset without gaps, else STATUS 2. -/
def recoveryData (s : State) (off : Nat) (data : List Byte) : State × Nat × Nat × Nat :=
  match s.dome.boot.update with
  | some u =>
    if u.by_ ≠ .recovery || off ≠ u.data.length || data.isEmpty || 1024 < data.length || u.length < off + data.length then (s, 2, 0, 0)
    else
      let s := s.setFlash (program s.flash off data)
      let u := { u with data := u.data ++ data }
      ((s.setBoot { s.dome.boot with update := some u }).progress 2 2 7 0 u.data.length u.length, 0, 0, 0)
  | none => (s, 2, 0, 0)

/-- END (R481): the checks run. -/
def recoveryEnd (s : State) : State × Nat × Nat × Nat :=
  match s.dome.boot.update with
  | some u =>
    if u.by_ ≠ .recovery then s.freeStatus else
    let (s, c) := s.finishUpdate u
    (s, c, 0, 0)
  | none => s.freeStatus

/-- A state after a command that may be performed on the way of another. -/
def thenDo (o : Out) (s : State) : State := match o with
  | .next t => t
  | _ => s

/-- REFCLK is lost (R539): every SerDes loses lock. -/
def refclkLost (s : State) : State :=
  let s := { s with dome := { s.dome with uncalibrated := true, boot := { s.dome.boot with refclk := false } } }
  let s := (List.range 8).foldl (fun s g => if 1 ≤ (s.port g).state && (s.port g).state ≤ 3 then s.portDown g 2 false else s) s
  (List.finRange 4).foldl (fun s n =>
    let s := thenDo (execEthLinkDown n s) s
    let s := thenDo (execCxlLinkDown n s) s
    (List.finRange 4).foldl (fun s l => thenDo (execPcieLinkDown n l s) s) s) s

end State

/-! ### The commands -/

/-- START_UP (R461, R534, R540): COLD_RST_N rises with VDD_DOME in regulation; the straps of the SMBus address are read. -/
def execStartUp (s : State) : Out :=
  .next (if s.dome.boot.stage = 0 && !s.dome.boot.cooling then
    { s with dome := { s.dome with smb := 0x68 + Config.smbStraps.toNat } }.beginStart else s)

/-- START_UP_STAGE_END (R468 to R473): the work of the stage under way has ended, with what it found. -/
def execStartUpStageEnd (w : StartWork) (s : State) : Out := .next (if s.starting_ then s.stageEnded w else s)

/-- STARTUP_PORT_TIMEOUT (R468): stage 6 ends with the ports that trained so far. -/
def execStartupPortTimeout (w : StartWork) (s : State) : Out :=
  .next (if s.starting_ && s.dome.boot.stage = 6 then s.stageEnded w else s)

/-- RAIL_REGULATION_TIMEOUT (R537): the regulator at a PMBus address in stage 2, the rails before it having come up. -/
def execRailRegulationTimeout (pmbus : BitVec 7) (s : State) : Out :=
  .next (if s.starting_ && s.dome.boot.stage = 2 then
    ((s.setVolt (clusterMv s.dome.mode)).enableRails ((railOrder.takeWhile (· != pmbus.toNat)) ++ [pmbus.toNat])).stopStart 8 pmbus.toNat
  else s)

/-- RAIL_FAULT (R537): a rail that is on. A Dome in RECOVERY leaves it only as R478 says: it records the reset and powers Ethernet port 0 again
(notes/assumptions/115.md). -/
def execRailFault (s : State) : Out :=
  .next (if s.dome.rails.isEmpty then s
    else if s.dome.boot.state = 2 then (((s.setVrOff true).powerLost).setLastReset 2).recoveryPower
    else (s.setVrOff true).warmReset 2)

/-- HKU_WATCHDOG_EXPIRY (R36, R477): 100 ms have passed since the watchdog last started; in stage 2 start-up stops with cause HKU, later the
package is reset. -/
def execHkuWatchdogExpiry (h : Fin 4) (s : State) : Out :=
  .next (if s.pkg.time < (s.unit (128 + h.val)).kickAt + 100000000 then s
    else if s.starting_ && s.dome.boot.stage = 2 then s.stopStart 9 h.val
    else if s.domOn (64 + h.val) then s.warmReset 1 else s)

/-- COLD_RST_N_LOW (R480, R540): held low for at least 1 ms; an image write under way is abandoned where it stands. -/
def execColdRstNLow (s : State) : Out :=
  let s := match s.dome.boot.update with
    | some u => (s.updateReach u).2
    | none => s
  .next (s.setVrOff true).coldReset.holdPerst

/-- REFCLK_LOSS (R539). -/
def execRefclkLoss (s : State) : Out := .next (if s.dome.boot.refclk then s.refclkLost else s)

/-- REFCLK_RETURN (R539): the links retrain under their own rules. -/
def execRefclkReturn (s : State) : Out := .next (s.setBoot { s.dome.boot with refclk := true })

/-- PLDM_FIRMWARE_UPDATE (R479, R480): the BMC writes a whole image. The reply is the model's own: 0 accepted, 1 busy, 2 refused under a
sag. -/
def execPldmFirmwareUpdate (image : List Byte) (s : State) : Out :=
  .next (if !s.domeUp then s
    else if s.dome.boot.update.isSome then s.emit (.mctp 1 [1])
    else if s.dome.sag then s.emit (.mctp 1 [2])
    else (s.beginUpdate { by_ := .pldm, length := image.length, data := image }).emit (.mctp 1 [0]))

/-- IMAGE_WRITE_END (R480): the write of a PLDM update ends. -/
def execImageWriteEnd (s : State) : Out :=
  .next (match s.dome.boot.update with
    | some u => if u.by_ = .pldm then (let (s, c) := s.finishUpdate u; s.emit (.mctp 2 [BitVec.ofNat 8 c])) else s
    | none => s)

/-- RECOVERY_HELLO (R481). -/
def execRecoveryHello (seq : BitVec 16) (s : State) : Out :=
  .next (s.recovery 1 seq.toNat (fun s =>
    (s, 0, s.dome.boot.cause * 2 ^ 8 + s.dome.boot.detail * 2 ^ 16, Config.serial.toNat)))

/-- RECOVERY_BEGIN (R481). -/
def execRecoveryBegin (seq : BitVec 16) (len : W32) (s : State) : Out :=
  .next (s.recovery 2 seq.toNat (fun s => s.recoveryBegin len.toNat))

/-- RECOVERY_DATA (R481). -/
def execRecoveryData (seq : BitVec 16) (off : W64) (data : List Byte) (s : State) : Out :=
  .next (s.recovery 3 seq.toNat (fun s => s.recoveryData off.toNat data))

/-- RECOVERY_END (R481). -/
def execRecoveryEnd (seq : BitVec 16) (s : State) : Out := .next (s.recovery 4 seq.toNat State.recoveryEnd)

/-- RECOVERY_PROGRESS (R481). -/
def execRecoveryProgress (seq : BitVec 16) (s : State) : Out :=
  .next (s.recovery 5 seq.toNat (fun s => (s, 0, s.reg (home .prog 2 0x18), s.reg (home .prog 2 8))))

end Sys2Proof.Machine
end

