-- ==== Sys2Proof/Machine/Dome.lean ====
section
/-! DEFINITION. The Dome's requests and its evaluations (R484 to R503). -/

namespace Sys2Proof.Machine

/-- The defined bits of the arguments of a mailbox request (R498). -/
def argBits (kind : Nat) : Nat × Nat × Nat :=
  match kind with
  | 0x01 => (3, 0, 0)
  | 0x02 => (0xFFFF, 0, 0)
  | 0x03 => (0x37, 0x7FFF, 0)
  | 0x04 => (3, 0xFFFFFFF, 0)
  | 0x05 | 0x06 | 0x07 | 0x0C => (3, 0, 0)
  | 0x0B => (3, 0xFFFF, 0xFFFFFFFF)
  | _ => (0, 0, 0)

/-- The die of a junction sensor (R491): 0 compute, 1-4 edge, 5-16 HBM stacks, 17 Dome. -/
def dieOf (sensor : Nat) : Nat :=
  if sensor < 44 then 0 else if sensor < 60 then 1 + (sensor - 44) / 4 else if sensor < 72 then 5 + (sensor - 60) else 17

/-- Whether a die is judged against the HBM limits. -/
def hbmDie (d : Nat) : Bool := decide (5 ≤ d ∧ d ≤ 16)

/-- The power domain of an island (R485, R487); the hub and the Dome are always on. -/
def domainOfIsland (i : Nat) : Option Nat :=
  if i < 36 then some i else if i = 36 || 73 ≤ i then none else if i < 61 then some (i - 1) else some (i - 5)

namespace State

/-! ### The mailbox (R496 to R499) -/

/-- The partition that a request names, if its kind names one (R498). -/
def namedPart (r : DomReq) : Option Nat :=
  match r.kind with
  | 0x03 => some (bits r.a0 4 2)
  | 0x04 | 0x05 | 0x06 | 0x07 => some (bits r.a0 0 2)
  | _ => none

/-- Whether a requester has the authority that a request needs (R496, R498). -/
def authorised (s : State) (r : DomReq) : Bool :=
  let package := r.who == 4 || (r.who == 0 && s.nParts == 1)
  match r.kind with
  | 0x09 => r.who == 4
  | 0x0A => true
  | 0x05 => package || namedPart r == some r.who
  | _ => package

/-- The status of a request that is refused before it is looked at closely (R496, R498), or 0. -/
def preJudge (s : State) (r : DomReq) : Nat :=
  let (m0, m1, m2) := argBits r.kind
  let early := r.kind == 0x0A || (r.who == 4 && (r.kind == 0x08 || r.kind == 0x09))
  if s.dome.boot.state ≠ 1 && !early then 4
  else if r.a0 &&& m0 ≠ r.a0 || r.a1 &&& m1 ≠ r.a1 || r.a2 &&& m2 ≠ r.a2 then 3
  else if !s.authorised r then 1
  else if (namedPart r).any (fun p => decide (s.nParts ≤ p)) then 3
  else 0

/-- The request at the front of the Dome's queue judged with `f`, where it is of the kind; a request of the BMC joins the queue first. Refusals
that need no closer look are given here. A Dome held in cold reset serves nothing. -/
def judge (s : State) (kind : Nat) (b : Option Bmc) (f : DomReq → State → State) : State :=
  if !s.domeUp then s else
  let s := match b with
    | none => s
    | some m =>
      let r : DomReq := { who := 4, kind := kind, seq := m.seq.toNat, a0 := m.a0.toNat, a1 := m.a1.toNat, a2 := m.a2.toNat }
      { s with dome := { s.dome with reqs := s.dome.reqs ++ [r] } }
  let s := answerReserved (s.dome.reqs.length) s
  match s.dome.reqs with
  | r :: l =>
    if r.kind ≠ kind then s
    else if (kind = 1 || kind = 2) && s.dome.newMode.isSome then s
    else
      let s := { s with dome := { s.dome with reqs := l } }
      let c := s.preJudge r
      let s := if c ≠ 0 then s.mbxAnswer r c 0 else f r s
      answerReserved (s.dome.reqs.length) s
  | [] => s

/-- SET_MODE (R488, R489): the change begins, with the voltage where it raises the clock, else with the clock drives; the answer follows at its
end. -/
def setMode (r : DomReq) (s : State) : State :=
  let m := bits r.a0 0 2
  if m = 3 || s.cfg 0x14 (12 + m) 1 = 0 then s.mbxAnswer r 2 0
  else
    let s := { s with dome := { s.dome with newMode := some (m, r) } }.showMode
    if s.dome.clock < clusterMhz m then s.setVolt (clusterMv m) else s.setClock (clusterMhz m)

/-- SET_CAP (R490, R502). -/
def setCap (r : DomReq) (s : State) : State :=
  let c := bits r.a0 0 16
  if c ≠ 0 && (c < 600 || 1800 < c) then s.mbxAnswer r 2 0
  else (({ s with dome := { s.dome with cap := c } }.showMode).postAll 0x0507 0 0 c).mbxAnswer r 0 0

/-- SET_SHARE (R425, R430, R498): the new share stands in the register, and each point takes it up at its next round; the change is announced and
answered when it is in force at every point. -/
def setShare (r : DomReq) (s : State) : State :=
  let res := bits r.a0 0 3
  let p := bits r.a0 4 2
  let w := bits r.a1 0 8
  let f := bits r.a1 8 7
  let o := 0x40 + 8 * (4 * res + p)
  let sum := total (((List.range s.nParts).filter (· != p)).map (fun q => at4 (s.floors res) q))
  let c : ShareChange := { req := r, part := p, res := res, value := w + f * 2 ^ 8, points := s.pointsOf res }
  if 4 < res || w = 0 || w < s.cfg o 16 8 || s.cfg o 24 8 < w || f < s.cfg o 32 7 || s.cfg o 40 7 < f || 100 < sum + f then s.mbxAnswer r 2 0
  else
    let s := s.setReg (shareReg p res) c.value
    if c.points.isEmpty then s.shareInForce c else { s with dome := { s.dome with changes := s.dome.changes ++ [c] } }

/-- SET_QUOTA (R430, R431, R498). -/
def setQuota (r : DomReq) (s : State) : State :=
  let p := bits r.a0 0 2
  let q := bits r.a1 0 28
  if (s.hbmRange p).2 / 65536 < q then s.mbxAnswer r 2 0
  else (((s.setReg (home .prt p 0x18) q).postAll 0x0205 0 p (q * 2 ^ 32)).checkQuota p).mbxAnswer r 0 0

/-- PARTITION_RESET (R436, R437): a DISABLED partition cannot be reset. -/
def askReset (r : DomReq) (s : State) : State :=
  let p := bits r.a0 0 2
  if s.prtState p = 3 then s.mbxAnswer r 5 0 else s.resetPartition p [r] 0

/-- PARTITION_DISABLE (R432, R437). -/
def askDisable (r : DomReq) (s : State) : State :=
  let p := bits r.a0 0 2
  if s.prtState p = 3 then s.mbxAnswer r 5 0 else
  match s.actOf p with
  | none => s.beginDisable p [r]
  | some a =>
    if a.kind = .reset then s.setAct p (some { a with thenDisable := a.thenDisable ++ [r] })
    else s.setAct p (some { a with answer := a.answer ++ [r] })

/-- PARTITION_ENABLE (R434). -/
def askEnable (r : DomReq) (s : State) : State :=
  let p := bits r.a0 0 2
  if s.prtState p ≠ 3 then s.mbxAnswer r 5 0 else
  let s := { s with dome := { s.dome with disabled := s.dome.disabled.filter (· != p) } }
  ((s.form p).hbmDomains.postOthers p 0x0204 0 p 0).mbxAnswer r 0 0

/-- WARM_RESET (R462, R497): only the BMC is answered. While a trip cools down, or in RECOVERY, it is refused (R478, R493). -/
def askWarm (r : DomReq) (s : State) : State :=
  if s.dome.boot.cooling || s.dome.boot.state = 2 then s.mbxAnswer r 5 0
  else (if r.who = 4 then s.mbxAnswer r 0 0 else s).warmReset 5

/-- COLD_RESET (R461, R497): answered at acceptance; an image write under way runs to its end first (R499). -/
def askCold (r : DomReq) (s : State) : State :=
  let s := s.mbxAnswer r 0 0
  if s.dome.boot.update.isSome then s.setBoot { s.dome.boot with coldWaits := true } else s.coldStart

/-- Whether an island runs: its domain is on, or it is never switched. -/
def islandOn (s : State) (i : Nat) : Bool := match domainOfIsland i with
  | some d => s.domOn d
  | none => true

/-- CORRELATE (R487): the counts of the islands that are on, latched with DOM_TIME in the requester's DOM_ block. -/
def correlate (r : DomReq) (s : State) : State :=
  let n := (s.dome.markSeq + 1) % 2 ^ 32
  let s := { s with dome := { s.dome with markSeq := n } }
  let s := if r.who = 4 then s else
    let s := (s.setReg (home .dom r.who 0x200) n).setReg (home .dom r.who 0x208) (s.pkg.time % 2 ^ 64)
    (List.range 74).foldl (fun s i =>
      s.setReg (home .dom r.who (0x400 + 8 * i)) (if s.islandOn i then s.cycle i % 2 ^ 63 + 2 ^ 63 else 0)) s
  s.mbxAnswer r 0 n

/-- The bound of the offset of a sensor class (R501). -/
def calBound (c : Nat) : Nat := if c < 2 then 80 else if c = 2 then 500 else 20

/-- SET_CAL (R501). -/
def setCal (r : DomReq) (s : State) : State :=
  let c := bits r.a0 0 2
  if calBound c < (toSigned 16 r.a1).natAbs || 20000 < (toSigned 32 r.a2).natAbs then s.mbxAnswer r 2 0
  else { s with dome := { s.dome with cal := s.dome.cal.set c (bits r.a1 0 16, bits r.a2 0 32) } }.mbxAnswer r 0 0

/-- CLEAR_CAL (R498). -/
def clearCal (r : DomReq) (s : State) : State :=
  { s with dome := { s.dome with cal := s.dome.cal.set (bits r.a0 0 2) (0, 0) } }.mbxAnswer r 0 0

/-- The mode change ends (R489, R502): the clock follows the voltage where it was raised, and the voltage the clock where it was lowered. -/
def modeChanged (s : State) : State :=
  match s.dome.newMode with
  | none => s
  | some (m, r) =>
    let old := s.dome.mode
    let s := { s with dome := { s.dome with mode := m, newMode := none } }.showMode
    let s := if s.dome.clock < clusterMhz m then s.setClock (clusterMhz m) else if s.dome.volt = clusterMv m then s else s.setVolt (clusterMv m)
    (s.postAll 0x0501 0 (m + old * 4) s.effective).mbxAnswer r 0 0

/-! ### Power (R429, R490) -/

/-- PRT_POWER of a partition (R440): its draw over the last ten evaluations, 1 ms, averaged, and its grant. -/
def showPower (grants : List Nat) (s : State) (p : Nat) : State :=
  let l := s.dome.draws.map (fun d => at4 d p)
  let (avg, s) := s.roundFree (total l) l.length
  s.setReg (home .prt p 0x20) (avg % 2 ^ 16 + at4 grants p % 2 ^ 16 * 2 ^ 16)

/-- An evaluation: package draw, draw of the shared blocks, and for each partition its draw and the draw it would have without throttling, in
W. The grants take up the POWER shares in force (R430). -/
def evaluate (s : State) (draw shared : Nat) (draws demands : List Nat) : State :=
  let eff := s.effective
  let beyond := decide (eff < shared)
  let grants := if beyond then [0, 0, 0, 0] else arbitrate (eff - shared) (s.demandOf demands) (s.weights 4) (s.floors 4)
  let limit := beyond || (s.dome.powerLimit && decide (eff < draw))
  let held := (List.range s.nParts).filter (fun p => s.demands p && decide (at4 grants p < at4 demands p))
  let s := { s with dome := { s.dome with draws := (draws :: s.dome.draws).take 10 } }
  let s := (List.range s.nParts).foldl (showPower grants) s
  let s := held.foldl (fun s p => s.bump (home .prt p 0x118) 1) s
  let s := if limit && !s.dome.powerLimit then s.postAll 0x0504 0 0 (draw % 2 ^ 16 + eff * 2 ^ 16) else s
  let s := if limit then s.bumpDom 0x308 100 else s
  let s := { s with dome := { s.dome with powerLimit := limit, held := held } }.setDomStatus 5 1 (b2n limit)
  (s.setReg (home .dom 0 0x18) (ofSigned 16 (calibrate (s.calOf 3) draw))).sharesMet 4 0

/-! ### Temperature (R491 to R493) -/

/-- The hottest sensor of a die, the lowest of equals, with its reading in 1/16 °C. -/
def hottest (t : List Int) (die : Nat) : Nat × Int :=
  ((t.zipIdx).filter (fun x => dieOf x.2 == die)).foldl (fun (a : Nat × Int) x => if a.2 < x.1 then (x.2, x.1) else a) (0, -32769)

/-- One die after a reading (R492): throttle and limit are entered and left, with their events. -/
def judgeDie (t : List Int) (s : State) (die : Nat) : State :=
  let (k, v) := hottest t die
  let thr : Int := if hbmDie die then 95 * 16 else 100 * 16
  let lim : Int := if hbmDie die then 100 * 16 else 105 * 16
  let wasHot := s.dome.hot.contains die
  let wasLim := s.dome.limited.contains die
  let hot := decide (thr ≤ v)
  let isLim := decide (lim ≤ v) || (wasLim && hot)
  let d (on : Bool) : Nat := b2n on + k * 2 ^ 8
  let put (l : List Nat) (on : Bool) : List Nat := l.filter (· != die) ++ (if on then [die] else [])
  let steps := ((s.dome.stretch.find? (fun e => e.1 == die)).map Prod.snd).getD 0 + 1
  let stretch := s.dome.stretch.filter (fun e => e.1 != die) ++ (if hot then [(die, steps)] else [])
  let s := { s with dome := { s.dome with hot := put s.dome.hot hot, limited := put s.dome.limited isLim, stretch := stretch } }
  let s := if hot == wasHot then s else s.postAll 0x0502 0 (d hot) (ofSigned 16 v)
  if isLim == wasLim then s else s.postAll 0x0503 0 (d isLim) (ofSigned 16 v)

/-- A trip (R493, R536): every domain is off; the Dome waits for the sensors to cool. A Griwald port in service is DOWN with cause POWER_OFF until its
domain returns (R366). In RECOVERY the Dome stays there (R478; notes/assumptions/115.md). -/
def trip (s : State) : State :=
  let on := (List.range 8).filter (fun g => (s.port g).state != 0)
  let s := (s.endSelfTest.setVrOff true).powerLost
  let s := on.foldl (fun s g => s.setPort g { state := 4, cause := 10 }) s
  let b := s.dome.boot
  let s := s.setBoot (if b.state = 2 then { b with cooling := true } else { b with state := 0, stage := 0, cooling := true })
  s.setLastReset 4

/-- The sensors have read below 85 °C for 1 s after a trip (R493): a package warm reset, or in RECOVERY the power of Ethernet port 0 again. -/
def tripOver (s : State) : State :=
  let s := s.setBoot { s.dome.boot with cooling := false }
  if s.dome.boot.state = 2 then s.recoveryPower else s.warmReset 4

/-- The readings of the 73 sensors (R491, R492). A Dome held in cold reset reads none. -/
def readSensors (s : State) (t : List Int) : State :=
  if !s.domeUp then s else
  let s := { s with dome := { s.dome with temps := t } }
  let s := (t.zipIdx).foldl (fun s x =>
    s.setReg (home .dom 0 (0x680 + 4 * x.2)) (ofSigned 16 (calibrate (s.calOf (if hbmDie (dieOf x.2) then 1 else 0)) x.1))) s
  let s := (List.range 12).foldl (fun s k =>
    if s.domOn (36 + k) then
      s.setReg (home .hbm k 0x10) (putBits (s.reg (home .hbm k 0x10)) 8 8 (ofSigned 8 (((t[60 + k]?).getD 0) / 16)))
    else s) s
  let tripped := (t.zipIdx).any (fun x => decide ((if hbmDie (dieOf x.2) then 105 * 16 else 115 * 16) ≤ x.1))
  if s.dome.boot.cooling then s
  else if tripped then s.trip
  else
    let s := (List.range 18).foldl (judgeDie t) s
    let on := !s.dome.hot.isEmpty || !s.dome.limited.isEmpty
    (if on then s.bumpDom 0x300 100 else s).setDomStatus 4 1 (b2n on)

/-! ### Supply sag (R494, R495) -/

/-- DOM_FEED shows a sample of FEED_SENSE in mV, user-calibrated. -/
def showFeed (s : State) (mv : Nat) : State :=
  s.setReg (home .dom 0 0x1C) (putBits (s.reg (home .dom 0 0x1C)) 0 16 (ofSigned 16 (calibrate (s.calOf 2) mv)))

/-- FEED_THRESH in mV. -/
def feedThresh (s : State) : Nat := bits (s.reg (home .dom 0 0x1C)) 16 16 * 100

/-- A sag is indicated: counted and posted once; an image update stops (R494, R495). -/
def enterSag (s : State) (mv : Nat) (below : Bool) : State :=
  let s := s.showFeed mv
  if s.dome.sag then s else
  let s := ({ s with dome := { s.dome with sag := true } }.setDomStatus 3 1 1).bumpDom 0x318 1
  ((s.postAll 0x0505 0 (b2n s.dome.pfw + b2n below * 2) mv).sagFlash).tearUpdate 0x0A01

end State

/-! ### The mailbox commands: a request of the BMC, or the partition's request that waits at the front -/

/-- SET_MODE (R489). -/
def execSetMode (b : Option Bmc) (s : State) : Out := .next (s.judge 0x01 b State.setMode)
/-- SET_CAP (R490). -/
def execSetCap (b : Option Bmc) (s : State) : Out := .next (s.judge 0x02 b State.setCap)
/-- SET_SHARE (R498). -/
def execSetShare (b : Option Bmc) (s : State) : Out := .next (s.judge 0x03 b State.setShare)
/-- SET_QUOTA (R498). -/
def execSetQuota (b : Option Bmc) (s : State) : Out := .next (s.judge 0x04 b State.setQuota)
/-- PARTITION_RESET (R436). -/
def execPartitionReset (b : Option Bmc) (s : State) : Out := .next (s.judge 0x05 b State.askReset)
/-- PARTITION_DISABLE (R432). -/
def execPartitionDisable (b : Option Bmc) (s : State) : Out := .next (s.judge 0x06 b State.askDisable)
/-- PARTITION_ENABLE (R434). -/
def execPartitionEnable (b : Option Bmc) (s : State) : Out := .next (s.judge 0x07 b State.askEnable)
/-- WARM_RESET (R462). -/
def execWarmReset (b : Option Bmc) (s : State) : Out := .next (s.judge 0x08 b State.askWarm)
/-- COLD_RESET (R461). -/
def execColdReset (b : Option Bmc) (s : State) : Out := .next (s.judge 0x09 b State.askCold)
/-- CORRELATE (R487). -/
def execCorrelate (b : Option Bmc) (s : State) : Out := .next (s.judge 0x0A b State.correlate)
/-- SET_CAL (R501). -/
def execSetCal (b : Option Bmc) (s : State) : Out := .next (s.judge 0x0B b State.setCal)
/-- CLEAR_CAL (R498). -/
def execClearCal (b : Option Bmc) (s : State) : Out := .next (s.judge 0x0C b State.clearCal)

/-! ### The Dome's own events -/

/-- MODE_CHANGE_END (R489). -/
def execModeChangeEnd (s : State) : Out := .next s.modeChanged

/-- POWER_EVALUATION (R429, R490): the draw of the package and of the shared blocks, and for each partition its draw and its demand, in W. A Dome
held in cold reset evaluates nothing. -/
def execPowerEvaluation (draw shared : BitVec 16) (draws demands : List (BitVec 16)) (s : State) : Out :=
  .next (if s.domeUp then
    s.evaluate draw.toNat shared.toNat (draws.map BitVec.toNat) (demands.map BitVec.toNat) else s)

/-- THERMAL_READING (R491, R492): the 73 sensors in 1/16 °C, factory-calibrated. -/
def execThermalReading (t : List (BitVec 16)) (s : State) : Out := .next (s.readSensors ((t.take 73).map BitVec.toInt))

/-- TRIP_COOLDOWN_END (R493): 1 s has passed with every sensor below 85 °C. -/
def execTripCooldownEnd (s : State) : Out := .next (if s.dome.boot.cooling && s.coolEnough then s.tripOver else s)

/-- DOM_OSC_CALIBRATION (R486, R539). -/
def execDomOscCalibration (s : State) : Out :=
  .next (if s.dome.boot.refclk then { s with dome := { s.dome with uncalibrated := false } } else s)

/-- SUPPLY_SAG (R494): three consecutive samples of FEED_SENSE in mV. -/
def execSupplySag (a b c : BitVec 16) (s : State) : Out :=
  let t := s.feedThresh
  .next (if a.toNat < t && b.toNat < t && c.toNat < t then s.enterSag c.toNat true else s.showFeed c.toNat)

/-- PFW_N_ASSERT (R414, R494, R495): page programs under way are abandoned. -/
def execPfwNAssert (mv : BitVec 16) (s : State) : Out :=
  let s := { s with dome := { s.dome with pfw := true } }.tearUpdate 0x0B01
  .next (s.enterSag mv.toNat (decide (mv.toNat < s.feedThresh))).tearFlash

/-- PFW_N_DEASSERT (R494). -/
def execPfwNDeassert (s : State) : Out := .next { s with dome := { s.dome with pfw := false } }

/-- SUPPLY_RESTORED (R494): PFW_N has been deasserted, and FEED_SENSE at least 0.5 V above the threshold, for 100 ms. -/
def execSupplyRestored (mv : BitVec 16) (s : State) : Out :=
  let s := s.showFeed mv.toNat
  .next (if s.dome.sag && !s.dome.pfw && decide (s.feedThresh + 500 ≤ mv.toNat) then
    (({ s with dome := { s.dome with sag := false } }.setDomStatus 3 1 0).postAll 0x0506 0 0 mv.toNat) else s)

/-- SUPPLY_DROOP (R484): the supply of an island falls more than 4 % below its set point. -/
def execSupplyDroop (i : Fin 74) (s : State) : Out :=
  .next { s with dome := { s.dome with droop := s.dome.droop.filter (· != i.val) ++ [i.val] } }

/-- SUPPLY_DROOP_END (R484). -/
def execSupplyDroopEnd (i : Fin 74) (s : State) : Out :=
  .next { s with dome := { s.dome with droop := s.dome.droop.filter (· != i.val) } }

end Sys2Proof.Machine
end

