-- ==== Sys2Proof/Machine/Float.lean ====
section
/-! DEFINITION. The FLOAT and DOUBLE families (R212, R213). No instruction of either sets a numerics flag. -/

namespace Sys2Proof.Machine

/-- The FLOAT formats: 0 FP32, 1 packed FP16, 2 packed BF16 (R213). -/
def floatFmt (c : Nat) : FpFmt := if c = 1 then fp16 else if c = 2 then bf16 else fp32

/-- The rounding of an instruction: RNE or RZ (R213). -/
def rmOf (b : Bool) : Rm := if b then .rz else .rne

/-- `x` with its sign inverted where `c`. -/
def negIf (f : FpFmt) (c : Bool) (x : Nat) : Nat := if c then x ^^^ f.signBit true else x

/-- An operation on each half of packed operands, or on the whole FP32 operand (R213). -/
def perHalf (fmt : Nat) (op : FpFmt → Nat → Nat → Nat → Nat) (a b c : Nat) : Nat :=
  if fmt = 0 then op fp32 a b c else
  let f := floatFmt fmt
  op f (bits a 0 16) (bits b 0 16) (bits c 0 16) + op f (bits a 16 16) (bits b 16 16) (bits c 16 16) * 65536

/-- A FLOAT instruction (R213): format, rounding and the negations of a and c before the operation. -/
def State.float (s : State) (sh : Shape) (mi : Mi) (op : FpFmt → Rm → Nat → Nat → Nat → Nat) : State :=
  let fmt := modf mi 52 2
  s.alu sh.float mi (fmt == 3) (fun a b c =>
    (perHalf fmt (fun f x y z => op f (rmOf (bit mi.mod.toNat 2)) (negIf f (bit mi.mod.toNat 3) x) y (negIf f (bit mi.mod.toNat 4) z)) a b c, 0))

/-- A DOUBLE instruction (R213): format 0 only. -/
def State.double (s : State) (sh : Shape) (mi : Mi) (op : Rm → Nat → Nat → Nat → Nat) : State :=
  s.alu sh.float mi (modf mi 52 2 != 0) (fun a b c =>
    (op (rmOf (bit mi.mod.toNat 2)) (negIf fp64 (bit mi.mod.toNat 3) a) b (negIf fp64 (bit mi.mod.toNat 4) c), 0))

/-- The absolute value: NaN gives the canonical NaN (R212). -/
def fAbs (f : FpFmt) (a : Nat) : Nat := if (decodeFp f a).isNan then f.nan else bits a 0 (f.ew + f.fw)
/-- The negation: NaN gives the canonical NaN (R212). -/
def fNeg (f : FpFmt) (a : Nat) : Nat := if (decodeFp f a).isNan then f.nan else (a % 2 ^ f.width) ^^^ f.signBit true

/-- fadd (R212, R213). -/
def execFadd (mi : Mi) (s : State) : Out := .next (s.float shapeF2 mi (fun f rm a b _ => (fAdd f rm a b).1))
/-- fsub (R212, R213). -/
def execFsub (mi : Mi) (s : State) : Out := .next (s.float shapeF2 mi (fun f rm a b _ => (fSub f rm a b).1))
/-- fmul (R212, R213). -/
def execFmul (mi : Mi) (s : State) : Out := .next (s.float shapeF2 mi (fun f rm a b _ => (fMul f rm a b).1))
/-- ffma (R212, R213): one rounding. -/
def execFfma (mi : Mi) (s : State) : Out := .next (s.float shapeF3 mi (fun f rm a b c => (fFma f rm a b c).1))
/-- fmin (R157, R212). -/
def execFmin (mi : Mi) (s : State) : Out := .next (s.float shapeF2 mi (fun f _ a b _ => fMin f a b))
/-- fmax (R157, R212). -/
def execFmax (mi : Mi) (s : State) : Out := .next (s.float shapeF2 mi (fun f _ a b _ => fMax f a b))
/-- fabs (R212). -/
def execFabs (mi : Mi) (s : State) : Out := .next (s.float shapeF1 mi (fun f _ a _ _ => fAbs f a))
/-- fneg (R212). -/
def execFneg (mi : Mi) (s : State) : Out := .next (s.float shapeF1 mi (fun f _ a _ _ => fNeg f a))
/-- dadd (R212, R213). -/
def execDadd (mi : Mi) (s : State) : Out := .next (s.double shapeD2 mi (fun rm a b _ => (fAdd fp64 rm a b).1))
/-- dsub (R212, R213). -/
def execDsub (mi : Mi) (s : State) : Out := .next (s.double shapeD2 mi (fun rm a b _ => (fSub fp64 rm a b).1))
/-- dmul (R212, R213). -/
def execDmul (mi : Mi) (s : State) : Out := .next (s.double shapeD2 mi (fun rm a b _ => (fMul fp64 rm a b).1))
/-- dfma (R212, R213): one rounding. -/
def execDfma (mi : Mi) (s : State) : Out := .next (s.double shapeD3 mi (fun rm a b c => (fFma fp64 rm a b c).1))
/-- dmin (R157, R212). -/
def execDmin (mi : Mi) (s : State) : Out := .next (s.double shapeD2 mi (fun _ a b _ => fMin fp64 a b))
/-- dmax (R157, R212). -/
def execDmax (mi : Mi) (s : State) : Out := .next (s.double shapeD2 mi (fun _ a b _ => fMax fp64 a b))

end Sys2Proof.Machine
end

