-- ==== Sys2Proof/Machine/Hub.lean ====
section
/-! DEFINITION. Management requests (R289 to R296, R320), the context kill, and the rereading of CONSUMED (R323). -/

namespace Sys2Proof.Machine

/-- The fields of a management request of 256 bytes beyond its header, as (byte offset, lowest bit, width). -/
def mgmtFields : Nat → List (Nat × Nat × Nat)
  | 0x01 => [(0x08, 0, 26), (0x0C, 0, 32), (0x10, 0, 64), (0x18, 0, 5), (0x20, 0, 64)]
  | 0x02 => [(0x08, 0, 3), (0x10, 0, 64), (0x18, 0, 64), (0x20, 0, 64), (0x28, 0, 64), (0x30, 0, 64), (0x38, 0, 64), (0x40, 0, 64),
             (0x48, 0, 64), (0x50, 0, 64), (0x58, 0, 12), (0x5C, 0, 12), (0x60, 0, 12), (0x64, 0, 12)]
  | 0x05 => [(0x08, 0, 64), (0x10, 0, 64), (0x18, 0, 1)]
  | _ => []

/-- Whether a reserved bit of a request is set: bits [15:8] of the header, or a bit after it that its layout does not name
(notes/assumptions/35.md). -/
def mgmtReserved (msg : Nat) : Bool :=
  let used := (mgmtFields (bits msg 0 8)).foldl (fun a f => a ||| ((2 ^ f.2.2 - 1) <<< (8 * f.1 + f.2.1))) (2 ^ 64 - 1 - 0xFF00)
  msg &&& used != msg

namespace State

/-- Whether every byte of a range of a partition's addresses is translated with a permission, entry by entry (R56). -/
def coversFrom (fuel : Nat) (s : State) (p lo hi perm : Nat) : Bool :=
  match fuel with
  | 0 => false
  | fuel + 1 =>
    if hi < lo then true else
    match ((List.range 64).map (s.extent p)).find? (fun x => x.valid && decide (x.base ≤ lo) && decide (lo ≤ x.limit)) with
    | none => false
    | some x => x.perm &&& perm == perm && coversFrom fuel s p (x.limit + 1) hi perm

/-- Whether `n` bytes at a PA lie in extents with a permission. -/
def covers (s : State) (p pa n perm : Nat) : Bool :=
  n == 0 || (decide (pa + n ≤ 2 ^ 44) && coversFrom 66 s p (pa / 65536) ((pa + n - 1) / 65536) perm)

/-- The management request at the front of a partition's queue served with `f`, where it has the code and the hub serves requests; the
response then carries what `f` answers. -/
def serveMgmt (s : State) (p code : Nat) (f : Nat → State → State × Nat) : State :=
  if s.dome.boot.state ≠ 1 then s else
  match s.mgmt.get [] p with
  | (n, msg) :: l =>
    if bits msg 0 8 ≠ code then s else
    let (s, c) := f msg { s with mgmt := s.mgmt.set [] p l }
    let s := s.respondMgmt p n msg c
    answerUnknown (s.mgmt.get [] p).length p s
  | [] => s

/-! ### Event rings -/

/-- The SEQ of the oldest record not yet written (R323). -/
def oldestSeq (r : Ring) : Nat := (r.queue.head?.map Event.seq).getD r.next

/-- EVENT_RING_SET (R320, R323). -/
def ringSet (s : State) (p msg : Nat) : State × Nat :=
  let n := bits msg 64 24
  let wake := bits msg 88 2
  let log2 := bits msg (8 * 0x18) 5
  let pa := w64At msg 0x20
  let q := s.qp n
  if mgmtReserved msg || wake = 3 || log2 < 6 || 16 < log2 || pa % 8 ≠ 0 || !(q.conn && q.part == p) then (s, 0x0102)
  else match s.translate p pa 17 with
    | none => (s, 0x0802)
    | some lpa =>
      if place lpa ≠ .hbm then (s, 0x0802) else
      let r := s.ring p
      let o := oldestSeq r
      let s := s.setRing p { r with set := true, qp := n, wake := wake, rkey := w32At msg 0x0C, va := w64At msg 0x10, log2 := log2,
                                    consumedPa := pa, consumed := o }
      (s.pokePa p pa (leBytes 8 o), 0)

/-- The hub rereads CONSUMED, once its line may be read (R244), and writes what has room (R323); a value after the oldest unwritten SEQ counts as that SEQ. -/
def recheck (s : State) (p : Nat) : State :=
  let r := s.ring p
  if !r.set || (s.translate p r.consumedPa 17).isNone || s.paWaits p r.consumedPa 4 then s else
  let s := s.readPa p r.consumedPa 4
  let r := s.ring p
  let o := oldestSeq r
  let v := ofLeBytes (s.peekPa p r.consumedPa 4)
  (s.setRing p { r with consumed := if serialAfter 32 v o then o else v }).flushRing p

/-! ### Contexts (R291 to R296) -/

/-- The checks of CONTEXT_CREATE (R291, R292): the code of a refusal, or 0. -/
def createCheck (s : State) (p msg : Nat) : Nat :=
  let st := s.prtState p
  let a (i : Nat) : Nat := w64At msg (0x10 + 8 * i)
  let errs := (List.range 4).map (fun i => bits (w32At msg (0x58 + 4 * i)) 10 2)
  let roots := (List.range 4).map (fun i => a (5 + i))
  let ranges := [(a 0, a 1, 3), (a 4, 131072, 3), (a 2, a 3, 11)] ++ roots.map (fun r => (r, 64, 3))
  let sized := ranges.filter (fun r => r.2.1 != 0)
  let overlap := (sized.zipIdx).any (fun x => (sized.zipIdx).any (fun y => decide (x.2 < y.2) && rangesMeet x.1.1 x.1.2.1 y.1.1 y.1.2.1))
  if st = 4 then 0x0902 else if st ≠ 0 then 0x0901
  else if s.hasCtx p || mgmtReserved msg || (bit msg 66 && s.nParts ≠ 1) || errs.any (fun r => !s.ownsRegion p r)
      || a 0 % 65536 ≠ 0 || a 1 % 65536 ≠ 0 || a 2 % 128 ≠ 0 || a 3 % 128 ≠ 0 || a 4 % 128 ≠ 0 || roots.any (fun r => r % 64 != 0) then 0x0102
  else if overlap || !ranges.all (fun r => s.covers p r.1 r.2.1 r.2.2) then 0x0802
  else 0

/-- The order of R292 up to the CONTEXT_CREATED event. -/
def createContext (s : State) (p msg : Nat) : State :=
  let a (i : Nat) : Nat := w64At msg (0x10 + 8 * i)
  let num := (s.ctxOf p).num % 0xFFFF + 1
  let s := (s.regionsOf p).foldl (fun s r => (s.setDomain (32 + r) true).freshRegion r) s
  let s := (s.unitsOf p).foldl (fun s u => s.setUnit u { s.unit u with fault := {}, stopped := false }) s
  let s := { s with objs := (s.objs.map (fun (e : Nat × Obj) =>
      if e.1 / 65536 = p then (e.1, { ({} : Obj) with gen := e.2.gen }) else e)).filter (fun (e : Nat × Obj) => e.2 != ({} : Obj)) }
  let s := s.setReg (home .str p 0x48) 0
  let s := s.setCtx p { num := num, state := 1, rc := bit msg 64, tp3 := bit msg 65, conc := bit msg 66, heapBase := a 0, heapSize := a 1,
                        wideBase := a 2, wideSize := a 3, numlog := a 4 }
  let s := (List.range 4).foldl (fun s st =>
    s.setStr p st { park := a (5 + st), seq := 1, errFence := bits (w32At msg (0x58 + 4 * st)) 0 12 }) s
  (s.checkQuota p).post p 0x0001 0 0 0 (bits msg 64 3) 0

/-- The record that kills, of those that wait: the first to reach the hub, and of those of its cycle the one of the lowest unit (R192). -/
def firstRecord : List (Nat × FaultRec) → Option FaultRec
  | [] => none
  | (t, r) :: l => some ((l.filter (fun e => e.1 == t)).foldl (fun a e => if e.2.unit < a.unit then e.2 else a) r)

/-- CONTEXT_DESTROY (R296). -/
def destroyContext (s : State) (p msg : Nat) : State × Nat :=
  if !s.hasCtx p || bits msg 32 16 ≠ s.ctxNum p then (s, 0x0102) else
  let s := s.kill p ((firstRecord (s.faultQ.get [] p)).getD {})
  let s := ((s.freeAll p).post p 0x0003 0 0 0 0 0).endContext p
  (s.contextPowerOff p, 0)

/-- REG_WRITE (R290). -/
def mgmtWrite (s : State) (p msg : Nat) : State × Nat :=
  let pa := w64At msg 0x08
  let pair := bit msg (8 * 0x18)
  if mgmtReserved msg || pa % (if pair then 8 else 4) ≠ 0 then (s, 0x0102)
  else if pa < 0xF1000000000 + p * 0x100000000 || 0xF1000000000 + (p + 1) * 0x100000000 ≤ pa then (s, 0x0802)
  else match s.regAt pa with
    | none => (s, 0)
    | some a => (if pair then s.regWrite64 a (w64At msg 0x10) 0 else s.regWrite a (w32At msg 0x10) 0, 0)

end State

/-! ### The commands -/

/-- EVENT_RING_SET (R320): the request at the front of partition `p`'s queue, which stands while the line of CONSUMED that it names waits (R244). -/
def execEventRingSet (p : Fin 4) (s : State) : Out :=
  .next (if ((s.mgmt.get [] p.val).head?).any (fun e => bits e.2 0 8 == 1 && s.paWaits p.val (w64At e.2 0x20) 8) then s else
    (s.serveMgmt p.val 0x01 (fun m s => s.ringSet p.val m)).flushRing p.val)

/-- CONTEXT_CREATE (R291, R292). The sequencers read their root slots once the context exists (R298). -/
def execContextCreate (p : Fin 4) (s : State) : Out :=
  let t := s.serveMgmt p.val 0x02 (fun m s => match s.createCheck p.val m with
    | 0 => (s.createContext p.val m, 0)
    | c => (s, c))
  .next (if !s.hasCtx p.val && t.hasCtx p.val then (List.range 4).foldl (fun s st => s.readLink p.val st) t else t)

/-- CONTEXT_DESTROY (R296). -/
def execContextDestroy (p : Fin 4) (s : State) : Out := .next (s.serveMgmt p.val 0x03 (fun m s => s.destroyContext p.val m))

/-- QUERY (R289). -/
def execQuery (p : Fin 4) (s : State) : Out := .next (s.serveMgmt p.val 0x04 (fun _ s => (s, 0)))

/-- REG_WRITE (R290). -/
def execRegWrite (p : Fin 4) (s : State) : Out := .next (s.serveMgmt p.val 0x05 (fun m s => s.mgmtWrite p.val m))

/-- CONTEXT_KILL (R191, R295): the first fault record to reach the hub kills the context of partition `p`. -/
def execContextKill (p : Fin 4) (s : State) : Out :=
  .next (match State.firstRecord (s.faultQ.get [] p.val) with
    | some r => { s with faultQ := s.faultQ.set [] p.val [] }.kill p.val r
    | none => s)

/-- EVENT_RING_RECHECK (R323). -/
def execEventRingRecheck (p : Fin 4) (s : State) : Out := .next (s.recheck p.val)

end Sys2Proof.Machine
end

