-- ==== Sys2Proof/Machine/Ident.lean ====
section
/-! DEFINITION. Identity, owner slots, challenges, attestation and debug access (R522 to R531). -/

namespace Sys2Proof.Machine

/-- The four slots, key and state byte each, then SVN_MIN as one byte (R528: what FUSE_DIGEST covers). -/
def fuseBytes (f : Fuses) : List Byte :=
  ((List.range 4).map (fun i => leBytes 32 (at4 f.keys i) ++ [Config.slotByte (at4 f.states i)])).flatten ++ leBytes 1 f.svnMin

/-- The 96 bytes of a challenge (R527): purpose, 32 random bytes and the argument. -/
def challengeBody (purpose random arg : Nat) : List Byte :=
  leBytes 4 0x4C484344 ++ leBytes 4 purpose ++ leBytes 8 Config.serial.toNat ++ leBytes 32 random ++ leBytes 32 arg ++ leBytes 16 0

/-- The key that signs the response to a challenge of a purpose (R527). -/
def responseKey (f : Fuses) (purpose : Nat) : Option Nat := if purpose = 4 then some (Config.debugKey.toNat) else ownerKey f

/-- Whether `sig` answers a challenge. -/
def validResponse (f : Fuses) (c : Challenge) (sig : List Byte) : Bool :=
  (responseKey f c.purpose).any (fun k => edVerify k (sha512 c.body) sig)

namespace State

/-- A reply to an identity request over MCTP (R526): a status, 0 for success, and a payload. -/
def idReply (s : State) (kind status : Nat) (payload : List Byte) : State := s.emit (.mctp (0x100 + kind) (leBytes 2 status ++ payload))

/-- A refusal whose status the spec does not state. -/
def idRefuse (s : State) (kind : Nat) : State :=
  let (x, s) := s.draw
  s.idReply kind (1 + x % 0xFFFF) []

/-- An identity request served with `f`, which answers `none` to refuse it; one that programs fuses is refused while a sag is indicated
(R495, R526). -/
def idServe (s : State) (kind : Nat) (fuses : Bool) (f : State → Option State) : State :=
  if !s.domeUp then s
  else if fuses && s.dome.sag then s.idReply kind 0x0A01 []
  else match f s with
    | some t => t.idReply kind 0 []
    | none => s.idRefuse kind

/-- The outstanding challenge, while its 60 s have not passed (R527). -/
def standing (s : State) : Option Challenge := s.dome.challenge.filter (fun c => decide (s.pkg.time < c.issued + 60000000000))

/-- A challenge issued in place of the one outstanding (R527). -/
def issueChallenge (s : State) (purpose arg : Nat) : List Byte × State :=
  let (x, s) := s.draw
  let body := challengeBody purpose x arg
  (body, { s with dome := { s.dome with challenge := some { purpose := purpose, arg := arg, body := body, issued := s.pkg.time } } })

/-- The challenge is over. -/
def dropChallenge (s : State) : State := { s with dome := { s.dome with challenge := none } }

/-- The fuses programmed. -/
def setFuses (s : State) (f : Fuses) : State := { s with dome := { s.dome with fuses := f } }

/-- ENROL (R526). -/
def enrol (key : Nat) (s : State) : Option State :=
  let f := s.dome.fuses
  if f.states.all (· == 0) then some (s.setFuses { f with keys := f.keys.set 0 key, states := f.states.set 0 1 }) else none

/-- TRANSFER (R526): the key is fused first and the states afterwards. -/
def transfer (sig : List Byte) (s : State) : Option State :=
  let f := s.dome.fuses
  match s.standing, f.states.findIdx? (· == 1), f.states.findIdx? (· == 0) with
  | some c, some a, some n =>
    if c.purpose = 1 && validResponse f c sig then
      some (s.setFuses { f with keys := f.keys.set n c.arg, states := (f.states.set a 2).set n 1 }).dropChallenge
    else none
  | _, _, _ => none

/-- SVN_COMMIT (R526): the minimum SVN never falls. -/
def svnCommit (sig : List Byte) (s : State) : Option State :=
  let f := s.dome.fuses
  match s.standing with
  | some c =>
    let target := c.arg % 2 ^ 32
    if c.purpose = 2 && decide (target ≤ s.dome.boot.running.svn) && decide (target ≤ 64) && validResponse f c sig then
      some (s.setFuses { f with svnMin := max f.svnMin target }).dropChallenge
    else none
  | none => none

/-- The response through the TAP to a challenge of purpose 3 or 4 (R530). -/
def jtagResponse (s : State) (sig : List Byte) : State :=
  match s.standing with
  | some c =>
    if (c.purpose = 3 || c.purpose = 4) && validResponse s.dome.fuses c sig then
      { s with dome := { s.dome with debug := max s.dome.debug (c.purpose - 2) } }.dropChallenge
    else s
  | none => s

/-- The status word of a report (R528); with no slot ACTIVE the spec gives OWNER_SLOT no value. -/
def reportStatus (s : State) : Nat × State :=
  let f := s.dome.fuses
  let (slot, s) := match f.states.findIdx? (· == 1) with
    | some i => (i, s)
    | none => let (x, s) := s.draw; (x % 4, s)
  let device := if s.cat.isEmpty then 0 else s.pkg.device.getD 0
  (bits ((s.domReg 0x800).getD 0) 0 2 + slot * 4 + b2n (ownerKey f).isNone * 16 + s.dome.debug * 32 + f.svnMin * 256 + device * 65536, s)

/-- The body of a report for a nonce (R528). -/
def reportBody (s : State) (nonce : List Byte) : List Byte × State :=
  let r := s.dome.boot.running
  let pad (n : Nat) (l : List Byte) : List Byte := (l ++ List.replicate n 0).take n
  let (w, s) := s.reportStatus
  (leBytes 4 0x54535441 ++ leBytes 4 0x10000 ++ leBytes 8 Config.serial.toNat ++ pad 32 nonce ++ leBytes 8 s.pkg.time ++ leBytes 4 w
    ++ leBytes 4 r.fwVersion ++ pad 64 r.fwDigest ++ pad 64 r.cfgDigest ++ pad 64 (sha512 (fuseBytes s.dome.fuses))
    ++ pad 64 ((bolometerCert).drop 0x40), s)

/-- The report of the request that came first is complete (R529): a partition's lies in its ID_ block, the BMC's is sent. -/
def reportReady (s : State) : State :=
  match s.dome.reports with
  | [] => s
  | r :: l =>
    let s := { s with dome := { s.dome with reports := l } }
    let (body, s) := s.reportBody r.nonce
    let report := body ++ partSign .identity (sha512 body)
    if r.who = 4 then s.idReply 5 0 report else
    let s := (List.range 96).foldl (fun s i => s.setReg (home .id r.who (0x400 + 4 * i)) (ofLeBytes ((report.drop (4 * i)).take 4))) s
    s.setReg (home .id r.who 0x10) (2 + r.seq * 65536)

end State

/-! ### The commands -/

/-- ENROL (R526): the key. -/
def execEnrol (key : BitVec 256) (s : State) : Out := .next (s.idServe 1 true (State.enrol key.toNat))

/-- CHALLENGE (R526, R527, R530): asked for over MCTP or, for purpose 3 or 4, through the TAP. -/
def execChallenge (jtag : Bool) (purpose : W32) (arg : BitVec 256) (s : State) : Out :=
  let p := purpose.toNat
  if !s.domeUp then .next s
  else if jtag then
    if p = 3 || p = 4 then
      let (body, s) := s.issueChallenge p arg.toNat
      .next (s.emit (.pin 3 (ofLeBytes body)))
    else .next s
  else if 1 ≤ p ∧ p ≤ 4 then
    let (body, s) := s.issueChallenge p arg.toNat
    .next (s.idReply 2 0 body)
  else .next (s.idRefuse 2)

/-- TRANSFER (R526): the response. -/
def execTransfer (sig : BitVec 512) (s : State) : Out := .next (s.idServe 3 true (State.transfer (leBytes 64 sig.toNat)))

/-- SVN_COMMIT (R526): the response. -/
def execSvnCommit (sig : BitVec 512) (s : State) : Out := .next (s.idServe 4 true (State.svnCommit (leBytes 64 sig.toNat)))

/-- ATTEST (R526, R529): the nonce; the request waits its turn. -/
def execAttest (nonce : BitVec 256) (s : State) : Out :=
  .next (if !s.domeUp then s else
    { s with dome := { s.dome with reports := s.dome.reports ++ [{ who := 4, seq := 0, nonce := leBytes 32 nonce.toNat }] } })

/-- CHALLENGE_EXPIRY (R527): 60 s of DOM_TIME have passed since the challenge was issued. -/
def execChallengeExpiry (s : State) : Out := .next (if s.standing.isNone then s.dropChallenge else s)

/-- JTAG_RESPONSE (R530): the response. -/
def execJtagResponse (sig : BitVec 512) (s : State) : Out := .next (if s.domeUp then s.jtagResponse (leBytes 64 sig.toNat) else s)

/-- TRST_N (R540): the TAP is reset; access already opened stays open. -/
def execTrstN (s : State) : Out := .next s

/-- ID_REQ_WRITE (R529): a partition's write of ID_REQ with a SEQ. -/
def execIdReqWrite (p : Fin 4) (seq : BitVec 16) (s : State) : Out :=
  .next (if p.val < s.nParts && s.domeUp then s.idRequest p.val (seq.toNat * 65536) else s)

/-- ID_REPORT_READY (R529). -/
def execIdReportReady (s : State) : Out := .next (if s.domeUp then s.reportReady else s)

end Sys2Proof.Machine
end

