-- ==== Sys2Proof/Machine/Integer.lean ====
section
/-! DEFINITION. The INTEGER and LOGIC families (R212). -/

namespace Sys2Proof.Machine

/-- A result modulo 2^32 without flags. -/
def word (x : Nat) : Nat × Nat := (x % 2 ^ 32, 0)

/-- Leading zero bits of a 32-bit number. -/
def clz32 (x : Nat) : Nat := if x % 2 ^ 32 = 0 then 32 else 31 - Nat.log2 (x % 2 ^ 32)

/-- The width of a bit field cut at bit 31 (R212). -/
def fieldWidth (pos w : Nat) : Nat := min w (32 - pos)

/-- add (R212). -/
def execAdd (mi : Mi) (s : State) : Out := .next (s.alu shape2 mi false (fun a b _ => word (a + b)))
/-- sub (R212). -/
def execSub (mi : Mi) (s : State) : Out := .next (s.alu shape2 mi false (fun a b _ => word (a + 2 ^ 32 - b)))
/-- mul (R212). -/
def execMul (mi : Mi) (s : State) : Out := .next (s.alu shape2 mi false (fun a b _ => word (a * b)))
/-- mulhi.s (R212). -/
def execMulhiS (mi : Mi) (s : State) : Out :=
  .next (s.alu shape2 mi false (fun a b _ => word (ofSigned 64 (toSigned 32 a * toSigned 32 b) >>> 32)))
/-- mulhi.u (R212). -/
def execMulhiU (mi : Mi) (s : State) : Out := .next (s.alu shape2 mi false (fun a b _ => word ((a * b) >>> 32)))
/-- mad (R212). -/
def execMad (mi : Mi) (s : State) : Out := .next (s.alu shape3 mi false (fun a b c => word (a * b + c)))
/-- min.s (R212). -/
def execMinS (mi : Mi) (s : State) : Out :=
  .next (s.alu shape2 mi false (fun a b _ => word (if toSigned 32 b < toSigned 32 a then b else a)))
/-- min.u (R212). -/
def execMinU (mi : Mi) (s : State) : Out := .next (s.alu shape2 mi false (fun a b _ => word (min a b)))
/-- max.s (R212). -/
def execMaxS (mi : Mi) (s : State) : Out :=
  .next (s.alu shape2 mi false (fun a b _ => word (if toSigned 32 a < toSigned 32 b then b else a)))
/-- max.u (R212). -/
def execMaxU (mi : Mi) (s : State) : Out := .next (s.alu shape2 mi false (fun a b _ => word (max a b)))
/-- abs (R212): -2^31 gives -2^31. -/
def execAbs (mi : Mi) (s : State) : Out :=
  .next (s.alu shape1 mi false (fun a _ _ => word (toSigned 32 a).natAbs))
/-- add64 (R212). -/
def execAdd64 (mi : Mi) (s : State) : Out := .next (s.alu shapePair mi false (fun a b _ => ((a + b) % 2 ^ 64, 0)))
/-- sub64 (R212). -/
def execSub64 (mi : Mi) (s : State) : Out := .next (s.alu shapePair mi false (fun a b _ => ((a + 2 ^ 64 - b) % 2 ^ 64, 0)))
/-- popc (R212). -/
def execPopc (mi : Mi) (s : State) : Out := .next (s.alu shape1 mi false (fun a _ _ => word (popcount 32 a)))
/-- clz (R212). -/
def execClz (mi : Mi) (s : State) : Out := .next (s.alu shape1 mi false (fun a _ _ => word (clz32 a)))

/-- and (R212). -/
def execAnd (mi : Mi) (s : State) : Out := .next (s.alu shape2 mi false (fun a b _ => word (a &&& b)))
/-- or (R212). -/
def execOr (mi : Mi) (s : State) : Out := .next (s.alu shape2 mi false (fun a b _ => word (a ||| b)))
/-- xor (R212). -/
def execXor (mi : Mi) (s : State) : Out := .next (s.alu shape2 mi false (fun a b _ => word (a ^^^ b)))
/-- andn (R212). -/
def execAndn (mi : Mi) (s : State) : Out := .next (s.alu shape2 mi false (fun a b _ => word (a &&& (b ^^^ 0xFFFFFFFF))))
/-- not (R212). -/
def execNot (mi : Mi) (s : State) : Out := .next (s.alu shape1 mi false (fun a _ _ => word (a ^^^ 0xFFFFFFFF)))

/-- Left shift of a `w`-bit element; an amount not below the width gives 0 (R157, R212). -/
def shiftLeft (w a n : Nat) : Nat := if w ≤ n then 0 else (a <<< n) % 2 ^ w
/-- Logical right shift; an amount not below the width gives 0. -/
def shiftRight (w a n : Nat) : Nat := if w ≤ n then 0 else (a % 2 ^ w) >>> n
/-- Arithmetic right shift; an amount not below the width gives sign fill. -/
def shiftArith (w a n : Nat) : Nat := ofSigned w (toSigned w a / (2 ^ min n w : Nat))

/-- shl (R212). -/
def execShl (mi : Mi) (s : State) : Out := .next (s.alu shape2 mi false (fun a b _ => word (shiftLeft 32 a b)))
/-- shr (R212). -/
def execShr (mi : Mi) (s : State) : Out := .next (s.alu shape2 mi false (fun a b _ => word (shiftRight 32 a b)))
/-- sar (R212). -/
def execSar (mi : Mi) (s : State) : Out := .next (s.alu shape2 mi false (fun a b _ => word (shiftArith 32 a b)))
/-- bfe.u (R212). -/
def execBfeU (mi : Mi) (s : State) : Out :=
  .next (s.alu shape3 mi false (fun a b c => word (bits a (bits b 0 5) (fieldWidth (bits b 0 5) (bits c 0 6)))))
/-- bfe.s (R212). -/
def execBfeS (mi : Mi) (s : State) : Out :=
  .next (s.alu shape3 mi false (fun a b c =>
    let pos := bits b 0 5
    let w := fieldWidth pos (bits c 0 6)
    if w = 0 then (0, 0) else word (ofSigned 32 (toSigned w (bits a pos w)))))
/-- bfi (R212): a width of 0 returns c. -/
def execBfi (mi : Mi) (s : State) : Out :=
  .next (s.alu shape3 mi false (fun a b c =>
    let pos := bits b 0 5
    word (putBits c pos (fieldWidth pos (bits b 8 6)) a)))

end Sys2Proof.Machine
end

