-- ==== Sys2Proof/Machine/Vector.lean ====
section
/-! DEFINITION. The vector engine: register views, streams, operations, reductions, softmax, transcendental functions, and the
rows that run one repetition of the instruction at the head (R145 to R166). -/

namespace Sys2Proof.Machine

/-! ### Operands (R148 to R152, R231) -/

/-- The kind of an operand byte (R231): 0 none, 1 register, 2 stream, 3 port. -/
def opKind (o : Nat) : Nat := bits o 6 2

/-- Bits of an element of a lane format. -/
def laneBits (lane : Nat) : Nat := codeWidth lane

/-- Elements of a register image in a lane format (R145). -/
def laneElems (lane : Nat) : Nat := 512 * (32 / laneBits lane)

/-- Whether a code names a lane format (R145). -/
def isLane (c : Nat) : Bool := [0, 1, 2, 4, 5, 6, 7].contains c

/-- Whether a lane format is floating-point. -/
def laneFloat (c : Nat) : Bool := decide (c ≤ 2)

/-- Whether an integer lane format is signed. -/
def laneSigned (c : Nat) : Bool := c != 5

/-- The lane format as a format. -/
def laneFmt (c : Nat) : Fmt := (fmtOfCode c).getD (.fp fp32)

/-- The floating-point lane format. -/
def laneFp (c : Nat) : FpFmt := match c with
  | 1 => fp16 | 2 => bf16 | _ => fp32

/-- A stream descriptor read (R149). -/
structure StreamD where
  addr : Nat
  fmt : Nat
  block : Nat
  round : Nat
  estride : Int
  rstride : Nat
  isBits : Bool
  scale : Nat
  tensor : Nat
  seed : Nat
  index : Nat
  deriving DecidableEq, Repr

/-- The fields of a stream descriptor (R149). -/
def streamD (d : List Nat) : StreamD :=
  { addr := dfield d 0 0 24, fmt := dfield d 0 24 4, block := blockOfCode (dfield d 0 28 2), round := dfield d 0 30 2,
    estride := toSigned 16 (dfield d 1 0 16), rstride := dfield d 2 0 24, isBits := bit (dword d 2) 24, scale := dfield d 3 0 24,
    tensor := dword d 4, seed := dword d 5 + dword d 6 * 2 ^ 32, index := dword d 7 + dfield d 1 16 16 * 2 ^ 32 }

/-- Bits of a stream's element. -/
def StreamD.width (x : StreamD) : Nat := if x.isBits then 1 else codeWidth x.fmt

/-- Elements of a whole image before image `j` of a row (R159): an image is its elements, whatever the element stride (DESIGN CHOICE,
notes/assumptions/135.md). -/
def imageStep (j n : Nat) : Nat := j * n

/-- The element offset of element `e` in image `j` of row `r` (R150, R159); elementwise operations have j = 0. -/
def StreamD.off (x : StreamD) (r j n e : Nat) : Int := (r * x.rstride * 8 / x.width : Nat) + (imageStep j n : Nat) + e * x.estride

/-- The bits by which row `r` lies past a whole number of elements from ADDR, where RSTRIDE is no multiple of the element (R150). -/
def StreamD.rest (x : StreamD) (r : Nat) : Nat := r * x.rstride * 8 % x.width

/-- Bit offset from ADDR 0 of the cluster memory of an element at offset `o` of row `r`. -/
def StreamD.bitAt (x : StreamD) (r : Nat) (o : Int) : Int := x.addr * 8 + o * x.width + x.rest r

/-- The descriptor of operand `i` (0 destination, 1-3 sources, 4 mask). -/
def VecReq.desc (q : VecReq) (i : Nat) : List Nat := (q.descs[i]?).getD []

/-- The operand bytes: destination, sources A, B and C, mask. -/
def VecReq.operand (q : VecReq) (i : Nat) : Nat := match i with
  | 0 => q.dst | 1 => q.a | 2 => q.b | 3 => q.c | _ => q.mask

/-- The operation classes by VOP (R232). -/
def isReduction (v : Nat) : Bool := v == 0x28 || v == 0x29 || v == 0x2A || v == 0x2C

/-- A softmax helper that is no reduction. -/
def isSoftmax (v : Nat) : Bool := v == 0x2D || v == 0x2E

/-- A transcendental function. -/
def isTrans (v : Nat) : Bool := decide (0x20 ≤ v) && decide (v ≤ 0x25)

/-- Whether a VOP is defined (R232). -/
def vopDefined (v : Nat) : Bool :=
  decide (v ≤ 0x0E) || (decide (0x10 ≤ v) && decide (v ≤ 0x16)) || v == 0x18 || v == 0x19 || isTrans v || isReduction v || isSoftmax v
  || v == 0x30 || v == 0x31

/-- Whether an operation accepts a lane format (R156). -/
def laneOk (v lane : Nat) : Bool :=
  if !isLane lane then false
  else if v = 0 || v = 1 || v = 4 || v = 5 then true
  else if v = 2 || v = 3 || v = 6 || v = 7 then laneFloat lane
  else if 0x10 ≤ v && v ≤ 0x16 then !laneFloat lane
  else if v = 0x19 then lane == 7
  else if isTrans v || v = 0x2C || isSoftmax v then lane == 0
  else if isReduction v then lane == 0 || lane == 7
  else true

/-- How many sources an operation uses, as a mask of A (1), B (2) and C (4). SM_NORM with LSE does not use A. -/
def sourcesUsed (v : Nat) (lse : Bool) : Nat :=
  if v = 3 || v = 0x0E then 7
  else if v = 0x2D then 3
  else if v = 0x2E then (if lse then 6 else 7)
  else if v = 6 || v = 7 || v = 0x18 || v = 0x19 || isTrans v || v = 0x28 || v = 0x29 || v = 0x2C || v = 0x30 || v = 0x31 then 1
  else 3

/-! ### Checks (R165) -/

/-- A descriptor that names a reserved code or G16, holds a reserved bit or has a bad base (R149, R165); FP64 is refused where the elements
are read by their format (notes/assumptions/71.md). -/
def streamBadCode (d : List Nat) : Bool :=
  d.isEmpty || (dword d 2 &&& 0xFE000000) != 0 || (dword d 3 &&& 0xFF000000) != 0 || dfield d 0 30 2 == 3
  || decide (12 < dfield d 0 24 4) || (!bit (dword d 2) 24 && dfield d 0 24 4 == 3)

/-- Whether the VOP or an operand is refused with BAD_COMMAND: the operand that failed, 0 to 3 (R165, R231). -/
def vecBadCommand (q : VecReq) : Option Nat :=
  let used := sourcesUsed q.vop q.lse
  let wantsMask := q.maskout || isReduction q.vop || isSoftmax q.vop
  if !vopDefined q.vop || !laneOk q.vop q.lane || q.round == 3 then some 0
  else if opKind q.dst == 3 || (opKind q.dst == 0 && !q.maskout) then some 0
  else if (isReduction q.vop && opKind q.dst != 1) || (q.vop == 0x2C && 30 < bits q.dst 0 5) || (q.vop == 0x2E && q.lse && opKind q.dst != 1)
    then some 0
  else if (!isReduction q.vop && q.rows != 1) then some 0
  else if q.maskout && isReduction q.vop then some 0
  else match ([1, 2, 3]).find? (fun i =>
      let k := opKind (q.operand i)
      if used.testBit (i - 1) then k == 0 || (k == 2 && streamBadCode (q.desc i))
        || (q.vop == 0x19 && k != 2) || (isSoftmax q.vop && i == 2 && (k != 1 || decide (30 < bits (q.operand i) 0 5)))
        || (q.vop == 0x2E && i == 3 && k != 1)
      else k != 0) with
    | some i => some i
    | none =>
      if opKind q.dst == 2 && streamBadCode (q.desc 0) then some 0
      else if opKind q.mask == 1 || opKind q.mask == 3 || (opKind q.mask == 2 && (!wantsMask || streamBadCode (q.desc 4)))
        || (q.maskout && opKind q.mask != 2) then some 0
      else if q.vop == 0x18 && (opKind q.a == 1 || opKind q.a == 3) && !isLane q.srcfmt then some 1
      else none

/-- The rows and images per row over which an instruction walks (R154, R159). -/
def VecReq.walk (q : VecReq) : Nat × Nat := if isReduction q.vop then (q.rows, q.reps / q.rows) else (q.reps, 1)

/-- The elements that an instruction reads of each image: those of its lane format, or fewer where CVT reads a register of a wider
source format (notes/assumptions/19.md). -/
def VecReq.count (q : VecReq) : Nat :=
  if q.vop = 0x18 && opKind q.a ≠ 2 then min (laneElems q.lane) (laneElems q.srcfmt) else laneElems q.lane

/-- Whether a stream breaks the shape rules (R150, R151, R165). -/
def streamBadShape (q : VecReq) (i : Nat) : Bool :=
  if opKind (q.operand i) ≠ 2 then false else
  let x := streamD (q.desc i)
  let nd := codeNd x.fmt && !x.isBits
  let (rows, len) := q.walk
  let n := q.count
  let ends : List Int := [x.bitAt 0 (x.off 0 0 n 0), x.bitAt 0 (x.off 0 0 n (n - 1)), x.bitAt (rows - 1) (x.off (rows - 1) (len - 1) n 0),
    x.bitAt (rows - 1) (x.off (rows - 1) (len - 1) n (n - 1))]
  let out (o : Int) : Bool := decide (o < 0) || decide ((0xC00000 : Int) * 8 < o + x.width)
  ends.any out
  || ((i == 0 || i == 4) && x.estride == 0)
  || ((nd || x.isBits) && x.estride != 1)
  || (nd && (x.rstride * 8 % (x.block * x.width) != 0
      || decide ((0xC00000 : Int) ≤ x.scale + (x.off (rows - 1) (len - 1) n (n - 1)) / x.block)))
  || (i == 4 && !x.isBits)

/-- Whether a linked pair breaks R154. -/
def pairBad (a b : VecReq) : Bool :=
  a.reps != b.reps || b.link || isReduction a.vop || isReduction b.vop

/-! ### Transcendental functions (R161 to R163) -/

/-- p / 2^31 of function `f` at index `i` and remainder `t`. -/
def transP (f i t : Nat) : Int :=
  let c0 : Int := (Config.transTable f 0 i) % 2 ^ 32
  let c1 : Int := toSigned 32 (ofSigned 32 (Config.transTable f 1 i))
  let c2 : Int := toSigned 16 (ofSigned 16 (Config.transTable f 2 i))
  let a := c2 * t / 2 ^ 24
  let b := (c1 + a) * t / 2 ^ 24
  c0 + b

/-- floor(m * 2^e * 2^n) of a non-negative value. -/
def fixed (m : Nat) (e : Int) (n : Nat) : Nat := let k := e + n; if 0 ≤ k then m <<< k.toNat else m >>> (-k).toNat

/-- floor(x * 2^32) of a finite value. -/
def floor32 (neg : Bool) (m : Nat) (e : Int) : Int :=
  let k := e + 32
  if 0 ≤ k then (if neg then -((m <<< k.toNat : Nat) : Int) else (m <<< k.toNat : Nat))
  else let d := 2 ^ (-k).toNat; if neg then -(((m + d - 1) / d : Nat) : Int) else (m / d : Nat)

/-- 2^k * p / 2^31 as FP32. -/
def scaled (neg : Bool) (p k : Int) : Nat × Nat := encodeFp fp32 .rne (.fin (neg != decide (p < 0)) p.natAbs (k - 31))

/-- EXP2. -/
def exp2 (x : Nat) : Nat × Nat :=
  match decodeFp fp32 x with
  | .nan => (fp32.nan, 0)
  | .inf n => (if n then 0 else fp32.infCode, 0)
  | .fin n m e =>
    let v := Fv.fin n m e
    if v.cmp (Fv.fin false 1 7) ≠ .lt then (fp32.infCode, flOverflow)
    else if v.cmp (Fv.fin true 150 0) = .lt then (0, 0)
    else
      let w := floor32 n m e
      let k := w / 2 ^ 32
      let f := (w % 2 ^ 32).toNat
      scaled false (transP 0 (f >>> 24) (f % 2 ^ 24)) k

/-- The exponent of a non-zero magnitude, and its fraction below the leading one in units of 2^-32. -/
def normal (m : Nat) (e : Int) : Int × Nat :=
  let k := Nat.log2 m
  (e + k, ((m - 2 ^ k) <<< 32) >>> k)

/-- LOG2. -/
def log2f (x : Nat) : Nat × Nat :=
  match decodeFp fp32 x with
  | .nan => (fp32.nan, 0)
  | .inf n => if n then (fp32.nan, flInvalid) else (fp32.infCode, 0)
  | .fin n m e =>
    if m = 0 then (fp32.signBit true + fp32.infCode, 0) else if n then (fp32.nan, flInvalid) else
    let (k, f) := normal m e
    let t := k * 2 ^ 31 + transP 1 (f >>> 24) (f % 2 ^ 24)
    encodeFp fp32 .rne (Fv.ofInt t (-31))

/-- RCP. -/
def rcp (x : Nat) : Nat × Nat :=
  match decodeFp fp32 x with
  | .nan => (fp32.nan, 0)
  | .inf n => (fp32.signBit n, 0)
  | .fin n m e =>
    if m = 0 then (fp32.signBit n + fp32.infCode, 0) else
    let (k, f) := normal m e
    scaled n (transP 2 (f >>> 24) (f % 2 ^ 24)) (-k)

/-- RSQRT. -/
def rsqrt (x : Nat) : Nat × Nat :=
  match decodeFp fp32 x with
  | .nan => (fp32.nan, 0)
  | .inf n => if n then (fp32.nan, flInvalid) else (0, 0)
  | .fin n m e =>
    if m = 0 then (fp32.signBit n + fp32.infCode, 0) else if n then (fp32.nan, flInvalid) else
    let (k, f) := normal m e
    let g := f >>> 1
    scaled false (transP 3 (128 * (k % 2).toNat + g >>> 24) (g % 2 ^ 24)) (-(k / 2))

/-- TANH. -/
def tanhf (x : Nat) : Nat × Nat :=
  let one (n : Bool) : Nat × Nat := (fp32.signBit n + 0x3F800000, 0)
  match decodeFp fp32 x with
  | .nan => (fp32.nan, 0)
  | .inf n => one n
  | .fin n m e =>
    if Fv.cmpMag m e 1 (-12) = .lt then (x, 0) else if Fv.cmpMag m e 16 0 ≠ .lt then one n else
    let v := fixed m e 28
    scaled n (transP 4 (v >>> 24) (v % 2 ^ 24)) 0

/-- SIGMOID. -/
def sigmoid (x : Nat) : Nat × Nat :=
  match decodeFp fp32 x with
  | .nan => (fp32.nan, 0)
  | .inf n => (if n then 0 else 0x3F800000, 0)
  | .fin n m e =>
    let v := Fv.fin n m e
    if v.cmp (Fv.fin false 16 0) ≠ .lt then (0x3F800000, 0)
    else if v.cmp (Fv.fin true 16 0) ≠ .gt then exp2 (fMul fp32 .rne x 0x3FB8AA3B).1
    else match (v.add (Fv.fin false 16 0)).1 with
      | .fin _ m e => let w := fixed m e 27; scaled false (transP 5 (w >>> 24) (w % 2 ^ 24)) 0
      | _ => (0, 0)

/-! ### Elementwise operations (R156, R157) -/

/-- A lane element as an exact value. -/
def laneValue (lane x : Nat) : Fv := decodeElem (laneFmt lane) x

/-- Whether a lane element is not zero (R156: SEL, PACK). -/
def laneNonzero (lane x : Nat) : Bool := if laneFloat lane then !(laneValue lane x).isZero else x != 0

/-- A saturated integer and whether it saturated. -/
def laneSat (lane : Nat) (i : Int) : Nat × Bool :=
  let (x, f) := satInt (laneBits lane) (laneSigned lane) i
  (x, f != 0)

/-- A lane element as an integer. -/
def laneInt (lane x : Nat) : Int := if laneSigned lane then toSigned (laneBits lane) x else (x : Int)

/-- The result of an elementwise operation with its flags, and whether an integer saturated (R156, R157, R162). -/
def vopElem (v lane : Nat) (rm : Rm) (a b c : Nat) : Nat × Nat × Bool :=
  let f := laneFp lane
  let w := laneBits lane
  let fl (r : Nat × Nat) : Nat × Nat × Bool := (r.1, r.2 &&& flInvalid, false)
  let sat (i : Int) : Nat × Nat × Bool := let (x, o) := laneSat lane i; (x, 0, o)
  let tr (r : Nat × Nat) : Nat × Nat × Bool := (r.1, r.2, false)
  let sg := laneSigned lane
  let rel (r : Nat) : Bool := if laneFloat lane then fRel f r a b else relHolds r (compare (laneInt lane a) (laneInt lane b))
  match v with
  | 0x00 => if laneFloat lane then fl (fAdd f rm a b) else sat (laneInt lane a + laneInt lane b)
  | 0x01 => if laneFloat lane then fl (fSub f rm a b) else sat (laneInt lane a - laneInt lane b)
  | 0x02 => fl (fMul f rm a b)
  | 0x03 => fl (fFma f rm a b c)
  | 0x04 => if laneFloat lane then (fMin f a b, 0, false) else (if laneInt lane b < laneInt lane a then b else a, 0, false)
  | 0x05 => if laneFloat lane then (fMax f a b, 0, false) else (if laneInt lane a < laneInt lane b then b else a, 0, false)
  | 0x06 => (if (decodeFp f a).isNan then f.nan else a % 2 ^ (w - 1), 0, false)
  | 0x07 => (if (decodeFp f a).isNan then f.nan else a ^^^ 2 ^ (w - 1), 0, false)
  | 0x0E => let x := if laneNonzero lane a then b else c; (if laneFloat lane then canonical f x else x, 0, false)
  | 0x10 => (if w ≤ b then 0 else (a <<< b) % 2 ^ w, 0, false)
  | 0x11 => (if w ≤ b then 0 else a >>> b, 0, false)
  | 0x12 => (ofSigned w (toSigned w a / (2 ^ min b w : Nat)), 0, false)
  | 0x13 => (a &&& b, 0, false)
  | 0x14 => (a ||| b, 0, false)
  | 0x15 => (a ^^^ b, 0, false)
  | 0x16 => (a &&& (b ^^^ (2 ^ w - 1)), 0, false)
  | 0x20 => tr (exp2 a)
  | 0x21 => tr (log2f a)
  | 0x22 => tr (rcp a)
  | 0x23 => tr (rsqrt a)
  | 0x24 => tr (tanhf a)
  | 0x25 => tr (sigmoid a)
  | 0x30 | 0x31 => (if laneNonzero lane a then (if laneFloat lane then (encodeFp f .rne (Fv.fin false 1 0)).1 else 1) else 0, 0, false)
  | v => if 0x08 ≤ v && v ≤ 0x0D then (if rel (v - 8) then 2 ^ w - 1 else 0, 0, false) else (if sg then a else a, 0, false)

/-- RELU (R158). -/
def relu (lane x : Nat) : Nat :=
  if laneFloat lane then (if (laneValue lane x).isNan then x else if bit x (laneBits lane - 1) then 0 else x)
  else if laneInt lane x < 0 then 0 else x

/-- The mask bit of MASKOUT: the result is above +0 (R158). -/
def maskBit (lane x : Nat) : Bool :=
  if laneFloat lane then (match laneValue lane x with
    | .nan => false
    | v => v.cmp (Fv.fin false 0 0) == .gt)
  else decide (0 < laneInt lane x)

namespace State

/-- The vector engine of cluster `c`. -/
def vec (s : State) (c : Nat) : VecSt := s.vecs.get {} c

/-- The state with a vector engine changed. -/
def setVec (s : State) (c : Nat) (v : VecSt) : State := { s with vecs := s.vecs.set {} c v }

/-! ### Reading images -/

/-- Element `e` of register `w` in a lane format (R145). -/
def regElem (v : VecSt) (w lane e : Nat) : Nat :=
  let b := laneBits lane
  let per := 32 / b
  bits (v.lanes.get 0 (w * 512 + e / per)) (b * (e % per)) b

/-- The state of a register with element `e` replaced. -/
def setElem (m : SMap Nat) (w lane e x : Nat) : SMap Nat :=
  let b := laneBits lane
  let per := 32 / b
  let k := w * 512 + e / per
  m.set 0 k (putBits (m.get 0 k) (b * (e % per)) b x)

/-- The bit at a bit offset of a cluster's memory. -/
def cbitAt (s : State) (c : Nat) (o : Int) : Bool := bit (s.cbyte c (o.toNat / 8)) (o.toNat % 8)

/-- The code of the element at offset `o` of row `r` of a stream (R69, R150). -/
def streamCode (s : State) (c : Nat) (x : StreamD) (r : Nat) (o : Int) : Nat :=
  let w := x.width
  if w = 6 then planeElem 6 (o.toNat % 4) (fun i => s.cbyte c (x.addr + o.toNat / 4 * 3 + i))
  else
    let b := (x.bitAt r o).toNat
    if w < 8 then bits (s.cbyte c (b / 8)) (b % 8) w else s.peekNat (cmemLpa c (b / 8)) (w / 8)

/-- One element of a source stream converted to the lane format (R71, R81, R151): the element and the flags. SR takes the bits of the source
descriptor at the element's offset, since R152 gives an index to destination elements only (notes/assumptions/20.md). An element of a block that is not
finite raises NONFINITE, and INVALID as well where the lanes are no FP32 lanes (DESIGN CHOICE, notes/assumptions/130.md). -/
def streamElem (s : State) (c : Nat) (x : StreamD) (lane round r : Nat) (o : Int) : Nat × Nat :=
  let dst := laneFmt lane
  let rm := (rmOfCode round (srBits x.seed x.tensor (x.index + o).toNat)).getD .rne
  if x.isBits then
    let v := s.cbitAt c (x.addr * 8 + o)
    (if v then (if laneFloat lane then (encodeFp (laneFp lane) .rne (Fv.fin false 1 0)).1 else 1) else 0, 0)
  else
    let code := s.streamCode c x r o
    match fmtOfCode x.fmt with
    | some (.nd f) =>
      let sc := s.cbyte c (x.scale + o.toNat / x.block)
      let v := (encodeFp fp32 .rne (ndValue f sc code)).1
      let (y, fl) := convert (.fp fp32) dst rm v
      (y, fl ||| scaleFlags sc)
    | some f => convert f dst rm code
    | none => (0, 0)

/-- The rounding of a result element that is written to a register or stream: SR takes the destination stream's bits (R152), or a free
value where the destination is a register (R80; notes/assumptions/20.md). -/
def resultRm (s : State) (q : VecReq) (r n e : Nat) : Rm :=
  let x := streamD (q.desc 0)
  let bits32 := if opKind q.dst = 2 then srBits x.seed x.tensor (x.index + x.off r 0 n e).toNat else Config.freeValue (s.free + e)
  (rmOfCode q.round bits32).getD .rne

/-- Element `e` of source operand `i` for row `r`, image `j` (R148 to R153): the element and the flags. A register is read in the
lane format, or by CVT in SRCFMT. -/
def vecSource (s : State) (c : Nat) (q : VecReq) (i r j n e : Nat) : Nat × Nat :=
  let o := q.operand i
  match opKind o with
  | 2 => let x := streamD (q.desc i); s.streamElem c x q.lane q.round r (x.off r j n e)
  | 0 => (0, 0)
  | _ =>
    let v := s.vec c
    if q.vop = 0x18 then
      let code := regElem v (bits o 0 5) q.srcfmt e
      convert (laneFmt q.srcfmt) (laneFmt q.lane) (s.resultRm q r n e) code
    else (regElem v (bits o 0 5) q.lane e, 0)

/-- Whether the mask operand selects element `e` (R159, R160): no mask selects all. -/
def vecMask (s : State) (c : Nat) (q : VecReq) (r j n e : Nat) : Bool :=
  if opKind q.mask ≠ 2 || q.maskout then true else
  let x := streamD (q.desc 4)
  s.cbitAt c (x.addr * 8 + x.off r j n e)

/-! ### Writing images (R151, R152, R158) -/

/-- Packed bits or elements of less than a byte written at a bit offset. -/
def cpokeBits (s : State) (p c : Nat) (b w v : Nat) : State :=
  let n := (b % 8 + w + 7) / 8
  let old := ofLeBytes ((List.range n).map (fun i => BitVec.ofNat 8 (s.cbyte c (b / 8 + i))))
  s.cpoke p c (b / 8) (leBytes n (putBits old (b % 8) w v))

/-- One element of a destination stream at offset `o` of row `r` (R151). -/
def storeElem (s : State) (p c : Nat) (x : StreamD) (r : Nat) (o : Int) (code : Nat) : State :=
  let w := x.width
  if w = 6 then s.cpokeBits p c ((x.addr + o.toNat / 4 * 3) * 8 + 6 * (o.toNat % 4)) 6 code
  else if w < 8 then s.cpokeBits p c (x.bitAt r o).toNat w code
  else s.cpoke p c ((x.bitAt r o).toNat / 8) (leBytes (w / 8) code)

/-- The 8-byte words of a cluster's memory that an image's write covers whole lose their poison (R236): those within bits `lo` to `hi` - 1,
which adjacent elements fill. -/
def cclean (s : State) (c lo hi : Nat) : State :=
  let w0 := (cmemLpa c 0 * 8 + lo + 63) / 64
  let w1 := (cmemLpa c 0 * 8 + hi) / 64
  if s.domOn c then { s with cpoison := s.cpoison.dropIf (fun w => decide (w0 ≤ w) && decide (w < w1)) } else s

/-- The words that an image of `n` elements from the bit offset of its first covers whole, where its elements are adjacent. -/
def cleanImage (s : State) (c : Nat) (x : StreamD) (r n : Nat) : State :=
  let a := if x.width = 6 then (x.addr * 8 + x.off r 0 n 0 * 6) else x.bitAt r (x.off r 0 n 0)
  if x.estride = 1 then s.cclean c a.toNat (a.toNat + n * x.width)
  else if x.estride = -1 then s.cclean c (a.toNat + x.width - n * x.width) (a.toNat + x.width)
  else s

/-- The rounding of a destination element at offset `o` (R152). -/
def storeRm (x : StreamD) (o : Int) : Rm := (rmOfCode x.round (srBits x.seed x.tensor (x.index + o).toNat)).getD .rne

/-- An image of lane elements written to a destination stream (R151): the state and the flags. What the collimator takes is FP32: an INT32
above 2^24 is rounded to it by RNE (notes/assumptions/99.md). -/
def storeImage (s : State) (p c lane : Nat) (x : StreamD) (r n : Nat) (l : List Nat) : State × Nat :=
  let s := s.cleanImage c x r l.length
  let off (e : Nat) : Int := x.off r 0 n e
  if x.isBits then
    (l.zipIdx.foldl (fun s q => s.cpokeBits p c (x.addr * 8 + off q.2).toNat 1 (b2n (laneNonzero lane q.1))) s, 0)
  else match fmtOfCode x.fmt with
    | some (.nd f) =>
      let vs := l.map (fun v => (convert (laneFmt lane) (.fp fp32) .rne v).1)
      let (sc, el, os) := collimateRow f x.block (fun e => storeRm x (off e)) vs
      let s := (el.take l.length).zipIdx.foldl (fun s q => s.storeElem p c x r (off q.2) q.1) s
      let s := s.cpoke p c (x.scale + (off 0).toNat / x.block) (sc.map (BitVec.ofNat 8))
      (os.foldl (fun s o => s.countBlock c o) s, os.foldl (fun a o => a ||| o.flags) 0)
    | some fo =>
      l.zipIdx.foldl (fun (st : State × Nat) q =>
        let (y, fl) := convert (laneFmt lane) fo (storeRm x (off q.2)) q.1
        (st.1.storeElem p c x r (off q.2) y, st.2 ||| fl)) (s, 0)
    | none => (s, 0)

/-- A result image goes to the destination of an instruction, with its modifiers (R158): the state and the flags. -/
def storeResult (s : State) (c : Nat) (q : VecReq) (r n : Nat) (l : List Nat) : State × Nat :=
  let s := if q.maskout then
      let x := streamD (q.desc 4)
      l.zipIdx.foldl (fun (s : State) e => s.cpokeBits q.part c (x.addr * 8 + x.off r 0 n e.2).toNat 1 (b2n (maskBit q.lane e.1))) (s.cleanImage c x r l.length)
    else s
  let l := if q.relu then l.map (relu q.lane) else l
  match opKind q.dst with
  | 2 => s.storeImage q.part c q.lane (streamD (q.desc 0)) r n l
  | 1 =>
    let v := s.vec c
    let w := bits q.dst 0 5
    if q.vop = 0x30 then
      (s.setVec c { v with lanes := (List.range ((n + 31) / 32)).foldl (fun m k =>
        m.set 0 (w * 512 + k) ((List.range 32).foldl (fun a i => a + b2n (laneNonzero q.lane ((l[32 * k + i]?).getD 0)) * 2 ^ i) 0)) v.lanes }, 0)
    else (s.setVec c { v with lanes := l.zipIdx.foldl (fun m e => setElem m w q.lane e.2 e.1) v.lanes }, 0)
  | _ => (s, 0)

/-! ### One repetition -/

/-- The softmax statistics of row `q` (R160): the maximum, and the count and marks; free values past the 512 rows of a register, which the
elements' own draws leave alone. -/
def smStats (s : State) (c w q : Nat) : Nat × Nat :=
  let v := s.vec c
  if q < 512 then (v.lanes.get 0 (w * 512 + q), v.lanes.get 0 ((w + 1) * 512 + q))
  else (Config.freeValue (s.free + 2048) % 2 ^ 32, Config.freeValue (s.free + 2049) % 2 ^ 32)

/-- SM_EXP of one element (R160). -/
def smExp (m st x : Nat) (sel : Bool) : Nat × Nat :=
  if !sel || x == 0xFF800000 then (0, 0)
  else if bit st 16 then (fp32.nan, 0)
  else if bits st 0 16 ≠ 0 then (if x = 0x7F800000 then (0x3F800000, 0) else (0, 0))
  else let r := exp2 (fMul fp32 .rne (fSub fp32 .rne x m).1 0x3FB8AA3B).1; (r.1, r.2)

/-- 1 / c as FP32. -/
def recipCount (n : Nat) : Nat := (encodeQuot fp32 .rne false 1 0 (max 1 n)).1

/-- SM_NORM of one element (R160, R94). -/
def smNorm (st sum x : Nat) : Nat × Nat :=
  if bit st 16 then (fp32.nan, flInvalid)
  else if bits st 0 16 ≠ 0 then (if x = 0x3F800000 then (recipCount (bits st 0 16), 0) else (0, 0))
  else if bit st 17 then (0, flEmpty)
  else ((fMul fp32 .rne x (rcp sum).1).1, 0)

/-- The log-sum-exp of a row (R160, R94). -/
def smLse (m st sum : Nat) : Nat × Nat :=
  if bit st 16 then (fp32.nan, flInvalid)
  else if bits st 0 16 ≠ 0 then (fp32.infCode, 0)
  else if bit st 17 then (0xFF800000, flEmpty)
  else ((fAdd fp32 .rne m (fMul fp32 .rne (log2f sum).1 0x3F317218).1).1, 0)

/-- One elementwise repetition `r` of an instruction: the state and the flags. With LSE the one result of the row takes RELU, and MASKOUT
writes its bit as that of element 0 (R158; notes/assumptions/71.md). -/
def vecElementwise (s : State) (c : Nat) (q : VecReq) (r : Nat) : State × Nat :=
  let n := q.count
  let xs : List (Nat × Nat × Bool) := (List.range n).map (fun e =>
    let src (i : Nat) : Nat × Nat := if (sourcesUsed q.vop q.lse).testBit (i - 1) then s.vecSource c q i r 0 n e else (0, 0)
    match q.vop with
    | 0x19 =>
      let x := streamD (q.desc 1)
      (srBits x.seed x.tensor (x.index + x.off r 0 n e).toNat, 0, false)
    | 0x2D =>
      let (a, fl) := src 1
      let (m, st) := s.smStats c (bits q.b 0 5) r
      let (y, fl') := smExp m st a (s.vecMask c q r 0 n e)
      (y, fl ||| fl', false)
    | 0x2E =>
      let (a, fl) := src 1
      let (_, st) := s.smStats c (bits q.b 0 5) r
      let (y, fl') := smNorm st ((s.vec c).lanes.get 0 (bits q.c 0 5 * 512 + r)) a
      (y, fl ||| fl', false)
    | 0x31 =>
      if opKind q.a = 2 then let (a, fl) := src 1; let (y, f2, o) := vopElem 0x31 q.lane .rne a 0 0; (y, fl ||| f2, o)
      else vopElem 0x31 q.lane .rne (b2n (bit ((s.vec c).lanes.get 0 (bits q.a 0 5 * 512 + e / 32)) (e % 32))) 0 0
    | v =>
      let (a, f1) := src 1
      let (b, f2) := src 2
      let (d, f3) := src 3
      let (y, fl, o) := vopElem v q.lane (s.resultRm q r n e) a b d
      (y, f1 ||| f2 ||| f3 ||| fl, o))
  let fl := xs.foldl (fun a x => a ||| x.2.1) 0
  let s := s.bump (home .vec c 0x128) (xs.filter (fun x => x.2.2)).length
  if q.vop = 0x2E && q.lse then
    let (m, st) := s.smStats c (bits q.b 0 5) r
    let (y, f) := smLse m st ((s.vec c).lanes.get 0 (bits q.c 0 5 * 512 + r))
    let x := streamD (q.desc 4)
    let s := if q.maskout then s.cpokeBits q.part c (x.addr * 8 + x.off r 0 n 0).toNat 1 (b2n (maskBit q.lane y)) else s
    let y := if q.relu then relu q.lane y else y
    let v := s.vec c
    ({ s.setVec c { v with lanes := if r < 512 then v.lanes.set 0 (bits q.dst 0 5 * 512 + r) y else v.lanes } with free := s.free + 2050 },
      fl ||| f)
  else
    let (s, f) := s.storeResult c q r n (xs.map Prod.fst)
    ({ s with free := s.free + 2050 }, fl ||| f)

/-- The partial result of a row before its first element: the sum +0; no element yet for a maximum (second part 0); for SM_STAT
the maximum -Inf and its marks (bit 16 NaN seen, bit 17 nothing finite or +Inf, the count of +Inf from bit 18 up). -/
def accStart (v : Nat) : Nat × Nat := if v = 0x2C then (0xFF800000, 0x20000) else (0, 0)

/-- One element joins a row's partial result (R93, R159, R160): the partial result, the flags, and whether an integer saturated. -/
def accStep (v lane : Nat) (acc : Nat × Nat) (a b : Nat) : (Nat × Nat) × Nat × Bool :=
  match v with
  | 0x29 =>
    if acc.2 = 0 then ((if lane = 0 then canonical fp32 a else a, 1), 0, false)
    else ((if lane = 0 then fMax fp32 acc.1 a else (if toSigned 32 acc.1 < toSigned 32 a then a else acc.1), 1), 0, false)
  | 0x2C =>
    match decodeFp fp32 a with
    | .nan => ((acc.1, acc.2 ||| 0x10000), 0, false)
    | .inf true => (acc, 0, false)
    | .inf false => ((acc.1, (acc.2 / 0x40000 + 1) * 0x40000 + bits acc.2 16 1 * 0x10000), 0, false)
    | _ => ((if acc.1 = 0xFF800000 then a else fMax fp32 acc.1 a, acc.2 / 0x40000 * 0x40000 + bits acc.2 16 1 * 0x10000), 0, false)
  | v =>
    if lane = 0 then
      let t : Fv × Bool := if v = 0x2A then (decodeFp fp32 a).mul (decodeFp fp32 b) else (decodeFp fp32 a, false)
      let (x, fl) := accAdd (acc.1, 0) t
      ((x, 1), fl, false)
    else
      let i : Int := toSigned 32 acc.1 + (if v = 0x2A then toSigned 32 a * toSigned 32 b else toSigned 32 a)
      let (x, o) := satInt 32 true i
      ((x, 1), 0, o != 0)

/-- The second word of SM_STAT (R160): the count and the marks; a count that the field cannot hold leaves a free value there
(notes/assumptions/96.md). -/
def smWord (acc free : Nat) : Nat :=
  bits acc 16 2 * 0x10000 + (if acc / 0x40000 < 0x10000 then acc / 0x40000 else free % 0x10000)

/-- Whether a ROWDOT reads two Ndoum streams, whose products R93 sums by the segments of R87. -/
def ndDot (q : VecReq) : Bool :=
  let nd (i : Nat) : Bool := opKind (q.operand i) == 2 && codeNd (streamD (q.desc i)).fmt && !(streamD (q.desc i)).isBits
  q.vop == 0x2A && q.lane == 0 && nd 1 && nd 2

/-- One image of a ROWDOT of two Ndoum streams (R87, R88, R93): its segments of G positions, with the positions that the mask leaves, join the
accumulator. -/
def dotImage (s : State) (c : Nat) (q : VecReq) (row j n : Nat) (acc : Nat × Nat) : Nat × Nat :=
  let xa := streamD (q.desc 1)
  let xb := streamD (q.desc 2)
  let g := min xa.block xb.block
  let scale (x : StreamD) (e : Nat) : Nat := s.cbyte c (x.scale + (x.off row j n e).toNat / x.block)
  let value (x : StreamD) (e : Nat) : Fv := decodeElem (laneFmt x.fmt) (s.streamCode c x row (x.off row j n e))
  dot87 acc ((List.range (n / g)).map (fun i =>
    { sa := scale xa (i * g), sb := scale xb (i * g),
      ps := (((List.range g).map (i * g + ·)).filter (fun e => s.vecMask c q row j n e)).map (fun e => (value xa e, value xb e)) }))

/-- One image of a reduction (R159): image `j` of row `q` joins the row's partial result; the last image of a row writes lane `q`. -/
def vecReduce (s : State) (c : Nat) (x : VecRun) : State × VecRun :=
  let q := x.first
  let row := x.rep % q.rows
  let j := x.rep / q.rows
  let n := q.count
  let r0 := x.acc.get (accStart q.vop) row
  let (acc, fl, sat) := if ndDot q then (let z := s.dotImage c q row j n (r0.1, 0); ((z.1, 1), z.2, 0)) else (List.range n).foldl (fun (st : (Nat × Nat) × Nat × Nat) e =>
    if !s.vecMask c q row j n e then st else
    let (a, f1) := s.vecSource c q 1 row j n e
    let (b, f2) := if q.vop = 0x2A then s.vecSource c q 2 row j n e else (0, 0)
    let (acc, f3, o) := accStep q.vop q.lane st.1 a b
    (acc, st.2.1 ||| f1 ||| f2 ||| f3, st.2.2 + b2n o)) (r0, 0, 0)
  let s := s.bump (home .vec c 0x128) sat
  let x := { x with acc := x.acc.set (accStart q.vop) row acc, flags := x.flags ||| fl }
  if j + 1 < q.reps / q.rows then (s, x) else
  let w := bits q.dst 0 5
  let empty := q.vop == 0x29 && acc.2 == 0
  let (y, s) := s.draw
  let z := if empty then y % 2 ^ 32 else acc.1
  let z := if q.relu then relu q.lane z else z
  let v := s.vec c
  let m := v.lanes.set 0 (w * 512 + row) z
  (s.setVec c { v with lanes := if q.vop = 0x2C then m.set 0 ((w + 1) * 512 + row) (smWord acc.2 y) else m }, x)

/-! ### Acceptance and completion (R154, R155, R165) -/

/-- Whether a register is bound as the port by a tile instruction that has not completed (R153). -/
def portBound (s : State) (c w : Nat) : Bool :=
  (s.arr c).runs.any (fun r => r.route == 1 && r.port == w)
    || (s.arr c).held.any (fun q => (tileD q.2.desc).route == 1 && dfield q.2.desc 13 0 5 == w)

/-- Whether operand `i` reads the port (R153, R231). -/
def readsPort (s : State) (c : Nat) (q : VecReq) (i : Nat) : Bool :=
  (sourcesUsed q.vop q.lse).testBit (i - 1) &&
  (match opKind (q.operand i) with
   | 3 => true
   | 1 => s.portBound c (bits (q.operand i) 0 5)
   | _ => false)

/-- Whether an instruction writes a register that is bound as the port (R153). -/
def writesPort (s : State) (c : Nat) (q : VecReq) : Bool :=
  opKind q.dst == 1 && (s.portBound c (bits q.dst 0 5) || (q.vop == 0x2C && s.portBound c (bits q.dst 0 5 + 1)))

/-- Whether a source or mask stream of an instruction meets poisoned data (R165). -/
def streamPoison (s : State) (c : Nat) (q : VecReq) : Option Nat :=
  [1, 2, 3, 4].find? (fun i =>
    if opKind (q.operand i) ≠ 2 || q.vop == 0x19 || (i == 4 && q.maskout) then false else
    let x := streamD (q.desc i)
    let (rows, len) := q.walk
    let n := q.count
    (List.range rows).any (fun r => (List.range len).any (fun j => (List.range n).any (fun e =>
      let o := x.off r j n e
      s.cpoisoned c ((if x.width = 6 then (x.addr * 8 + o * 6) else x.bitAt r o).toNat / 8) ((x.width + 7) / 8)
      || (codeNd x.fmt && !x.isBits && s.cpoisoned c (x.scale + o.toNat / x.block) 1)))))

/-- The first failing check of an instruction (R165): its code and the operand that failed. -/
def vecCheck (s : State) (c : Nat) (q : VecReq) : Option (Nat × Nat) :=
  match vecBadCommand q with
  | some i => some (0x0102, i)
  | none =>
    match [0, 1, 2, 3, 4].find? (streamBadShape q) with
    | some i => some (0x0401, if i = 4 then 0 else i)
    | none =>
      if s.writesPort c q || q.reps % q.rows ≠ 0 then some (0x0401, 0)
      else (s.streamPoison c q).map (fun i => (0x0801, if i = 4 then 0 else i))

/-- A group's count of vector instructions in progress falls by one, if the group is still there. -/
def vecDone (s : State) (q : VecReq) : State :=
  let g := s.grp q.unit q.slot
  if g.live && g.stream == q.stream && g.cmd == q.cmd then s.setGrp q.unit q.slot { g with vecs := g.vecs - 1 } else s

/-- An instruction fails (R165): counted, its code recorded, its launch stopped. -/
def vecFail (s : State) (c : Nat) (qs : List VecReq) (q : VecReq) (code operand : Nat) : State :=
  let s := s.bump (home .vec c 0x130) 1
  let s := s.setReg (home .vec c 0x14) (code + (q.unit % 4) * 0x10000 + operand * 0x40000)
  qs.foldl (fun s q => (s.vecDone q).instrEnded c) (s.stopLaunch q.part q.stream q.cmd code)

/-- The head of a unit's queue that may be accepted: one instruction, or a linked pair that stands whole. -/
def acceptable (x : UnitSt) : Option (VecReq × Option VecReq × List VecReq) :=
  match x.vecQ with
  | [] => none
  | q :: rest =>
    if !q.link then some (q, none, rest) else
    match rest with
    | r :: rest => some (q, some r, rest)
    | [] => none

/-- The instruction that the engine of cluster `c` runs next, or would accept next. -/
def nextVec (s : State) (c : Nat) : Option (VecReq × Option VecReq × Option Nat) :=
  match (s.vec c).run with
  | some x => some (if x.inSecond then x.second.getD x.first else x.first, x.second, none)
  | none =>
    match nextUnit c (s.vec c).last (fun u => (acceptable (s.unit u)).isSome) with
    | none => none
    | some u => match acceptable (s.unit u) with
      | some (q, r, _) => some (q, r, some u)
      | none => none

/-- The engine accepts the next instruction or pair of unit `u`, or fails it (R154, R165). -/
def vecAccept (s : State) (c u : Nat) : State :=
  match acceptable (s.unit u) with
  | none => s
  | some (q, r, rest) =>
    let s := s.setUnit u { s.unit u with vecQ := rest }
    let s := s.setVec c { s.vec c with last := u % 4 }
    let qs := q :: r.toList
    let bad := (match r with
        | some r => if pairBad q r then some (q, 0x0401, 0) else none
        | none => none)
      <|> qs.findSome? (fun q => (s.vecCheck c q).map (fun e => (q, e.1, e.2)))
    match bad with
    | some (x, code, i) => s.vecFail c qs x code i
    | none => s.setVec c { s.vec c with run := some { first := q, second := r, rep := 0, inSecond := false, acc := [], flags := 0 } }

/-- Whether the repetition that is next may run: its port image stands in the port (R153). -/
def vecReady (s : State) (c : Nat) (q : VecReq) : Bool :=
  [1, 2, 3].all (fun i => !s.readsPort c q i || (s.vec c).full == some (bits (q.operand i) 0 5))

/-- The port image is released where an operand that reads the port carries RELEASE (R153). -/
def vecRelease (s : State) (c : Nat) (q : VecReq) : State :=
  if [1, 2, 3].any (fun i => (sourcesUsed q.vop q.lse).testBit (i - 1) && opKind (q.operand i) == 3 && bit (q.operand i) 5) then
    s.setVec c { s.vec c with full := none } else s

/-- The cycles in which one image is processed (R147, R156): 512 elements a cycle, 256 for a transcendental function and SM_EXP. -/
def imageCycles (q : VecReq) : Nat := laneElems q.lane / (if isTrans q.vop || q.vop = 0x2D then 256 else 512)

/-- One repetition of the running instruction (R147, R154): an image is processed, and after the last one the instruction waits for
its completion. -/
def vecRun (s : State) (c : Nat) (x : VecRun) : State :=
  let q := if x.inSecond then x.second.getD x.first else x.first
  let s := s.bump (home .vec c 0x108) (imageCycles q)
  let (s, x) := if isReduction q.vop then s.vecReduce c x
    else let (s, fl) := s.vecElementwise c q x.rep; (s, { x with flags := x.flags ||| fl })
  let s := s.vecRelease c q
  let x := if x.second.isSome && !x.inSecond then { x with inSecond := true } else { x with inSecond := false, rep := x.rep + 1 }
  let v := s.vec c
  if x.rep < x.first.reps then s.setVec c { v with run := some x }
  else s.setVec c { v with run := none, done := v.done ++ [(x.first, x.flags)] ++ (x.second.map (fun r => (r, 0))).toList }

/-- The engine of cluster `c` runs one repetition of the instruction at its head where the operation satisfies `f`: it accepts the
instruction first where it is idle. -/
def vecStep (s : State) (c : Nat) (f : Nat → Bool) : State :=
  match s.nextVec c with
  | none => s
  | some (q, _, u) =>
    if !f q.vop then s else
    let s := match u with
      | some u => s.vecAccept c u
      | none => s
    match (s.vec c).run with
    | some x => if s.vecReady c (if x.inSecond then x.second.getD x.first else x.first) then s.vecRun c x else s
    | none => s

/-- The oldest instruction whose last result is written completes (R155): counted, its flags joined, its counter signalled. An
instruction with a reserved operation, which no operation row runs, fails here (R165). -/
def vecComplete (s : State) (c : Nat) : State :=
  let v := s.vec c
  match v.done with
  | (q, fl) :: rest =>
    let s := (s.setVec c { v with done := rest }).addFlags q.part q.stream q.cmd fl
    let s := s.bump (home .vec c 0x100) 1
    let s := if q.signal then s.engineSignal (0x120 + c) q.part q.stream q.cmd (c / 8 * 4096 + q.counter) else s
    (s.vecDone q).instrEnded c
  | [] => s.vecStep c (fun op => !vopDefined op)

end State

/-- VOP_ADD (R156). -/
def execVopAdd (c : Fin 32) (s : State) : Out := .next (s.vecStep c.val (· == 0x00))
/-- VOP_SUB (R156). -/
def execVopSub (c : Fin 32) (s : State) : Out := .next (s.vecStep c.val (· == 0x01))
/-- VOP_MUL (R156). -/
def execVopMul (c : Fin 32) (s : State) : Out := .next (s.vecStep c.val (· == 0x02))
/-- VOP_FMA (R156). -/
def execVopFma (c : Fin 32) (s : State) : Out := .next (s.vecStep c.val (· == 0x03))
/-- VOP_MIN (R157). -/
def execVopMin (c : Fin 32) (s : State) : Out := .next (s.vecStep c.val (· == 0x04))
/-- VOP_MAX (R157). -/
def execVopMax (c : Fin 32) (s : State) : Out := .next (s.vecStep c.val (· == 0x05))
/-- VOP_ABS (R156). -/
def execVopAbs (c : Fin 32) (s : State) : Out := .next (s.vecStep c.val (· == 0x06))
/-- VOP_NEG (R156). -/
def execVopNeg (c : Fin 32) (s : State) : Out := .next (s.vecStep c.val (· == 0x07))
/-- VOP_CMP (R157): the six relations. -/
def execVopCmp (c : Fin 32) (s : State) : Out := .next (s.vecStep c.val (fun v => decide (0x08 ≤ v) && decide (v ≤ 0x0D)))
/-- VOP_SEL (R156). -/
def execVopSel (c : Fin 32) (s : State) : Out := .next (s.vecStep c.val (· == 0x0E))
/-- VOP_SHL (R157). -/
def execVopShl (c : Fin 32) (s : State) : Out := .next (s.vecStep c.val (· == 0x10))
/-- VOP_SHR (R157). -/
def execVopShr (c : Fin 32) (s : State) : Out := .next (s.vecStep c.val (· == 0x11))
/-- VOP_SAR (R157). -/
def execVopSar (c : Fin 32) (s : State) : Out := .next (s.vecStep c.val (· == 0x12))
/-- VOP_AND (R156). -/
def execVopAnd (c : Fin 32) (s : State) : Out := .next (s.vecStep c.val (· == 0x13))
/-- VOP_OR (R156). -/
def execVopOr (c : Fin 32) (s : State) : Out := .next (s.vecStep c.val (· == 0x14))
/-- VOP_XOR (R156). -/
def execVopXor (c : Fin 32) (s : State) : Out := .next (s.vecStep c.val (· == 0x15))
/-- VOP_ANDN (R156). -/
def execVopAndn (c : Fin 32) (s : State) : Out := .next (s.vecStep c.val (· == 0x16))
/-- VOP_CVT (R151, R156). -/
def execVopCvt (c : Fin 32) (s : State) : Out := .next (s.vecStep c.val (· == 0x18))
/-- RNDBITS (R156). -/
def execRndbits (c : Fin 32) (s : State) : Out := .next (s.vecStep c.val (· == 0x19))
/-- EXP2 (R162). -/
def execExp2 (c : Fin 32) (s : State) : Out := .next (s.vecStep c.val (· == 0x20))
/-- LOG2 (R162). -/
def execLog2 (c : Fin 32) (s : State) : Out := .next (s.vecStep c.val (· == 0x21))
/-- RCP (R162). -/
def execRcp (c : Fin 32) (s : State) : Out := .next (s.vecStep c.val (· == 0x22))
/-- RSQRT (R162). -/
def execRsqrt (c : Fin 32) (s : State) : Out := .next (s.vecStep c.val (· == 0x23))
/-- TANH (R162). -/
def execTanh (c : Fin 32) (s : State) : Out := .next (s.vecStep c.val (· == 0x24))
/-- SIGMOID (R162). -/
def execSigmoid (c : Fin 32) (s : State) : Out := .next (s.vecStep c.val (· == 0x25))
/-- ROWSUM (R159). -/
def execRowsum (c : Fin 32) (s : State) : Out := .next (s.vecStep c.val (· == 0x28))
/-- ROWMAX (R159). -/
def execRowmax (c : Fin 32) (s : State) : Out := .next (s.vecStep c.val (· == 0x29))
/-- ROWDOT (R159). -/
def execRowdot (c : Fin 32) (s : State) : Out := .next (s.vecStep c.val (· == 0x2A))
/-- SM_STAT (R160). -/
def execSmStat (c : Fin 32) (s : State) : Out := .next (s.vecStep c.val (· == 0x2C))
/-- SM_EXP (R160). -/
def execSmExp (c : Fin 32) (s : State) : Out := .next (s.vecStep c.val (· == 0x2D))
/-- SM_NORM (R160). -/
def execSmNorm (c : Fin 32) (s : State) : Out := .next (s.vecStep c.val (· == 0x2E))
/-- PACK (R156). -/
def execPack (c : Fin 32) (s : State) : Out := .next (s.vecStep c.val (· == 0x30))
/-- UNPACK (R156). -/
def execUnpack (c : Fin 32) (s : State) : Out := .next (s.vecStep c.val (· == 0x31))
/-- VECTOR_COMPLETE (R155). -/
def execVectorComplete (c : Fin 32) (s : State) : Out := .next (s.vecComplete c.val)

end Sys2Proof.Machine
end

