-- ==== Sys2Proof/Machine/Launch.lean ====
section
/-! DEFINITION. Launches and the clusters they run on (R26, R146, R168 to R171, R309), the interleave table (R326 to R331, R545). -/

namespace Sys2Proof.Machine

namespace State

/-! ### Starting a team (R146, R169, R170) -/

/-- The group `g` of a launch at its beginning: threads at the entry PA, arguments in u0 onward, u61 and u62 of the span (R170, R309). -/
def freshGroup (s : State) (p st : Nat) (c : Cmd) (args : List Nat) (g : Nat) : Grp :=
  let z := s.spanOf p st c.idx
  let u := args.zipIdx.foldl (fun (m : SMap Nat) a => m.set 0 a.2 a.1) []
  let u := match z with
    | none => u
    | some z => (u.set 0 61 (z.attempt + z.id * 65536)).set 0 62 (spanFormats z.formats z.slots z.attempt)
  { live := true, part := p, stream := st, cmd := c.idx, index := g, groups := c.f 0x24 8 8, alloc := (c.f 0x24 0 8 + 7) / 8 * 8,
    threads := (List.range 32).map (fun l => (l, { alive := true, pc := (s.addrOf p (c.w64 0x10)).2 })), u := u, active := 0xFFFFFFFF }

/-- A team of a launch starts on cluster `k`: vector registers zero, L1 and constant caches of its units empty, its groups resident. -/
def startTeam (s : State) (p st : Nat) (c : Cmd) (args : List Nat) (k : Nat) : State :=
  let n := c.f 0x24 8 8
  let s := (List.range 4).foldl (fun s i =>
    let s := s.dropL1 (4 * k + i)
    s.setUnit (4 * k + i) { s.unit (4 * k + i) with cc := [], vecLink := none }) s
  let v : VecSt := s.vecs.get {} k
  let s := { s with vecs := s.vecs.set {} k { v with lanes := [] } }
  let s := (List.range n).foldl (fun s g => s.setGrp (4 * k + g % 4) (g / 4) (s.freshGroup p st c args g)) s
  { s with teams := s.teams.set none k (some { part := p, stream := st, cmd := c.idx, live := n, issued := 0 }) }

/-- Whether the clusters of a launch are free for it: no team runs on one, and no launch that became ready before it waits for one of them (R545). -/
def clustersFree (s : State) (p st : Nat) (c : Cmd) : Bool :=
  let l := launchClusters c
  let before := ((s.ctxOf p).ready.takeWhile (· != (st, c.idx))).filterMap (fun e => s.cmdOf p e.1 e.2)
  l.all (fun k => (s.teams.get none k).isNone) && before.all (fun d => (launchClusters d).all (fun k => !l.contains k))

/-- Whether a launch may take its clusters now: free for it, and powered (R26, R545). -/
def clustersReady (s : State) (p st : Nat) (c : Cmd) : Bool := s.clustersFree p st c && (launchClusters c).all s.domOn

/-- A launch joins those that wait for their clusters, if it has not. -/
def joinReady (s : State) (p st : Nat) (c : Cmd) : State :=
  let k := s.ctxOf p
  if k.ready.contains (st, c.idx) then s else s.setCtx p { k with ready := k.ready ++ [(st, c.idx)] }

/-- A launch no longer waits for its clusters. -/
def leaveReady (s : State) (p st : Nat) (c : Cmd) : State :=
  s.setCtx p { s.ctxOf p with ready := (s.ctxOf p).ready.filter (· != (st, c.idx)) }

/-- A launch that R302 and the table let start: it joins those that wait for clusters and starts when it may. `note` records an admission
under the table where it starts. -/
def launchGo (s : State) (p st : Nat) (c : Cmd) (note : State → State) : State :=
  let s := s.joinReady p st c
  let n := c.f 0x24 16 6
  let pa := (s.addrOf p (c.w64 0x18)).2
  if !s.clustersReady p st c then s else
  s.withRecord p pa (4 * n) fun s =>
  let s := note (s.leaveReady p st c)
  match (if n = 0 then .ok [] else s.readRecord p pa (4 * n)) with
  | .error code => s.beginEnd p st c code
  | .ok l =>
    let args := (List.range n).map (fun i => rec32 l (4 * i))
    (launchClusters c).foldl (fun s k => s.startTeam p st c args k) (s.begin p st c)

/-! ### The interleave table (R327 to R331) -/

/-- A launch counts as admitted under the current entry; one that failed without starting counts as completed too (R329). -/
def ilvAdmit (s : State) (p st idx : Nat) (failed : Bool) : State :=
  let k := s.ctxOf p
  s.setCtx p { k with inter := k.inter.map (fun i =>
    if failed then { i with admitted := i.admitted ++ [(st + 4, idx)], finished := i.finished + 1 }
    else { i with admitted := i.admitted ++ [(st, idx)] }) }

/-- A launch governed by the table, in INTERLEAVE (R329). -/
def launchInterleave (s : State) (p st : Nat) (c : Cmd) (i : Interleave) : State :=
  let (est, cnt, mask) := ilvEntry ((i.entries[i.pos]?).getD 0)
  if est ≠ st ∨ cnt ≤ i.admitted.length then s else
  let code := s.ilvCode p c mask
  if code ≠ 0 then ((s.ilvAdmit p st c.idx true).beginEnd p st c code).ilvMove p
  else s.launchGo p st c (fun s => s.ilvAdmit p st c.idx false)

/-- A launch that no entry admits or holds back: it fails the checks of R309, or starts when it may. -/
def launchFree (s : State) (p st : Nat) (c : Cmd) : State :=
  let code := s.launchCheck p c
  if code ≠ 0 then s.beginEnd p st c code else s.launchGo p st c id

/-- A launch governed by the table, in CONCURRENT: only clusters of its stream's entry, else it fails when it would start, its clusters being free
(R331). -/
def launchSplit (s : State) (p st : Nat) (c : Cmd) (i : Interleave) : State :=
  if s.launchCheck p c = 0 ∧ s.ilvCode p c (ilvShare i st) ≠ 0 then
    let s := s.joinReady p st c
    if s.clustersFree p st c then (s.leaveReady p st c).beginEnd p st c 0x0102 else s
  else s.launchFree p st c

/-- A LAUNCH that R302 lets start. -/
def startLaunch (s : State) (p st : Nat) (c : Cmd) : State :=
  let k := s.ctxOf p
  match k.inter with
  | none => s.launchFree p st c
  | some i =>
    if !s.governed p st c then s.launchFree p st c
    else if k.conc then s.launchSplit p st c i
    else s.launchInterleave p st c i

/-- Why a table is refused (R327, R328): 0 if it is not. -/
def ilvCheck (s : State) (p : Nat) (l : List Nat) : Nat :=
  let conc := (s.ctxOf p).conc
  let own := (s.clustersOf p).foldl (fun a k => a + 2 ^ k) 0
  let bad (e : Nat) : Bool := bits e 1 7 != 0 || bits e 16 16 != 0 || bits e 32 32 == 0 || bits e 32 32 &&& own != bits e 32 32
    || (!conc && bits e 8 8 == 0)
  if l.any bad then 0x0102
  else if conc && !(match l with
    | [a, b] => a % 2 != b % 2 && bits a 32 32 &&& bits b 32 32 == 0
    | _ => false) then 0x0102
  else 0

/-- TILE_INTERLEAVE on stream `st` (R328): it meets that of the other stream once every launch started on F and B has completed; both fail,
or the table is installed and both complete. Where the other stream's failed before meeting it, it fails with UPSTREAM. -/
def tileInterleave (s : State) (p st : Nat) (c : Cmd) : State :=
  let k := s.ctxOf p
  let other := 1 - st
  let n := s.ilvNumber p st c
  if k.ilvLost.contains (other, n) then (s.setCtx p { k with ilvLost := k.ilvLost.erase (other, n) }).beginEnd p st c 0x0101 else
  match s.startOp p other 0x02 with
  | none => s
  | some d =>
    if s.ilvNumber p other d ≠ n then s else
    let runs (x : Nat) : Bool := (s.str p x).cmds.any (fun e => e.op == 0x01 && e.started)
    if runs st || runs other then s else
    let both (code : Nat) (s : State) : State := (s.beginEnd p st c code).beginEnd p other d code
    let n := c.f 0x18 0 9
    let pa := (s.addrOf p (c.w64 0x10)).2
    if c.w64 0x10 ≠ d.w64 0x10 ∨ n ≠ d.f 0x18 0 9 ∨ pa % 8 ≠ 0 then both 0x0102 s else
    s.withRecord p pa (8 * n) fun s =>
    match s.readRecord p pa (8 * n) with
    | .error code => both code s
    | .ok l =>
      let es := (List.range n).map (fun i => rec64 l (8 * i))
      let code := s.ilvCheck p es
      if code ≠ 0 then both code s else
      let i : Interleave := { entries := es }
      let late := k.late.filter (fun e => serialAfter 32 e.2 (if e.1 = st then c.idx else d.idx))
      (both 0 ((s.setCtx p { k with inter := some i, late := late }).setReg (home .str p 0x48) pa)).ilvMove p

/-! ### Powering a cluster (R26, R27, R482) -/

/-- Whether `n` bytes at a PA of partition `p` reach the memory of cluster `c`. -/
def reaches (s : State) (p c pa n : Nat) : Bool :=
  n != 0 && (List.range ((pa + n - 1) / 128 - pa / 128 + 1)).any (fun i =>
    (s.translate p ((pa / 128 + i) * 128) 0).any (fun a => match place a with
      | .cmem k _ => k == c
      | _ => false))

/-- Whether the message of a queue pair reaches a cluster. -/
def msgReaches (s : State) (p c : Nat) : QpMsg → Bool
  | .write _ va data => s.reaches p c va data.length
  | .read _ va len => s.reaches p c va len
  | _ => false

/-- Whether a launch, a memory operation of a thread or an array, a transaction, an RDMA message or a sequencer aims at cluster `c`; a command of a stream
other than a launch counts as aiming at it while it is in flight (R26, R27, R482; notes/assumptions/128.md). -/
def aimedAt (s : State) (c : Nat) : Bool :=
  let p := s.partOfCluster c
  (s.ctxOf p).ready.any (fun e => (s.cmdOf p e.1 e.2).any (fun d => (launchClusters d).contains c))
  || s.opList.any (fun x => match place x.2.line with
      | .cmem k _ => k == c && x.2.remote.isNone
      | _ => false)
  || (List.range 4).any (fun st => (s.str p st).cmds.any (fun d => d.op != 0x01 || s.reaches p c d.pa 64
      || s.reaches p c (s.addrOf p (d.w64 0x18)).2 (4 * d.f 0x24 16 6)) || s.reaches p c (s.str p st).park 64
      || (s.str p st).block.any (fun b => s.reaches p c (b + 64 * (s.str p st).next) 64))
  || s.inTxn.any (fun e => s.reaches p c e.t.pa e.t.bytes)
  || s.qps.any (fun e => e.2.part == p && e.2.waiting.any (s.msgReaches p c))

end State

/-! ### The rows -/

/-- LAUNCH (R309): the next command of stream `st` of partition `p`. -/
def execLaunch (p : Fin 4) (st : Fin 4) (s : State) : Out :=
  .next (s.starting p.val st.val 0x01 (fun c s => s.startLaunch p.val st.val c))

/-- TILE_INTERLEAVE (R328). -/
def execTileInterleave (p : Fin 4) (st : Fin 4) (s : State) : Out :=
  .next (if st.val < 2 then s.starting p.val st.val 0x02 (fun c s => s.tileInterleave p.val st.val c) else s)

/-- CLUSTER_POWER_UP (R25 to R27, R482): the domain of cluster `c` is on and scrubbed; its partition has a context and something aims at it. -/
def execClusterPowerUp (c : Fin 32) (s : State) : Out :=
  .next (if s.domOn c.val || !s.hasCtx (s.partOfCluster c.val) || !s.aimedAt c.val then s else
    let s := { s with
      pkg := { s.pkg with domains := s.pkg.domains + 2 ^ c.val }
      mem := s.mem.dropIf (fun a => decide (State.cmemLpa c.val 0 ≤ a) && decide (a < State.cmemLpa (c.val + 1) 0))
      cpoison := s.cpoison.dropIf (fun a => decide (State.cmemLpa c.val 0 / 8 ≤ a) && decide (a < State.cmemLpa (c.val + 1) 0 / 8)) }
    { s with vecs := s.vecs.set {} c.val {}, arrays := s.arrays.set {} c.val {} })

end Sys2Proof.Machine
end

