-- ==== Sys2Proof/Machine/MemInstr.lean ====
section
/-! DEFINITION. The MEMORY and ATOMIC families and the privileged loads and stores (R221 to R225, R233, R184 to R188). -/

namespace Sys2Proof.Machine

/-- What a memory instruction asks of each access: its alignment, the permission bits of its extent entry, whether the address is
global, whether it is an atomic and of which scope, whether it takes an LPA, the width in bytes, and whether the lowest executing thread alone
accesses (R206). -/
structure Access where
  align : Nat
  perm : Nat
  glob : Bool
  atomic : Bool
  scope : Nat
  lpa : Bool
  bytes : Nat
  alone : Bool := false
  deriving DecidableEq, Repr

/-- Where an access goes: a local physical address, or a PA of another device. -/
inductive Dest where
  | here (lpa : Nat)
  | there (dev pa : Nat)
  deriving DecidableEq, Repr

/-- The address of a lane: the pair of SRC_A plus the signed offset of the extension word, modulo 2^64 (R221). -/
def laneAddr (sh : Shape) (mi : Mi) (g : Grp) (l : Nat) : Nat :=
  ofSigned 64 ((opA sh mi g (g.thr l) : Int) + toSigned 32 (bits ((mi.ext.map BitVec.toNat).getD 0) 0 32))

/-- The lanes that access, of those that execute. -/
def Access.lanes (x : Access) (exec : Nat) : List Nat := if x.alone then (lanesOf exec).take 1 else lanesOf exec

namespace State

/-- The device that a global address names, where it is another one (R57, R58). -/
def otherDev (s : State) (x : Access) (addr : Nat) : Option Nat :=
  if x.glob && addr / 2 ^ 44 != s.self then some (addr / 2 ^ 44) else none

/-- Where an access of partition `p` (none: a housekeeping unit) goes, if its translation and permission hold (R56, R59). -/
def destOf (s : State) (p : Option Nat) (x : Access) (addr : Nat) : Option Dest :=
  if x.lpa then some (.here addr) else
  match p with
  | none => none
  | some p => match s.otherDev x addr with
    | some dev => if s.inTorus dev then some (.there dev (addr % 2 ^ 44)) else none
    | none => (s.translate p (addr % 2 ^ 44) x.perm).map Dest.here

/-- The fault of one access, by the order of R221 and then R51: the check's place in that order and the kind. -/
def accessFault (s : State) (p : Option Nat) (x : Access) (addr : Nat) : Option (Nat × Nat) :=
  if (if x.glob then 2 ^ 56 else 2 ^ 44) ≤ addr then some (0, 1)
  else if x.atomic && (x.scope == 5 || (s.otherDev x addr).isSome) then some (1, 8)
  else if addr % x.align ≠ 0 then some (2, 2)
  else match s.destOf p x addr with
    | none => some (3, 1)
    | some (.there _ _) => none
    | some (.here lpa) =>
      if place lpa != .control then none
      else if x.atomic then some (3, 1)
      else if x.align = 128 || x.bytes = 4 || (x.lpa && x.bytes == 8) then none
      else some (4, 2)

/-- The fault of an instruction (R190, R221): the first check in order that fails in any lane, with the lanes that fail it. -/
def lanesFault (s : State) (p : Option Nat) (x : Access) (l : List (Nat × Nat)) : Option (Nat × Nat) :=
  (List.range 5).findSome? (fun stage =>
    let bad := l.filterMap (fun e => match s.accessFault p x e.2 with
      | some (st, k) => if st = stage then some (e.1, k) else none
      | none => none)
    match bad with
    | [] => none
    | (_, k) :: _ => some (k, bad.foldl (fun a e => a ||| 2 ^ e.1) 0))

/-- The partition in whose name a unit uses the slices: its own; for a housekeeping unit the owner of the memory (R35). -/
def memPart (s : State) (u lpa : Nat) : Nat :=
  match s.partOfUnit u with
  | some p => p
  | none => match place lpa with
    | .hbm => s.partOfStack (stackOf (s.sliceOf lpa).1)
    | .cmem c _ => s.partOfCluster c
    | _ => 0

end State

/-- The distinct 128-byte lines of a list of lanes, in lane order. -/
def linesOf (l : List LaneOp) : List Nat := (l.map (fun x => x.lpa / 128 * 128)).eraseDups

/-- The distinct accesses of a list of lanes, in lane order, by where they begin: 64 bytes of a bank of cluster memory, else a line (R234). -/
def accessesOf (l : List LaneOp) : List Nat := (l.map (fun x => accessAt x.lpa)).eraseDups

/-- What an operation is but for its place: the fields that its lines share. -/
def baseOp (s : State) (i : Iss) (mi : Mi) (kind : OpKind) (bytes : Nat) : MemOp :=
  let g := s.grp i.u i.k
  { kind := kind, unit := i.u, slot := i.k, part := g.part, stream := g.stream, cmd := g.cmd, pc := i.pc, line := 0, lanes := [],
    bytes := bytes, signed := false, dst := mi.dst.toNat, udst := mi.udst, aop := 0, aty := 0, scope := 0, ord := false, final := false,
    remote := none, keepL1 := true, filling := false, queued := false, fromTile := false, instr := s.nextOp }

namespace State

/-- The transaction of a lane's remote access (R351, R352, R269). -/
def laneTxn (s : State) (o : MemOp) (dev : Nat) (x : LaneOp) : Txn :=
  let tp3 := (s.ctxOf o.part).tp3
  { op := if o.kind = .store then (if tp3 && (o.final || (o.ord && o.scope == 5)) then 2 else 1) else 3,
    dst := dev, src := s.self, part := o.part, tp3 := tp3, pa := x.pa, bytes := o.bytes, tag := 0, code := 0,
    data := if o.kind = .store then leBytes o.bytes x.data else [] }

/-- An operation with its lanes sent where they go: one operation for each line of this device, or bank of a cluster memory, and one for each other device, whose
lanes become requests of a port (R186, R224, R353). Only the operation that holds the lowest lane writes uniform registers (R206).
A load of an HBM line held by the L1, not an acquire, is answered from it (R187). -/
def sendOp (s : State) (u : Nat) (o : MemOp) (here : List LaneOp) (there : List (Nat × LaneOp)) (low : Nat)
    (one : MemOp → State → State) : State :=
  let trim (o : MemOp) : MemOp := if o.udst && !(o.lanes.any (fun x => x.lane == low)) then { o with udst := false, dst := 255 } else o
  let s := (accessesOf here).foldl (fun s a =>
    let l := here.filter (fun x => accessAt x.lpa == a)
    one (trim { o with line := a / 128 * 128, lanes := l, part := s.memPart u a }) s) s
  let devs := there.foldl (fun acc e => if acc.contains e.1 then acc else acc ++ [e.1]) ([] : List Nat)
  devs.foldl (fun s dev =>
    let l := (there.filter (fun e => e.1 == dev)).map Prod.snd
    let o := trim { o with line := 0, lanes := l, remote := some dev }
    let id := s.nextOp
    let s := s.addOp o
    l.foldl (fun s x => s.request (.lane id x.lane) (s.laneTxn o dev x)) s) s

/-- The destinations of the lanes of an instruction that has passed its checks, with the operand data. -/
def splitLanes (s : State) (p : Option Nat) (x : Access) (l : List (Nat × Nat)) (data : Nat → Nat × Nat) :
    List LaneOp × List (Nat × LaneOp) :=
  l.foldl (fun acc e =>
    let d := data e.1
    match s.destOf p x e.2 with
    | some (.here lpa) => (acc.1 ++ [{ lane := e.1, lpa := lpa, pa := e.2 % 2 ^ 44, data := d.1, data2 := d.2 }], acc.2)
    | some (.there dev pa) => (acc.1, acc.2 ++ [(dev, { lane := e.1, lpa := pa, pa := pa, data := d.1, data2 := d.2 })])
    | none => acc) ([], [])

/-- Whether a memory instruction must wait to issue: a thread of it has an acquire on its way (R260, R261); or it is a release to another
device or to the control window, and earlier operations of its threads that the release covers are on their way. -/
def memReady (s : State) (x : Access) (release : Bool) (sh : Shape) (mi : Mi) (i : Iss) : Bool :=
  let g := s.grp i.u i.k
  let p := s.partOfUnit i.u
  let away := (x.lanes i.exec).any (fun l => match s.destOf p x (laneAddr sh mi g l) with
    | some (.there _ _) => true
    | some (.here lpa) => place lpa == .control
    | none => false)
  let covered (o : MemOp) : Bool := o.remote.isNone || x.scope == 5
  (s.busyLanes i.u i.k MemOp.acquires &&& i.exec) == 0
  && !(release && away && ((s.busyLanes i.u i.k covered &&& i.exec) != 0
        || (x.scope == 5 && s.opList.any (fun e => e.2.unit == i.u && e.2.remote.isSome && e.2.writes))))

/-- A memory instruction: its checks, a fault where one fails, else the effect `f` on its lanes here and on other devices. -/
def memIssue (s : State) (sh : Shape) (mi : Mi) (bad : Bool) (x : Access) (release : Bool) (data : Grp → Nat → Nat × Nat)
    (f : Iss → List LaneOp → List (Nat × LaneOp) → State → State) : State :=
  s.issue sh mi bad (s.memReady x release sh mi) (fun i s =>
    let g := s.grp i.u i.k
    let p := s.partOfUnit i.u
    let l := (x.lanes i.exec).map (fun n => (n, laneAddr sh mi g n))
    match s.lanesFault p x l with
    | some (kind, mask) => s.threadFault i.u i.k kind mask i.pc (((l.find? (fun e => e.1 == lowLane mask)).map Prod.snd).getD 0)
    | none =>
      let (here, there) := s.splitLanes p x l (data g)
      f i here there s)

end State

/-! ### Fields (R222, R225) -/

/-- ORD of the MEMORY family. -/
def memOrd (mi : Mi) : Bool := bit mi.mod.toNat 7
/-- GLOBAL of the MEMORY family. -/
def memGlobal (mi : Mi) : Bool := bit mi.mod.toNat 8
/-- FINAL of the MEMORY family. -/
def memFinal (mi : Mi) : Bool := bit mi.mod.toNat 9
/-- A reserved WIDTH or SCOPE. -/
def memBad (mi : Mi) : Bool := decide (4 < modf mi 52 3) || decide (5 < memScope mi)

/-- The access of a plain load or store. -/
def plainAccess (mi : Mi) (perm : Nat) (lpa : Bool) : Access :=
  { align := memBytes mi, perm := perm, glob := memGlobal mi, atomic := false, scope := memScope mi, lpa := lpa, bytes := memBytes mi }

/-- The access of a load: with a uniform destination by the lowest executing thread alone (R206). -/
def loadAccess (mi : Mi) (lpa : Bool) : Access := { plainAccess mi 1 lpa with alone := mi.udst }

namespace State

/-- The values of a load outside memory by the lanes, in ascending order: of a register (R51, R9); of an LPA that the map reserves a free value
(notes/assumptions/92.md). -/
def ctlLoad (s : State) (bytes : Nat) (l : List LaneOp) : List LaneOp × State :=
  l.foldl (fun (a : List LaneOp × State) x =>
    let (v, s) := if place x.lpa == .reserved then a.2.draw else
      match a.2.regAt x.lpa with
      | none => (0, a.2)
      | some r => if bytes = 8 then a.2.regRead64 r else a.2.regRead r
    (a.1 ++ [{ x with data := v % 2 ^ (8 * bytes) }], s)) ([], s)

/-- A store outside memory by the lanes, in ascending order; one to an LPA that the map reserves is ignored. -/
def ctlStore (s : State) (bytes : Nat) (l : List LaneOp) : State :=
  l.foldl (fun s x => if place x.lpa == .reserved then s else
    match s.regAt x.lpa with
    | none => s
    | some a => if bytes = 8 then s.regWrite64 a x.data 0 else s.regWrite a x.data 0) s

/-- Whether an LPA lies outside memory: in the control window or reserved (R43). -/
def outsideMemory (lpa : Nat) : Bool := match place lpa with
  | .control | .reserved => true
  | _ => false

end State

/-- A load of one line answered from a cached copy of it. -/
def MemOp.fromCopy (o : MemOp) (data : List Byte) : MemOp :=
  { o with answered := true, lanes := o.lanes.map (fun x =>
      { x with data := extendLoad o.bytes o.signed (ofLeBytes ((data.drop (x.lpa % 128)).take o.bytes)) }) }

namespace State

/-- A load of one line: answered from the L1, or sent (R187). An acquire at cluster scope or wider does not use it; one at unit scope invalidates
nothing and may. -/
def loadLine (u : Nat) (o : MemOp) (s : State) : State :=
  let skips := o.acquires && o.scope != 0
  if place o.line != .hbm then s.addOp o else
  match (if skips then none else (s.unit u).l1.find? (fun c => c.1 == o.line)) with
  | some (_, data) => (s.bumpUnit u 0x120 1).addOp (o.fromCopy data)
  | none => (s.bumpUnit u 0x128 1).addOp { o with keepL1 := !skips }

/-- A load of one line through the constant cache, which no acquire refreshes (R188). -/
def constLine (u : Nat) (o : MemOp) (s : State) : State :=
  if place o.line != .hbm then loadLine u { o with kind := .load } s else
  match (s.unit u).cc.find? (fun c => c.1 == o.line) with
  | some (_, data) => s.addOp (o.fromCopy data)
  | none => (s.bumpUnit u 0x130 1).addOp o

/-- A load instruction: by PA or, privileged, by LPA. What it reads outside memory it reads as it issues; its registers are written once every
line has answered (R190). -/
def loadInstr (s : State) (sh : Shape) (mi : Mi) (const lpa : Bool) : State :=
  let x := loadAccess mi lpa
  s.memIssue sh mi (memBad mi || (lpa && memGlobal mi)) x false (fun _ _ => (0, 0)) (fun i here there s =>
    let o := { baseOp s i mi .load x.bytes with signed := bit mi.mod.toNat 3, scope := x.scope, ord := memOrd mi }
    let (ctl, mem) := here.partition (fun y => outsideMemory y.lpa)
    let (ctl, s) := s.ctlLoad x.bytes ctl
    let s := if ctl.isEmpty then s else s.addOp { o with lanes := ctl, answered := true }
    (s.sendOp i.u o mem there (lowLane i.exec)
      (if const && !memGlobal mi then fun o s => constLine i.u { o with kind := .const } s else loadLine i.u)).endInstr o.instr)

/-- A store instruction: by PA or, privileged, by LPA. -/
def storeInstr (s : State) (sh : Shape) (mi : Mi) (lpa : Bool) : State :=
  let x := plainAccess mi 2 lpa
  s.memIssue sh mi (memBad mi || (lpa && memGlobal mi)) x (memOrd mi) (fun g l => (opB sh mi g (g.thr l), 0)) (fun i here there s =>
    let o := { baseOp s i mi .store x.bytes with scope := x.scope, ord := memOrd mi, final := memFinal mi }
    let (ctl, mem) := here.partition (fun y => outsideMemory y.lpa)
    let s := s.ctlStore x.bytes ctl
    s.sendOp i.u o mem there (lowLane i.exec) (fun o s => (s.ownWrite i.u o.line).addOp o))

end State

/-! ### The rows -/

/-- ld (R222). -/
def execLd (mi : Mi) (s : State) : Out := .next (s.loadInstr (shapeLd mi) mi false false)
/-- st (R222, R224). -/
def execSt (mi : Mi) (s : State) : Out := .next (s.storeInstr (shapeSt mi) mi false)
/-- ldc (R188, R222). -/
def execLdc (mi : Mi) (s : State) : Out := .next (s.loadInstr (shapeLd mi) mi true false)

/-- pf (R222, R243): a hint for a line that lies in an L2 slice of this device. An address of a form that R221 forbids faults; an untranslated or
remote one is dropped. -/
def execPf (mi : Mi) (s : State) : Out :=
  let sh := shapeHint
  let x : Access := { plainAccess mi 1 false with align := 1 }
  .next (s.issue sh mi (memBad mi) (fun _ => true) (fun i s =>
    let g := s.grp i.u i.k
    let p := s.partOfUnit i.u
    let addr (n : Nat) : Nat := laneAddr sh mi g n
    let bad := (lanesOf i.exec).filter (fun n => decide ((if x.glob then 2 ^ 56 else 2 ^ 44) ≤ addr n))
    if !bad.isEmpty then
      s.threadFault i.u i.k 1 (bad.foldl (fun a n => a ||| 2 ^ n) 0) i.pc (addr (bad.headD 0))
    else
    let l := (lanesOf i.exec).filterMap (fun n =>
      match s.destOf p x (addr n) with
      | some (.here lpa) => (match place lpa with
        | .hbm | .cxl _ => some ({ lane := n, lpa := lpa / 128 * 128, pa := addr n % 2 ^ 44, data := 0, data2 := 0 } : LaneOp)
        | _ => none)
      | _ => none)
    (linesOf l).foldl (fun s ln =>
      s.addOp { baseOp s i mi .prefetch 1 with line := ln, lanes := l.filter (fun y => y.lpa == ln), dst := 255, udst := false }) s))

/-- dead (R222, R242): on a line of HBM or CXL of this device; elsewhere no effect once its checks have passed. -/
def execDead (mi : Mi) (s : State) : Out :=
  let sh := shapeHint
  let x : Access := { plainAccess mi 2 false with align := 128 }
  .next (s.memIssue sh mi (memBad mi) x false (fun _ _ => (0, 0)) (fun i here _ s =>
    let l := here.filter (fun y => match place y.lpa with
      | .hbm | .cxl _ => true
      | _ => false)
    (linesOf l).foldl (fun s ln =>
      s.addOp { baseOp s i mi .dead 128 with line := ln, lanes := l.filter (fun y => y.lpa == ln), dst := 255, udst := false }) s))

/-- accl (R222, R241, R98, R342): lane i adds its operand to word i of its line; there is no accumulate on another device. -/
def execAccl (mi : Mi) (s : State) : Out :=
  let sh := shapeAccl
  let x : Access := { plainAccess mi 8 false with align := 128 }
  .next (s.memIssue sh mi (memBad mi) x false (fun g l => (opB sh mi g (g.thr l), 0)) (fun i here there s =>
    if !there.isEmpty then
      let mask := there.foldl (fun a e => a ||| 2 ^ e.2.lane) 0
      s.threadFault i.u i.k 1 mask i.pc ((there.head?.map (fun e => e.2.pa)).getD 0)
    else
      let o := { baseOp s i mi .accum 4 with dst := 255, udst := false }
      (linesOf here).foldl (fun s ln =>
        let l := (here.filter (fun y => y.lpa == ln)).map (fun y => { y with lpa := ln + 4 * y.lane })
        (s.ownWrite i.u ln).sendAccum { o with line := ln, lanes := l }) s))

/-- atom (R225, R184 to R186). -/
def execAtom (mi : Mi) (s : State) : Out :=
  let op := modf mi 52 3
  let ty := modf mi 55 3
  let scope := modf mi 58 3
  let n := atomRegs mi
  let sh := shapeAtom mi
  let x : Access := { align := 4 * n, perm := 8, glob := bit mi.mod.toNat 9, atomic := true, scope := scope, lpa := false, bytes := 4 * n }
  .next (s.memIssue sh mi (decide (4 < ty) || decide (5 < scope) || !atomicAllowed op ty) x (bit mi.mod.toNat 10)
    (fun g l => (opB sh mi g (g.thr l), opC sh mi g (g.thr l))) (fun i here _ s =>
      let o := { baseOp s i mi .atomic (4 * n) with aop := op, aty := ty, scope := scope, ord := bit mi.mod.toNat 10 }
      s.sendOp i.u o here [] (lowLane i.exec) (fun o s =>
        let s := if 1 < o.lanes.length then s.bumpUnit i.u 0x138 1 else s
        (s.ownWrite i.u o.line).addOp o)))

/-- An instruction of the PRIVILEGED family at issue on a compute unit: a PRIVILEGED fault, whatever its fields (R233, R189). -/
def State.privileged (s : State) (mi : Mi) : State :=
  let mi := { mi with udst := false }
  s.issue { mods := 0xFFF, ext := if mi.ext.isSome then .required else .none } mi false (fun _ => true)
    (fun i s => s.threadFault i.u i.k 4 i.exec i.pc 0)

/-- ldp (R233). -/
def execLdp (mi : Mi) (s : State) : Out :=
  .next (if mi.unit.val < 128 then s.privileged mi else s.loadInstr (shapeLdp mi) mi false true)

/-- stp (R233). -/
def execStp (mi : Mi) (s : State) : Out :=
  .next (if mi.unit.val < 128 then s.privileged mi else s.storeInstr (shapeStp mi) mi true)

end Sys2Proof.Machine
end

