-- ==== Sys2Proof/Machine/Move.lean ====
section
/-! DEFINITION. The COMPARE and MOVE families (R214 to R220). -/

namespace Sys2Proof.Machine

/-! ### Compares (R214) -/

/-- isetp (R214): MOD[54:52] the relation, MOD[55] unsigned. -/
def execIsetp (mi : Mi) (s : State) : Out :=
  let rel := modf mi 52 3
  .next (s.alu (shapeCmp 1 0xF .immB32) mi (decide (5 < rel)) (fun a b _ =>
    (b2n (relHolds rel (if bit mi.mod.toNat 3 then compare a b else compare (toSigned 32 a) (toSigned 32 b))), 0)))

/-- fsetp (R214): the format in MOD[57:56]; a packed format compares the low halves. -/
def execFsetp (mi : Mi) (s : State) : Out :=
  let rel := modf mi 52 3
  let fmt := modf mi 56 2
  .next (s.alu (shapeCmp 1 0x37 .immB32) mi (decide (5 < rel) || fmt == 3) (fun a b _ =>
    let f := floatFmt fmt
    (b2n (fRel f rel (bits a 0 f.width) (bits b 0 f.width)), 0)))

/-- dsetp (R214). -/
def execDsetp (mi : Mi) (s : State) : Out :=
  let rel := modf mi 52 3
  .next (s.alu (shapeCmp 2 0x7 .immB64) mi (decide (5 < rel)) (fun a b _ => (b2n (fRel fp64 rel a b), 0)))

/-- A predicate of a thread read and inverted where asked. -/
def predVal (t : Thr) (n : Nat) (inv : Bool) : Bool := t.getP n != inv

/-- psetp (R214): and, or, xor of two predicates, each inverted where asked. -/
def execPsetp (mi : Mi) (s : State) : Out :=
  let op := modf mi 52 2
  let bad := op == 3 || decide (8 ≤ mi.a.toNat) || decide (8 ≤ mi.b.toNat) || mi.c != 0 || mi.usel != 0
  let sh := shapePsetp
  .next (s.issue sh mi bad (fun _ => true) (fun i s => s.writeResults sh mi i (fun g l =>
    let t := g.thr l
    let x := predVal t mi.a.toNat (bit mi.mod.toNat 2)
    let y := predVal t mi.b.toNat (bit mi.mod.toNat 3)
    (b2n (if op = 0 then x && y else if op = 1 then x || y else x != y), 0))))

/-- sel (R214). -/
def execSel (mi : Mi) (s : State) : Out :=
  let sh := shapeSel
  .next (s.issue sh mi false (fun _ => true) (fun i s => s.writeResults sh mi i (fun g l =>
    let t := g.thr l
    (if predVal t (modf mi 52 3) (bit mi.mod.toNat 3) then opA sh mi g t else opB sh mi g t, 0))))

/-- The executing threads in which the predicate of MOD[54:52] is true (R214). -/
def ballot (mi : Mi) (g : Grp) (exec : Nat) : Nat :=
  (lanesOf exec).foldl (fun a l => if (g.thr l).getP (modf mi 52 3) then a + 2 ^ l else a) 0

/-- A vote: one value for every executing thread. -/
def State.vote (s : State) (pd : Bool) (mi : Mi) (f : Nat → Nat → Nat) : State :=
  let sh := shapeVote pd
  s.issue sh mi false (fun _ => true) (fun i s => s.writeResults sh mi i (fun g _ => (f (ballot mi g i.exec) i.exec, 0)))

/-- vote.all (R214). -/
def execVoteAll (mi : Mi) (s : State) : Out := .next (s.vote true mi (fun v e => b2n (v == e)))
/-- vote.any (R214). -/
def execVoteAny (mi : Mi) (s : State) : Out := .next (s.vote true mi (fun v _ => b2n (v != 0)))
/-- vote.ballot (R214). -/
def execVoteBallot (mi : Mi) (s : State) : Out := .next (s.vote false mi (fun v _ => v))

/-! ### Moves and conversions -/

/-- mov (R214). -/
def execMov (mi : Mi) (s : State) : Out :=
  .next (s.alu shapeMov mi false (fun a _ _ => (a, 0)))
/-- mov64 (R214). -/
def execMov64 (mi : Mi) (s : State) : Out :=
  .next (s.alu shapeMov64 mi false (fun a _ _ => (a, 0)))

/-- cvt (R217, R81). -/
def execCvt (mi : Mi) (s : State) : Out :=
  let dc := modf mi 52 4
  let sc := modf mi 56 4
  .next (s.alu (shapeCvt mi) mi (decide (7 < dc) || decide (7 < sc)) (fun a _ _ =>
    match fmtOfCode sc, fmtOfCode dc with
    | some x, some y => convert x y (rmOf (bit mi.mod.toNat 8)) (a % 2 ^ x.width)
    | _, _ => (0, 0)))

/-- ndec (R218, R70, R71). -/
def execNdec (mi : Mi) (s : State) : Out :=
  let fc := modf mi 52 4
  .next (s.alu shapeNdec mi (decide (fc < 8) || decide (12 < fc)) (fun a b _ =>
    match fmtOfCode fc with
    | some (.nd f) => ((encodeFp fp32 .rne (ndValue f (b % 256) (a % 2 ^ f.width))).1, scaleFlags b)
    | _ => (0, 0)))

/-- The MX element formats by code: 0 E4M3, 1 E5M2, 2 E3M2, 3 E2M3, 4 E2M1 (R219). -/
def mxFmt (c : Nat) : FpFmt := match c with
  | 0 => n8 | 1 => n8e | 2 => n6 | 3 => n6m | _ => n4

/-- The largest finite code of an MX element format (R83): 448 for E4M3, 57,344 for E5M2. -/
def mxMaxCode (c : Nat) : Nat := match c with
  | 0 => 0x7E | 1 => 0x7B | c => (mxFmt c).maxCode

/-- Whether an MX element code is NaN or Inf (R82). -/
def mxSpecial (c x : Nat) : Bool := match c with
  | 0 => bits x 0 7 == 0x7F
  | 1 => bits x 2 5 == 31
  | _ => false

/-- mximp (R219, R82). -/
def execMximp (mi : Mi) (s : State) : Out :=
  .next (s.alu shapeMx1 mi (decide (4 < modf mi 52 3)) (fun a _ _ => (a, 0)))

/-- The E6M2 code of an E8M0 scale (R82). -/
def mxScale (x : Nat) : Nat × Nat :=
  if x = 0xFF then (0xFF, flNonfinite) else if x < 87 then (0x00, flScaleSat)
  else if 150 ≤ x then (0xF8, flScaleSat) else ((x - 87) * 4, 0)

/-- An MX instruction that all 32 threads must execute at once (R219); the check needs the executing mask. -/
def State.wholeGroup (s : State) (sh : Shape) (mi : Mi) (f : Grp → Nat → Nat × Nat) : State :=
  s.issue sh mi (decide (4 < modf mi 52 3)) (fun _ => true) (fun i s =>
    if i.exec ≠ 0xFFFFFFFF then
      let g := s.grp i.u i.k
      let back := (lanesOf i.chosen).foldl (fun g l => g.modThr l (fun t => { t with pc := i.pc })) g
      (s.setGrp i.u i.k back).threadFault i.u i.k 3 i.exec i.pc 0
    else s.writeResults sh mi i f)

/-- mxsimp (R219, R82). -/
def execMxsimp (mi : Mi) (s : State) : Out :=
  let fc := modf mi 52 3
  let sh := shapeMxsimp
  .next (s.wholeGroup sh mi (fun g l =>
    if (List.range 32).any (fun j => mxSpecial fc (opA sh mi g (g.thr j))) then (0xFF, flNonfinite)
    else mxScale (opB sh mi g (g.thr l) % 256)))

/-- The exponent of the largest element of an MX format (R83). -/
def mxEmax (c : Nat) : Int := match c with
  | 0 => 8 | 1 => 15 | 2 => 4 | 3 => 2 | _ => 2

/-- The E8M0 shared exponent of FP32 values (R83, R219). -/
def mxShared (c : Nat) (l : List Nat) : Nat :=
  let vs := l.map (decodeFp fp32)
  if vs.any (fun v => !v.isFin) then 0xFF else
  let a := amaxOf vs
  if a.1 = 0 then 0 else (log2Quot a.1 a.2 1 - mxEmax c + 127).toNat

/-- mxsexp (R219, R83): a scale of 0xFF, that of a block with an infinity or a NaN, raises no flag (DESIGN CHOICE, notes/assumptions/131.md). -/
def execMxsexp (mi : Mi) (s : State) : Out :=
  let sh := shapeMx1
  .next (s.wholeGroup sh mi (fun g _ =>
    (mxShared (modf mi 52 3) ((List.range 32).map (fun j => opA sh mi g (g.thr j))), 0)))

/-- The MX element code of an FP32 value under an E8M0 exponent (R83, R219). -/
def mxElem (c : Nat) (rm : Rm) (a x : Nat) : Nat × Nat :=
  let f := mxFmt c
  if x = 0xFF then (0, 0) else
  match decodeFp fp32 a with
  | .nan => ((Config.mxNanCode c x).toNat, 0)
  | .inf n => (f.signBit n + mxMaxCode c, flClamp)
  | .fin n m e =>
    let k := (roundCode f rm m (e - ((x : Int) - 127)) 1).1
    if mxMaxCode c < k then (f.signBit n + mxMaxCode c, flClamp) else (f.signBit n + k, 0)

/-- mxexp (R219, R83). -/
def execMxexp (mi : Mi) (s : State) : Out :=
  .next (s.alu shapeMxexp mi (decide (4 < modf mi 52 3)) (fun a b _ =>
    mxElem (modf mi 52 3) (rmOf (bit mi.mod.toNat 8)) a (b % 256)))

/-! ### Special registers and shuffles -/

/-- The island of a unit's clock (R22, R485): islands 0-31 are the clusters; see `Machine/Dome.lean` for the others. -/
def unitIsland (u : Nat) : Nat := if u < 128 then u / 4 else 69 + (u - 128)

/-- A special register of a thread (R216). -/
def special (s : State) (i : Iss) (g : Grp) (l n : Nat) : Nat :=
  let cu := decide (i.u < 128)
  let hk (x : Nat) : Nat := if cu then x else 0xFFFFFFFF
  match n with
  | 0 => l
  | 1 => if cu then g.index else 0
  | 2 => if cu then g.groups else 1
  | 3 => i.k
  | 4 => i.u
  | 5 => hk (i.u / 4)
  | 6 => hk (i.u / 32)
  | 7 => hk (s.partOfCluster (i.u / 4))
  | 8 => s.pkg.device.getD 0 % 4096
  | 9 => if cu then s.ctxNum (s.partOfCluster (i.u / 4)) else 0
  | 10 => bits (s.cycle (unitIsland i.u)) 0 32
  | 11 => (g.thr l).clockHi
  | _ => i.exec

/-- s2r (R216): a read of CLOCK_LO latches CLOCK_HI of each executing thread. -/
def execS2r (mi : Mi) (s : State) : Out :=
  let sh := shapeS2r
  let n := mi.a.toNat
  .next (s.issue sh mi (decide (12 < n) || mi.usel.getLsbD 0) (fun _ => true) (fun i s =>
    let hi := bits (s.cycle (unitIsland i.u)) 32 32
    let s := s.writeResults sh mi i (fun g l => (special s i g l n, 0))
    if n = 10 then
      s.setGrp i.u i.k ((lanesOf i.exec).foldl (fun g l => g.modThr l (fun t => { t with clockHi := hi })) (s.grp i.u i.k))
    else s))

/-- The source lane of a shuffle (R215), if it lies in 0-31. -/
def shflLane (mode i b : Nat) : Option Nat :=
  let x : Int := match mode with
    | 0 => b
    | 1 => (i : Int) - b
    | 2 => i + b
    | _ => (i ^^^ b : Nat)
  if 0 ≤ x ∧ x < 32 then some x.toNat else none

/-- shfl (R215). -/
def execShfl (mi : Mi) (s : State) : Out :=
  let sh := shapeShfl
  .next (s.issue sh mi false (fun _ => true) (fun i s => s.writeResults sh mi i (fun g l =>
    let own := opA sh mi g (g.thr l)
    match shflLane (modf mi 52 2) l (opB sh mi g (g.thr l)) with
    | some j => (if i.exec.testBit j then opA sh mi g (g.thr j) else own, 0)
    | none => (own, 0))))

end Sys2Proof.Machine
end

