-- ==== Sys2Proof/Machine/Permute.lean ====
section
/-! DEFINITION. PERMUTE (R398 to R400). -/

namespace Sys2Proof.Machine

/-- An entry of the table from its 16 bytes; none where a reserved bit is set or a field is out of range (R398). -/
def permEntry (l : List Byte) : Option PermEntry :=
  let a := State.rec32 l 0
  let n := State.rec32 l 4
  let pa := State.rec64 l 8
  if bits a 12 4 ≠ 0 || bits a 28 4 ≠ 0 || n = 0 || n % 128 ≠ 0 || 2 ^ 44 ≤ pa then none
  else some { src := bits a 0 12, dst := bits a 16 12, bytes := n, pa := pa }

/-- The chunks of an entry (R400). -/
def chunksOf (e : PermEntry) : Nat := (e.bytes + 65535) / 65536

/-- The start and length of a chunk of an entry. -/
def chunkOf (e : PermEntry) (c : Nat) : Nat × Nat := (e.pa + c * 65536, min 65536 (e.bytes - c * 65536))

/-- The slot that a destination keeps for entry number `i` and a chunk: two for each entry of that destination, in table order (R399). -/
def slotAddr (x : Perm) (dev i c : Nat) : Nat :=
  x.scratch + 65536 + (2 * ((x.table.take i).filter (fun e => e.dst == dev)).length + c % 2) * 65536

/-- Whether the byte at a PA is left undefined by ranges that overlap at its source or its destination (R398). -/
def contested (x : Perm) (e : PermEntry) (a : Nat) : Bool :=
  let covers (y : PermEntry) : Bool := y.src != y.dst && decide (y.pa ≤ a) && decide (a < y.pa + y.bytes)
  decide (1 < (x.table.filter (fun y => y.dst == e.dst && covers y)).length)
  || decide (1 < (x.table.filter (fun y => y.src == e.src && covers y)).length)

namespace State

/-- A PERMUTE in progress changed. -/
def setPerm (s : State) (p : Nat) (x : Perm) : State := s.setXch p { s.xchOf p with perm := some x }

/-- The entries of a permutation table, or a code. -/
def permTable (l : List Byte) (n : Nat) : Option (List PermEntry) :=
  (List.range n).foldr (fun i a => match a, permEntry (l.drop (16 * i)) with
    | some t, some e => some (e :: t)
    | _, _ => none) (some [])

/-- READY or FREE of an entry, as this device's header holds it. -/
def permHeader (s : State) (p : Nat) (x : Perm) (i off : Nat) : Nat := ofLeBytes (s.peekPa p (x.scratch + 16 * i + off) 8)

/-- Whether this device's work of a PERMUTE is done (R400). -/
def permDone (s : State) (p : Nat) (x : Perm) : Bool :=
  x.table.zipIdx.all (fun e =>
    e.1.src == e.1.dst
    || ((e.1.dst != s.self || x.committed.get 0 e.2 == chunksOf e.1)
        && (e.1.src != s.self || decide (chunksOf e.1 ≤ s.permHeader p x e.2 8))))

/-- The progress of a PERMUTE, which completes when its chunks are committed and it has received the final FREE of every entry it sends (R400). -/
def permAdvance (s : State) (p : Nat) : State :=
  match (s.xchOf p).perm with
  | none => s
  | some x =>
    if s.permDone p x then
      ((s.setXch p { s.xchOf p with perm := none }).progress (21 + 16 * p) 3 5 0 (s.permTotal x) (s.permTotal x)).endCmd p 3 x.idx 0
    else s.progress (21 + 16 * p) 2 5 0 x.done (s.permTotal x)

/-- A PERMUTE starts, or waits for its turn (R373, R398, R399). -/
def startPerm (s : State) (p : Nat) (c : Cmd) : State :=
  let x := s.xchOf p
  if x.exch.isSome || !x.gathers.isEmpty || x.perm.isSome then s else
  let n := c.f 0x20 0 13
  s.withRecord p (s.addrOf p (c.w64 0x10)).2 (16 * n) fun s =>
  match s.readRecord p (s.addrOf p (c.w64 0x10)).2 (16 * n) with
  | .error code => (s.permFell p code).beginEnd p 3 c code
  | .ok l => match permTable l n with
    | none => (s.permFell p 0x0102).beginEnd p 3 c 0x0102
    | some t =>
      let scratch := (s.addrOf p (c.w64 0x18)).2
      let size := c.w32 0x24
      if size < 1 + 2 * (t.filter (fun e => e.dst == s.self)).length then (s.permFell p 0x0102).beginEnd p 3 c 0x0102
      else if !s.translatesAll p scratch (size * 65536) 0x23 then (s.permFell p 0x0802).beginEnd p 3 c 0x0802
      else ((s.begin p 3 c).setPerm p { idx := c.idx, scratch := scratch, table := t, issued := [], told := [], committed := [],
                                        done := 0 }).permAdvance p

/-- The remote writes of bytes at a PA of another device, in lines. -/
def permWrite (s : State) (p idx i dev pa : Nat) (l : List Byte) : State :=
  ((cuts 128 pa l.length).foldl (fun s c =>
    s.request (.permute p 3 idx i) (s.ownTxn 1 dev p c.1 c.2 ((l.drop (c.1 - pa)).take c.2))) s).xchBytes p pa l.length

/-- The source's part of an entry (R400): the next chunk is written when there is room and its lines may be read
(R244), and announced once all its writes are accepted. -/
def chunkSend (s : State) (p i : Nat) : State :=
  match (s.xchOf p).perm with
  | none => s
  | some x => match x.table[i]? with
    | none => s
    | some e =>
      if e.src ≠ s.self || e.src = e.dst then s.permAdvance p else
      let issued := x.issued.get 0 i
      let own : Requester → Bool := fun w => match w with
        | .permute q _ k j => q == p && k == x.idx && j == i
        | _ => false
      if s.outstanding own then s
      else if x.told.get 0 i < issued then
        (s.setPerm p { x with told := x.told.set 0 i issued }).permWrite p x.idx i e.dst (x.scratch + 16 * i) (leBytes 8 issued)
      else if issued < chunksOf e && decide (issued < s.permHeader p x i 8 + 2) then
        let (pa, n) := chunkOf e issued
        if s.paWaits p (x.scratch + 16 * i) 16 || s.paWaits p pa n then s
        else if !s.inTorus e.dst || !s.translatesAll p pa n 1 then s.failPerm p 0x0802
        else if s.poisonedPa p pa n then s.failPerm p 0x0801
        else
          let (l, s) := (s.readPa p (x.scratch + 16 * i) 16).loadPa p pa n
          (s.setPerm p { x with issued := x.issued.set 0 i (issued + 1) }).permWrite p x.idx i e.dst (slotAddr x e.dst i issued) l
      else s.permAdvance p

/-- Whether every byte of a range that this device must itself send has been accepted (R400). -/
def sentAlready (s : State) (x : Perm) (pa n : Nat) : Bool :=
  x.table.zipIdx.all (fun e =>
    e.1.src != s.self || e.1.src == e.1.dst
    || (List.range (chunksOf e.1)).all (fun c =>
        let (a, m) := chunkOf e.1 c
        !rangesMeet a m pa n || decide (c < x.told.get 0 e.2)))

/-- A chunk's bytes with those that R398 leaves undefined free. -/
def permBytes (s : State) (x : Perm) (e : PermEntry) (pa : Nat) (l : List Byte) : List Byte × State :=
  l.zipIdx.foldl (fun (a : List Byte × State) b =>
    if contested x e (pa + b.2) then let (v, s) := a.2.draw; (a.1 ++ [BitVec.ofNat 8 v], s) else (a.1 ++ [b.1], a.2)) ([], s)

/-- The destination's part of an entry (R400): the next chunk that is ready is committed, and its source told. -/
def chunkCommit (s : State) (p i : Nat) : State :=
  match (s.xchOf p).perm with
  | none => s
  | some x => match x.table[i]? with
    | none => s
    | some e =>
      let c := x.committed.get 0 i
      let (pa, n) := chunkOf e c
      if e.dst ≠ s.self || e.src = e.dst || chunksOf e ≤ c || s.permHeader p x i 0 < c + 1 || !s.sentAlready x pa n then s
      else
        let slot := slotAddr x e.dst i c
        if s.paWaits p (x.scratch + 16 * i) 16 || s.paWaits p slot n || s.paWaits p pa n then s
        else if !s.writable p pa n || !s.inTorus e.src then s.failPerm p 0x0802
        else if s.poisonedPa p slot n then s.failPerm p 0x0801
        else
          let (l, s) := (s.readPa p (x.scratch + 16 * i) 16).loadPa p slot n
          let (l, s) := s.permBytes x e pa l
          let s := (s.xchWrite p pa l).setPerm p { x with committed := x.committed.set 0 i (c + 1), done := x.done + n }
          (s.permWrite p x.idx i e.src (x.scratch + 16 * i + 8) (leBytes 8 (c + 1))).permAdvance p

end State

/-! ### The commands -/

/-- PERMUTE (R398 to R400): the next command of stream X of partition `p`. -/
def execPermute (p : Fin 4) (s : State) : Out := .next (s.starting p.val 3 0x22 (fun c s => s.startPerm p.val c))

/-- PERMUTE_CHUNK_SEND (R400) for entry `i`. -/
def execPermuteChunkSend (p : Fin 4) (i : Fin 4096) (s : State) : Out := .next (s.chunkSend p.val i.val)

/-- PERMUTE_CHUNK_COMMIT (R400) for entry `i`. -/
def execPermuteChunkCommit (p : Fin 4) (i : Fin 4096) (s : State) : Out := .next (s.chunkCommit p.val i.val)

end Sys2Proof.Machine
end

