-- ==== Sys2Proof/Machine/SyncInstr.lean ====
section
/-! DEFINITION. The ORDER and SYNC families, the issue of tile and vector instructions, the privileged instructions but ldp and stp, and
the arrival of signals and waits at the counter banks (R226 to R233, R271 to R279, R106, R115, R154). -/

namespace Sys2Proof.Machine

/-- fence (R226, R263): an acquire for every earlier load of its threads, which it waits for, and a release for their later stores, so that at
cluster scope or wider it waits for their writes to be performed, and at system scope for every remote write of the unit to be accepted. -/
def execFenceInstruction (mi : Mi) (s : State) : Out :=
  let scope := memScope mi
  .next (s.issue shapeFence mi (decide (5 < scope)) (fun i =>
    (s.busyLanes i.u i.k (fun o => o.hasResult || (scope != 0 && o.kind != .prefetch && (o.remote.isNone || scope == 5))) &&& i.exec) == 0
      && !(scope == 5 && s.opList.any (fun e => e.2.unit == i.u && e.2.remote.isSome && e.2.writes)))
    (fun i s => s.acquire i.u scope))

/-- Whether no executing thread has an acquire on its way, which every later operation of it follows (R261, R262). -/
def State.acquired (s : State) (i : Iss) : Bool := (s.busyLanes i.u i.k MemOp.acquires &&& i.exec) == 0

/-! ### Counters (R227) -/

/-- The counter that an operand names, as region * 4096 + number. -/
def counterOf (a : Nat) : Nat := bits a 12 2 * 4096 + bits a 0 12

namespace State

/-- The partition's regions contain the region of a counter operand; a housekeeping unit reaches no counter. -/
def reachesCounter (s : State) (u c : Nat) : Bool := match s.partOfUnit u with
  | some p => s.partOfRegion (c / 4096) == p
  | none => false

/-- The checks of a counter operand over the executing lanes (R227): ILLEGAL, then EXTENT. -/
def counterFault (s : State) (sh : Shape) (mi : Mi) (i : Iss) : Option (Nat × Nat) :=
  let g := s.grp i.u i.k
  let a (l : Nat) : Nat := opA sh mi g (g.thr l)
  let ill := (lanesOf i.exec).foldl (fun m l => if a l < 2 ^ 14 then m else m ||| 2 ^ l) (0 : Nat)
  let bad := (lanesOf i.exec).foldl (fun m l => if s.reachesCounter i.u (counterOf (a l)) then m else m ||| 2 ^ l) (0 : Nat)
  if ill ≠ 0 then some (3, ill) else if bad ≠ 0 then some (1, bad) else none

/-- A counter instruction: its checks, then the effect. -/
def counterIssue (s : State) (sh : Shape) (mi : Mi) (bad : Bool) (f : Iss → State → State) : State :=
  s.issue sh mi bad s.acquired (fun i s =>
    match s.counterFault sh mi i with
    | some (kind, mask) => s.threadFault i.u i.k kind mask i.pc 0
    | none => f i s)

end State

/-- csig (R227, R272): one signal for the instruction, which carries for each counter the amounts of the lanes that name it, in ascending
lane order. Inside a span a counter that is not borrowed fails the launch (R98). -/
def execCsig (mi : Mi) (s : State) : Out :=
  let sh := shapeCsig
  let scope := memScope mi
  .next (s.counterIssue sh mi (decide (4 < scope)) (fun i s =>
    let g := s.grp i.u i.k
    let ctr (l : Nat) : Nat := counterOf (opA sh mi g (g.thr l))
    let lanes := lanesOf i.exec
    if lanes.any (fun l => !s.mayCount g.part g.stream g.cmd (ctr l)) then s.stopLaunch g.part g.stream g.cmd 0x0102 else
    let cs := lanes.foldl (fun acc l => if acc.contains (ctr l) then acc else acc ++ [ctr l]) ([] : List Nat)
    let sigs := cs.map (fun c => (c, (lanes.filter (fun l => ctr l == c)).map (fun l => (l, toSigned 32 (opB sh mi g (g.thr l))))))
    s.sendCtr ((cs.headD 0) / 4096)
      { sigs := sigs, wait := none, agent := i.u, part := g.part, stream := g.stream, cmd := g.cmd, unit := i.u, slot := i.k, pc := i.pc,
        scope := scope, seq := s.nextOp }))

/-- cwait (R227, R274): the executing threads are not ready until their counters reach their targets; threads that name one counter and
target wait together. -/
def execCwait (mi : Mi) (s : State) : Out :=
  let sh := shapeCwait
  let scope := memScope mi
  .next (s.counterIssue sh mi (decide (4 < scope)) (fun i s =>
    let g := s.grp i.u i.k
    let key (l : Nat) : Nat × Nat := (counterOf (opA sh mi g (g.thr l)), opB sh mi g (g.thr l))
    let lanes := lanesOf i.exec
    if lanes.any (fun l => !s.mayCount g.part g.stream g.cmd (key l).1) then s.stopLaunch g.part g.stream g.cmd 0x0102 else
    let low := lowLane i.exec
    let g' := lanes.foldl (fun g l =>
      let k := key l
      let w : CWait := { region := k.1 / 4096, counter := k.1 % 4096, target := k.2, scope := scope,
                         dst := (if mi.udst && l != low then 255 else mi.dst.toNat), udst := mi.udst && l == low }
      g.modThr l (fun t => { t with wait := some w })) g
    let s := s.setGrp i.u i.k g'
    let ks := lanes.foldl (fun acc l => if acc.contains (key l) then acc else acc ++ [key l]) ([] : List (Nat × Nat))
    ks.foldl (fun s k =>
      let mask := (lanes.filter (fun l => key l == k)).foldl (fun a l => a ||| 2 ^ l) (0 : Nat)
      let w : Waiter := { agent := i.u, detail := i.k + lowLane mask * 32, target := k.2, cmd := g.cmd, who := .thread i.u i.k mask }
      s.sendCtr (k.1 / 4096)
        { sigs := [], wait := some (k.1, w), agent := i.u, part := g.part, stream := g.stream, cmd := g.cmd, unit := i.u, slot := i.k,
          pc := i.pc, scope := 0, seq := s.nextOp }) s))

/-- cget (R227): the counter's value, without ordering. -/
def execCget (mi : Mi) (s : State) : Out :=
  let sh := shapeCget
  .next (s.counterIssue sh mi (decide (4 < memScope mi)) (fun i s =>
    s.writeResults sh mi i (fun g l => let c := counterOf (opA sh mi g (g.thr l)); ((s.ctr (c / 4096) (c % 4096)).value, 0))))

namespace State

/-- Whether message `k` of a bank may arrive: the release it carries has what it covers performed (R261), and no earlier message of the
same group is before it. -/
def ctrMayArrive (s : State) (q : List CtrMsg) (k : Nat) (m : CtrMsg) : Bool :=
  let lanes := m.sigs.foldl (fun a c => c.2.foldl (fun a x => a ||| 2 ^ x.1) a) (0 : Nat)
  let mine (o : MemOp) : Bool := o.unit == m.unit && o.slot == m.slot && !o.fromTile && o.remote.isNone
    && o.lanes.any (fun x => lanes.testBit x.lane)
  !((q.take k).any (fun e => e.unit == m.unit && e.slot == m.slot && e.agent == m.agent))
  && (decide (128 ≤ m.unit) || m.scope == 0 || !(s.opList.any (fun e => decide (e.1 < m.seq) && mine e.2)))

/-- The signals of a message applied, or the first lane that fails with whether it overflows and its counter (R227, R272). -/
def applySigs (s : State) (m : CtrMsg) : Except (Nat × Bool × Nat) State :=
  let res := m.sigs.map (fun e =>
    let c := s.ctr (e.1 / 4096) (e.1 % 4096)
    (e.1, e.2, applyAmounts c.floor c.ceil c.value e.2))
  let bad := res.filterMap (fun r => match r.2.2 with
    | .error (lane, above) => some (lane, above, r.1)
    | .ok _ => none)
  match bad with
  | b :: l => .error (l.foldl (fun (x : Nat × Bool × Nat) y => if y.1 < x.1 then y else x) b)
  | [] => .ok (res.foldl (fun s r => match r.2.2 with
    | .ok v =>
      let c := s.ctr (r.1 / 4096) (r.1 % 4096)
      let sum : Int := r.2.1.foldl (fun a x => a + x.2) 0
      let c' := if v = c.value then c else
        { c with value := v, lastAgent := m.agent, lastAmount := ofSigned 32 sum, lastCmd := m.cmd }
      ((s.setCtr (r.1 / 4096) (r.1 % 4096) c').bump (home .ctr (r.1 / 4096) 0x200) 1).releaseCtr (r.1 / 4096) (r.1 % 4096)
    | .error _ => s) s)

/-- A message's place in its bank's queue is free. -/
def dropCtr (s : State) (r k : Nat) : State := { s with ctrQ := s.ctrQ.set [] r ((s.ctrQ.get [] r).eraseIdx k) }

end State

/-- COUNTER_SIGNAL_ARRIVAL (R272, R273): message `k` of those on their way to region `r`'s bank arrives, if it is a signal. -/
def execCounterSignalArrival (r : Fin 4) (k : Nat) (s : State) : Out :=
  let q := s.ctrQ.get [] r.val
  match q[k]? with
  | none => .next s
  | some m =>
    if m.wait.isSome || !s.ctrMayArrive q k m then .next s else
    let s := s.dropCtr r.val k
    if s.ctrDiscards m.part then .next (m.sigs.foldl (fun s e => s.bump (home .ctr (e.1 / 4096) 0x210) 1) s) else
    match s.applySigs m with
    | .ok s => .next s
    | .error (lane, above, c) =>
      if m.unit < 128 then
        if s.mayFault m.unit m.slot m.part m.cmd then
          .next (s.threadFault m.unit m.slot (if above then 6 else 5) (2 ^ lane) m.pc 0 (c % 4096) (c / 4096))
        else .next s
      else .next (s.report m.part (s.hubCtrFault m.part (c / 4096) (c % 4096) above m.pc))

/-- COUNTER_WAIT_ARRIVAL (R274): message `k` of those on their way to region `r`'s bank arrives, if it is a wait. -/
def execCounterWaitArrival (r : Fin 4) (k : Nat) (s : State) : Out :=
  let q := s.ctrQ.get [] r.val
  match q[k]? with
  | none => .next s
  | some m => match m.wait with
    | none => .next s
    | some (c, w) => if s.ctrMayArrive q k m then .next ((s.dropCtr r.val k).ctrWait (c / 4096) (c % 4096) m.part w) else .next s

/-! ### Tile and vector issue (R228 to R230, R106, R115, R149, R154) -/

/-- `n` descriptor words from uniform register `d`; none where the base is not a multiple of 4 or above `last`. -/
def descWords (g : Grp) (d last n : Nat) : List Nat :=
  if d % 4 ≠ 0 || last < d then [] else (List.range n).map (fun i => g.getU (d + i))

/-- tile (R229, R106, R115): joins the unit's unaccepted instructions, at most two, once its descriptor's registers hold their final values
(R180). A housekeeping unit has no array. -/
def execTile (mi : Mi) (s : State) : Out :=
  let sh := shapeTile
  let bad := mi.a != 0 || mi.b != 0 || mi.c != 0 || mi.usel != 0 || decide (128 ≤ mi.unit.val)
  .next (s.issue sh mi bad (fun i =>
    decide ((s.unit i.u).tileQ.length < 2) && s.acquired i && !s.uniformPending i.u i.k (modf mi 52 6) 20) (fun i s =>
    let g := s.grp i.u i.k
    let x := s.unit i.u
    let q : TileReq := { slot := i.k, part := g.part, stream := g.stream, cmd := g.cmd, desc := descWords g (modf mi 52 6) 40 20 }
    let s := s.setUnit i.u { x with tileQ := x.tileQ ++ [q] }
    let s := s.setGrp i.u i.k { g with tiles := g.tiles + 1 }
    s.modTeam (i.u / 4) (fun t => { t with issued := t.issued + 1 })))

/-- The descriptor words of a vector operand byte, if it is a stream (R149, R231). -/
def vecDesc (g : Grp) (b : BitVec 8) : List Nat :=
  if bits b.toNat 6 2 = 2 then descWords g (bits b.toNat 0 6) 52 8 else []

/-- The guard and issue fields of a vop word as an instruction of no operands. -/
def viIssueWord (v : Vi) : Mi :=
  { unit := v.unit, slot := v.slot, pred := v.pred, pneg := v.pneg, dst := 0, a := 0, b := 0, c := 0, reuse := 0, usel := 0, udst := false,
    mod := 0, ext := some 0, stall := v.stall, busy := v.busy }

/-- vop (R230, R154): joins the unit's unaccepted instructions, at most two; after an instruction with LINK set only the same group may
issue the next, and the registers of its stream descriptors hold their final values. Reserved bits are an ILLEGAL fault. A housekeeping unit has no vector engine. -/
def execVop (vi : Vi) (s : State) : Out :=
  let bad := vi.rsv != 0 || vi.rsvExt != 0 || decide (128 ≤ vi.unit.val)
  .next (s.issue shapeVop (viIssueWord vi) bad
    (fun i => decide ((s.unit i.u).vecQ.length < 2) && ((s.unit i.u).vecLink.isNone || (s.unit i.u).vecLink == some i.k)
      && s.acquired i && !(vecStreams vi).any (fun d => s.uniformPending i.u i.k d 8)) (fun i s =>
    let g := s.grp i.u i.k
    let x := s.unit i.u
    let q : VecReq :=
      { unit := i.u, slot := i.k, part := g.part, stream := g.stream, cmd := g.cmd, vop := vi.vop.toNat, lane := vi.lane.toNat,
        round := vi.round.toNat, dst := vi.dst.toNat, a := vi.a.toNat, b := vi.b.toNat, c := vi.c.toNat, relu := vi.relu,
        maskout := vi.maskout, lse := vi.lse, signal := vi.signal, link := vi.link, reps := vi.repeatN.toNat + 1,
        rows := vi.rows.toNat + 1, mask := vi.mask.toNat, counter := vi.counter.toNat, srcfmt := vi.srcfmt.toNat,
        descs := [vecDesc g vi.dst, vecDesc g vi.a, vecDesc g vi.b, vecDesc g vi.c, vecDesc g vi.mask] }
    let s := s.setUnit i.u { x with vecQ := x.vecQ ++ [q], vecLink := if vi.link then some i.k else none }
    let s := s.setGrp i.u i.k { g with vecs := g.vecs + 1 }
    s.modTeam (i.u / 4) (fun t => { t with issued := t.issued + 1 })))

/-! ### Privileged instructions (R233) -/

/-- A privileged instruction on a housekeeping unit, a fault on a compute unit. -/
def State.privIssue (s : State) (sh : Shape) (mi : Mi) (f : Iss → State → State) : State :=
  if mi.unit.val < 128 then s.privileged mi else s.issue sh mi false (fun _ => true) f

/-- csrr (R233): the registers read by the executing lanes in ascending order. -/
def execCsrr (mi : Mi) (s : State) : Out :=
  let sh := shapeCsrr
  .next (s.privIssue sh mi (fun i s =>
    let low := lowLane i.exec
    (lanesOf i.exec).foldl (fun s l =>
      let g := s.grp i.u i.k
      let (v, s) := s.regRead (home .hku (i.u - 128) (4 * opA sh mi g (g.thr l)))
      if mi.udst && l != low then s else s.deliver i.u i.k mi.udst mi.dst.toNat 4 l v) s))

/-- csrw (R233). -/
def execCsrw (mi : Mi) (s : State) : Out :=
  let sh := shapeTwo
  .next (s.privIssue sh mi (fun i s =>
    (lanesOf i.exec).foldl (fun s l =>
      let g := s.grp i.u i.k
      let t := g.thr l
      s.regWrite (home .hku (i.u - 128) (4 * opA sh mi g t)) (opB sh mi g t) 0) s))

/-- wdkick (R233, R36): the unit's watchdog starts again. -/
def execWdkick (mi : Mi) (s : State) : Out := .next (s.privIssue {} mi (fun i s => s.kick i.u))

/-- wfe (R233): the group is not ready until an event source is pending; the wait takes what is pending. -/
def execWfe (mi : Mi) (s : State) : Out :=
  .next (s.privIssue {} mi (fun i s =>
    let x := s.unit i.u
    if x.events ≠ 0 then s.setUnit i.u { x with events := 0 } else s.setGrp i.u i.k { s.grp i.u i.k with wfe := true }))

namespace State

/-- An event source of a unit becomes pending: a group that waits goes on and takes it. -/
def raiseEvent (s : State) (u src : Nat) : State :=
  let x := s.unit u
  let waiting := (List.range 32).filter (fun k => (s.grp u k).live && (s.grp u k).wfe)
  match waiting with
  | [] => s.setUnit u { x with events := x.events ||| 2 ^ (src % 32) }
  | _ => waiting.foldl (fun s k => s.setGrp u k { s.grp u k with wfe := false }) s

end State

/-- sev (R233): event source `a` in housekeeping unit `b`. -/
def execSev (mi : Mi) (s : State) : Out :=
  let sh := shapeTwo
  .next (s.privIssue sh mi (fun i s =>
    let g := s.grp i.u i.k
    (lanesOf i.exec).foldl (fun s l =>
      let n := opB sh mi g (g.thr l)
      if n < 4 then s.raiseEvent (128 + n) (opA sh mi g (g.thr l)) else s) s))

end Sys2Proof.Machine
end

