-- ==== Sys2Proof/Machine/Dispatch.lean ====
section
/-! DEFINITION. One arm per command: each is one direct call of its meaning. -/

namespace Sys2Proof.Machine

def exec (i : Instr) (s : State) : Host.Outcome State Fault Refusal :=
  match i with
  | .lowWordRead a => Sys2Proof.Machine.execLowWordRead a s
  | .lowWordWrite a w => Sys2Proof.Machine.execLowWordWrite a w s
  | .highWordWrite a w => Sys2Proof.Machine.execHighWordWrite a w s
  | .progStateRead n => Sys2Proof.Machine.execProgStateRead n s
  | .registerWrite a w => Sys2Proof.Machine.execRegisterWrite a w s
  | .extentPermWrite p e w => Sys2Proof.Machine.execExtentPermWrite p e w s
  | .extentRangeWrite p e field v => Sys2Proof.Machine.execExtentRangeWrite p e field v s
  | .ctrEntryWrite r n field w => Sys2Proof.Machine.execCtrEntryWrite r n field w s
  | .ctrDbgSelWrite r w => Sys2Proof.Machine.execCtrDbgSelWrite r w s
  | .fenCtlReset r f => Sys2Proof.Machine.execFenCtlReset r f s
  | .dbgHalt u => Sys2Proof.Machine.execDbgHalt u s
  | .dbgResume u => Sys2Proof.Machine.execDbgResume u s
  | .dbgStep u k => Sys2Proof.Machine.execDbgStep u k s
  | .idReqWrite p seq => Sys2Proof.Machine.execIdReqWrite p seq s
  | .idReportReady => Sys2Proof.Machine.execIdReportReady s
  | .bolReadSeqRead p => Sys2Proof.Machine.execBolReadSeqRead p s
  | .nopInstruction mi => Sys2Proof.Machine.execNopInstruction mi s
  | .bra mi => Sys2Proof.Machine.execBra mi s
  | .brx mi => Sys2Proof.Machine.execBrx mi s
  | .call mi => Sys2Proof.Machine.execCall mi s
  | .exit mi => Sys2Proof.Machine.execExit mi s
  | .div mi => Sys2Proof.Machine.execDiv mi s
  | .join mi => Sys2Proof.Machine.execJoin mi s
  | .brk mi => Sys2Proof.Machine.execBrk mi s
  | .tfence mi => Sys2Proof.Machine.execTfence mi s
  | .vfence mi => Sys2Proof.Machine.execVfence mi s
  | .add mi => Sys2Proof.Machine.execAdd mi s
  | .sub mi => Sys2Proof.Machine.execSub mi s
  | .mul mi => Sys2Proof.Machine.execMul mi s
  | .mulhiS mi => Sys2Proof.Machine.execMulhiS mi s
  | .mulhiU mi => Sys2Proof.Machine.execMulhiU mi s
  | .mad mi => Sys2Proof.Machine.execMad mi s
  | .minS mi => Sys2Proof.Machine.execMinS mi s
  | .minU mi => Sys2Proof.Machine.execMinU mi s
  | .maxS mi => Sys2Proof.Machine.execMaxS mi s
  | .maxU mi => Sys2Proof.Machine.execMaxU mi s
  | .abs mi => Sys2Proof.Machine.execAbs mi s
  | .add64 mi => Sys2Proof.Machine.execAdd64 mi s
  | .sub64 mi => Sys2Proof.Machine.execSub64 mi s
  | .popc mi => Sys2Proof.Machine.execPopc mi s
  | .clz mi => Sys2Proof.Machine.execClz mi s
  | .and mi => Sys2Proof.Machine.execAnd mi s
  | .or mi => Sys2Proof.Machine.execOr mi s
  | .xor mi => Sys2Proof.Machine.execXor mi s
  | .andn mi => Sys2Proof.Machine.execAndn mi s
  | .not mi => Sys2Proof.Machine.execNot mi s
  | .shl mi => Sys2Proof.Machine.execShl mi s
  | .shr mi => Sys2Proof.Machine.execShr mi s
  | .sar mi => Sys2Proof.Machine.execSar mi s
  | .bfeU mi => Sys2Proof.Machine.execBfeU mi s
  | .bfeS mi => Sys2Proof.Machine.execBfeS mi s
  | .bfi mi => Sys2Proof.Machine.execBfi mi s
  | .fadd mi => Sys2Proof.Machine.execFadd mi s
  | .fsub mi => Sys2Proof.Machine.execFsub mi s
  | .fmul mi => Sys2Proof.Machine.execFmul mi s
  | .ffma mi => Sys2Proof.Machine.execFfma mi s
  | .fmin mi => Sys2Proof.Machine.execFmin mi s
  | .fmax mi => Sys2Proof.Machine.execFmax mi s
  | .fabs mi => Sys2Proof.Machine.execFabs mi s
  | .fneg mi => Sys2Proof.Machine.execFneg mi s
  | .dadd mi => Sys2Proof.Machine.execDadd mi s
  | .dsub mi => Sys2Proof.Machine.execDsub mi s
  | .dmul mi => Sys2Proof.Machine.execDmul mi s
  | .dfma mi => Sys2Proof.Machine.execDfma mi s
  | .dmin mi => Sys2Proof.Machine.execDmin mi s
  | .dmax mi => Sys2Proof.Machine.execDmax mi s
  | .isetp mi => Sys2Proof.Machine.execIsetp mi s
  | .fsetp mi => Sys2Proof.Machine.execFsetp mi s
  | .dsetp mi => Sys2Proof.Machine.execDsetp mi s
  | .psetp mi => Sys2Proof.Machine.execPsetp mi s
  | .sel mi => Sys2Proof.Machine.execSel mi s
  | .voteAll mi => Sys2Proof.Machine.execVoteAll mi s
  | .voteAny mi => Sys2Proof.Machine.execVoteAny mi s
  | .voteBallot mi => Sys2Proof.Machine.execVoteBallot mi s
  | .mov mi => Sys2Proof.Machine.execMov mi s
  | .mov64 mi => Sys2Proof.Machine.execMov64 mi s
  | .cvt mi => Sys2Proof.Machine.execCvt mi s
  | .ndec mi => Sys2Proof.Machine.execNdec mi s
  | .mximp mi => Sys2Proof.Machine.execMximp mi s
  | .mxsimp mi => Sys2Proof.Machine.execMxsimp mi s
  | .mxexp mi => Sys2Proof.Machine.execMxexp mi s
  | .mxsexp mi => Sys2Proof.Machine.execMxsexp mi s
  | .s2r mi => Sys2Proof.Machine.execS2r mi s
  | .shfl mi => Sys2Proof.Machine.execShfl mi s
  | .ld mi => Sys2Proof.Machine.execLd mi s
  | .st mi => Sys2Proof.Machine.execSt mi s
  | .ldc mi => Sys2Proof.Machine.execLdc mi s
  | .pf mi => Sys2Proof.Machine.execPf mi s
  | .dead mi => Sys2Proof.Machine.execDead mi s
  | .accl mi => Sys2Proof.Machine.execAccl mi s
  | .atom mi => Sys2Proof.Machine.execAtom mi s
  | .fenceInstruction mi => Sys2Proof.Machine.execFenceInstruction mi s
  | .gbar mi => Sys2Proof.Machine.execGbar mi s
  | .csig mi => Sys2Proof.Machine.execCsig mi s
  | .cwait mi => Sys2Proof.Machine.execCwait mi s
  | .cget mi => Sys2Proof.Machine.execCget mi s
  | .tile mi => Sys2Proof.Machine.execTile mi s
  | .vop vi => Sys2Proof.Machine.execVop vi s
  | .ldp mi => Sys2Proof.Machine.execLdp mi s
  | .stp mi => Sys2Proof.Machine.execStp mi s
  | .csrr mi => Sys2Proof.Machine.execCsrr mi s
  | .csrw mi => Sys2Proof.Machine.execCsrw mi s
  | .wdkick mi => Sys2Proof.Machine.execWdkick mi s
  | .wfe mi => Sys2Proof.Machine.execWfe mi s
  | .sev mi => Sys2Proof.Machine.execSev mi s
  | .barrierStall u k => Sys2Proof.Machine.execBarrierStall u k s
  | .contextKill p => Sys2Proof.Machine.execContextKill p s
  | .tileAccept c => Sys2Proof.Machine.execTileAccept c s
  | .tileComplete c => Sys2Proof.Machine.execTileComplete c s
  | .portImageDeliver c => Sys2Proof.Machine.execPortImageDeliver c s
  | .vopAdd c => Sys2Proof.Machine.execVopAdd c s
  | .vopSub c => Sys2Proof.Machine.execVopSub c s
  | .vopMul c => Sys2Proof.Machine.execVopMul c s
  | .vopFma c => Sys2Proof.Machine.execVopFma c s
  | .vopMin c => Sys2Proof.Machine.execVopMin c s
  | .vopMax c => Sys2Proof.Machine.execVopMax c s
  | .vopAbs c => Sys2Proof.Machine.execVopAbs c s
  | .vopNeg c => Sys2Proof.Machine.execVopNeg c s
  | .vopCmp c => Sys2Proof.Machine.execVopCmp c s
  | .vopSel c => Sys2Proof.Machine.execVopSel c s
  | .vopShl c => Sys2Proof.Machine.execVopShl c s
  | .vopShr c => Sys2Proof.Machine.execVopShr c s
  | .vopSar c => Sys2Proof.Machine.execVopSar c s
  | .vopAnd c => Sys2Proof.Machine.execVopAnd c s
  | .vopOr c => Sys2Proof.Machine.execVopOr c s
  | .vopXor c => Sys2Proof.Machine.execVopXor c s
  | .vopAndn c => Sys2Proof.Machine.execVopAndn c s
  | .vopCvt c => Sys2Proof.Machine.execVopCvt c s
  | .rndbits c => Sys2Proof.Machine.execRndbits c s
  | .exp2 c => Sys2Proof.Machine.execExp2 c s
  | .log2 c => Sys2Proof.Machine.execLog2 c s
  | .rcp c => Sys2Proof.Machine.execRcp c s
  | .rsqrt c => Sys2Proof.Machine.execRsqrt c s
  | .tanh c => Sys2Proof.Machine.execTanh c s
  | .sigmoid c => Sys2Proof.Machine.execSigmoid c s
  | .rowsum c => Sys2Proof.Machine.execRowsum c s
  | .rowmax c => Sys2Proof.Machine.execRowmax c s
  | .rowdot c => Sys2Proof.Machine.execRowdot c s
  | .smStat c => Sys2Proof.Machine.execSmStat c s
  | .smExp c => Sys2Proof.Machine.execSmExp c s
  | .smNorm c => Sys2Proof.Machine.execSmNorm c s
  | .pack c => Sys2Proof.Machine.execPack c s
  | .unpack c => Sys2Proof.Machine.execUnpack c s
  | .vectorComplete c => Sys2Proof.Machine.execVectorComplete c s
  | .cmemBankAccess a e => Sys2Proof.Machine.execCmemBankAccess a e s
  | .clusterPowerUp c => Sys2Proof.Machine.execClusterPowerUp c s
  | .sliceLoad a => Sys2Proof.Machine.execSliceLoad a s
  | .sliceStore id => Sys2Proof.Machine.execSliceStore id s
  | .sliceAtomic id => Sys2Proof.Machine.execSliceAtomic id s
  | .sliceAccumulate id => Sys2Proof.Machine.execSliceAccumulate id s
  | .sliceDeadHint id => Sys2Proof.Machine.execSliceDeadHint id s
  | .slicePrefetch id => Sys2Proof.Machine.execSlicePrefetch id s
  | .hbmFillReturn a e => Sys2Proof.Machine.execHbmFillReturn a e s
  | .patrolScrub lpa e => Sys2Proof.Machine.execPatrolScrub lpa e s
  | .xfeComplete e => Sys2Proof.Machine.execXfeComplete e s
  | .counterSignalArrival r k => Sys2Proof.Machine.execCounterSignalArrival r k s
  | .counterWaitArrival r k => Sys2Proof.Machine.execCounterWaitArrival r k s
  | .eventRingSet p => Sys2Proof.Machine.execEventRingSet p s
  | .contextCreate p => Sys2Proof.Machine.execContextCreate p s
  | .contextDestroy p => Sys2Proof.Machine.execContextDestroy p s
  | .query p => Sys2Proof.Machine.execQuery p s
  | .regWrite p => Sys2Proof.Machine.execRegWrite p s
  | .linkSlotWake p st => Sys2Proof.Machine.execLinkSlotWake p st s
  | .commandParse p st => Sys2Proof.Machine.execCommandParse p st s
  | .nopCommand p st => Sys2Proof.Machine.execNopCommand p st s
  | .launch p st => Sys2Proof.Machine.execLaunch p st s
  | .tileInterleave p st => Sys2Proof.Machine.execTileInterleave p st s
  | .copy p st => Sys2Proof.Machine.execCopy p st s
  | .fill p st => Sys2Proof.Machine.execFill p st s
  | .compress p st => Sys2Proof.Machine.execCompress p st s
  | .signal p st => Sys2Proof.Machine.execSignal p st s
  | .wait p st => Sys2Proof.Machine.execWait p st s
  | .fence p st => Sys2Proof.Machine.execFence p st s
  | .regwrite p st => Sys2Proof.Machine.execRegwrite p st s
  | .event p st => Sys2Proof.Machine.execEvent p st s
  | .redoBegin p st => Sys2Proof.Machine.execRedoBegin p st s
  | .redoCommit p st => Sys2Proof.Machine.execRedoCommit p st s
  | .redoEnd p st => Sys2Proof.Machine.execRedoEnd p st s
  | .exchange p => Sys2Proof.Machine.execExchange p s
  | .gather p => Sys2Proof.Machine.execGather p s
  | .permute p => Sys2Proof.Machine.execPermute p s
  | .snapshotSave p far => Sys2Proof.Machine.execSnapshotSave p far s
  | .snapshotFill p => Sys2Proof.Machine.execSnapshotFill p s
  | .objectCreate p st => Sys2Proof.Machine.execObjectCreate p st s
  | .objectHold p st => Sys2Proof.Machine.execObjectHold p st s
  | .objectRelease p st => Sys2Proof.Machine.execObjectRelease p st s
  | .commandComplete p st idx => Sys2Proof.Machine.execCommandComplete p st idx s
  | .eventRingRecheck p => Sys2Proof.Machine.execEventRingRecheck p s
  | .flitReceive g f => Sys2Proof.Machine.execFlitReceive g f s
  | .flitSend g => Sys2Proof.Machine.execFlitSend g s
  | .retryRepeat g => Sys2Proof.Machine.execRetryRepeat g s
  | .ackTimer g => Sys2Proof.Machine.execAckTimer g s
  | .record g => Sys2Proof.Machine.execRecord g s
  | .retry g => Sys2Proof.Machine.execRetry g s
  | .down g => Sys2Proof.Machine.execDown g s
  | .lanes g => Sys2Proof.Machine.execLanes g s
  | .laneFailure g mask => Sys2Proof.Machine.execLaneFailure g mask s
  | .griwaldPortFault g => Sys2Proof.Machine.execGriwaldPortFault g s
  | .portTrainingEnd g good => Sys2Proof.Machine.execPortTrainingEnd g good s
  | .negotiateRecordSend g => Sys2Proof.Machine.execNegotiateRecordSend g s
  | .noPeer g => Sys2Proof.Machine.execNoPeer g s
  | .lost g => Sys2Proof.Machine.execLost g s
  | .retrain g => Sys2Proof.Machine.execRetrain g s
  | .txnWrite k => Sys2Proof.Machine.execTxnWrite k s
  | .writeFinal k => Sys2Proof.Machine.execWriteFinal k s
  | .txnRead k => Sys2Proof.Machine.execTxnRead k s
  | .readData k => Sys2Proof.Machine.execReadData k s
  | .ack k => Sys2Proof.Machine.execAck k s
  | .nak k => Sys2Proof.Machine.execNak k s
  | .respTimeout g tag => Sys2Proof.Machine.execRespTimeout g tag s
  | .tagWithholdEnd g tag => Sys2Proof.Machine.execTagWithholdEnd g tag s
  | .ready k => Sys2Proof.Machine.execReady k s
  | .exponent k => Sys2Proof.Machine.execExponent k s
  | .data k => Sys2Proof.Machine.execData k s
  | .checksum k => Sys2Proof.Machine.execChecksum k s
  | .verdict k => Sys2Proof.Machine.execVerdict k s
  | .abort k => Sys2Proof.Machine.execAbort k s
  | .close k => Sys2Proof.Machine.execClose k s
  | .gatherData k => Sys2Proof.Machine.execGatherData k s
  | .bucketStageStart p b => Sys2Proof.Machine.execBucketStageStart p b s
  | .xchTimeout p idx g => Sys2Proof.Machine.execXchTimeout p idx g s
  | .permuteChunkSend p e => Sys2Proof.Machine.execPermuteChunkSend p e s
  | .permuteChunkCommit p e => Sys2Proof.Machine.execPermuteChunkCommit p e s
  | .snapshotLayerEnd p idx l => Sys2Proof.Machine.execSnapshotLayerEnd p idx l s
  | .snapshotQueuedStart p => Sys2Proof.Machine.execSnapshotQueuedStart p s
  | .arbitrationRound res pt d0 d1 d2 d3 => Sys2Proof.Machine.execArbitrationRound res pt d0 d1 d2 d3 s
  | .l2ShareRecompute slice => Sys2Proof.Machine.execL2ShareRecompute slice s
  | .l2Shed slice => Sys2Proof.Machine.execL2Shed slice s
  | .partitionDrainEnd p => Sys2Proof.Machine.execPartitionDrainEnd p s
  | .partitionScrubEnd p => Sys2Proof.Machine.execPartitionScrubEnd p s
  | .regionUncorrectableError r => Sys2Proof.Machine.execRegionUncorrectableError r s
  | .hubUncorrectableError => Sys2Proof.Machine.execHubUncorrectableError s
  | .hkuWatchdogExpiry h => Sys2Proof.Machine.execHkuWatchdogExpiry h s
  | .ethControlFrame port kind data => Sys2Proof.Machine.execEthControlFrame port kind data s
  | .cmReq port svc peer => Sys2Proof.Machine.execCmReq port svc peer s
  | .cmDreq n => Sys2Proof.Machine.execCmDreq n s
  | .roceSend n msg ce => Sys2Proof.Machine.execRoceSend n msg ce s
  | .rdmaWrite n rkey va data ce => Sys2Proof.Machine.execRdmaWrite n rkey va data ce s
  | .rdmaWriteWithImmediate n rkey va data imm ce => Sys2Proof.Machine.execRdmaWriteWithImmediate n rkey va data imm ce s
  | .rdmaRead n rkey va len ce => Sys2Proof.Machine.execRdmaRead n rkey va len ce s
  | .atomicVerb n => Sys2Proof.Machine.execAtomicVerb n s
  | .cnp n => Sys2Proof.Machine.execCnp n s
  | .cnpEpoch => Sys2Proof.Machine.execCnpEpoch s
  | .pfcPause port prio quanta => Sys2Proof.Machine.execPfcPause port prio quanta s
  | .roceNak n => Sys2Proof.Machine.execRoceNak n s
  | .roceRetryExhausted n => Sys2Proof.Machine.execRoceRetryExhausted n s
  | .ethLinkDown port => Sys2Proof.Machine.execEthLinkDown port s
  | .ethLinkUp port => Sys2Proof.Machine.execEthLinkUp port s
  | .ethHoldExpiry port => Sys2Proof.Machine.execEthHoldExpiry port s
  | .storeResponseCapsule n status data => Sys2Proof.Machine.execStoreResponseCapsule n status data s
  | .storeTimeout p t => Sys2Proof.Machine.execStoreTimeout p t s
  | .nvmeCompletion port link status data => Sys2Proof.Machine.execNvmeCompletion port link status data s
  | .nvmeTimeout port link => Sys2Proof.Machine.execNvmeTimeout port link s
  | .pcieLinkDown port link => Sys2Proof.Machine.execPcieLinkDown port link s
  | .cxlLinkDown port => Sys2Proof.Machine.execCxlLinkDown port s
  | .cxlRetrain port returns => Sys2Proof.Machine.execCxlRetrain port returns s
  | .coldRstNLow => Sys2Proof.Machine.execColdRstNLow s
  | .startUp => Sys2Proof.Machine.execStartUp s
  | .startupPortTimeout w => Sys2Proof.Machine.execStartupPortTimeout w s
  | .railRegulationTimeout pmbus => Sys2Proof.Machine.execRailRegulationTimeout pmbus s
  | .railFault => Sys2Proof.Machine.execRailFault s
  | .refclkLoss => Sys2Proof.Machine.execRefclkLoss s
  | .refclkReturn => Sys2Proof.Machine.execRefclkReturn s
  | .pldmFirmwareUpdate image => Sys2Proof.Machine.execPldmFirmwareUpdate image s
  | .imageWriteEnd => Sys2Proof.Machine.execImageWriteEnd s
  | .recoveryHello seq => Sys2Proof.Machine.execRecoveryHello seq s
  | .recoveryBegin seq len => Sys2Proof.Machine.execRecoveryBegin seq len s
  | .recoveryData seq off data => Sys2Proof.Machine.execRecoveryData seq off data s
  | .recoveryEnd seq => Sys2Proof.Machine.execRecoveryEnd seq s
  | .recoveryProgress seq => Sys2Proof.Machine.execRecoveryProgress seq s
  | .setMode b => Sys2Proof.Machine.execSetMode b s
  | .modeChangeEnd => Sys2Proof.Machine.execModeChangeEnd s
  | .setCap b => Sys2Proof.Machine.execSetCap b s
  | .setShare b => Sys2Proof.Machine.execSetShare b s
  | .setQuota b => Sys2Proof.Machine.execSetQuota b s
  | .partitionReset b => Sys2Proof.Machine.execPartitionReset b s
  | .partitionDisable b => Sys2Proof.Machine.execPartitionDisable b s
  | .partitionEnable b => Sys2Proof.Machine.execPartitionEnable b s
  | .warmReset b => Sys2Proof.Machine.execWarmReset b s
  | .coldReset b => Sys2Proof.Machine.execColdReset b s
  | .correlate b => Sys2Proof.Machine.execCorrelate b s
  | .setCal b => Sys2Proof.Machine.execSetCal b s
  | .clearCal b => Sys2Proof.Machine.execClearCal b s
  | .powerEvaluation draw shared draws demands => Sys2Proof.Machine.execPowerEvaluation draw shared draws demands s
  | .thermalReading t => Sys2Proof.Machine.execThermalReading t s
  | .tripCooldownEnd => Sys2Proof.Machine.execTripCooldownEnd s
  | .domOscCalibration => Sys2Proof.Machine.execDomOscCalibration s
  | .supplySag a b c => Sys2Proof.Machine.execSupplySag a b c s
  | .pfwNAssert mv => Sys2Proof.Machine.execPfwNAssert mv s
  | .supplyRestored mv => Sys2Proof.Machine.execSupplyRestored mv s
  | .bolCommit => Sys2Proof.Machine.execBolCommit s
  | .bolSagAssert => Sys2Proof.Machine.execBolSagAssert s
  | .bolSagClear => Sys2Proof.Machine.execBolSagClear s
  | .bolAuxLoss => Sys2Proof.Machine.execBolAuxLoss s
  | .auxRestore => Sys2Proof.Machine.execAuxRestore s
  | .overRange start => Sys2Proof.Machine.execOverRange start s
  | .reverse start => Sys2Proof.Machine.execReverse start s
  | .chainFault start => Sys2Proof.Machine.execChainFault start s
  | .bolSilenceTimeout => Sys2Proof.Machine.execBolSilenceTimeout s
  | .uartFrameTimeout partial_ => Sys2Proof.Machine.execUartFrameTimeout partial_ s
  | .read payload => Sys2Proof.Machine.execRead payload s
  | .log payload => Sys2Proof.Machine.execLog payload s
  | .identity payload => Sys2Proof.Machine.execIdentity payload s
  | .shuntSet payload => Sys2Proof.Machine.execShuntSet payload s
  | .shuntSeal payload => Sys2Proof.Machine.execShuntSeal payload s
  | .calSet payload => Sys2Proof.Machine.execCalSet payload s
  | .enrol key => Sys2Proof.Machine.execEnrol key s
  | .challenge jtag purpose arg => Sys2Proof.Machine.execChallenge jtag purpose arg s
  | .transfer sig => Sys2Proof.Machine.execTransfer sig s
  | .svnCommit sig => Sys2Proof.Machine.execSvnCommit sig s
  | .attest nonce => Sys2Proof.Machine.execAttest nonce s
  | .challengeExpiry => Sys2Proof.Machine.execChallengeExpiry s
  | .jtagResponse sig => Sys2Proof.Machine.execJtagResponse sig s
  | .trstN => Sys2Proof.Machine.execTrstN s
  | .startUpStageEnd w => Sys2Proof.Machine.execStartUpStageEnd w s
  | .supplyDroop n => Sys2Proof.Machine.execSupplyDroop n s
  | .supplyDroopEnd n => Sys2Proof.Machine.execSupplyDroopEnd n s
  | .pfwNDeassert => Sys2Proof.Machine.execPfwNDeassert s
  | .bolSample k f t => Sys2Proof.Machine.execBolSample k f t s
  | .cmRep n peer => Sys2Proof.Machine.execCmRep n peer s
  | .cmRej n => Sys2Proof.Machine.execCmRej n s
  | .localAckTimeout n => Sys2Proof.Machine.execLocalAckTimeout n s
  | .pfcPauseEnd port => Sys2Proof.Machine.execPfcPauseEnd port s
  | .pcieLinkRetrain port link => Sys2Proof.Machine.execPcieLinkRetrain port link s

end Sys2Proof.Machine
end

