-- ==== Sys2Proof/Machine/Tick.lean ====
section
/-! DEFINITION. What a step with no command waiting does: time passes (R484 to R486; notes/assumptions/2.md). -/

namespace Sys2Proof.Machine.State

/-- Whether the cycles of a cluster or region island are stretched: its supply droops, its partition is held to its grant, a power limit holds
every partition, or the compute die is throttled or limited (R484, R490, R492). -/
def stretched (s : State) (i : Nat) : Bool :=
  let p := if i < 32 then s.partOfCluster i else s.partOfRegion (i - 32)
  let d := s.dome
  d.droop.contains i || d.held.contains p || d.powerLimit || d.hot.contains 0 || d.limited.contains 0

/-- One cycle of an island that is on, counted as stretched where it is (R484, R485, R503). -/
def cycleOf (s : State) (i : Nat) : State :=
  if !s.islandOn i then s else
  let s := { s with pkg := { s.pkg with cycles := s.pkg.cycles.modify 0 i (fun n => (n + 1) % 2 ^ 64) } }
  if i < 36 && s.stretched i then
    s.bump (home .dom (if i < 32 then s.partOfCluster i else s.partOfRegion (i - 32)) 0x310) 1
  else s

/-- The barrier timeout of a group halted for debug does not count (R182, R196): its opening moves on with the cycle of its island. -/
def holdBar (s : State) (e : Nat × Grp) : Nat × Grp :=
  if decide (e.1 < 4096) && e.2.live && (e.2.halted || s.halts.get false (e.1 / 32)) && s.islandOn (e.1 / 128) then
    (e.1, { e.2 with bar := e.2.bar.map (fun b => { b with opened := b.opened + 1 }) })
  else e

/-- A cycle in which an UP port has a flit ready and no credit for it, and what its FEC finds in what it receives: the spec states no rate at which a line
errs, so the codewords are free (R370, notes/assumptions/94.md). -/
def lineOf (s : State) (g : Nat) : State :=
  let x := s.port g
  let s := if creditStalled x then s.bumpPort g 0x158 1 else s
  if x.state = 0 || x.state = 4 then s else
  let (v, s) := s.draw
  (s.bumpPort g 0x110 (bits v 0 16)).bumpPort g 0x118 (bits v 16 16)

/-- What a PCIe/CXL port whose link is up finds wrong on its line, in the same way (R460, notes/assumptions/94.md). -/
def pcxLineOf (s : State) (n : Nat) : State :=
  if !s.cxlUp n then s else
  let (v, s) := s.draw
  (s.bump (home .pcx n 0x110) (bits v 0 16)).bump (home .pcx n 0x118) (bits v 16 16)

/-- A cycle of every island that is on, and a nanosecond of DOM_TIME (R485, R486); RDMA messages whose lines are now free are performed. Nothing runs while the Dome is held in cold reset. -/
def tick (s : State) : State :=
  if !s.domeUp then s else
  let s := s.qpServe.countLockWaits
  let s := (List.range 4).foldl pcxLineOf ((List.range 8).foldl lineOf s)
  let s := (List.range 74).foldl cycleOf { s with groups := s.groups.map s.holdBar }
  { s with pkg := { s.pkg with time := (s.pkg.time + 1) % 2 ^ 64 } }

end Sys2Proof.Machine.State
end

