-- ==== Sys2Proof/Safety.lean ====
section
/-! DEFINITION. What counts as a safe run, and the terms in which statements are made: the canonical form of memory, a command that completes,
a group that issues an instruction, the registers after it. -/

namespace Sys2Proof.Machine

/-- The canonical form of memory: addresses strictly rising and no entry that holds 0, which an unlisted address reads as. -/
def Memory.wf (m : SMap Byte) : Bool := m.wf 0

/-- The step answers a next state. -/
def Proceeds (s : State) : Prop := ∃ t, step s = .next t

/-- A command answers a next state with a property. -/
def Completes (c : Instr) (s : State) (P : State → Prop) : Prop := ∃ t, exec c s = .next t ∧ P t

/-! ### Thread units -/

/-- Group `i.k` of unit `i.u` issues the instruction `mi` of shape `sh` now, at `i.pc` for the threads `i.chosen`, of which `i.exec` execute it
(R172, R173, R195, R203): it may issue and threads are ready, the word can be fetched, no breakpoint stands in the way, some thread's guard is
true, the word has a defined OPCODE, the encoding is legal, no register it names is still to be written, and the slot is in turn. -/
def Issues (s : State) (sh : Shape) (mi : Mi) (i : Iss) : Prop :=
  let g := s.grp i.u i.k
  i.u = mi.unit.val ∧ i.k = mi.slot.val ∧ s.mayIssue i.u i.k = true ∧ s.slotTurn i.u i.k mi.busy.toNat = true
    ∧ (s.choose i.u i.k mi.stall.toNat).map (fun x => (x.1, x.2.1)) = some (i.pc, i.chosen)
    ∧ s.fetchFaultAt i.u i.pc mi.ext.isSome = none
    ∧ (if s.dbgEnabled i.u && !g.pass && !g.step then s.breakpointAt i.u i.pc else none) = none
    ∧ i.next = (i.pc + (if mi.ext.isSome then 16 else 8)) % 2 ^ 44
    ∧ i.exec = g.guarded i.chosen mi.pred.toNat mi.pneg ∧ i.exec ≠ 0
    ∧ s.undefinedAt i.u i.pc = false ∧ illegal sh g.alloc mi = false ∧ s.pendingHits sh mi i.u i.k i.exec = false

/-- General register `r` of lane `l` after an instruction whose result in each executing lane is `f` (R199, R206): the executing lanes' destination
registers hold the result, low register first; a predicate or uniform destination writes no general register. -/
def genAfter (g : Grp) (sh : Shape) (mi : Mi) (exec : Nat) (f : Nat → Nat) (l r : Nat) : Nat :=
  let d := mi.dst.toNat
  if !sh.pd && !mi.udst && exec.testBit l && decide (d ≤ r) && decide (r < d + sh.d) then bits (f l) (32 * (r - d)) 32
  else (g.thr l).getG r

/-- Uniform register `r` after it: the lowest executing lane's result where the destination is uniform (R206). -/
def uniAfter (g : Grp) (sh : Shape) (mi : Mi) (exec : Nat) (f : Nat → Nat) (r : Nat) : Nat :=
  let d := mi.dst.toNat
  if !sh.pd && mi.udst && decide (d ≤ r) && decide (r < d + sh.d) then bits (f (lowLane exec)) (32 * (r - d)) 32
  else g.getU r

/-- Predicate `n` of lane `l` after it: true where a predicate result is not 0 (R199, R214). -/
def predAfter (g : Grp) (sh : Shape) (mi : Mi) (exec : Nat) (f : Nat → Nat) (l n : Nat) : Bool :=
  if sh.pd && exec.testBit l && n == mi.dst.toNat then f l != 0 else (g.thr l).getP n

/-- Two groups that agree in their registers and predicates. -/
def SameRegs (g g' : Grp) : Prop :=
  (∀ l r, (g'.thr l).getG r = (g.thr l).getG r) ∧ (∀ l r, (g'.thr l).getP r = (g.thr l).getP r) ∧ (∀ r, g'.getU r = g.getU r)

/-- Everything but groups, block registers, streams and the units' last-issued slots and halts is as it was, and of the block registers all but
those of thread units (their keys begin with KIND 0x03 or 0x14). -/
def Keeps (s t : State) : Prop :=
  t = { s with groups := t.groups, regs := t.regs, strs := t.strs, slots := t.slots, halts := t.halts }
    ∧ ∀ k, k / 2 ^ 36 ≠ 0x03 → k / 2 ^ 36 ≠ 0x14 → t.regs.get none k = s.regs.get none k

/-- What is left alone by an instruction of group `k` of unit `u` that touches registers only: every byte that a read at its point returns, every
piece of state but groups, the units' own block registers, last-issued slots and halts and the streams' numerics flags, and in the other groups every general and uniform
register and predicate. -/
def RegistersOnly (s t : State) (u k : Nat) : Prop :=
  (∀ a, t.peek a = s.peek a) ∧ Keeps s t
    ∧ ∀ u' k', k' < 32 → k < 32 → (u', k') ≠ (u, k) → ∀ l r, ((t.grp u' k').thr l).getG r = ((s.grp u' k').thr l).getG r
      ∧ ((t.grp u' k').thr l).getP r = ((s.grp u' k').thr l).getP r ∧ (t.grp u' k').getU r = (s.grp u' k').getU r

/-- The registers of the issuing group after an instruction with result `f` in each executing lane, and its threads' PCs. -/
def ResultIn (s t : State) (sh : Shape) (mi : Mi) (i : Iss) (f : Nat → Nat) : Prop :=
  let g := s.grp i.u i.k
  let g' := t.grp i.u i.k
  (∀ l r, l < 32 → r < 255 → (g'.thr l).getG r = genAfter g sh mi i.exec f l r)
    ∧ (∀ r, r < 63 → g'.getU r = uniAfter g sh mi i.exec f r)
    ∧ (∀ l n, l < 32 → n < 7 → (g'.thr l).getP n = predAfter g sh mi i.exec f l n)
    ∧ (∀ l, l < 32 → (g'.thr l).pc = if i.chosen.testBit l then i.next else (g.thr l).pc)

/-- Every group that issues the instruction `c` of shape `sh`, where `ok` holds, has `f` in its destination afterwards in each executing lane, and
touches nothing but registers. -/
def Results (c : Mi → Instr) (sh : Mi → Shape) (ok : State → Mi → Iss → Prop) (f : State → Mi → Iss → Nat → Nat) : Prop :=
  ∀ (s : State) (mi : Mi) (i : Iss), ok s mi i → Issues s (sh mi) mi i →
    Completes (c mi) s (fun t => ResultIn s t (sh mi) mi i (f s mi i) ∧ RegistersOnly s t i.u i.k)

/-- As `Results`, for a result `f` of the lane's own operands a, b and c (R204). -/
def Computes (c : Mi → Instr) (sh : Mi → Shape) (ok : Mi → Prop) (f : Mi → Nat → Nat → Nat → Nat) : Prop :=
  Results c sh (fun _ mi _ => ok mi) (fun s mi i l =>
    let g := s.grp i.u i.k
    let t := g.thr l
    f mi (opA (sh mi) mi g t) (opB (sh mi) mi g t) (opC (sh mi) mi g t))

/-- After a branch of the executing threads to `target`: their PCs, those of the other chosen threads, and every register as before. -/
def Branched (s t : State) (i : Iss) (target : Nat → Nat) : Prop :=
  (∀ l, l < 32 → ((t.grp i.u i.k).thr l).pc
      = if i.exec.testBit l then target l else if i.chosen.testBit l then i.next else ((s.grp i.u i.k).thr l).pc)
    ∧ SameRegs (s.grp i.u i.k) (t.grp i.u i.k) ∧ RegistersOnly s t i.u i.k

/-! ### Memory operations -/

/-- A memory instruction's accessing lanes (of a load to uniform registers the lowest executing one) all pass their checks, all lie in memory of this device outside the control window, and nothing
earlier holds the instruction back (R51, R221, R260, R261). -/
def MemOk (s : State) (mi : Mi) (i : Iss) (sh : Shape) (x : Access) (release : Bool) : Prop :=
  let g := s.grp i.u i.k
  let p := s.partOfUnit i.u
  s.memReady x release sh mi i = true ∧ s.lanesFault p x ((x.lanes i.exec).map (fun n => (n, laneAddr sh mi g n))) = none
    ∧ ∀ l ∈ x.lanes i.exec, ∃ lpa, s.destOf p x (laneAddr sh mi g l) = some (.here lpa) ∧ place lpa ≠ .control ∧ place lpa ≠ .reserved

/-- No cache of the unit holds a line that a load's lanes touch (R187, R188). -/
def uncached (s : State) (mi : Mi) (i : Iss) (sh : Shape) (x : Access) : Bool :=
  (x.lanes i.exec).all (fun l => match s.destOf (s.partOfUnit i.u) x (laneAddr sh mi (s.grp i.u i.k) l) with
    | some (.here a) => !((s.unit i.u).l1 ++ (s.unit i.u).cc).any (fun c => c.1 == a / 128 * 128)
    | _ => true)

/-- Lane `l` of an issue has an operation of a kind in flight that was not there before, for `n` bytes at an LPA, with its operand. -/
def Sent (s t : State) (i : Iss) (kind : OpKind) (n l lpa data : Nat) : Prop :=
  ∃ (id : Nat) (o : MemOp) (y : LaneOp), s.nextOp ≤ id ∧ t.op id = some o ∧ o.kind = kind ∧ o.unit = i.u ∧ o.slot = i.k
    ∧ o.remote = none ∧ o.bytes = n ∧ y ∈ o.lanes ∧ y.lane = l ∧ y.lpa = lpa ∧ y.data = data

/-- The lanes of an operation write disjoint bytes of its own line. -/
def DisjointLanes (o : MemOp) : Prop :=
  (∀ x ∈ o.lanes, x.lpa / 128 * 128 = o.line ∧ x.lpa % 128 + o.bytes ≤ 128)
    ∧ o.lanes.Pairwise (fun x y => x.lpa + o.bytes ≤ y.lpa ∨ y.lpa + o.bytes ≤ x.lpa)

/-- After a store of an operation's lanes: their bytes hold the operands, least significant first, and every other byte reads as before. -/
def Stored (s t : State) (o : MemOp) : Prop :=
  (∀ x ∈ o.lanes, ∀ j, j < o.bytes → t.peek (x.lpa + j) = BitVec.ofNat 8 (x.data >>> (8 * j)))
    ∧ ∀ a, (∀ x ∈ o.lanes, a < x.lpa ∨ x.lpa + o.bytes ≤ a) → t.peek a = s.peek a

/-- After a load of an operation's lanes: each lane's registers hold the number found, extended (R222); nothing else in memory changed. -/
def Loaded (s t : State) (o : MemOp) : Prop :=
  (∀ x ∈ o.lanes, ∀ j, j < (o.bytes + 3) / 4 →
      ((t.grp o.unit o.slot).thr x.lane).getG (o.dst + j) = bits (extendLoad o.bytes o.signed (s.peekNat x.lpa o.bytes)) (32 * j) 32)
    ∧ ∀ a, t.peek a = s.peek a

/-- A load that can be answered and whose answer ends its instruction: to registers of distinct lanes of a resident group, from words without
poison, the only operation of its instruction (R190). -/
def Answerable (s : State) (id : Nat) (o : MemOp) : Prop :=
  s.op id = some o ∧ (∀ e ∈ s.opList, e.2.instr = o.instr → e.1 = id) ∧ o.faults = [] ∧
  (s.grp o.unit o.slot).live = true ∧ o.udst = false ∧ o.dst + (o.bytes + 3) / 4 ≤ 255
    ∧ (o.lanes.map LaneOp.lane).Nodup ∧ ∀ x ∈ o.lanes, s.poisonedIn x.lpa o.bytes = false

/-- After an instruction that moves the PC and touches no register: the chosen threads stand behind it, and no byte of memory reads differently. -/
def Advanced (s t : State) (i : Iss) : Prop :=
  (∀ l, l < 32 → ((t.grp i.u i.k).thr l).pc = if i.chosen.testBit l then i.next else ((s.grp i.u i.k).thr l).pc)
    ∧ SameRegs (s.grp i.u i.k) (t.grp i.u i.k) ∧ ∀ a, t.peek a = s.peek a

/-- After an instruction that a group hands to the array or the vector engine (R115, R154): its unit is `x`, its team has issued one more (R170), and
besides nothing but the issue itself: threads, unit registers, the last-issued slot and halts. -/
def EngineQueued (s t : State) (i : Iss) (x : UnitSt) : Prop :=
  t = { s with groups := t.groups, regs := t.regs, units := t.units, teams := t.teams, slots := t.slots, halts := t.halts }
    ∧ t.units = s.units.set {} i.u x
    ∧ t.teams.get none (i.u / 4) = (s.teams.get none (i.u / 4)).map (fun y => { y with issued := y.issued + 1 })
    ∧ (∀ c, c ≠ i.u / 4 → t.teams.get none c = s.teams.get none c)
    ∧ (∀ k, k / 2 ^ 36 ≠ 0x03 → t.regs.get none k = s.regs.get none k)
    ∧ ∀ u k, k < 32 → i.k < 32 → (u, k) ≠ (i.u, i.k) →
        (∀ l, (t.grp u k).thr l = (s.grp u k).thr l) ∧ (∀ r, (t.grp u k).getU r = (s.grp u k).getU r)

/-- An ILLEGAL fault of the executing threads of an issue on a compute unit that had no fault record (R189, R191): the group issues nothing more and
no register changes. -/
def IllegalAt (s t : State) (i : Iss) : Prop :=
  (t.unit i.u).fault.kind = 3 ∧ (t.unit i.u).fault.code = 0x0301 ∧ (t.unit i.u).fault.lanes = i.exec ∧ (t.unit i.u).fault.pc = i.pc
    ∧ (t.grp i.u i.k).faulted = true ∧ SameRegs (s.grp i.u i.k) (t.grp i.u i.k) ∧ (∀ l, ((t.grp i.u i.k).thr l).pc = ((s.grp i.u i.k).thr l).pc)
    ∧ t.mem = s.mem ∧ t.ops = s.ops ∧ t.arrays = s.arrays ∧ t.vecs = s.vecs

/-! ### Vector instructions -/

/-- The vector engine of cluster `c` runs repetition `x.rep` of the single instruction `q` next, which no operand keeps waiting (R153, R154). -/
def RunsNext (s : State) (c : Nat) (x : VecRun) (q : VecReq) : Prop :=
  (s.vec c).run = some x ∧ x.second = none ∧ x.inSecond = false ∧ x.first = q ∧ s.vecReady c q = true ∧ isLane q.lane = true

/-- After a repetition the instruction runs on, or waits for its completion behind those before it (R154, R155). -/
def RanOne (s t : State) (c : Nat) (x : VecRun) : Prop :=
  if x.rep + 1 < x.first.reps then ∃ y, (t.vec c).run = some y ∧ y.first = x.first ∧ y.rep = x.rep + 1 ∧ (t.vec c).done = (s.vec c).done
  else (t.vec c).run = none ∧ ∃ fl, (t.vec c).done = (s.vec c).done ++ [(x.first, fl)]

/-- What a repetition with a register as destination leaves alone: the other registers, memory, groups, counters and fences. -/
def VecFrame (s t : State) (c w : Nat) : Prop :=
  (∀ k, k / 512 ≠ w → (t.vec c).lanes.get 0 k = (s.vec c).lanes.get 0 k) ∧ (∀ a, t.peek a = s.peek a)
    ∧ t.groups = s.groups ∧ t.ctrs = s.ctrs ∧ t.fences = s.fences

/-! ### Streams and management requests -/

/-- The next command of stream `st` of partition `p` that may start is `c`, of opcode `op`, and it has not ended (R302). -/
def Starts (s : State) (p st op : Nat) (c : Cmd) : Prop :=
  s.startOp p st op = some c ∧ s.cmdOf p st c.idx = some c ∧ c.done = none

/-- Command `idx` of a stream has started and its work has ended with a code (R301). -/
def Ended (t : State) (p st idx code : Nat) : Prop := ∃ x, t.cmdOf p st idx = some x ∧ x.started = true ∧ x.done = some code

/-- The hub serves requests, and the only one of partition `p` that waits is `msg`, of a code, from the connected queue pair `n` (R289). -/
def OneRequest (s : State) (p n msg code : Nat) : Prop :=
  s.dome.boot.state = 1 ∧ s.mgmt.get [] p = [(n, msg)] ∧ bits msg 0 8 = code ∧ (s.qp n).conn = true

/-- A packet of queue pair `n` has left on its port, with the port's DSCP value and ECT(0), or waits there while it may not leave (R450 to R453). -/
def Left (s t : State) (n bytes : Nat) (o : Output) : Prop :=
  let port := (s.qp n).port
  if s.mayLeave port n = true then
    t.out = s.out ++ [.packet port (s.cfg (0x108 + 64 * port) 0 6 * 4 + 2) o] ∧ (t.ethOf port).tx = (s.ethOf port).tx
  else t.out = s.out ∧ (t.ethOf port).tx = (s.ethOf port).tx ++ [⟨(s.qp n).part, n, bytes, o⟩]

/-- A response to `msg` with a result code has left on queue pair `n`, or waits on its port, naming the context number and state it found (R289). -/
def Responded (t : State) (p n msg code : Nat) : Prop :=
  let port := (t.qp n).port
  let o : Output := .response n (bits msg 0 8 + bits msg 16 16 * 2 ^ 16 + t.ctxNum p * 2 ^ 32 + code * 2 ^ 48 + (t.ctxOf p).state * 2 ^ 64)
  (if t.mayLeave port n = true then .packet port (t.cfg (0x108 + 64 * port) 0 6 * 4 + 2) o ∈ t.out
    else ⟨(t.qp n).part, n, 64, o⟩ ∈ (t.ethOf port).tx)
    ∧ t.mgmt.get [] p = []

/-- What the loads of the lines of a record change (R237, R239, R250): lines of the slices and what leaves them, their registers, and the events of the
errors found. -/
def Loads (s u : State) : Prop :=
  u = { s with lines := u.lines, slices := u.slices, regs := u.regs, mem := u.mem, poison := u.poison, free := u.free, rings := u.rings, out := u.out,
               eth := u.eth, shares := u.shares }

/-! ### Griwald ports -/

/-- Port `g` is DOWN with a cause and nothing of its old link is left (R366); no memory, group, counter or fence changed. -/
def WentDown (s t : State) (g cause : Nat) : Prop :=
  (t.port g).state = 4 ∧ (t.port g).cause = cause ∧ (t.port g).lanes = 0 ∧ (t.port g).peerValid = false ∧ (t.port g).ctlIn = []
    ∧ (t.port g).ctlOut = [] ∧ (t.port g).replay = [] ∧ t.mem = s.mem ∧ t.groups = s.groups ∧ t.ctrs = s.ctrs

/-! ### The gradient exchange -/

/-- No byte of `n` at a PA of partition `p` lies in a register page, whose read may change it (R51). -/
def NoRegisters (s : State) (p pa n : Nat) : Prop := ∀ i lpa, i < n → s.translate p (pa + i) 0 = some lpa → place lpa ≠ .control

/-- Port `g` of partition `p` has one more EXCH transaction to send, of a kind, stage, direction, bucket, block and bytes, to its neighbour
(R384). -/
def ExchSent (s t : State) (p g kind stage dir bucket block : Nat) (l : List Byte) : Prop :=
  let x : Txn := { op := 7, dst := (s.port g).peerDev, src := s.self, part := p, tp3 := false, bytes := l.length, tag := 0, code := 0, data := l,
                   pa := kind + stage * 2 ^ 4 + dir * 2 ^ 6 + bucket * 2 ^ 8 + block * 2 ^ 20 }
  (t.port g).txq.get [] 5
    = (s.port g).txq.get [] 5 ++ [{ slots := x.slots, begun := false, fwd := false, resp := false, part := p, held := none }]

/-- Arrived transaction `k` is an EXCH message `x` of a kind that holds no receive buffer, and partition `x.t.part` runs the exchange `e`, whose
ports are UP. -/
def ExchArrives (s : State) (k kind : Nat) (x : InTxn) (e : Exch) : Prop :=
  s.arrivedExch k kind = some x ∧ x.held = none ∧ (s.xchOf x.t.part).exch = some e ∧ ∀ g ∈ portsOf e.dims, (s.port g).state = 3

/-- As `ExchArrives`, for a block of the job `j` of a stage that has begun, on a port of its dimension `d`. -/
def JobArrives (s : State) (k kind : Nat) (x : InTxn) (e : Exch) (j : XJob) (d stage dir bucket block : Nat) : Prop :=
  ExchArrives s k kind x e ∧ State.exchAddr x.t = (stage, dir, bucket, block) ∧ State.jobOf e bucket stage = some j ∧ j.bucket = bucket
    ∧ j.stage = stage ∧ j.first ≤ block ∧ block < j.first + j.n ∧ e.dims[stage]? = some d ∧ x.port / 2 = d ∧ d < 4

/-- The job of a partition's exchange after a message, where the message has been taken and no memory changed. -/
def JobAfter (s t : State) (k : Nat) (x : InTxn) (stage bucket : Nat) (P : XJob → Prop) : Prop :=
  t.inTxn = s.inTxn.eraseIdx k ∧ t.mem = s.mem
    ∧ ∃ (e : Exch) (j : XJob), (t.xchOf x.t.part).exch = some e ∧ State.jobOf e bucket stage = some j ∧ P j

/-- The EXCHANGE `e` of partition `p` has failed with a code. -/
def ExchFailed (s t : State) (p : Nat) (e : Exch) (code : Nat) : Prop :=
  Ended t p 3 e.idx code ∧ (t.xchOf p).exch = none ∧ (t.xchOf p).gathers = (s.xchOf p).gathers ∧ t.mem = s.mem ∧ t.groups = s.groups

/-! ### Resets and start-up -/

/-- What no package reset touches: the boot flash, the Bolometer and the fuses (R39, R461, R462). -/
def Survives (s t : State) : Prop := t.flash = s.flash ∧ t.bol = s.bol ∧ t.dome.fuses = s.dome.fuses ∧ t.pending = s.pending

/-- What the loss of the switched domains clears: units, contexts, streams, objects, extents and queue pairs are as after a cold reset, memory
outside the CXL devices reads zero, and the devices' contents stay (R38, R39, R462, R471). -/
def PowerLost (s t : State) : Prop :=
  t.groups = [] ∧ t.units = [] ∧ t.ctx = [] ∧ t.strs = [] ∧ t.objs = [] ∧ t.extents = [] ∧ t.qps = [] ∧ t.lines = [] ∧ t.slots = []
    ∧ t.halts = [] ∧ ∀ a, t.mem.get 0 a = if inCxl a then s.mem.get 0 a else 0

/-- What every package reset clears: that, and the Griwald ports. -/
def Cleared (s t : State) : Prop := PowerLost s t ∧ t.ports = []

/-- A package warm reset with its cause in DOM_STATUS.LAST_RESET: everything is cleared and start-up is in stage 1 (R462, R468, R503). -/
def WarmReset (s t : State) (cause : Nat) : Prop :=
  Cleared s t ∧ Survives s t ∧ t.pkg.domains = 0 ∧ t.dome.boot.state = 0 ∧ t.dome.boot.stage = 1
    ∧ bits (t.reg (home .dom 0 0x10)) 8 3 = cause

/-- Start-up has stopped with a cause and a detail: the Dome is in RECOVERY and powers Ethernet port 0 alone (R477, R478). -/
def InRecovery (s t : State) (cause detail : Nat) : Prop :=
  Cleared s t ∧ Survives s t ∧ (∀ d, t.domOn d = decide (d = 56)) ∧ t.dome.boot.state = 2 ∧ t.dome.boot.cause = cause
    ∧ t.dome.boot.detail = detail

/-! ### The Dome's mailbox -/

/-- The Dome finds one request `r` of a kind, by MCTP from the BMC or in a partition's mailbox, and judges it with a code before it looks closely
(R496, R497). -/
def Asked (s : State) (kind : Nat) (b : Option Bmc) (r : DomReq) (code : Nat) : Prop :=
  s.domeUp = true ∧ s.dome.newMode = none ∧ s.preJudge r = code ∧ match b with
    | some m => s.dome.reqs = [] ∧ r = ⟨4, kind, m.seq.toNat, m.a0.toNat, m.a1.toNat, m.a2.toNat⟩
    | none => s.dome.reqs = [r] ∧ r.kind = kind ∧ r.who < 4

/-- A request has been answered with a status and data: the BMC's by MCTP, a partition's in its mailbox, which is open again (R497, R498). -/
def Answered (t : State) (r : DomReq) (status data : Nat) : Prop :=
  t.dome.reqs = [] ∧ if r.who < 4 then t.reg (home .dom r.who 0x110) = r.kind + status * 2 ^ 8 + r.seq * 2 ^ 16 ∧ t.reg (home .dom r.who 0x114) = data
    else .mailbox r.who r.kind status r.seq data ∈ t.out

end Sys2Proof.Machine
end

