-- ==== Sys2Proof/Certificates/Slice0/Obligations.lean ====
section
/-! DEFINITION. The statements for the provers. Each says what commands of one family do, in states that meet conditions on the state and the
operands alone; `Completes` says that the command answers a next state. -/

open Sys2Proof Sys2Proof.Machine

/-- R212: the INTEGER instructions of two sources.

R212: the INTEGER instructions of one or three sources and of pairs.

R212: the LOGIC instructions. A shift by 32 or more gives 0, or sign fill; a field is cut at bit 31. -/
def Obligations.IntegerResults : Prop :=
  (
  let two (c : Mi → Instr) (f : Nat → Nat → Nat) : Prop := Computes c (fun _ => shape2) (fun _ => True) (fun _ a b _ => f a b)
  two .add (fun a b => (a + b) % 2 ^ 32) ∧ two .sub (fun a b => (a + 2 ^ 32 - b) % 2 ^ 32) ∧ two .mul (fun a b => a * b % 2 ^ 32)
    ∧ two .mulhiS (fun a b => ofSigned 64 (toSigned 32 a * toSigned 32 b) / 2 ^ 32 % 2 ^ 32)
    ∧ two .mulhiU (fun a b => a * b / 2 ^ 32 % 2 ^ 32)
    ∧ two .minS (fun a b => (if toSigned 32 b < toSigned 32 a then b else a) % 2 ^ 32)
    ∧ two .maxS (fun a b => (if toSigned 32 a < toSigned 32 b then b else a) % 2 ^ 32)
    ∧ two .minU (fun a b => min a b % 2 ^ 32) ∧ two .maxU (fun a b => max a b % 2 ^ 32))
  ∧ (
  Computes .mad (fun _ => shape3) (fun _ => True) (fun _ a b c => (a * b + c) % 2 ^ 32)
    ∧ Computes .abs (fun _ => shape1) (fun _ => True) (fun _ a _ _ => (toSigned 32 a).natAbs % 2 ^ 32)
    ∧ Computes .popc (fun _ => shape1) (fun _ => True) (fun _ a _ _ => popcount 32 a % 2 ^ 32)
    ∧ Computes .clz (fun _ => shape1) (fun _ => True)
        (fun _ a _ _ => (if a % 2 ^ 32 = 0 then 32 else 31 - Nat.log2 (a % 2 ^ 32)) % 2 ^ 32)
    ∧ Computes .add64 (fun _ => shapePair) (fun _ => True) (fun _ a b _ => (a + b) % 2 ^ 64)
    ∧ Computes .sub64 (fun _ => shapePair) (fun _ => True) (fun _ a b _ => (a + 2 ^ 64 - b) % 2 ^ 64))
  ∧ (
  let two (c : Mi → Instr) (f : Nat → Nat → Nat) : Prop := Computes c (fun _ => shape2) (fun _ => True) (fun _ a b _ => f a b)
  let three (c : Mi → Instr) (f : Nat → Nat → Nat → Nat) : Prop := Computes c (fun _ => shape3) (fun _ => True) (fun _ => f)
  two .and (fun a b => (a &&& b) % 2 ^ 32) ∧ two .or (fun a b => (a ||| b) % 2 ^ 32) ∧ two .xor (fun a b => (a ^^^ b) % 2 ^ 32)
    ∧ two .andn (fun a b => (a &&& (b ^^^ 0xFFFFFFFF)) % 2 ^ 32)
    ∧ Computes .not (fun _ => shape1) (fun _ => True) (fun _ a _ _ => (a ^^^ 0xFFFFFFFF) % 2 ^ 32)
    ∧ two .shl (fun a b => if 32 ≤ b then 0 else a * 2 ^ b % 2 ^ 32)
    ∧ two .shr (fun a b => if 32 ≤ b then 0 else a % 2 ^ 32 / 2 ^ b)
    ∧ two .sar (fun a b => ofSigned 32 (toSigned 32 a / (2 ^ min b 32 : Nat)))
    ∧ three .bfeU (fun a b c => bits a (b % 32) (min (c % 64) (32 - b % 32)) % 2 ^ 32)
    ∧ three .bfeS (fun a b c =>
        let w := min (c % 64) (32 - b % 32)
        if w = 0 then 0 else ofSigned 32 (toSigned w (bits a (b % 32) w)) % 2 ^ 32)
    ∧ three .bfi (fun a b c => putBits c (b % 32) (min (bits b 8 6) (32 - b % 32)) a % 2 ^ 32))

/-- R213: the FLOAT instructions, on one FP32 number or on both halves of a packed register, with the negations of a and c before the operation
and the rounding that the word names.

R213: the DOUBLE instructions. -/
def Obligations.FloatResults : Prop :=
  (
  let fl (c : Mi → Instr) (sh : Shape) (op : FpFmt → Rm → Nat → Nat → Nat → Nat) : Prop :=
    Computes c (fun _ => { sh with mods := 0x1F }) (fun mi => modf mi 52 2 ≠ 3) (fun mi a b c =>
      let rm := rmOf (bit mi.mod.toNat 2)
      let one (f : FpFmt) (x y z : Nat) : Nat := op f rm (negIf f (bit mi.mod.toNat 3) x) y (negIf f (bit mi.mod.toNat 4) z)
      let f := floatFmt (modf mi 52 2)
      if modf mi 52 2 = 0 then one fp32 a b c
      else one f (bits a 0 16) (bits b 0 16) (bits c 0 16) + one f (bits a 16 16) (bits b 16 16) (bits c 16 16) * 65536)
  fl .fadd shapeF2 (fun f rm a b _ => (fAdd f rm a b).1) ∧ fl .fsub shapeF2 (fun f rm a b _ => (fSub f rm a b).1)
    ∧ fl .fmul shapeF2 (fun f rm a b _ => (fMul f rm a b).1) ∧ fl .ffma shapeF3 (fun f rm a b c => (fFma f rm a b c).1)
    ∧ fl .fmin shapeF2 (fun f _ a b _ => fMin f a b) ∧ fl .fmax shapeF2 (fun f _ a b _ => fMax f a b)
    ∧ fl .fabs shapeF1 (fun f _ a _ _ => fAbs f a) ∧ fl .fneg shapeF1 (fun f _ a _ _ => fNeg f a))
  ∧ (
  let dbl (c : Mi → Instr) (sh : Shape) (op : Rm → Nat → Nat → Nat → Nat) : Prop :=
    Computes c (fun _ => { sh with mods := 0x1F }) (fun mi => modf mi 52 2 = 0) (fun mi a b c =>
      op (rmOf (bit mi.mod.toNat 2)) (negIf fp64 (bit mi.mod.toNat 3) a) b (negIf fp64 (bit mi.mod.toNat 4) c))
  dbl .dadd shapeD2 (fun rm a b _ => (fAdd fp64 rm a b).1) ∧ dbl .dsub shapeD2 (fun rm a b _ => (fSub fp64 rm a b).1)
    ∧ dbl .dmul shapeD2 (fun rm a b _ => (fMul fp64 rm a b).1) ∧ dbl .dfma shapeD3 (fun rm a b c => (fFma fp64 rm a b c).1)
    ∧ dbl .dmin shapeD2 (fun _ a b _ => fMin fp64 a b) ∧ dbl .dmax shapeD2 (fun _ a b _ => fMax fp64 a b))

/-- R214, R215: compares, votes, selects, moves and shuffles.

R81 to R83, R216 to R219: conversions, the MX instructions and special registers. An MX instruction that reads other lanes needs the whole
group. -/
def Obligations.MoveAndConversionResults : Prop :=
  (
  Computes .isetp (fun _ => shapeCmp 1 0xF .immB32) (fun mi => modf mi 52 3 ≤ 5) (fun mi a b _ =>
      b2n (relHolds (modf mi 52 3) (if bit mi.mod.toNat 3 then compare a b else compare (toSigned 32 a) (toSigned 32 b))))
    ∧ Computes .fsetp (fun _ => shapeCmp 1 0x37 .immB32) (fun mi => modf mi 52 3 ≤ 5 ∧ modf mi 56 2 ≠ 3) (fun mi a b _ =>
      let f := floatFmt (modf mi 56 2)
      b2n (fRel f (modf mi 52 3) (bits a 0 f.width) (bits b 0 f.width)))
    ∧ Computes .dsetp (fun _ => shapeCmp 2 0x7 .immB64) (fun mi => modf mi 52 3 ≤ 5) (fun mi a b _ => b2n (fRel fp64 (modf mi 52 3) a b))
    ∧ Results .psetp (fun _ => { pd := true, mods := 0xF })
        (fun _ mi _ => modf mi 52 2 ≠ 3 ∧ mi.a.toNat < 8 ∧ mi.b.toNat < 8 ∧ mi.c = 0 ∧ mi.usel = 0) (fun s mi i l =>
          let t := (s.grp i.u i.k).thr l
          let x := t.getP mi.a.toNat != bit mi.mod.toNat 2
          let y := t.getP mi.b.toNat != bit mi.mod.toNat 3
          b2n (if modf mi 52 2 = 0 then x && y else if modf mi 52 2 = 1 then x || y else x != y))
    ∧ Results .sel (fun _ => { a := 1, b := 1, d := 1, mods := 0xF, ext := .immB32 }) (fun _ _ _ => True) (fun s mi i l =>
        let g := s.grp i.u i.k
        let sh : Shape := { a := 1, b := 1, d := 1, mods := 0xF, ext := .immB32 }
        if (g.thr l).getP (modf mi 52 3) != bit mi.mod.toNat 3 then opA sh mi g (g.thr l) else opB sh mi g (g.thr l))
    ∧ Results .voteAll (fun _ => { pd := true, mods := 0x7 }) (fun _ _ _ => True) (fun s mi i _ => b2n (ballot mi (s.grp i.u i.k) i.exec == i.exec))
    ∧ Results .voteAny (fun _ => { pd := true, mods := 0x7 }) (fun _ _ _ => True) (fun s mi i _ => b2n (ballot mi (s.grp i.u i.k) i.exec != 0))
    ∧ Results .voteBallot (fun _ => { d := 1, mods := 0x7 }) (fun _ _ _ => True) (fun s mi i _ => ballot mi (s.grp i.u i.k) i.exec)
    ∧ Computes .mov (fun _ => { a := 1, d := 1, ext := .immA32 }) (fun _ => True) (fun _ a _ _ => a)
    ∧ Computes .mov64 (fun _ => { a := 2, d := 2, ext := .immA64 }) (fun _ => True) (fun _ a _ _ => a)
    ∧ Results .shfl (fun _ => { a := 1, b := 1, d := 1, mods := 0x3, ext := .immB32 }) (fun _ _ _ => True) (fun s mi i l =>
        let g := s.grp i.u i.k
        let sh : Shape := { a := 1, b := 1, d := 1, mods := 0x3, ext := .immB32 }
        match shflLane (modf mi 52 2) l (opB sh mi g (g.thr l)) with
        | some j => if i.exec.testBit j then opA sh mi g (g.thr j) else opA sh mi g (g.thr l)
        | none => opA sh mi g (g.thr l)))
  ∧ (
  Computes .cvt (fun mi => { a := if modf mi 56 4 = 3 then 2 else 1, d := if modf mi 52 4 = 3 then 2 else 1, mods := 0x1FF })
      (fun mi => modf mi 52 4 ≤ 7 ∧ modf mi 56 4 ≤ 7) (fun mi a _ _ =>
        match fmtOfCode (modf mi 56 4), fmtOfCode (modf mi 52 4) with
        | some x, some y => (convert x y (rmOf (bit mi.mod.toNat 8)) (a % 2 ^ x.width)).1
        | _, _ => 0)
    ∧ Computes .ndec (fun _ => { a := 1, b := 1, d := 1, mods := 0xF, ext := .immB32 }) (fun mi => 8 ≤ modf mi 52 4 ∧ modf mi 52 4 ≤ 12)
        (fun mi a b _ => match fmtOfCode (modf mi 52 4) with
          | some (.nd f) => (encodeFp fp32 .rne (ndValue f (b % 256) (a % 2 ^ f.width))).1
          | _ => 0)
    ∧ Computes .mximp (fun _ => { a := 1, d := 1, mods := 0x7 }) (fun mi => modf mi 52 3 ≤ 4) (fun _ a _ _ => a)
    ∧ Computes .mxexp (fun _ => { a := 1, b := 1, d := 1, mods := 0x107, ext := .immB32 }) (fun mi => modf mi 52 3 ≤ 4)
        (fun mi a b _ => (mxElem (modf mi 52 3) (rmOf (bit mi.mod.toNat 8)) a (b % 256)).1)
    ∧ Results .mxsimp (fun _ => { a := 1, b := 1, d := 1, mods := 0x7, ext := .immB32 })
        (fun _ mi i => modf mi 52 3 ≤ 4 ∧ i.exec = 0xFFFFFFFF) (fun s mi i l =>
          let g := s.grp i.u i.k
          let sh : Shape := { a := 1, b := 1, d := 1, mods := 0x7, ext := .immB32 }
          if (List.range 32).any (fun j => mxSpecial (modf mi 52 3) (opA sh mi g (g.thr j))) then 0xFF
          else (mxScale (opB sh mi g (g.thr l) % 256)).1)
    ∧ Results .mxsexp (fun _ => { a := 1, d := 1, mods := 0x7 }) (fun _ mi i => modf mi 52 3 ≤ 4 ∧ i.exec = 0xFFFFFFFF) (fun s mi i _ =>
        let g := s.grp i.u i.k
        mxShared (modf mi 52 3) ((List.range 32).map (fun j => opA { a := 1, d := 1, mods := 0x7 } mi g (g.thr j))))
    ∧ Results .s2r (fun _ => { d := 1 }) (fun _ mi _ => mi.a.toNat ≤ 12 ∧ mi.usel.getLsbD 0 = false) (fun s mi i l =>
        special s i (s.grp i.u i.k) l mi.a.toNat))

/-- R209, R211: instructions that pass: nop; tfence and vfence once the group's instructions have completed; join and div on a compute unit;
brk without debug halting. They move the PC and change no register.

R195: brk halts before it executes where debug halting is enabled and the group was not just resumed. -/
def Obligations.PassingAndBreak : Prop :=
  (
  let passes (c : Mi → Instr) (sh : Shape) (ok : State → Mi → Iss → Prop) : Prop := Results c (fun _ => sh) ok (fun _ _ _ _ => 0)
  passes .nopInstruction {} (fun _ _ _ => True)
    ∧ passes .tfence {} (fun s _ i => (s.grp i.u i.k).tiles = 0) ∧ passes .vfence {} (fun s _ i => (s.grp i.u i.k).vecs = 0)
    ∧ passes .join {} (fun _ _ i => i.u < 128) ∧ passes .div { mods := 0xF, ext := .required } (fun _ _ i => i.u < 128)
    ∧ passes .brk {} (fun s _ i => s.dbgEnabled i.u = false))
  ∧ (
  ∀ (s : State) (mi : Mi) (i : Iss), Issues s {} mi i → s.dbgEnabled i.u = true → (s.grp i.u i.k).pass = false →
    (s.grp i.u i.k).step = false → (bits (s.reg (State.unitReg i.u 0x18)) 1 2 = 2 → i.u < 128 → s.domOn (i.u / 4) = true) →
    Completes (.brk mi) s (fun t => (t.grp i.u i.k).halted = true ∧ t.reg (State.unitReg i.u 0x1C) = 1 * 2 + i.k * 8
      ∧ (bits (s.reg (State.unitReg i.u 0x18)) 1 2 ≠ 0 → t.halts.get false i.u = true
          ∧ ∀ k, k < 32 → (s.grp i.u k).live = true → (t.grp i.u k).halted = true)
      ∧ SameRegs (s.grp i.u i.k) (t.grp i.u i.k) ∧ (∀ l, ((t.grp i.u i.k).thr l).pc = ((s.grp i.u i.k).thr l).pc) ∧ Keeps s t))

/-- R209, R210: branches and calls on a compute unit, or with one guard for all active threads.

R171: exit ends the executing threads. -/
def Obligations.ControlFlow : Prop :=
  (
  (∀ (s : State) (mi : Mi) (i : Iss), Issues s {} mi i → (i.u < 128 ∨ i.exec = i.chosen) →
      Completes (.bra mi) s (fun t => Branched s t i (fun _ => State.branchTarget i.pc 24 (branchOff mi))))
    ∧ (∀ (s : State) (mi : Mi) (i : Iss), Issues s { a := 2 } mi i →
        let target (l : Nat) : Nat := opA { a := 2 } mi (s.grp i.u i.k) ((s.grp i.u i.k).thr l)
        (∀ l, l < 32 → i.exec.testBit l = true → target l % 8 = 0) →
        (i.u < 128 ∨ (i.exec = i.chosen ∧ ∀ l m, l < 32 → m < 32 → i.exec.testBit l = true → i.exec.testBit m = true → target l = target m)) →
        Completes (.brx mi) s (fun t => Branched s t i (fun l => target l % 2 ^ 44)))
    ∧ (∀ (s : State) (mi : Mi) (i : Iss), Issues s { d := 2 } mi i → (i.u < 128 ∨ i.exec = i.chosen) →
        Completes (.call mi) s (fun t =>
          (∀ l, l < 32 → ((t.grp i.u i.k).thr l).pc = if i.exec.testBit l then State.branchTarget i.pc 24 (branchOff mi)
            else if i.chosen.testBit l then i.next else ((s.grp i.u i.k).thr l).pc)
          ∧ (∀ l r, l < 32 → r < 255 → ((t.grp i.u i.k).thr l).getG r = genAfter (s.grp i.u i.k) { d := 2 } mi i.exec (fun _ => i.pc + 8) l r)
          ∧ (∀ r, r < 63 → (t.grp i.u i.k).getU r = uniAfter (s.grp i.u i.k) { d := 2 } mi i.exec (fun _ => i.pc + 8) r)
          ∧ RegistersOnly s t i.u i.k)))
  ∧ (
  ∀ (s : State) (mi : Mi) (i : Iss), Issues s {} mi i →
    (i.u < 128 ∨ (s.grp i.u i.k).active &&& (0xFFFFFFFF ^^^ (i.exec % 2 ^ 32)) ≠ 0
      ∨ (popStack ((s.grp i.u i.k).stack.map (fun e => (e.1, e.2 &&& (0xFFFFFFFF ^^^ (i.exec % 2 ^ 32)))))).isSome = true
      ∨ ∀ l, l < 32 → ((s.grp i.u i.k).thr l).alive = true → i.exec.testBit l = true) →
    Completes (.exit mi) s (fun t => (∀ l, l < 32 → ((t.grp i.u i.k).thr l).alive = (((s.grp i.u i.k).thr l).alive && !i.exec.testBit l))
      ∧ (∀ a, t.peek a = s.peek a) ∧ (∀ r n, (t.ctr r n).value = (s.ctr r n).value) ∧ t.fences = s.fences))

/-- R175, R176: div and join on a housekeeping unit: div pushes the else and the join entry and narrows the active mask; join pops the first entry
with threads, which continue at its address.

R181, R182: threads that arrive at gbar wait while the instance is open and run on when it is complete; an instance open too long is a
BARRIER_STALL fault of the threads that wait. -/
def Obligations.MaskStackAndBarrier : Prop :=
  (
  (∀ (s : State) (mi : Mi) (i : Iss), Issues s { mods := 0xF, ext := .required } mi i → 128 ≤ i.u →
      let g := s.grp i.u i.k
      let e := (mi.ext.map BitVec.toNat).getD 0
      let p := (lanesOf g.active).foldl (fun a l => if (g.thr l).getP (modf mi 52 3) != bit mi.mod.toNat 3 then a + 2 ^ l else a) 0
      g.stack.length ≤ 14 → g.active &&& p ≠ 0 →
      Completes (.div mi) s (fun t => (t.grp i.u i.k).active = g.active &&& p
        ∧ (t.grp i.u i.k).stack = (State.branchTarget i.pc 32 (bits e 0 32), g.active &&& (0xFFFFFFFF ^^^ p))
            :: (State.branchTarget i.pc 32 (bits e 32 32), g.active) :: g.stack
        ∧ SameRegs g (t.grp i.u i.k) ∧ RegistersOnly s t i.u i.k))
    ∧ (∀ (s : State) (mi : Mi) (i : Iss), Issues s { mods := 0xF, ext := .required } mi i → 128 ≤ i.u →
      let g := s.grp i.u i.k
      let e := (mi.ext.map BitVec.toNat).getD 0
      let p := (lanesOf g.active).foldl (fun a l => if (g.thr l).getP (modf mi 52 3) != bit mi.mod.toNat 3 then a + 2 ^ l else a) 0
      g.stack.length ≤ 14 → g.active &&& p = 0 → g.active &&& (0xFFFFFFFF ^^^ p) ≠ 0 →
      Completes (.div mi) s (fun t => (t.grp i.u i.k).active = g.active &&& (0xFFFFFFFF ^^^ p)
        ∧ (t.grp i.u i.k).stack = (State.branchTarget i.pc 32 (bits e 32 32), g.active) :: g.stack
        ∧ (∀ l, l < 32 → (g.active &&& (0xFFFFFFFF ^^^ p)).testBit l = true →
            ((t.grp i.u i.k).thr l).pc = State.branchTarget i.pc 32 (bits e 0 32))
        ∧ SameRegs g (t.grp i.u i.k) ∧ RegistersOnly s t i.u i.k))
    ∧ (∀ (s : State) (mi : Mi) (i : Iss) (target m : Nat) (rest : List (Nat × Nat)), Issues s {} mi i → 128 ≤ i.u →
        popStack (s.grp i.u i.k).stack = some (target, m, rest) →
        Completes (.join mi) s (fun t => (t.grp i.u i.k).active = m ∧ (t.grp i.u i.k).stack = rest
          ∧ (∀ l, l < 32 → m.testBit l = true → ((t.grp i.u i.k).thr l).pc = target)
          ∧ SameRegs (s.grp i.u i.k) (t.grp i.u i.k) ∧ RegistersOnly s t i.u i.k)))
  ∧ (
  (∀ (s : State) (mi : Mi) (i : Iss), Issues s { a := 1, mods := 0x70, ext := .immA32 } mi i → i.u < 128 → memScope mi ≤ 4 →
      Completes (.gbar mi) s (fun t =>
        (∀ b, (t.grp i.u i.k).bar = some b → ∀ l, l < 32 → i.exec.testBit l = true →
          b.arrived.testBit l = true ∧ ((t.grp i.u i.k).thr l).atBar = true)
        ∧ ((t.grp i.u i.k).bar = none → ∀ l, l < 32 → i.exec.testBit l = true → ((t.grp i.u i.k).thr l).atBar = false)
        ∧ SameRegs (s.grp i.u i.k) (t.grp i.u i.k) ∧ RegistersOnly s t i.u i.k))
    ∧ (∀ (s : State) (mi : Mi) (i : Iss), Issues s { a := 1, mods := 0x70, ext := .immA32 } mi i → 128 ≤ i.u → memScope mi ≤ 4 →
      (∀ l, l < 32 → i.exec.testBit l = true →
        opA { a := 1, mods := 0x70, ext := .immA32 } mi (s.grp i.u i.k) ((s.grp i.u i.k).thr l) = (s.grp i.u i.k).active) →
      s.busyLanes i.u i.k (fun _ => true) = 0 →
      Completes (.gbar mi) s (fun t => Advanced s t i ∧ RegistersOnly s t i.u i.k))
    ∧ (∀ (s : State) (u : Fin 128) (k : Fin 32) (b : Bar), (s.grp u.val k.val).bar = some b → (s.grp u.val k.val).live = true →
        (s.grp u.val k.val).faulted = false → s.groupHalted u.val k.val = false → (s.unit u.val).stopped = false →
        b.opened + 2 ^ bits (s.reg (State.unitReg u.val 0x14)) 0 5 ≤ s.cycle (u.val / 4) → (s.unit u.val).fault.kind = 0 →
        Completes (.barrierStall u k) s (fun t => (t.grp u.val k.val).faulted = true ∧ (t.unit u.val).fault.kind = 7
          ∧ (t.unit u.val).fault.lanes = b.arrived ∧ (t.unit u.val).fault.code = 0x0301 ∧ t.mem = s.mem)))

/-- R189, R191, R207: an encoding that breaks a rule, or an undefined OPCODE in the word at the PC, is an ILLEGAL fault of the executing threads of a
compute unit; the group issues nothing more and no register changes.

R233, R189: a privileged instruction on a compute unit is a PRIVILEGED fault of its executing threads, and no register changes. -/
def Obligations.IllegalInstructions : Prop :=
  (
  ∀ (s : State) (sh : Shape) (mi : Mi) (bad : Bool) (ready : Iss → Bool) (f : Iss → State → State) (pc chosen : Nat) (forced : Bool),
    let u := mi.unit.val
    let k := mi.slot.val
    let g := s.grp u k
    s.mayIssue u k = true → s.slotTurn u k mi.busy.toNat = true → s.choose u k mi.stall.toNat = some (pc, chosen, forced) →
    s.fetchFaultAt u pc mi.ext.isSome = none → s.dbgEnabled u = false → u < 128 →
    (if s.undefinedAt u pc = true then g.guarded chosen (bits (s.wordAt u pc) 0 3) (bit (s.wordAt u pc) 3) ≠ 0
     else g.guarded chosen mi.pred.toNat mi.pneg ≠ 0 ∧ illegal sh g.alloc mi = true) → (s.unit u).fault.kind = 0 →
    let t := s.issue sh mi bad ready f
    (t.unit u).fault.kind = 3 ∧ (t.unit u).fault.code = 0x0301 ∧ (t.unit u).fault.pc = pc ∧ (t.grp u k).faulted = true
      ∧ SameRegs g (t.grp u k) ∧ (∀ l, ((t.grp u k).thr l).pc = (g.thr l).pc) ∧ t.mem = s.mem ∧ t.mayIssue u k = false)
  ∧ (
  let faults (c : Mi → Instr) : Prop :=
    ∀ (s : State) (mi : Mi) (i : Iss), Issues s { mods := 0xFFF, ext := if mi.ext.isSome then .required else .none } { mi with udst := false } i →
      i.u < 128 → (s.unit i.u).fault.kind = 0 →
      Completes (c mi) s (fun t => (t.unit i.u).fault.kind = 4 ∧ (t.unit i.u).fault.code = 0x0301 ∧ (t.unit i.u).fault.lanes = i.exec
        ∧ (t.unit i.u).fault.pc = i.pc ∧ (t.grp i.u i.k).faulted = true ∧ SameRegs (s.grp i.u i.k) (t.grp i.u i.k) ∧ t.mem = s.mem ∧ t.ops = s.ops)
  faults .csrr ∧ faults .csrw ∧ faults .wdkick ∧ faults .wfe ∧ faults .sev ∧ faults .ldp ∧ faults .stp)

/-- R206, R222, R224: ld, ldc, st and, on a housekeeping unit, ldp and stp put one operation for each accessing lane in flight (of a load to
uniform registers the lowest executing one), at the translated address, with the operand of a store; a load is held by no cache of the unit here.

R187, R222: a load within one line of HBM that the unit's L1 holds, no acquire above unit scope, is answered from it as it issues.

R9, R51, R222: a load or store of one thread at a block register reads or writes it as the instruction issues, 32 bits at once or, in a 64-bit
access, both words.

R222, R225, R241 to R243: atom, dead, pf and accl put their operations in flight: the atomic with its operand, the hints with the line, the
accumulate of lane n with word n of its line. -/
def Obligations.MemoryInstructionsSent : Prop :=
  (
  let loads (c : Mi → Instr) (sh : Mi → Shape) (lpa : Bool) (kind : Mi → Nat → OpKind) : Prop :=
    ∀ (s : State) (mi : Mi) (i : Iss), Issues s (sh mi) mi i → (lpa = true → 128 ≤ i.u) →
      memBad mi = false → (lpa = true → memGlobal mi = false) → uncached s mi i (sh mi) (loadAccess mi lpa) = true →
      MemOk s mi i (sh mi) (loadAccess mi lpa) false →
      Completes (c mi) s (fun t => (∀ a, t.peek a = s.peek a) ∧ SameRegs (s.grp i.u i.k) (t.grp i.u i.k)
        ∧ ∀ l ∈ (loadAccess mi lpa).lanes i.exec, ∀ lpa',
          s.destOf (s.partOfUnit i.u) (loadAccess mi lpa) (laneAddr (sh mi) mi (s.grp i.u i.k) l) = some (.here lpa') →
          Sent s t i (kind mi lpa') (memBytes mi) l lpa' 0)
  let stores (c : Mi → Instr) (sh : Mi → Shape) (lpa : Bool) : Prop :=
    ∀ (s : State) (mi : Mi) (i : Iss), Issues s (sh mi) mi i → (lpa = true → 128 ≤ i.u) →
      memBad mi = false → (lpa = true → memGlobal mi = false) → MemOk s mi i (sh mi) (plainAccess mi 2 lpa) (memOrd mi) →
      Completes (c mi) s (fun t => (∀ a, t.peek a = s.peek a) ∧ SameRegs (s.grp i.u i.k) (t.grp i.u i.k)
        ∧ ∀ l lpa', l < 32 → i.exec.testBit l = true →
          s.destOf (s.partOfUnit i.u) (plainAccess mi 2 lpa) (laneAddr (sh mi) mi (s.grp i.u i.k) l) = some (.here lpa') →
          Sent s t i .store (memBytes mi) l lpa' (opB (sh mi) mi (s.grp i.u i.k) ((s.grp i.u i.k).thr l)))
  loads .ld shapeLd false (fun _ _ => .load)
    ∧ loads .ldc shapeLd false (fun mi lpa => if place lpa = .hbm ∧ memGlobal mi = false then .const else .load)
    ∧ loads .ldp shapeLdp true (fun _ _ => .load) ∧ stores .st shapeSt false ∧ stores .stp shapeStp true)
  ∧ (
  ∀ (s : State) (mi : Mi) (i : Iss) (line : Nat) (data : List Byte), Issues s (shapeLd mi) mi i → memBad mi = false → mi.udst = false →
    let n := memBytes mi
    let r := mi.dst.toNat
    let x := loadAccess mi false
    let g := s.grp i.u i.k
    r + (n + 3) / 4 ≤ 255 → MemOk s mi i (shapeLd mi) x false → (memOrd mi = true → memScope mi = 0) → place line = .hbm →
    (∀ l ∈ x.lanes i.exec, ∃ a, s.destOf (s.partOfUnit i.u) x (laneAddr (shapeLd mi) mi g l) = some (.here a) ∧ a / 128 * 128 = line) →
    (s.unit i.u).l1.find? (fun c => c.1 == line) = some (line, data) → (∀ e ∈ s.opList, e.2.instr ≠ s.nextOp) →
    Completes (.ld mi) s (fun t => (∀ a, t.peek a = s.peek a)
      ∧ (∀ l a j, l < 32 → i.exec.testBit l = true → j < (n + 3) / 4 →
          s.destOf (s.partOfUnit i.u) x (laneAddr (shapeLd mi) mi g l) = some (.here a) →
          ((t.grp i.u i.k).thr l).getG (r + j) = bits (extendLoad n (bit mi.mod.toNat 3) (ofLeBytes ((data.drop (a % 128)).take n))) (32 * j) 32)
      ∧ (∀ l q, (i.exec.testBit l = false ∨ q < r ∨ r + (n + 3) / 4 ≤ q) → ((t.grp i.u i.k).thr l).getG q = (g.thr l).getG q)
      ∧ (∀ q, (t.grp i.u i.k).getU q = g.getU q) ∧ ∀ l q, ((t.grp i.u i.k).thr l).getP q = (g.thr l).getP q))
  ∧ (
  let reaches (s : State) (mi : Mi) (i : Iss) (sh : Shape) (x : Access) (release : Bool) (l : Nat) (reg : RegAddr) : Prop :=
    i.exec = 2 ^ l ∧ l < 32 ∧ s.memReady x release sh mi i = true
      ∧ s.lanesFault (s.partOfUnit i.u) x [(l, laneAddr sh mi (s.grp i.u i.k) l)] = none
      ∧ ∃ a, s.destOf (s.partOfUnit i.u) x (laneAddr sh mi (s.grp i.u i.k) l) = some (.here a) ∧ place a = .control ∧ s.regAt a = some reg
  let loads (c : Mi → Instr) (sh : Mi → Shape) (lpa : Bool) : Prop :=
    ∀ (s : State) (mi : Mi) (i : Iss) (l : Nat) (reg : RegAddr), Issues s (sh mi) mi i → (lpa = true → 128 ≤ i.u) →
      memBad mi = false → (lpa = true → memGlobal mi = false) → mi.udst = false → 4 ≤ memBytes mi → mi.dst.toNat + (memBytes mi + 3) / 4 ≤ 255 →
      reaches s mi i (sh mi) (loadAccess mi lpa) false l reg → (∀ e ∈ s.opList, e.2.instr ≠ s.nextOp) →
      Completes (c mi) s (fun t => ∃ s', Keeps s s' ∧
        let v := if memBytes mi = 8 then s'.regRead64 reg else s'.regRead reg
        ∀ j, j < memBytes mi / 4 → ((t.grp i.u i.k).thr l).getG (mi.dst.toNat + j) = bits (v.1 % 2 ^ (8 * memBytes mi)) (32 * j) 32)
  let stores (c : Mi → Instr) (sh : Mi → Shape) (lpa : Bool) : Prop :=
    ∀ (s : State) (mi : Mi) (i : Iss) (l : Nat) (reg : RegAddr), Issues s (sh mi) mi i → (lpa = true → 128 ≤ i.u) →
      memBad mi = false → (lpa = true → memGlobal mi = false) → reaches s mi i (sh mi) (plainAccess mi 2 lpa) (memOrd mi) l reg →
      Completes (c mi) s (fun t => ∃ s', Keeps s s' ∧
        let v := opB (sh mi) mi (s.grp i.u i.k) ((s.grp i.u i.k).thr l)
        t = (if memBytes mi = 8 then s'.regWrite64 reg v 0 else s'.regWrite reg v 0).afterStep i.u i.k (s.grp i.u i.k).step)
  loads .ld shapeLd false ∧ loads .ldc shapeLd false ∧ loads .ldp shapeLdp true ∧ stores .st shapeSt false ∧ stores .stp shapeStp true)
  ∧ (
  (∀ (s : State) (mi : Mi) (i : Iss),
      let op := modf mi 52 3
      let ty := modf mi 55 3
      let n := if ty = 2 then 2 else 1
      let sh : Shape := { a := 2, b := n, c := if op = 7 then n else 0, d := n, mods := 0x7FF, ext := .offset }
      let x : Access := { align := 4 * n, perm := 8, glob := bit mi.mod.toNat 9, atomic := true, scope := modf mi 58 3, lpa := false, bytes := 4 * n }
      Issues s sh mi i → ty ≤ 4 → modf mi 58 3 ≤ 5 → atomicAllowed op ty = true → MemOk s mi i sh x (bit mi.mod.toNat 10) →
      Completes (.atom mi) s (fun t => (∀ a, t.peek a = s.peek a) ∧ ∀ l lpa, l < 32 → i.exec.testBit l = true →
        s.destOf (s.partOfUnit i.u) x (laneAddr sh mi (s.grp i.u i.k) l) = some (.here lpa) →
        Sent s t i .atomic (4 * n) l lpa (opB sh mi (s.grp i.u i.k) ((s.grp i.u i.k).thr l))))
    ∧ (∀ (s : State) (mi : Mi) (i : Iss),
        let sh : Shape := { a := 2, mods := 0x1FF, ext := .offset }
        let x : Access := { plainAccess mi 2 false with align := 128 }
        Issues s sh mi i → memBad mi = false → MemOk s mi i sh x false →
        Completes (.dead mi) s (fun t => (∀ a, t.peek a = s.peek a) ∧ ∀ l lpa, l < 32 → i.exec.testBit l = true →
          s.destOf (s.partOfUnit i.u) x (laneAddr sh mi (s.grp i.u i.k) l) = some (.here lpa) → place lpa = .hbm → Sent s t i .dead 128 l lpa 0))
    ∧ (∀ (s : State) (mi : Mi) (i : Iss),
        let sh : Shape := { a := 2, mods := 0x1FF, ext := .offset }
        let x : Access := { plainAccess mi 1 false with align := 1 }
        Issues s sh mi i → memBad mi = false →
        (∀ l, l < 32 → i.exec.testBit l = true → laneAddr sh mi (s.grp i.u i.k) l < (if memGlobal mi then 2 ^ 56 else 2 ^ 44)) →
        Completes (.pf mi) s (fun t => (∀ a, t.peek a = s.peek a) ∧ ∀ l lpa, l < 32 → i.exec.testBit l = true →
          s.destOf (s.partOfUnit i.u) x (laneAddr sh mi (s.grp i.u i.k) l) = some (.here lpa) →
          place lpa = .hbm → Sent s t i .prefetch 1 l (lpa / 128 * 128) 0))
    ∧ (∀ (s : State) (mi : Mi) (i : Iss),
        let sh : Shape := { a := 2, b := 1, mods := 0x1FF, ext := .offset }
        let x : Access := { plainAccess mi 8 false with align := 128 }
        let g := s.grp i.u i.k
        Issues s sh mi i → memBad mi = false → MemOk s mi i sh x false →
        s.isEval g.part g.stream g.cmd = false → s.spanOf g.part g.stream g.cmd = none →
        Completes (.accl mi) s (fun t => (∀ a, t.peek a = s.peek a) ∧ ∀ l lpa, l < 32 → i.exec.testBit l = true →
          s.destOf (s.partOfUnit i.u) x (laneAddr sh mi g l) = some (.here lpa) →
          Sent s t i .accum 4 l (lpa + 4 * l) (opB sh mi g (g.thr l)))))

/-- R239, R244, R237: at a present, unlocked line of HBM a load returns what the line holds, and a store writes exactly its bytes; a load that
misses allocates its line and waits for the fill.

R240, R241: a read-modify-write at a line that holds its word: an atomic leaves its result there and gives its thread what it found; an
accumulate leaves the rounded sum. Every other byte reads as before.

R239, R242, R243: a dead hint drops an unlocked line without write-back; a prefetch of an absent line allocates it and waits for its fill, and
one of a present line is dropped; a fill makes the whole line valid and changes no byte that a read returns. -/
def Obligations.SliceOperations : Prop :=
  (
  (∀ (s : State) (id : Nat) (o : MemOp), s.arriving id (fun k => k == .load || k == .const) = some o → (s.line o.line).lock = none →
      s.hits o = true → Answerable s id o → Completes (.sliceLoad (.op id)) s (fun t => Loaded s t o ∧ t.op id = none))
    ∧ (∀ (s s' : State) (id : Nat) (o : MemOp), s.arriving id (fun k => k == .load || k == .const) = some o → (s.line o.line).lock = none →
        s.hits o = false → s.missBusy (s.sliceOf o.line).1 < 64 → s.allocLine o.part o.line = some s' →
        Completes (.sliceLoad (.op id)) s (fun t => t.op id = some { o with filling := true } ∧ t.lines = s'.lines))
    ∧ (∀ (s : State) (id : Nat) (o : MemOp), s.arriving id (fun k => k == .store) = some o → (s.line o.line).lock = none →
        (s.line o.line).present = true → place o.line = .hbm → DisjointLanes o →
        Completes (.sliceStore id) s (fun t => Stored s t o ∧ t.op id = none)))
  ∧ (
  (∀ (s : State) (id : Nat) (o : MemOp) (x : LaneOp), s.arriving id (fun k => k == .atomic) = some o → o.lanes = [x] →
      (s.line o.line).lock = none → s.hits o = true → place o.line = .hbm → DisjointLanes o → Answerable s id o → (o.bytes = 4 ∨ o.bytes = 8) →
      let found := s.peekNat x.lpa o.bytes
      Completes (.sliceAtomic id) s (fun t =>
        t.peekNat x.lpa o.bytes = atomicStep o.aop o.aty found x.data x.data2 % 2 ^ (8 * o.bytes)
        ∧ (∀ j, j < o.bytes / 4 → ((t.grp o.unit o.slot).thr x.lane).getG (o.dst + j) = bits found (32 * j) 32)
        ∧ (∀ a, a < x.lpa ∨ x.lpa + o.bytes ≤ a → t.peek a = s.peek a) ∧ t.op id = none))
    ∧ (∀ (s : State) (id : Nat) (o : MemOp) (x : LaneOp), s.arriving id (fun k => k == .accum) = some o → o.lanes = [x] → o.bytes = 4 →
        (s.line o.line).lock = none → s.hits o = true → place o.line = .hbm → DisjointLanes o → s.poisonedIn x.lpa 4 = false →
        Completes (.sliceAccumulate id) s (fun t =>
          t.peekNat x.lpa 4 = (fAdd fp32 .rne (s.peekNat x.lpa 4) x.data).1 % 2 ^ 32
          ∧ (∀ a, a < x.lpa ∨ x.lpa + 4 ≤ a → t.peek a = s.peek a) ∧ t.op id = none)))
  ∧ (
  (∀ (s : State) (id : Nat) (o : MemOp), s.arriving id (fun k => k == .dead) = some o → (s.line o.line).lock = none → place o.line = .hbm →
      Completes (.sliceDeadHint id) s (fun t => (t.line o.line).present = false ∧ t.mem = s.mem ∧ t.op id = none))
    ∧ (∀ (s : State) (id : Nat) (o : MemOp), s.arriving id (fun k => k == .prefetch) = some o → (s.line o.line).present = true →
        Completes (.slicePrefetch id) s (fun t => t.op id = none ∧ t.lines = s.lines ∧ t.mem = s.mem))
    ∧ (∀ (s s' : State) (id : Nat) (o : MemOp), s.arriving id (fun k => k == .prefetch) = some o → (s.line o.line).present = false →
        s.missBusy (s.sliceOf o.line).1 ≤ 48 → s.allocLine o.part o.line = some s' →
        Completes (.slicePrefetch id) s (fun t => t.op id = some { o with filling := true } ∧ t.lines = s'.lines))
    ∧ (∀ (s : State) (id : Nat) (o : MemOp) (e : Ecc), s.op id = some o → o.filling = true → o.kind = .load → o.unit < 128 →
        (s.line o.line).present = true → (s.line o.line).lock = none → place o.line = .hbm → o.line % 128 = 0 → e.uncorr = 0 →
        (∀ x ∈ s.opList, x.2.instr = o.instr → x.1 = id) →
        Completes (.hbmFillReturn (.op id) e) s (fun t => (t.line o.line).valid = 2 ^ 128 - 1 ∧ t.op id = none ∧ ∀ a, t.peek a = s.peek a)))

/-- R40, R234 to R236: a store that arrives in its turn at a bank of a cluster that is on writes exactly its bytes, and a load returns them; the bank
has served the operation's port. -/
def Obligations.ClusterMemoryAccess : Prop :=
  let arrives (s : State) (id : Nat) (o : MemOp) (c b : Nat) : Prop := s.op id = some o ∧ o.remote = none ∧ o.answered = false
    ∧ s.mayPerform id o = true ∧ (∃ off, place o.line = .cmem c off) ∧ s.domOn c = true ∧ o.bank = some (c, b)
    ∧ s.bankTurn c b (bankPort c o) = true
  (∀ (s : State) (id : Nat) (e : Ecc) (o : MemOp) (c b : Nat), arrives s id o c b → o.kind = .store → DisjointLanes o →
      (∀ x ∈ o.lanes, ∃ off, place x.lpa = .cmem c off ∧ off + o.bytes ≤ 0xC00000) →
      Completes (.cmemBankAccess (.op id) e) s (fun t => Stored s t o ∧ t.op id = none ∧ t.banks.get 7 (64 * c + b) = bankPort c o))
    ∧ (∀ (s : State) (id : Nat) (o : MemOp) (c b : Nat), arrives s id o c b → o.kind = .load → Answerable s id o →
        Completes (.cmemBankAccess (.op id) ⟨0, 0⟩) s (fun t => Loaded s t o ∧ t.op id = none ∧ t.banks.get 7 (64 * c + b) = bankPort c o))

/-- R226, R263: a fence whose threads' earlier loads have returned and, beyond unit scope, whose other earlier operations have been performed moves
its threads on; beyond unit scope it empties the L1 of the unit, and
the constant cache stays. -/
def Obligations.FenceInstruction : Prop :=
  ∀ (s : State) (mi : Mi) (i : Iss), Issues s { mods := 0x70 } mi i → memScope mi ≤ 5 →
    (s.busyLanes i.u i.k (fun o => o.hasResult
      || (memScope mi != 0 && o.kind != .prefetch && (o.remote.isNone || memScope mi == 5))) &&& i.exec) = 0 →
    (memScope mi = 5 → ∀ e ∈ s.opList, e.2.unit = i.u → e.2.remote.isSome = true → e.2.writes = false) →
    Completes (.fenceInstruction mi) s (fun t => Advanced s t i
      ∧ (t.unit i.u).l1 = (if memScope mi = 0 then (s.unit i.u).l1 else []) ∧ (t.unit i.u).cc = (s.unit i.u).cc
      ∧ t.mem = s.mem ∧ t.lines = s.lines ∧ t.ctrs = s.ctrs ∧ t.fences = s.fences)

/-- R227: csig sends one message with, for each counter, the amounts of the lanes that name it in ascending lane order; cwait makes each executing
thread wait for its counter and target, with one message for each group of threads that share both; cget writes the counter's value. -/
def Obligations.CounterInstructions : Prop :=
  (∀ (s : State) (mi : Mi) (i : Iss),
      let sh : Shape := { a := 1, b := 1, mods := 0x70, ext := .immB32 }
      let g := s.grp i.u i.k
      let ctr (l : Nat) : Nat := counterOf (opA sh mi g (g.thr l))
      Issues s sh mi i → memScope mi ≤ 4 → s.acquired i = true → s.counterFault sh mi i = none →
      (∀ l, l < 32 → i.exec.testBit l = true → s.mayCount g.part g.stream g.cmd (ctr l) = true) →
      Completes (.csig mi) s (fun t => Advanced s t i ∧ t.ctrs = s.ctrs ∧ t.fences = s.fences
        ∧ ∃ r m, t.ctrQ = s.ctrQ.set [] r (s.ctrQ.get [] r ++ [m]) ∧ m.wait = none ∧ m.unit = i.u ∧ m.slot = i.k ∧ m.agent = i.u
          ∧ (m.sigs.map Prod.fst).Nodup
          ∧ (∀ l, l < 32 → i.exec.testBit l = true →
              ∃ e ∈ m.sigs, e.1 = ctr l ∧ (l, toSigned 32 (opB sh mi g (g.thr l))) ∈ e.2)
          ∧ ∀ e ∈ m.sigs, (e.2.map Prod.fst).Pairwise (· < ·)
              ∧ ∀ x ∈ e.2, i.exec.testBit x.1 = true ∧ ctr x.1 = e.1 ∧ x.2 = toSigned 32 (opB sh mi g (g.thr x.1))))
    ∧ (∀ (s : State) (mi : Mi) (i : Iss),
        let sh : Shape := { a := 1, b := 1, d := 1, mods := 0x70, ext := .immB32 }
        let g := s.grp i.u i.k
        let key (l : Nat) : Nat × Nat := (counterOf (opA sh mi g (g.thr l)), opB sh mi g (g.thr l))
        Issues s sh mi i → memScope mi ≤ 4 → s.acquired i = true → s.counterFault sh mi i = none →
        (∀ l, l < 32 → i.exec.testBit l = true → s.mayCount g.part g.stream g.cmd (key l).1 = true) →
        Completes (.cwait mi) s (fun t => Advanced s t i ∧ t.ctrs = s.ctrs
          ∧ ∀ l, l < 32 → i.exec.testBit l = true →
            (∃ w, ((t.grp i.u i.k).thr l).wait = some w ∧ w.region = (key l).1 / 4096 ∧ w.counter = (key l).1 % 4096 ∧ w.target = (key l).2)
            ∧ ∃ m ∈ t.ctrQ.get [] ((key l).1 / 4096), ∃ w lanes, m.wait = some ((key l).1, w) ∧ w.target = (key l).2
                ∧ w.who = .thread i.u i.k lanes ∧ ∀ l', l' < 32 → (lanes.testBit l' = true ↔ i.exec.testBit l' = true ∧ key l' = key l)))
    ∧ Results .cget (fun _ => { a := 1, d := 1, mods := 0x70 })
        (fun s mi i => memScope mi ≤ 4 ∧ s.acquired i = true ∧ s.counterFault { a := 1, d := 1, mods := 0x70 } mi i = none) (fun s mi i l =>
          let g := s.grp i.u i.k
          let c := counterOf (opA { a := 1, d := 1, mods := 0x70 } mi g (g.thr l))
          (s.ctr (c / 4096) (c % 4096)).value)

/-- R227, R271 to R273, R278: a signal that arrives with every step within the limits moves the counter's value, names its signaller and
releases exactly the waiters whose targets are met; one that breaks a limit changes no counter and faults the thread that sent it, with
COUNTER_UNDERFLOW or COUNTER_OVERFLOW.

R274: a wait that arrives below its target joins the counter's waiters; at or above it the waiting threads go on at once with the value
observed in their destination. -/
def Obligations.CounterArrivals : Prop :=
  (
  (∀ (s : State) (r : Fin 4) (k : Nat) (m : CtrMsg) (c v : Nat) (l : List (Nat × Int)),
      let x := s.ctr (c / 4096) (c % 4096)
      (s.ctrQ.get [] r.val)[k]? = some m → m.wait = none → s.ctrMayArrive (s.ctrQ.get [] r.val) k m = true → s.ctrDiscards m.part = false →
      m.sigs = [(c, l)] → applyAmounts x.floor x.ceil x.value l = .ok v →
      Completes (.counterSignalArrival r k) s (fun t =>
        t.ctr (c / 4096) (c % 4096) = { x with
          value := v, waiters := x.waiters.filter (fun w => decide (v < w.target))
          lastAgent := if v = x.value then x.lastAgent else m.agent
          lastAmount := if v = x.value then x.lastAmount else ofSigned 32 (l.foldl (fun a y => a + y.2) 0)
          lastCmd := if v = x.value then x.lastCmd else m.cmd }
        ∧ t.ctrQ.get [] r.val = (s.ctrQ.get [] r.val).eraseIdx k
        ∧ (∀ a n, a * 4096 + n ≠ c → t.ctr a n = s.ctr a n) ∧ t.fences = s.fences ∧ t.mem = s.mem ∧ t.lines = s.lines))
    ∧ (∀ (s : State) (r : Fin 4) (k : Nat) (m : CtrMsg) (c lane : Nat) (above : Bool) (l : List (Nat × Int)),
        let x := s.ctr (c / 4096) (c % 4096)
        (s.ctrQ.get [] r.val)[k]? = some m → m.wait = none → s.ctrMayArrive (s.ctrQ.get [] r.val) k m = true → s.ctrDiscards m.part = false →
        m.sigs = [(c, l)] → applyAmounts x.floor x.ceil x.value l = .error (lane, above) →
        m.unit < 128 → (s.grp m.unit m.slot).live = true → (s.unit m.unit).fault.kind = 0 →
        Completes (.counterSignalArrival r k) s (fun t => t.ctrs = s.ctrs
          ∧ (t.unit m.unit).fault.kind = (if above then 6 else 5) ∧ (t.unit m.unit).fault.code = 0x0301 ∧ (t.unit m.unit).fault.lanes = 2 ^ lane
          ∧ (t.unit m.unit).fault.counter = c % 4096 ∧ (t.unit m.unit).fault.region = c / 4096 ∧ (t.grp m.unit m.slot).faulted = true)))
  ∧ (
  (∀ (s : State) (r : Fin 4) (k : Nat) (m : CtrMsg) (c : Nat) (w : Waiter),
      let x := s.ctr (c / 4096) (c % 4096)
      (s.ctrQ.get [] r.val)[k]? = some m → m.wait = some (c, w) → s.ctrMayArrive (s.ctrQ.get [] r.val) k m = true →
      s.ctrDiscards m.part = false → x.value < w.target →
      Completes (.counterWaitArrival r k) s (fun t => t.ctr (c / 4096) (c % 4096) = { x with waiters := x.waiters ++ [w] }
        ∧ (∀ a n, a * 4096 + n ≠ c → t.ctr a n = s.ctr a n) ∧ t.groups = s.groups ∧ t.mem = s.mem))
    ∧ (∀ (s : State) (r : Fin 4) (k : Nat) (m : CtrMsg) (c : Nat) (w : Waiter) (u g lanes : Nat),
        let x := s.ctr (c / 4096) (c % 4096)
        (s.ctrQ.get [] r.val)[k]? = some m → m.wait = some (c, w) → s.ctrMayArrive (s.ctrQ.get [] r.val) k m = true →
        s.ctrDiscards m.part = false → w.target ≤ x.value → w.who = .thread u g lanes →
        Completes (.counterWaitArrival r k) s (fun t => t.ctrs = s.ctrs ∧ t.mem = s.mem
          ∧ ∀ l cw, l < 32 → lanes.testBit l = true → ((s.grp u g).thr l).wait = some cw → cw.udst = false → cw.dst < 255 →
            ((t.grp u g).thr l).wait = none ∧ ((t.grp u g).thr l).getG cw.dst = x.value % 2 ^ 32)))

/-- R106, R115, R154, R229, R230: tile and vop of a compute unit join its unaccepted instructions, at most two, with every field of the word and the
descriptor words read at the issue, and nothing else changes but the group's threads, its count of uncompleted instructions and the team's; where two
wait already, the issue waits; reserved bits are an ILLEGAL fault. -/
def Obligations.EngineInstructionsIssued : Prop :=
  (∀ (s : State) (mi : Mi) (i : Iss), Issues s { mods := 0x3F } mi i → mi.a = 0 → mi.b = 0 → mi.c = 0 → mi.usel = 0 → i.u < 128 →
      let g := s.grp i.u i.k
      let d := modf mi 52 6
      (s.unit i.u).tileQ.length < 2 → s.acquired i = true → s.uniformPending i.u i.k d 20 = false →
      Completes (.tile mi) s (fun t => Advanced s t i
        ∧ EngineQueued s t i { s.unit i.u with
            tileQ := (s.unit i.u).tileQ ++ [TileReq.mk i.k g.part g.stream g.cmd
              (if d % 4 = 0 ∧ d ≤ 40 then (List.range 20).map (fun w => g.getU (d + w)) else [])] }
        ∧ (t.grp i.u i.k).tiles = g.tiles + 1 ∧ (t.grp i.u i.k).vecs = g.vecs))
    ∧ (∀ (s : State) (v : Vi) (i : Iss), Issues s { ext := .required } (viIssueWord v) i → v.rsv = 0 → v.rsvExt = 0 → i.u < 128 →
        let g := s.grp i.u i.k
        let words (b : BitVec 8) : List Nat :=
          let d := bits b.toNat 0 6
          if bits b.toNat 6 2 = 2 ∧ d % 4 = 0 ∧ d ≤ 52 then (List.range 8).map (fun w => g.getU (d + w)) else []
        (s.unit i.u).vecQ.length < 2 → ((s.unit i.u).vecLink = none ∨ (s.unit i.u).vecLink = some i.k) → s.acquired i = true →
        (∀ b ∈ [v.dst, v.a, v.b, v.c, v.mask], bits b.toNat 6 2 = 2 → s.uniformPending i.u i.k (bits b.toNat 0 6) 8 = false) →
        Completes (.vop v) s (fun t => Advanced s t i
          ∧ EngineQueued s t i { s.unit i.u with
              vecQ := (s.unit i.u).vecQ ++ [{ unit := i.u, slot := i.k, part := g.part, stream := g.stream, cmd := g.cmd, vop := v.vop.toNat,
                                              lane := v.lane.toNat, round := v.round.toNat, dst := v.dst.toNat, a := v.a.toNat, b := v.b.toNat,
                                              c := v.c.toNat, relu := v.relu, maskout := v.maskout, lse := v.lse, signal := v.signal,
                                              link := v.link, reps := v.repeatN.toNat + 1, rows := v.rows.toNat + 1, mask := v.mask.toNat,
                                              counter := v.counter.toNat, srcfmt := v.srcfmt.toNat,
                                              descs := [words v.dst, words v.a, words v.b, words v.c, words v.mask] }]
              vecLink := if v.link then some i.k else none }
          ∧ (t.grp i.u i.k).vecs = g.vecs + 1 ∧ (t.grp i.u i.k).tiles = g.tiles))
    ∧ (∀ (s : State) (mi : Mi) (i : Iss), Issues s { mods := 0x3F } mi i → mi.a = 0 → mi.b = 0 → mi.c = 0 → mi.usel = 0 → i.u < 128 →
        2 ≤ (s.unit i.u).tileQ.length → Completes (.tile mi) s (fun t => t = s))
    ∧ (∀ (s : State) (v : Vi) (i : Iss), Issues s { ext := .required } (viIssueWord v) i → v.rsv = 0 → v.rsvExt = 0 → i.u < 128 →
        2 ≤ (s.unit i.u).vecQ.length → Completes (.vop v) s (fun t => t = s))
    ∧ (∀ (s : State) (mi : Mi) (i : Iss), Issues s { mods := 0x3F } mi i → (mi.a ≠ 0 ∨ mi.b ≠ 0 ∨ mi.c ≠ 0 ∨ mi.usel ≠ 0) → i.u < 128 →
        (s.unit i.u).fault.kind = 0 → Completes (.tile mi) s (fun t => IllegalAt s t i))
    ∧ (∀ (s : State) (v : Vi) (i : Iss), Issues s { ext := .required } (viIssueWord v) i → (v.rsv ≠ 0 ∨ v.rsvExt ≠ 0) → i.u < 128 →
        (s.unit i.u).fault.kind = 0 → Completes (.vop v) s (fun t => IllegalAt s t i))

/-- R233, R36: privileged instructions on a housekeeping unit: csrr and csrw of one executing thread on the registers of its unit, wdkick, wfe
with and without a pending source, and sev to a unit in which a group waits or none does. -/
def Obligations.PrivilegedInstructions : Prop :=
  (∀ (s : State) (mi : Mi) (i : Iss) (l : Nat), Issues s { a := 1, d := 1 } mi i → 128 ≤ i.u → l < 32 → i.exec = 2 ^ l → mi.udst = false →
      mi.dst.toNat < 255 →
      let a := opA { a := 1, d := 1 } mi (s.grp i.u i.k) ((s.grp i.u i.k).thr l)
      (a = 0 ∨ a = 5 ∨ a = 6 ∨ a = 7 ∨ a = 8) →
      Completes (.csrr mi) s (fun t => ((t.grp i.u i.k).thr l).getG mi.dst.toNat
          = (s.regRead (home .hku (i.u - 128) (4 * a))).1 % 2 ^ 32 ∧ t.mem = s.mem ∧ t.units = s.units))
    ∧ (∀ (s : State) (mi : Mi) (i : Iss) (l : Nat), Issues s { a := 1, b := 1 } mi i → 128 ≤ i.u → l < 32 → i.exec = 2 ^ l →
        opA { a := 1, b := 1 } mi (s.grp i.u i.k) ((s.grp i.u i.k).thr l) = 8 →
        Completes (.csrw mi) s (fun t => t.reg (home .hku (i.u - 128) 0x20)
            = (s.reg (home .hku (i.u - 128) 0x20) &&& (2 ^ 64 - 1 ^^^ 0x3FF))
              ||| (opB { a := 1, b := 1 } mi (s.grp i.u i.k) ((s.grp i.u i.k).thr l) % 2 ^ 32 &&& 0x3FF)
          ∧ Advanced s t i ∧ t.units = s.units))
    ∧ (∀ (s : State) (mi : Mi) (i : Iss), Issues s {} mi i → 128 ≤ i.u →
        Completes (.wdkick mi) s (fun t => Advanced s t i ∧ t.units = s.units.set {} i.u { s.unit i.u with kickAt := s.pkg.time }))
    ∧ (∀ (s : State) (mi : Mi) (i : Iss), Issues s {} mi i → 128 ≤ i.u →
        Completes (.wfe mi) s (fun t => Advanced s t i ∧ (t.unit i.u).events = 0
          ∧ (t.grp i.u i.k).wfe = decide ((s.unit i.u).events = 0) ∧ ((s.unit i.u).events = 0 → t.mayIssue i.u i.k = false)))
    ∧ (∀ (s : State) (mi : Mi) (i : Iss) (l : Nat), Issues s { a := 1, b := 1 } mi i → 128 ≤ i.u → l < 32 → i.exec = 2 ^ l →
        let g := s.grp i.u i.k
        let src := opA { a := 1, b := 1 } mi g (g.thr l)
        let n := opB { a := 1, b := 1 } mi g (g.thr l)
        n < 4 → (∀ k, k < 32 → (128 + n, k) ≠ (i.u, i.k) → ((s.grp (128 + n) k).live && (s.grp (128 + n) k).wfe) = false) →
        Completes (.sev mi) s (fun t => Advanced s t i
          ∧ (t.unit (128 + n)).events = (s.unit (128 + n)).events ||| 2 ^ (src % 32)))
    ∧ (∀ (s : State) (mi : Mi) (i : Iss) (l k : Nat), Issues s { a := 1, b := 1 } mi i → 128 ≤ i.u → l < 32 → i.exec = 2 ^ l →
        let g := s.grp i.u i.k
        let n := opB { a := 1, b := 1 } mi g (g.thr l)
        n < 4 → k < 32 → (128 + n, k) ≠ (i.u, i.k) → (s.grp (128 + n) k).live = true → (s.grp (128 + n) k).wfe = true →
        Completes (.sev mi) s (fun t => (t.grp (128 + n) k).wfe = false ∧ (t.unit (128 + n)).events = (s.unit (128 + n)).events))

/-- R40, R115 to R125: the array takes the next pending instruction round robin, whose unit's slot is free from then on; one that must wait holds the
array until it may go on; one that passes its checks is appended to the accepted ones,
and on the cluster-memory route with FP32 results each result stands in its storage row, every other byte of memory as before.

R141, R142: a tile instruction that fails a check, when taken or when held, is counted and recorded with its code, leaves memory alone and stops
its launch. -/
def Obligations.TileAcceptance : Prop :=
  (
  let streamed (s t : State) (c u : Nat) (q : TileReq) : Prop :=
    let d := q.desc
    let x := tileD d
    (∃ r, (t.arr c).runs = (s.arr c).runs ++ [r] ∧ r.unit = u ∧ r.slot = q.slot ∧ r.stream = q.stream ∧ r.cmd = q.cmd
        ∧ r.route = x.route ∧ r.mode = x.mode ∧ r.signal = (if x.signal then some (c / 8 * 4096 + dfield d 3 16 12) else none))
      ∧ (t.arr c).held = none ∧ t.groups = s.groups ∧ t.ctrs = s.ctrs
      ∧ (x.route ≠ 0 → (x.route = 1 ∨ s.spanOf q.part q.stream q.cmd = none) → ∀ a, t.peek a = s.peek a)
      ∧ (x.route = 0 → x.fo = 0 → x.transC = false → x.isInt = false → (x.m = 1 ∨ 4 * x.n ≤ dfield d 11 0 16 * 16) →
          (∀ i j, i < x.m → j < x.n → t.cword c (dfield d 13 0 24 + i * (dfield d 11 0 16 * 16) + 4 * j)
              = (convert (.fp fp32) (.fp fp32) (State.outRm d x i j) (s.tileOut c d x i j).1).1 % 2 ^ 32)
          ∧ ∀ a, (∀ i j, i < x.m → j < x.n →
              let o := State.cmemLpa c (dfield d 13 0 24 + i * (dfield d 11 0 16 * 16) + 4 * j)
              a < o ∨ o + 4 ≤ a) → t.peek a = s.peek a)
  let taken (s : State) (c u : Nat) (q : TileReq) (rest : List TileReq) : Prop :=
    (s.arr c).held = none ∧ State.bufferFree (s.arr c) (tileD q.desc).mode = true
      ∧ State.nextUnit c (s.arr c).last (fun u => !(s.unit u).tileQ.isEmpty) = some u ∧ (s.unit u).tileQ = q :: rest
  (∀ (s : State) (c : Fin 32) (u : Nat) (q : TileReq) (rest : List TileReq), s.domOn c.val = true → taken s c.val u q rest →
      s.tileWaits c.val q.desc (tileD q.desc) = false → s.tileCheck c.val q.part q.desc (tileD q.desc) = none →
      Completes (.tileAccept c) s (fun t => t.units = s.units.set {} u { s.unit u with tileQ := rest } ∧ (t.arr c.val).last = u % 4
        ∧ streamed s t c.val u q))
    ∧ (∀ (s : State) (c : Fin 32) (u : Nat) (q : TileReq) (rest : List TileReq), s.domOn c.val = true → taken s c.val u q rest →
        s.tileWaits c.val q.desc (tileD q.desc) = true →
        Completes (.tileAccept c) s (fun t => t = { s with
          units := s.units.set {} u { s.unit u with tileQ := rest }
          arrays := s.arrays.set {} c.val { s.arr c.val with last := u % 4, held := some (u, q) } }))
    ∧ (∀ (s : State) (c : Fin 32) (u : Nat) (q : TileReq), s.domOn c.val = true → (s.arr c.val).held = some (u, q) →
        (s.tileWaits c.val q.desc (tileD q.desc) = true → Completes (.tileAccept c) s (fun t => t = s))
        ∧ (s.tileWaits c.val q.desc (tileD q.desc) = false → s.tileCheck c.val q.part q.desc (tileD q.desc) = none →
            Completes (.tileAccept c) s (fun t => t.units = s.units ∧ (t.arr c.val).last = (s.arr c.val).last ∧ streamed s t c.val u q))))
  ∧ (
  ∀ (s : State) (c : Fin 32) (u : Nat) (q : TileReq) (code word : Nat),
    s.domOn c.val = true → s.tileWaits c.val q.desc (tileD q.desc) = false →
    ((s.arr c.val).held = some (u, q)
      ∨ (s.arr c.val).held = none ∧ State.bufferFree (s.arr c.val) (tileD q.desc).mode = true
        ∧ State.nextUnit c.val (s.arr c.val).last (fun u => !(s.unit u).tileQ.isEmpty) = some u ∧ (s.unit u).tileQ.head? = some q) →
    s.tileCheck c.val q.part q.desc (tileD q.desc) = some (code, word) →
    Completes (.tileAccept c) s (fun t => t.reg (home .arr c.val 0x18) = code + (u % 4) * 0x10000 + word * 0x40000
      ∧ (t.arr c.val).runs = (s.arr c.val).runs ∧ (t.arr c.val).held = none ∧ t.mem = s.mem ∧ t.lines = s.lines
      ∧ ∀ id, (t.op id).map (fun o => { o with slot := 0 }) = (s.op id).map (fun o => { o with slot := 0 })))

/-- R116, R119, R126, R153, R155: TILE_COMPLETE and VECTOR_COMPLETE take the oldest instruction off and send its signal; a port image enters its
register when none stands unreleased. -/
def Obligations.EngineCompletion : Prop :=
  (∀ (s : State) (c : Fin 32) (r : TileRun) (rest : List TileRun), (s.arr c.val).runs = r :: rest → s.tileArrived c.val r = true →
      Completes (.tileComplete c) s (fun t => (t.arr c.val).runs = rest ∧ t.mem = s.mem ∧ t.lines = s.lines ∧ t.ctrs = s.ctrs
        ∧ (r.signal = none → t.ctrQ = s.ctrQ)
        ∧ (∀ k, r.signal = some k → s.mayCount r.part r.stream r.cmd k = true →
            ∃ m, t.ctrQ.get [] (k / 4096) = s.ctrQ.get [] (k / 4096) ++ [m] ∧ m.sigs = [(k, [(0, 1)])] ∧ m.agent = 0x100 + c.val)
        ∧ ((s.grp r.unit r.slot).live = true → (s.grp r.unit r.slot).stream = r.stream → (s.grp r.unit r.slot).cmd = r.cmd →
            (t.grp r.unit r.slot).tiles = (s.grp r.unit r.slot).tiles - 1)))
    ∧ (∀ (s : State) (c : Fin 32) (q : VecReq) (fl : Nat) (rest : List (VecReq × Nat)), (s.vec c.val).done = (q, fl) :: rest →
        Completes (.vectorComplete c) s (fun t => (t.vec c.val).done = rest ∧ (t.vec c.val).lanes = (s.vec c.val).lanes ∧ t.mem = s.mem
          ∧ t.lines = s.lines ∧ t.ctrs = s.ctrs ∧ (q.signal = false → t.ctrQ = s.ctrQ)
          ∧ (q.signal = true → s.mayCount q.part q.stream q.cmd (c.val / 8 * 4096 + q.counter) = true →
              let k := c.val / 8 * 4096 + q.counter
              ∃ m, t.ctrQ.get [] (k / 4096) = s.ctrQ.get [] (k / 4096) ++ [m] ∧ m.sigs = [(k, [(0, 1)])] ∧ m.agent = 0x120 + c.val)
          ∧ ((s.grp q.unit q.slot).live = true → (s.grp q.unit q.slot).stream = q.stream → (s.grp q.unit q.slot).cmd = q.cmd →
              (t.grp q.unit q.slot).vecs = (s.grp q.unit q.slot).vecs - 1)))
    ∧ (∀ (s : State) (c : Fin 32) (i : PortImage) (rest : List PortImage), (s.arr c.val).images = i :: rest → (s.vec c.val).full = none →
        ((s.arr c.val).runs.takeWhile (fun r => r.id != i.id)).all (s.tileArrived c.val) = true →
        (i.lanes.map Prod.fst).Nodup → (∀ x ∈ i.lanes, x.1 < 512) →
        Completes (.portImageDeliver c) s (fun t => (t.arr c.val).images = rest ∧ (t.arr c.val).runs = (s.arr c.val).runs
          ∧ (t.vec c.val).full = some i.reg ∧ (∀ x ∈ i.lanes, (t.vec c.val).lanes.get 0 (i.reg * 512 + x.1) = x.2)
          ∧ VecFrame s t c.val i.reg))

/-- R148, R154, R156, R157, R162: one repetition of an elementwise row with a register as destination writes the operation of its sources'
elements to each element of the destination, and nothing else.

R156, R160: the rows RNDBITS, PACK, UNPACK, SM_EXP and SM_NORM with a register as destination, and the log-sum-exp of SM_NORM.

R87, R93, R159, R160: the last image of a row of a reduction leaves the row's result in the row's lane: the partial result of the earlier images
joined with the selected elements in ascending order, those of two Ndoum streams by the segments of R87.

R151, R158: a repetition whose destination is an FP32 stream of consecutive elements stores the converted results of its image, each element
in its four bytes, and no other byte of memory. -/
def Obligations.VectorInstructions : Prop :=
  (
  let row (r : Fin 32 → Instr) (op : Nat → Bool) : Prop :=
    ∀ (s : State) (c : Fin 32) (x : VecRun) (q : VecReq), RunsNext s c.val x q → op q.vop = true → opKind q.dst = 1 → q.maskout = false →
      q.relu = false →
      let src (i e : Nat) : Nat := if (sourcesUsed q.vop q.lse).testBit (i - 1) then (s.vecSource c.val q i x.rep 0 q.count e).1 else 0
      Completes (r c) s (fun t => RanOne s t c.val x ∧ VecFrame s t c.val (bits q.dst 0 5)
        ∧ ∀ e, e < q.count → State.regElem (t.vec c.val) (bits q.dst 0 5) q.lane e
            = (vopElem q.vop q.lane (s.resultRm q x.rep q.count e) (src 1 e) (src 2 e) (src 3 e)).1 % 2 ^ laneBits q.lane)
  row .vopAdd (· == 0x00) ∧ row .vopSub (· == 0x01) ∧ row .vopMul (· == 0x02) ∧ row .vopFma (· == 0x03) ∧ row .vopMin (· == 0x04)
    ∧ row .vopMax (· == 0x05) ∧ row .vopAbs (· == 0x06) ∧ row .vopNeg (· == 0x07)
    ∧ row .vopCmp (fun v => decide (0x08 ≤ v) && decide (v ≤ 0x0D)) ∧ row .vopSel (· == 0x0E) ∧ row .vopShl (· == 0x10)
    ∧ row .vopShr (· == 0x11) ∧ row .vopSar (· == 0x12) ∧ row .vopAnd (· == 0x13) ∧ row .vopOr (· == 0x14) ∧ row .vopXor (· == 0x15)
    ∧ row .vopAndn (· == 0x16) ∧ row .vopCvt (· == 0x18) ∧ row .exp2 (· == 0x20) ∧ row .log2 (· == 0x21) ∧ row .rcp (· == 0x22)
    ∧ row .rsqrt (· == 0x23) ∧ row .tanh (· == 0x24) ∧ row .sigmoid (· == 0x25))
  ∧ (
  let row (r : Fin 32 → Instr) (op : Nat) (ok : VecReq → VecRun → Prop) (f : State → Fin 32 → VecReq → VecRun → Nat → Nat) : Prop :=
    ∀ (s : State) (c : Fin 32) (x : VecRun) (q : VecReq), RunsNext s c.val x q → q.vop = op → opKind q.dst = 1 → q.maskout = false →
      q.relu = false → ok q x →
      Completes (r c) s (fun t => RanOne s t c.val x ∧ VecFrame s t c.val (bits q.dst 0 5)
        ∧ ∀ e, e < q.count → State.regElem (t.vec c.val) (bits q.dst 0 5) q.lane e = f s c q x e % 2 ^ laneBits q.lane)
  row .rndbits 0x19 (fun _ _ => True) (fun _ _ q x e =>
      let d := streamD (q.desc 1)
      srBits d.seed d.tensor (d.index + d.off x.rep 0 q.count e).toNat)
    ∧ row .unpack 0x31 (fun q _ => opKind q.a ≠ 2) (fun s c q _ e =>
        if bit ((s.vec c.val).lanes.get 0 (bits q.a 0 5 * 512 + e / 32)) (e % 32)
        then (if laneFloat q.lane then (encodeFp (laneFp q.lane) .rne (Fv.fin false 1 0)).1 else 1) else 0)
    ∧ row .smExp 0x2D (fun _ x => x.rep < 512) (fun s c q x e =>
        let w := bits q.b 0 5
        (State.smExp ((s.vec c.val).lanes.get 0 (w * 512 + x.rep)) ((s.vec c.val).lanes.get 0 ((w + 1) * 512 + x.rep))
          (s.vecSource c.val q 1 x.rep 0 q.count e).1 (s.vecMask c.val q x.rep 0 q.count e)).1)
    ∧ row .smNorm 0x2E (fun q x => x.rep < 512 ∧ q.lse = false) (fun s c q x e =>
        (State.smNorm ((s.vec c.val).lanes.get 0 ((bits q.b 0 5 + 1) * 512 + x.rep)) ((s.vec c.val).lanes.get 0 (bits q.c 0 5 * 512 + x.rep))
          (s.vecSource c.val q 1 x.rep 0 q.count e).1).1)
    ∧ (∀ (s : State) (c : Fin 32) (x : VecRun) (q : VecReq), RunsNext s c.val x q → q.vop = 0x2E → q.lse = true → q.maskout = false → x.rep < 512 →
        Completes (.smNorm c) s (fun t => RanOne s t c.val x ∧ VecFrame s t c.val (bits q.dst 0 5)
          ∧ let y := (State.smLse ((s.vec c.val).lanes.get 0 (bits q.b 0 5 * 512 + x.rep))
              ((s.vec c.val).lanes.get 0 ((bits q.b 0 5 + 1) * 512 + x.rep)) ((s.vec c.val).lanes.get 0 (bits q.c 0 5 * 512 + x.rep))).1
            (t.vec c.val).lanes.get 0 (bits q.dst 0 5 * 512 + x.rep) = if q.relu then relu q.lane y else y))
    ∧ (∀ (s : State) (c : Fin 32) (x : VecRun) (q : VecReq), RunsNext s c.val x q → q.vop = 0x30 → opKind q.dst = 1 → q.maskout = false →
        q.relu = false →
        Completes (.pack c) s (fun t => RanOne s t c.val x ∧ VecFrame s t c.val (bits q.dst 0 5)
          ∧ ∀ e, e < q.count → bit ((t.vec c.val).lanes.get 0 (bits q.dst 0 5 * 512 + e / 32)) (e % 32)
              = laneNonzero q.lane ((if laneNonzero q.lane (s.vecSource c.val q 1 x.rep 0 q.count e).1
                  then (if laneFloat q.lane then (encodeFp (laneFp q.lane) .rne (Fv.fin false 1 0)).1 else 1) else 0)))))
  ∧ (
  let row (r : Fin 32 → Instr) (op : Nat) : Prop :=
    ∀ (s : State) (c : Fin 32) (x : VecRun) (q : VecReq), RunsNext s c.val x q → q.vop = op → q.relu = false → 0 < q.rows → q.rows ≤ 512 →
      x.rep / q.rows + 1 = q.reps / q.rows →
      let row := x.rep % q.rows
      let acc := if State.ndDot q
        then ((s.dotImage c.val q row (x.rep / q.rows) q.count ((x.acc.get (State.accStart op) row).1, 0)).1, 1)
        else ((List.range q.count).filter (fun e => s.vecMask c.val q row (x.rep / q.rows) q.count e)).foldl (fun a e =>
          (State.accStep op q.lane a (s.vecSource c.val q 1 row (x.rep / q.rows) q.count e).1
            (if op = 0x2A then (s.vecSource c.val q 2 row (x.rep / q.rows) q.count e).1 else 0)).1) (x.acc.get (State.accStart op) row)
      (op = 0x29 → acc.2 ≠ 0) →
      Completes (r c) s (fun t => RanOne s t c.val x ∧ (t.vec c.val).lanes.get 0 (bits q.dst 0 5 * 512 + row) = acc.1
        ∧ (op = 0x2C → acc.2 / 0x40000 < 0x10000 →
            (t.vec c.val).lanes.get 0 ((bits q.dst 0 5 + 1) * 512 + row) = acc.2 / 0x40000 + bits acc.2 16 2 * 0x10000)
        ∧ (∀ k, k ≠ bits q.dst 0 5 * 512 + row → (op = 0x2C → k ≠ (bits q.dst 0 5 + 1) * 512 + row) →
            (t.vec c.val).lanes.get 0 k = (s.vec c.val).lanes.get 0 k)
        ∧ (∀ a, t.peek a = s.peek a) ∧ t.groups = s.groups ∧ t.ctrs = s.ctrs)
  row .rowsum 0x28 ∧ row .rowmax 0x29 ∧ row .rowdot 0x2A ∧ row .smStat 0x2C)
  ∧ (
  ∀ (s : State) (c : Fin 32) (x : VecRun) (q : VecReq), RunsNext s c.val x q → q.vop = 0x00 → q.lane = 0 → opKind q.dst = 2 →
    q.maskout = false → q.relu = false → s.domOn c.val = true →
    let d := streamD (q.desc 0)
    d.isBits = false → d.fmt = 0 → d.estride = 1 → d.addr % 4 = 0 → d.rstride % 4 = 0 → d.addr + x.rep * d.rstride + 2048 ≤ 0xC00000 →
    let at_ (e : Nat) : Nat := d.addr + x.rep * d.rstride + 4 * e
    let res (e : Nat) : Nat := (fAdd fp32 (s.resultRm q x.rep 512 e) (s.vecSource c.val q 1 x.rep 0 512 e).1 (s.vecSource c.val q 2 x.rep 0 512 e).1).1
    Completes (.vopAdd c) s (fun t => RanOne s t c.val x ∧ (t.vec c.val).lanes = (s.vec c.val).lanes
      ∧ (∀ e, e < 512 → t.cword c.val (at_ e) = (convert (.fp fp32) (.fp fp32) (State.storeRm d (d.off x.rep 0 512 e)) (res e)).1 % 2 ^ 32)
      ∧ ∀ a, (a < State.cmemLpa c.val (at_ 0) ∨ State.cmemLpa c.val (at_ 512) ≤ a) → t.peek a = s.peek a))

/-- R7, R9, R13, R49, R60, R521: a read of a register's word. The low word of a 64-bit register is returned and its high word latched, which a read of
the high word returns; a 32-bit register is returned whole; registers behind PROG_STATE or BOL_READ_SEQ are those latched at its last read; offset 0
is BLK_ID; no register reads 0.

R8 to R10, R28, R54, R195, R197: the low word written to a 64-bit register is held; the high word takes effect with it, by the access class of each
bit (a performance counter keeps its count and loses WRAPPED where a 1 is written to it, a breakpoint register takes both halves), in an extent's
range as EXTENT_RANGE_WRITE does, in UNIT_DBG_PC for the selected thread of a halted group. A register whose domain is off takes neither; at a 32-bit
register both rows are the one write.

R8, R28, R54, R55, R167, R195, R197, R275, R278, R287, R402, R497, R529: a write of a 32-bit register stores its RW fields, its RWL fields while the
configuration is not locked, and clears the W1C bits that are written 1; nothing else changes. A write where no register is, or of a register whose
domain is off, changes nothing. The registers whose writes do something of their own do it. -/
def Obligations.RegisterAccesses : Prop :=
  (
  let shows (s : State) (a : RegAddr) (v : Nat) (t : State) : Prop :=
    t.out = s.out ++ [.value a.kind.code a.inst a.off (v % 2 ^ 32)] ∧ t = { s with out := t.out, latch := t.latch }
  let value (s : State) (a : RegAddr) (d : RegDef) (base : Nat) : Nat :=
    if (State.latchLead a).any (fun x => x.2.contains base) then s.latch.get 0 (State.copyKey a base) else s.regValue a d base
  (∀ (s : State) (a : RegAddr) (d : RegDef) (base : Nat), (homed a).kind ≠ .cat → (homed a).off ≠ 0 → regBase (homed a) = some (d, base) →
      d.wide = true → (homed a).off = base → (State.latchLead (homed a)).any (fun x => x.1 == base) = false →
      Completes (.lowWordRead a) s (fun t => shows s a (value s (homed a) d base) t
        ∧ t.latch.get 0 (regKey (homed a)) = value s (homed a) d base >>> 32
        ∧ ∀ k, k ≠ regKey (homed a) → t.latch.get 0 k = s.latch.get 0 k))
    ∧ (∀ (s : State) (a : RegAddr) (d : RegDef) (base : Nat), (homed a).kind ≠ .cat → (homed a).off ≠ 0 → regBase (homed a) = some (d, base) →
        d.wide = true → (homed a).off ≠ base → (State.latchLead (homed a)).any (fun x => x.1 == base) = false →
        Completes (.lowWordRead a) s (fun t =>
          t = { s with out := s.out ++ [.value a.kind.code a.inst a.off (s.latch.get 0 (regKey { homed a with off := base }))] }))
    ∧ (∀ (s : State) (a : RegAddr) (d : RegDef) (base : Nat), (homed a).kind ≠ .cat → ((homed a).off ≠ 0 ∨ (homed a).kind = .prog) →
        regBase (homed a) = some (d, base) → d.wide = false → (State.latchLead (homed a)).any (fun x => x.1 == base) = false →
        Completes (.lowWordRead a) s (fun t => shows s a (value s (homed a) d base) t ∧ t.latch = s.latch))
    ∧ (∀ (s : State) (a : RegAddr) (d : RegDef) (base : Nat) (l : List Nat), (homed a).kind ≠ .cat →
        ((homed a).off ≠ 0 ∨ (homed a).kind = .prog) →
        regBase (homed a) = some (d, base) → d.wide = false → State.latchLead (homed a) = some (base, l) →
        Completes (.lowWordRead a) s (fun t => shows s a (s.regValue (homed a) d base) t
          ∧ (∀ o ∈ l, t.latch.get 0 (State.copyKey (homed a) o) = s.reg { homed a with off := o })
          ∧ ∀ k, (∀ o ∈ l, k ≠ State.copyKey (homed a) o) → t.latch.get 0 k = s.latch.get 0 k))
    ∧ (∀ (s : State) (a : RegAddr), (homed a).kind ≠ .cat → (homed a).kind ≠ .prog → (homed a).off = 0 →
        Completes (.lowWordRead a) s (fun t =>
          t = { s with out := s.out ++ [.value a.kind.code a.inst a.off ((homed a).kind.code + (homed a).inst % 256 * 256 + 0x10000)] }))
    ∧ (∀ (s : State) (a : RegAddr), (homed a).kind ≠ .cat → ((homed a).off ≠ 0 ∨ (homed a).kind = .prog) → regBase (homed a) = none →
        Completes (.lowWordRead a) s (fun t => t = { s with out := s.out ++ [.value a.kind.code a.inst a.off 0] }))
    ∧ (∀ (s : State) (a : RegAddr), a.kind = .cat → a.off ≠ 0x1C →
        Completes (.lowWordRead a) s (fun t =>
          t.out = s.out ++ [.value Kind.cat.code a.inst a.off (ofLeBytes ((s.cat.drop a.off).take 4))]
          ∧ (a.off = 0x18 → t.latch.get 0 (regKey (home .cat 0 0x18)) = ofLeBytes ((s.cat.drop 0x1C).take 4))
          ∧ (∀ k, (a.off = 0x18 → k ≠ regKey (home .cat 0 0x18)) → t.latch.get 0 k = s.latch.get 0 k)
          ∧ t = { s with out := t.out, latch := t.latch }))
    ∧ (∀ (s : State) (a : RegAddr), a.kind = .cat → a.off = 0x1C → Completes (.lowWordRead a) s (fun t =>
        t = { s with out := s.out ++ [.value Kind.cat.code a.inst 0x1C (s.latch.get 0 (regKey (home .cat 0 0x18)))] })))
  ∧ (
  let low (s : State) (a : RegAddr) (d : RegDef) (base : Nat) : Nat :=
    (s.held.get none (regKey { a with off := base })).getD (s.regValue a d base % 2 ^ 32)
  (∀ (s : State) (a : RegAddr) (w : W32), exec (.lowWordWrite a w) s = exec (.registerWrite a w) s
      ∧ exec (.highWordWrite a w) s = exec (.registerWrite a w) s)
    ∧ (∀ (s : State) (a : RegAddr) (d : RegDef) (base : Nat) (w : W32), regBase (homed a) = some (d, base) → d.wide = true → (homed a).off = base →
        s.asleep (homed a) d base = false →
        Completes (.lowWordWrite a w) s (fun t => t = { s with held := t.held } ∧ t.held.get none (regKey (homed a)) = some w.toNat
          ∧ ∀ k, k ≠ regKey (homed a) → t.held.get none k = s.held.get none k))
    ∧ (∀ (s : State) (a : RegAddr) (d : RegDef) (base : Nat) (w : W32), regBase (homed a) = some (d, base) → s.asleep (homed a) d base = true →
        Completes (.lowWordWrite a w) s (fun t => t = s) ∧ Completes (.highWordWrite a w) s (fun t => t = s))
    ∧ (∀ (s : State) (a : RegAddr) (d : RegDef) (base : Nat) (w : W32), regBase (homed a) = some (d, base) → d.wide = true → (homed a).off ≠ base →
        s.asleep (homed a) d base = false →
        ((homed a).kind = .prt → base < 0x1000) → ((homed a).kind = .unit ∨ (homed a).kind = .hku → base < 0x1000) →
        let r : RegAddr := { homed a with off := base }
        let v := low s (homed a) d base + w.toNat * 2 ^ 32
        Completes (.highWordWrite a w) s (fun t =>
          (∀ n, n < 64 → bit (t.reg r) n = if bit v n && bit d.w1c n then false
            else if bit d.rw n || (!s.pkg.locked && bit d.rwl n) then bit v n else bit (s.reg r) n)
          ∧ t.held.get none (regKey r) = none ∧ t = { s with regs := t.regs, held := t.held }
          ∧ (∀ k, k ≠ regKey r → t.held.get none k = s.held.get none k) ∧ ∀ k, k ≠ regKey r → t.regs.get none k = s.regs.get none k))
    ∧ (∀ (s : State) (p : Fin 4) (e : Fin 64) (field : Fin 3) (w : W32) (v : W64),
        let r := home .prt p.val (0x1000 + 32 * e.val + 8 * field.val)
        ∀ d, regBase r = some (d, r.off) → v.toNat = low s r d r.off % 2 ^ 32 + w.toNat * 2 ^ 32 →
        Completes (.highWordWrite { r with off := r.off + 4 } w) s (fun t =>
          exec (.extentRangeWrite p e field v) { s with held := s.held.set none (regKey r) none } = .next t))
    ∧ (∀ (s : State) (u : Fin 132) (w : W32) (d : RegDef),
        let r := State.unitReg u.val 0x1408
        let sel := s.reg { r with off := 0x20 }
        let k := bits sel 0 5
        let g := s.grp u.val k
        regBase r = some (d, 0x1408) → s.asleep r d 0x1408 = false →
        Completes (.highWordWrite { r with off := 0x140C } w) s (fun t =>
          t = { s with held := s.held.set none (regKey r) none, groups := t.groups }
          ∧ (g.live = true → s.groupHalted u.val k = true →
              (∀ l, l < 32 → (t.grp u.val k).thr l = if l = bits sel 5 5
                then { g.thr l with pc := (low s r d 0x1408 + w.toNat * 2 ^ 32) % 2 ^ 44 } else g.thr l)
              ∧ ∀ u' k', k' < 32 → (u', k') ≠ (u.val, k) → t.grp u' k' = s.grp u' k')
          ∧ ((g.live && s.groupHalted u.val k) = false → t.groups = s.groups))))
  ∧ (
  let own (a : RegAddr) (base : Nat) : Bool := match a.kind with
    | .prt => decide (0x1000 ≤ base)
    | .ctr => base == 0x10 || decide (0x10000 ≤ base)
    | .fen => decide (0x10000 ≤ base)
    | .unit | .hku => base == 0x14 || base == 0x18 || decide (0x1000 ≤ base)
    | .xch | .hbm | .id => base == 0x14
    | .dom => base == 0x100
    | _ => false
  let sets (s : State) (a : RegAddr) (v : Nat) (t : State) : Prop :=
    t.reg a = v ∧ t = { s with regs := t.regs } ∧ ∀ k, k ≠ regKey a → t.regs.get none k = s.regs.get none k
  (∀ (s : State) (a : RegAddr) (d : RegDef) (base : Nat) (w : W32), regBase (homed a) = some (d, base) → d.wide = false → (homed a).off = base →
      own (homed a) base = false → s.asleep (homed a) d base = false →
      Completes (.registerWrite a w) s (fun t =>
        (∀ n, n < 64 → bit (t.reg (homed a)) n =
          if bit w.toNat n && bit d.w1c n then false
          else if bit d.rw n || (!s.pkg.locked && bit d.rwl n) then bit w.toNat n else bit (s.reg (homed a)) n)
        ∧ t = { s with regs := t.regs } ∧ ∀ k, k ≠ regKey (homed a) → t.regs.get none k = s.regs.get none k))
    ∧ (∀ (s : State) (a : RegAddr) (w : W32), regBase (homed a) = none → Completes (.registerWrite a w) s (fun t => t = s))
    ∧ (∀ (s : State) (a : RegAddr) (d : RegDef) (base : Nat) (w : W32), regBase (homed a) = some (d, base) → s.asleep (homed a) d base = true →
        Completes (.registerWrite a w) s (fun t => t = s))
    ∧ (∀ (s : State) (p : Fin 4) (e : Fin 64) (w : W32), Completes (.registerWrite (home .prt p.val (0x1018 + 32 * e.val)) w) s (fun t =>
        exec (.extentPermWrite p e w) s = .next t))
    ∧ (∀ (s : State) (r : Fin 4) (n : Fin 4096) (f : Fin 3) (w : W32),
        Completes (.registerWrite (home .ctr r.val (0x10000 + 16 * n.val + 4 * f.val)) w) s (fun t => exec (.ctrEntryWrite r n f w) s = .next t)
        ∧ Completes (.registerWrite (home .ctr r.val 0x10) w) s (fun t => exec (.ctrDbgSelWrite r w) s = .next t))
    ∧ (∀ (s : State) (r : Fin 4) (f : Fin 1024) (w : W32),
        (bit w.toNat 0 = true → Completes (.registerWrite (home .fen r.val (0x1001C + 32 * f.val)) w) s (fun t =>
          exec (.fenCtlReset r f) s = .next t))
        ∧ ∀ o, 8 ≤ o → o < 32 → o % 4 = 0 → (o = 28 → bit w.toNat 0 = false) →
          Completes (.registerWrite (home .fen r.val (0x10000 + 32 * f.val + o)) w) s (fun t => t = s))
    ∧ (∀ (s : State) (u : Fin 132) (w : W32),
        let a := State.unitReg u.val 0x14
        ((s.partOfUnit u.val).any s.hasCtx = true → Completes (.registerWrite a w) s (fun t => t = s))
        ∧ ((s.partOfUnit u.val).any s.hasCtx = false → Completes (.registerWrite a w) s (fun t =>
            sets s a (max 20 (bits w.toNat 0 5) + max 1 (min 65504 (bits w.toNat 8 16)) * 256) t)))
    ∧ (∀ (s : State) (u : Fin 132) (w : W32), (u.val < 128 → s.domOn (u.val / 4) = true) →
        let a := State.unitReg u.val 0x18
        let hit (u' : Nat) : Prop := u' = u.val
          ∨ bits w.toNat 1 2 = 2 ∧ ∃ p, s.partOfUnit u.val = some p ∧ u' ∈ s.unitsOf p ∧ s.domOn (u' / 4) = true
        ((w.toNat &&& 0x38 = 0 ∨ w.toNat &&& 0x39 = 8) → Completes (.registerWrite a w) s (sets s a (w.toNat &&& 0x7C7)))
        ∧ (w.toNat &&& 0x39 = 9 → Completes (.registerWrite a w) s (fun t => t.reg a = w.toNat &&& 0x7C7
            ∧ t = { s with regs := t.regs, groups := t.groups, halts := t.halts }
            ∧ ∀ u' k, k < 32 → (hit u' ∧ (s.grp u' k).live = true → t.grp u' k = { s.grp u' k with halted := true, step := false })
              ∧ (¬ (hit u' ∧ (s.grp u' k).live = true) → t.grp u' k = s.grp u' k)))
        ∧ (w.toNat &&& 0x38 = 0x10 → Completes (.registerWrite a w) s (fun t => t.reg a = w.toNat &&& 0x7C7
            ∧ t = { s with regs := t.regs, groups := t.groups, halts := t.halts }
            ∧ (∀ k, k < 32 → (s.grp u.val k).live = true → s.groupHalted u.val k = true →
                t.grp u.val k = { s.grp u.val k with halted := false, step := false, pass := true } ∧ t.groupHalted u.val k = false)
            ∧ ∀ u' k, k < 32 → u' ≠ u.val → t.grp u' k = s.grp u' k))
        ∧ (w.toNat &&& 0x38 = 0x20 → Completes (.registerWrite a w) s (fun t => t.reg a = w.toNat &&& 0x7C7
            ∧ t = { s with regs := t.regs, groups := t.groups }
            ∧ let n := bits w.toNat 6 5
              ((s.grp u.val n).live = true → s.groupHalted u.val n = true → t.grp u.val n = { s.grp u.val n with step := true })
              ∧ (((s.grp u.val n).live && s.groupHalted u.val n) = false → t.groups = s.groups)
              ∧ ∀ u' k, k < 32 → (u', k) ≠ (u.val, n) → t.grp u' k = s.grp u' k)))
    ∧ (∀ (s : State) (u : Fin 132) (w : W32), (u.val < 128 → s.domOn (u.val / 4) = true) →
        let sel := s.reg (State.unitReg u.val 0x20)
        let k := bits sel 0 5
        let l := bits sel 5 5
        let g := s.grp u.val k
        let frame (t : State) : Prop := t = { s with groups := t.groups } ∧ ∀ u' k', k' < 32 → (u', k') ≠ (u.val, k) → t.grp u' k' = s.grp u' k'
        if (g.live && s.groupHalted u.val k) = true then
          (∀ r, r < 255 → Completes (.registerWrite (State.unitReg u.val (0x1000 + 4 * r)) w) s (fun t => frame t
              ∧ t.grp u.val k = g.modThr l (fun x => x.setG r w.toNat)))
          ∧ Completes (.registerWrite (State.unitReg u.val 0x1400) w) s (fun t => frame t
              ∧ t.grp u.val k = g.modThr l (fun x => { x with p := w.toNat % 128 }))
          ∧ ∀ r, r < 63 → Completes (.registerWrite (State.unitReg u.val (0x1800 + 4 * r)) w) s (fun t => frame t
              ∧ t.grp u.val k = g.setU r w.toNat)
        else ∀ o, (0x1000 ≤ o ∧ o < 0x13FC ∨ o = 0x1400 ∨ 0x1800 ≤ o ∧ o < 0x18FC) → o % 4 = 0 →
          Completes (.registerWrite (State.unitReg u.val o) w) s (fun t => t = s))
    ∧ (∀ (s : State) (p : Nat) (w : W32), let a := pages .xch p 0 0x14
        Completes (.registerWrite a w) s (sets s a (max 1 (w.toNat % 65536))))
    ∧ (∀ (s : State) (n : Nat) (w : W32), let a := home .hbm n 0x14
        (s.pkg.locked = true → Completes (.registerWrite a w) s (fun t => t = s))
        ∧ (s.pkg.locked = false → Completes (.registerWrite a w) s (sets s a (max 1 (w.toNat % 256)))))
    ∧ (∀ (s : State) (p : Fin 4) (w : W32),
        let a := home .id p.val 0x14
        let seq := bits w.toNat 16 16
        (bit (s.reg (home .id p.val 0x10)) 0 = true → Completes (.registerWrite a w) s (fun t => t = s))
        ∧ (bit (s.reg (home .id p.val 0x10)) 0 = false → seq = bits (s.reg a) 16 16 →
            Completes (.registerWrite a w) s (sets s a (seq * 65536)))
        ∧ (bit (s.reg (home .id p.val 0x10)) 0 = false → seq ≠ bits (s.reg a) 16 16 → Completes (.registerWrite a w) s (fun t =>
            t.reg a = seq * 65536 ∧ t.reg (home .id p.val 0x10) = 1 + seq * 65536
            ∧ t = { s with
                regs := t.regs
                dome := { s.dome with reports := s.dome.reports ++ [{ who := p.val, seq := seq,
                                                                      nonce := ((List.range 8).map (fun i =>
                                                                        leBytes 4 (s.reg (home .id p.val (0x40 + 4 * i))))).flatten }] } }
            ∧ ∀ k, k ≠ regKey a → k ≠ regKey (home .id p.val 0x10) → t.regs.get none k = s.regs.get none k)))
    ∧ (∀ (s : State) (p : Fin 4) (w : W32),
        let a := home .dom p.val 0x100
        let seq := bits w.toNat 16 16
        let r : DomReq := ⟨p.val, bits w.toNat 0 8, seq, s.reg (home .dom p.val 0x104), s.reg (home .dom p.val 0x108), s.reg (home .dom p.val 0x10C)⟩
        (s.dome.open_.contains p.val = true → Completes (.registerWrite a w) s (fun t => t = { s with regs := t.regs }
            ∧ (s.reg (home .dom p.val 0x320) + 1 < 2 ^ 48 → t.reg (home .dom p.val 0x320) = s.reg (home .dom p.val 0x320) + 1)
            ∧ ∀ k, k ≠ regKey (home .dom p.val 0x320) → t.regs.get none k = s.regs.get none k))
        ∧ (s.dome.open_.contains p.val = false → seq = (s.dome.lastSeq[p.val]?).getD 0 →
            Completes (.registerWrite a w) s (sets s a (w.toNat &&& 0xFFFF00FF)))
        ∧ (s.dome.open_.contains p.val = false → seq ≠ (s.dome.lastSeq[p.val]?).getD 0 →
            ((∃ x l, s.dome.reqs = x :: l ∧ 1 ≤ x.kind ∧ x.kind ≤ 12) ∨ s.dome.reqs = [] ∧ 1 ≤ r.kind ∧ r.kind ≤ 12) →
            Completes (.registerWrite a w) s (fun t => t.reg a = w.toNat &&& 0xFFFF00FF
              ∧ t = { s with
                  regs := t.regs
                  dome := { s.dome with reqs := s.dome.reqs ++ [r], open_ := s.dome.open_ ++ [p.val]
                                        lastSeq := s.dome.lastSeq.set p.val seq } }
              ∧ ∀ k, k ≠ regKey a → t.regs.get none k = s.regs.get none k))
        ∧ (s.dome.open_.contains p.val = false → seq ≠ (s.dome.lastSeq[p.val]?).getD 0 → s.dome.reqs = [] → (r.kind = 0 ∨ 12 < r.kind) →
            Completes (.registerWrite a w) s (fun t => t.dome.reqs = []
              ∧ t.reg (home .dom p.val 0x110) = r.kind + (if s.dome.boot.state = 1 then 3 else 4) * 2 ^ 8 + seq * 2 ^ 16
              ∧ t.reg (home .dom p.val 0x114) = 0 ∧ t.reg a = w.toNat &&& 0xFFFF00FF
              ∧ t = { s with regs := t.regs, dome := { s.dome with open_ := t.dome.open_, lastSeq := s.dome.lastSeq.set p.val seq } }
              ∧ p.val ∉ t.dome.open_))))

/-- R13, R521: a read of PROG_STATE returns it and latches the progress registers behind it; a read of BOL_READ_SEQ likewise.

R278, R287: CTR_DBG_SEL latches a snapshot of the selected counter; RESET of a FAULTED fence clears its error and keeps its value and what it
is owed, and of any other fence records only its number. -/
def Obligations.RegisterSideEffects : Prop :=
  (
  (∀ (s : State) (n : Nat), Completes (.progStateRead n) s (fun t =>
      t.out = s.out ++ [.value Kind.prog.code n 0 (s.reg (home .prog n 0) % 2 ^ 32)]
      ∧ (∀ o, o = 0x08 ∨ o = 0x10 ∨ o = 0x18 → t.latch.get 0 (State.copyKey (home .prog n 0) o) = s.reg (home .prog n o))
      ∧ t = { s with out := t.out, latch := t.latch }))
    ∧ (∀ (s : State) (p : Fin 4), Completes (.bolReadSeqRead p) s (fun t =>
        t.out = s.out ++ [.value Kind.bol.code p.val 0x10 (s.reg (home .bol p.val 0x10) % 2 ^ 32)]
        ∧ (∀ o, o = 0x14 ∨ o = 0x18 ∨ o = 0x20 ∨ o = 0x28 → t.latch.get 0 (State.copyKey (home .bol p.val 0x10) o) = s.reg (home .bol p.val o))
        ∧ t = { s with out := t.out, latch := t.latch })))
  ∧ (
  (∀ (s : State) (r : Fin 4) (w : W32), s.domOn (32 + r.val) = true →
      let c := s.ctr r.val (bits w.toNat 0 12)
      Completes (.ctrDbgSelWrite r w) s (fun t =>
        (let d := t.ctrDbg.get {} r.val
         d.value = c.value ∧ d.floor = c.floor ∧ d.ceil = c.ceil ∧ d.waiters = c.waiters ∧ d.lastAgent = c.lastAgent
          ∧ d.lastAmount = c.lastAmount ∧ d.lastCmd = c.lastCmd)
        ∧ t.reg (home .ctr r.val 0x10) = bits w.toNat 0 12 ∧ t = { s with regs := t.regs, ctrDbg := t.ctrDbg }))
    ∧ (∀ (s : State) (r : Fin 4) (f : Fin 1024), s.domOn (32 + r.val) = true →
        let k := r.val * 1024 + f.val
        ((s.fence k).faulted = true → Completes (.fenCtlReset r f) s (fun t =>
            t.fence k = { s.fence k with faulted := false, code := 0, faultCmd := 0, faultSrc := 0 }
            ∧ (∀ j, j ≠ k → t.fence j = s.fence j) ∧ t = { s with fences := t.fences }))
        ∧ ((s.fence k).faulted = false → Completes (.fenCtlReset r f) s (fun t =>
            t.fences = s.fences ∧ t.reg (home .fen r.val 0x10) = f.val ∧ t = { s with regs := t.regs }))))

/-- R54, R55: what a write of an extent entry does: firmware's entries are not written; while a context exists only ERR_BUSY is recorded; a range
register makes its entry invalid; PRT_EXT_PERM validates an entry that passes every check, or records the first that fails.

R275, R278: a write of a counter's VALUE within its limits takes effect and names the register write as the last signaller; outside them it
changes no counter and its cause is recorded; FLOOR and CEIL likewise. -/
def Obligations.ExtentAndCounterWrites : Prop :=
  (
  (∀ (s : State) (p : Fin 4) (e : Fin 64) (w : W32) (field : Fin 3) (v : W64), e.val < 8 →
      Completes (.extentPermWrite p e w) s (fun t => t = s) ∧ Completes (.extentRangeWrite p e field v) s (fun t => t = s))
    ∧ (∀ (s : State) (p : Fin 4) (e : Fin 64) (w : W32) (field : Fin 3) (v : W64), 8 ≤ e.val → s.hasCtx p.val = true →
        Completes (.extentPermWrite p e w) s (fun t => t.extent p.val e.val = { s.extent p.val e.val with err := 1 }
          ∧ t = { s with extents := t.extents })
        ∧ Completes (.extentRangeWrite p e field v) s (fun t => t = s))
    ∧ (∀ (s : State) (p : Fin 4) (e : Fin 64) (field : Fin 3) (v : W64), 8 ≤ e.val → s.hasCtx p.val = false →
        let x := s.extent p.val e.val
        Completes (.extentRangeWrite p e field v) s (fun t => t.extent p.val e.val = { x with
            base := if field.val = 0 then bits v.toNat 16 28 else x.base
            limit := if field.val = 1 then bits v.toNat 16 28 else x.limit
            target := if field.val = 2 then bits v.toNat 16 28 else x.target
            valid := false }
          ∧ t = { s with extents := t.extents }
          ∧ ∀ p' e', p' * 64 + e' ≠ p.val * 64 + e.val → t.extent p' e' = s.extent p' e'))
    ∧ (∀ (s : State) (p : Fin 4) (e : Fin 64) (w : W32) (f : Extent), 8 ≤ e.val → s.hasCtx p.val = false → bit w.toNat 31 = true →
        let x := s.extent p.val e.val
        x.base ≤ x.limit →
        (∀ i, i < 64 → i ≠ e.val → (s.extent p.val i).valid = true → x.limit < (s.extent p.val i).base ∨ (s.extent p.val i).limit < x.base) →
        s.firmwareFor p.val x.target (x.target + x.limit - x.base) = some f →
        (∀ n, 2 ≤ n → n < 6 → bit w.toNat n = true → bit f.perm n = true) →
        Completes (.extentPermWrite p e w) s (fun t =>
          t.extent p.val e.val = { x with perm := bits w.toNat 0 6, valid := true, err := 0 }
          ∧ t = { s with extents := t.extents }
          ∧ ∀ p' e', p' * 64 + e' ≠ p.val * 64 + e.val → t.extent p' e' = s.extent p' e'))
    ∧ (∀ (s : State) (p : Fin 4) (e : Fin 64) (w : W32), 8 ≤ e.val → s.hasCtx p.val = false → bit w.toNat 31 = true →
        let x := s.extent p.val e.val
        x.limit < x.base →
        Completes (.extentPermWrite p e w) s (fun t => t.extent p.val e.val = { x with perm := bits w.toNat 0 6, valid := false, err := 2 }))
    ∧ (∀ (s : State) (p : Fin 4) (e : Fin 64) (w : W32) (i : Nat), 8 ≤ e.val → s.hasCtx p.val = false → bit w.toNat 31 = true →
        let x := s.extent p.val e.val
        x.base ≤ x.limit → i < 64 → i ≠ e.val → (s.extent p.val i).valid = true → (s.extent p.val i).base ≤ x.limit →
        x.base ≤ (s.extent p.val i).limit →
        Completes (.extentPermWrite p e w) s (fun t => t.extent p.val e.val = { x with perm := bits w.toNat 0 6, valid := false, err := 3 }))
    ∧ (∀ (s : State) (p : Fin 4) (e : Fin 64) (w : W32), 8 ≤ e.val → s.hasCtx p.val = false → bit w.toNat 31 = true →
        let x := s.extent p.val e.val
        x.base ≤ x.limit →
        (∀ i, i < 64 → i ≠ e.val → (s.extent p.val i).valid = true → x.limit < (s.extent p.val i).base ∨ (s.extent p.val i).limit < x.base) →
        (s.firmwareFor p.val x.target (x.target + x.limit - x.base) = none →
          Completes (.extentPermWrite p e w) s (fun t => t.extent p.val e.val = { x with perm := bits w.toNat 0 6, valid := false, err := 4 }))
        ∧ ∀ f n, s.firmwareFor p.val x.target (x.target + x.limit - x.base) = some f → 2 ≤ n → n < 6 → bit w.toNat n = true →
          bit f.perm n = false →
          Completes (.extentPermWrite p e w) s (fun t => t.extent p.val e.val = { x with perm := bits w.toNat 0 6, valid := false, err := 5 }))
    ∧ (∀ (s : State) (p : Fin 4) (e : Fin 64) (w : W32), 8 ≤ e.val → s.hasCtx p.val = false → bit w.toNat 31 = false →
        Completes (.extentPermWrite p e w) s (fun t =>
          t.extent p.val e.val = { s.extent p.val e.val with perm := bits w.toNat 0 6, valid := false })))
  ∧ (
  let open_ (s : State) (r : Fin 4) : Prop := s.domOn (32 + r.val) = true ∧ s.ctrDiscards (s.partOfRegion r.val) = false
  let refused (s t : State) (r : Fin 4) (n e : Nat) : Prop := t.ctrs = s.ctrs ∧ t.reg (home .ctr r.val 0x100) = n + e * 0x1000
  (∀ (s : State) (r : Fin 4) (n : Fin 4096) (w : W32), open_ s r →
      let c := s.ctr r.val n.val
      (c.floor ≤ w.toNat → w.toNat ≤ c.ceil → Completes (.ctrEntryWrite r n 0 w) s (fun t =>
          (t.ctr r.val n.val).value = w.toNat ∧ (t.ctr r.val n.val).waiters = c.waiters.filter (fun x => decide (w.toNat < x.target))
          ∧ (w.toNat ≠ c.value → (t.ctr r.val n.val).lastAgent = 0x0170)
          ∧ (∀ a m, a * 4096 + m ≠ r.val * 4096 + n.val → t.ctr a m = s.ctr a m) ∧ t.fences = s.fences ∧ t.mem = s.mem))
      ∧ ((w.toNat < c.floor ∨ c.ceil < w.toNat) → Completes (.ctrEntryWrite r n 0 w) s (fun t => refused s t r n.val 1)))
    ∧ (∀ (s : State) (r : Fin 4) (n : Fin 4096) (w : W32), open_ s r →
        let c := s.ctr r.val n.val
        (w.toNat ≤ c.value → w.toNat ≤ c.ceil → Completes (.ctrEntryWrite r n 1 w) s (fun t => t.ctr r.val n.val = { c with floor := w.toNat }
            ∧ t = { s with ctrs := t.ctrs }))
        ∧ ((c.value < w.toNat ∨ c.ceil < w.toNat) → Completes (.ctrEntryWrite r n 1 w) s (fun t => refused s t r n.val 2)))
    ∧ (∀ (s : State) (r : Fin 4) (n : Fin 4096) (w : W32), open_ s r →
        let c := s.ctr r.val n.val
        (c.value ≤ w.toNat → c.floor ≤ w.toNat → Completes (.ctrEntryWrite r n 2 w) s (fun t => t.ctr r.val n.val = { c with ceil := w.toNat }
            ∧ t = { s with ctrs := t.ctrs }))
        ∧ ((w.toNat < c.value ∨ w.toNat < c.floor) → Completes (.ctrEntryWrite r n 2 w) s (fun t => refused s t r n.val 3))))

/-- R28, R195, R197: HALT while debug halting is enabled halts every group of the unit; RESUME releases every halted group; STEP lets a halted group
issue; all are ignored while the unit's cluster is off. No register of a thread changes. -/
def Obligations.DebugCommands : Prop :=
  let idle (s : State) (u : Nat) : Prop := s.reg (State.unitReg u 0x18) &&& 0x38 = 0 ∧ (u < 128 → s.domOn (u / 4) = true)
  (∀ (s : State) (u : Fin 132), idle s u.val → s.dbgEnabled u.val = true → bits (s.reg (State.unitReg u.val 0x18)) 1 2 ≠ 2 →
      Completes (.dbgHalt u) s (fun t => (∀ k, k < 32 → (s.grp u.val k).live = true →
          t.grp u.val k = { s.grp u.val k with halted := true, step := false } ∧ t.groupHalted u.val k = true ∧ t.mayIssue u.val k = false)
        ∧ (∀ u' k, k < 32 → u' ≠ u.val → t.grp u' k = s.grp u' k) ∧ t.reg (State.unitReg u.val 0x1C) = 0 ∧ t.mem = s.mem))
    ∧ (∀ (s : State) (u : Fin 132), idle s u.val →
        Completes (.dbgResume u) s (fun t => (∀ k, k < 32 → (s.grp u.val k).live = true → s.groupHalted u.val k = true →
            t.grp u.val k = { s.grp u.val k with halted := false, step := false, pass := true } ∧ t.groupHalted u.val k = false)
          ∧ (∀ u' k, k < 32 → u' ≠ u.val → t.grp u' k = s.grp u' k) ∧ t.mem = s.mem))
    ∧ (∀ (s : State) (u : Fin 132) (k : Fin 32), idle s u.val → (s.grp u.val k.val).live = true → s.groupHalted u.val k.val = true →
        Completes (.dbgStep u k) s (fun t => t.grp u.val k.val = { s.grp u.val k.val with step := true }
          ∧ (∀ u' k', k' < 32 → (u', k') ≠ (u.val, k.val) → t.grp u' k' = s.grp u' k') ∧ t.mem = s.mem))
    ∧ (∀ (s : State) (u : Fin 132) (k : Fin 32), u.val < 128 → s.domOn (u.val / 4) = false →
        Completes (.dbgHalt u) s (fun t => t = s) ∧ Completes (.dbgResume u) s (fun t => t = s) ∧ Completes (.dbgStep u k) s (fun t => t = s))

/-- R289, R291 to R296: a context is created where every check passes: its number is the next, its streams expect SEQ 1 at their roots, its
counters are fresh; one that is destroyed leaves no context, no stream, no live object, and no powered cluster. A refused creation answers with
its code and creates nothing.

R289, R290, R320, R323: EVENT_RING_SET, QUERY and REG_WRITE of a partition. -/
def Obligations.ManagementRequests : Prop :=
  (
  (∀ (s : State) (p : Fin 4) (n msg : Nat), OneRequest s p.val n msg 0x02 → s.createCheck p.val msg = 0 →
      Completes (.contextCreate p) s (fun t => Responded t p.val n msg 0
        ∧ (t.ctxOf p.val).state = 1 ∧ (t.ctxOf p.val).num = (s.ctxOf p.val).num % 0xFFFF + 1
        ∧ (t.ctxOf p.val).rc = bit msg 64 ∧ (t.ctxOf p.val).tp3 = bit msg 65 ∧ (t.ctxOf p.val).conc = bit msg 66
        ∧ (t.ctxOf p.val).heapBase = w64At msg 0x10 ∧ (t.ctxOf p.val).heapSize = w64At msg 0x18
        ∧ (∀ st, st < 4 → (t.str p.val st).seq = 1 ∧ (t.str p.val st).park = w64At msg (0x38 + 8 * st) ∧ (t.str p.val st).cmds = [])
        ∧ ∀ r k, r < 4 → k < 4096 → s.partOfRegion r = p.val → t.ctr r k = {}))
    ∧ (∀ (s : State) (p : Fin 4) (n msg : Nat), OneRequest s p.val n msg 0x02 → s.createCheck p.val msg ≠ 0 → s.hasCtx p.val = false →
        Completes (.contextCreate p) s (fun t => Responded t p.val n msg (s.createCheck p.val msg) ∧ t.ctx = s.ctx ∧ t.strs = s.strs ∧ t.mem = s.mem))
    ∧ (∀ (s : State) (p : Fin 4) (n msg : Nat), OneRequest s p.val n msg 0x03 → s.hasCtx p.val = true → bits msg 32 16 = s.ctxNum p.val →
        Completes (.contextDestroy p) s (fun t => t.hasCtx p.val = false ∧ t.ctxNum p.val = 0 ∧ t.mgmt.get [] p.val = []
          ∧ (∀ st, st < 4 → (t.str p.val st).cmds = [] ∧ (t.str p.val st).park = 0)
          ∧ (∀ i, i < 65536 → (t.obj p.val i).live = false) ∧ ∀ c, c ∈ s.clustersOf p.val → t.domOn c = false)))
  ∧ (
  (∀ (s : State) (p : Fin 4) (n msg lpa : Nat), OneRequest s p.val n msg 0x01 → mgmtReserved msg = false → bits msg 88 2 ≠ 3 →
      6 ≤ bits msg (8 * 0x18) 5 → bits msg (8 * 0x18) 5 ≤ 16 → w64At msg 0x20 % 8 = 0 → (s.qp (bits msg 64 24)).conn = true →
      (s.qp (bits msg 64 24)).part = p.val → s.translate p.val (w64At msg 0x20) 17 = some lpa → place lpa = .hbm → (s.line lpa).present = true → s.paWaits p.val (w64At msg 0x20) 8 = false →
      Completes (.eventRingSet p) s (fun t => (t.ring p.val).set = true ∧ (t.ring p.val).qp = bits msg 64 24
        ∧ (t.ring p.val).wake = bits msg 88 2 ∧ (t.ring p.val).rkey = w32At msg 0x0C ∧ (t.ring p.val).va = w64At msg 0x10
        ∧ (t.ring p.val).log2 = bits msg (8 * 0x18) 5 ∧ (t.ring p.val).consumed = State.oldestSeq (s.ring p.val)
        ∧ t.mgmt.get [] p.val = []
        ∧ t.peekNat lpa 8 = State.oldestSeq (s.ring p.val) % 2 ^ 64 ∧ ∀ a, (a < lpa ∨ lpa + 8 ≤ a) → t.peek a = s.peek a))
    ∧ (∀ (s : State) (p : Fin 4) (n msg : Nat), OneRequest s p.val n msg 0x04 →
        Completes (.query p) s (fun t => Responded t p.val n msg 0 ∧ t = { s with out := t.out, mgmt := t.mgmt, regs := t.regs, eth := t.eth, shares := t.shares }))
    ∧ (∀ (s : State) (p : Fin 4) (n msg : Nat), OneRequest s p.val n msg 0x05 → mgmtReserved msg = false → bit msg 192 = false →
        w64At msg 0x08 % 4 = 0 → 0xF1000000000 + p.val * 0x100000000 ≤ w64At msg 0x08 →
        w64At msg 0x08 < 0xF1000000000 + (p.val + 1) * 0x100000000 → s.regAt (w64At msg 0x08) = some (home .dom p.val 0x104) →
        Completes (.regWrite p) s (fun t => t.reg (home .dom p.val 0x104) % 2 ^ 32 = w32At msg 0x10 ∧ t.mgmt.get [] p.val = []
          ∧ t.mem = s.mem ∧ t.groups = s.groups ∧ t.dome = s.dome)))

/-- R323, R244: the hub rereads CONSUMED, once its line may be read, and writes to the ring the record that now has room.

R191, R192, R286, R295: the first fault record to reach the hub, the lowest unit's of those of one cycle, kills its partition's context: the record is kept, every stream stops with its
commands abandoned, no group of its units issues any more, and no memory changes. -/
def Obligations.KillAndEventRing : Prop :=
  (
  (∀ (s : State) (p : Fin 4) (e : Event) (lpa : Nat), (s.ring p.val).set = true →
      s.translate p.val (s.ring p.val).consumedPa 17 = some lpa → s.paWaits p.val (s.ring p.val).consumedPa 4 = false → e.seq < 2 ^ 32 →
      let u := s.readPa p.val (s.ring p.val).consumedPa 4
      (u.ring p.val).set = true → (u.ring p.val).queue = [e] → (u.ring p.val).dropped = 0 →
      let v := ofLeBytes (u.peekPa p.val (u.ring p.val).consumedPa 4)
      let c := if serialAfter 32 v e.seq then e.seq else v
      Loads s u
      ∧ ((e.seq + 2 ^ 32 - c % 2 ^ 32) % 2 ^ 32 < 2 ^ (u.ring p.val).log2 →
        Completes (.eventRingRecheck p) s (fun t => Left u t (u.ring p.val).qp 32 ((u.ring p.val).writeOf e)
          ∧ t.rings = u.rings.set {} p.val { u.ring p.val with queue := [], consumed := c }
          ∧ t = { u with rings := t.rings, out := t.out, eth := t.eth, shares := t.shares, regs := t.regs }))
      ∧ (2 ^ (u.ring p.val).log2 ≤ (e.seq + 2 ^ 32 - c % 2 ^ 32) % 2 ^ 32 →
        Completes (.eventRingRecheck p) s (fun t => t.rings = u.rings.set {} p.val { u.ring p.val with consumed := c }
          ∧ t = { u with rings := t.rings })))
    ∧ (∀ (s : State) (p : Fin 4), ((s.ring p.val).set = false ∨ s.translate p.val (s.ring p.val).consumedPa 17 = none
          ∨ s.paWaits p.val (s.ring p.val).consumedPa 4 = true) → Completes (.eventRingRecheck p) s (fun t => t = s)))
  ∧ (
  ∀ (s : State) (p : Fin 4) (r : FaultRec), State.firstRecord (s.faultQ.get [] p.val) = some r → (s.ctxOf p.val).state = 1 → s.prtState p.val ≠ 4 →
    Completes (.contextKill p) s (fun t => (t.ctxOf p.val).state = 2 ∧ (t.ctxOf p.val).firstFault = r ∧ (t.ctxOf p.val).num = (s.ctxOf p.val).num
      ∧ (∀ st, st < 4 → (t.str p.val st).stopped = true ∧ (t.str p.val st).cmds = [])
      ∧ (∀ u k, u ∈ s.unitsOf p.val → k < 32 → (t.grp u k).live = false ∧ t.mayIssue u k = false)
      ∧ t.faultQ.get [] p.val = [] ∧ t.objs = s.objs ∧ ∀ q, q ≠ p.val → t.ctxOf q = s.ctxOf q))

/-- R237, R302, R303, R305, R315: a command slot whose line need not wait is loaded; one that can be read, obeys its rules and passes every check joins
its stream unstarted, with the next
index, a reference for each handle and its fence's OWED raised; one that is malformed joins it ended with BAD_COMMAND, and one
behind a failed WAIT with UPSTREAM, and no fence is raised.

R237, R244, R298: a parked sequencer that was woken reads its link slot, once its line need not wait: where SEQ matches and the slot breaks no rule
it follows it; where SEQ does not match it stays parked. -/
def Obligations.CommandParsing : Prop :=
  (
  let pa (s : State) (p st : Fin 4) : Nat := (s.str p.val st.val).block.getD 0 + 64 * (s.str p.val st.val).next
  let read (s : State) (p st : Fin 4) : State := (s.noteReady p.val).fetched p.val (pa s p st) 64
  let ready (s : State) (p st : Fin 4) (l : List Byte) : Prop :=
    (s.noteReady p.val).mayParse p.val st.val = true ∧ (s.str p.val st.val).next < (s.str p.val st.val).last ∧ (s.str p.val st.val).span = none
      ∧ (read s p st).readRecord p.val (pa s p st) 64 = .ok l
  let slot (s : State) (p st : Fin 4) (l : List Byte) (c : Cmd) : Prop :=
    c.idx = State.nextIndex (s.str p.val st.val).index ∧ c.pa = pa s p st ∧ c.slot = BitVec.ofNat 512 (ofLeBytes l)
  (∀ (s : State) (p st : Fin 4), Loads (s.noteReady p.val) (read s p st))
    ∧ (∀ (s : State) (p st : Fin 4) (l : List Byte) (c₀ : Cmd), ready s p st l → slot s p st l c₀ → (s.str p.val st.val).skipping = false →
      c₀.malformed st.val (s.ctxOf p.val).num = false → (read s p st).parseCheck p.val st.val c₀ = 0 → c₀.op ≠ 0x10 → State.cmdRefs c₀ = [] →
      Completes (.commandParse p st) s (fun t => (t.str p.val st.val).next = (s.str p.val st.val).next + 1
        ∧ (t.str p.val st.val).index = c₀.idx ∧ (∃ c, (t.str p.val st.val).cmds = (s.str p.val st.val).cmds ++ [c] ∧ slot s p st l c
            ∧ c.started = false ∧ c.done = none ∧ c.owes = c₀.signal ∧ c.refs = [])
        ∧ (c₀.signal = true → (t.fence c₀.fence).owed = (s.fence c₀.fence).owed + 1) ∧ (c₀.signal = false → t.fences = s.fences)
        ∧ t = { read s p st with strs := t.strs, ctx := t.ctx, regs := t.regs, fences := t.fences }))
    ∧ (∀ (s : State) (p st : Fin 4) (l : List Byte) (c₀ : Cmd), ready s p st l → slot s p st l c₀ → (s.str p.val st.val).skipping = false →
      c₀.malformed st.val (s.ctxOf p.val).num = false → (read s p st).parseCheck p.val st.val c₀ = 0 → (State.cmdRefs c₀).Nodup →
      (State.cmdRefs c₀).Pairwise (fun h k => bits h 0 16 ≠ bits k 0 16) →
      Completes (.commandParse p st) s (fun t => (∃ c ∈ (t.str p.val st.val).cmds, slot s p st l c ∧ c.refs = State.cmdRefs c₀)
        ∧ (∀ h ∈ State.cmdRefs c₀, (t.obj p.val (bits h 0 16)).refs = (s.obj p.val (bits h 0 16)).refs + 1)
        ∧ (∀ i, (∀ h ∈ State.cmdRefs c₀, bits h 0 16 ≠ i) → i < 65536 → t.obj p.val i = s.obj p.val i) ∧ t.mem = (read s p st).mem))
    ∧ (∀ (s : State) (p st : Fin 4) (l : List Byte) (c₀ : Cmd), ready s p st l → slot s p st l c₀ →
        c₀.malformed st.val (s.ctxOf p.val).num = true →
        Completes (.commandParse p st) s (fun t => (t.str p.val st.val).next = (s.str p.val st.val).next + 1
          ∧ (∃ c, (t.str p.val st.val).cmds = (s.str p.val st.val).cmds ++ [c] ∧ slot s p st l c ∧ c.started = true ∧ c.done = some 0x0102)
          ∧ t.fences = s.fences ∧ t.mem = (read s p st).mem ∧ t.lines = (read s p st).lines ∧ t.ctrs = s.ctrs ∧ t.objs = s.objs))
    ∧ (∀ (s : State) (p st : Fin 4) (l : List Byte) (c₀ : Cmd), ready s p st l → slot s p st l c₀ → (s.str p.val st.val).skipping = true →
        c₀.malformed st.val (s.ctxOf p.val).num = false → c₀.recover = false →
        Completes (.commandParse p st) s (fun t => (t.str p.val st.val).next = (s.str p.val st.val).next + 1
          ∧ (∃ c, (t.str p.val st.val).cmds = (s.str p.val st.val).cmds ++ [c] ∧ slot s p st l c ∧ c.started = true ∧ c.done = some 0x0101)
          ∧ t.fences = s.fences ∧ t.mem = (read s p st).mem ∧ t.lines = (read s p st).lines ∧ t.ctrs = s.ctrs ∧ t.objs = s.objs)))
  ∧ (
  let read (s : State) (p st : Fin 4) : State :=
    let x := s.str p.val st.val
    let s := ((s.noteReady p.val).setStr p.val st.val { x with woken := false }).bump (home .str p.val (0x120 + 0x40 * st.val)) 1
    s.fetched p.val x.park 64
  let woken (s : State) (p st : Fin 4) (l : List Byte) : Prop :=
    let x := s.str p.val st.val
    x.woken = true ∧ x.block = none ∧ x.stopped = false ∧ x.draining = false ∧ (s.ctxOf p.val).state = 1 ∧ s.recordWaits p.val x.park 64 = false
      ∧ (read s p st).readRecord p.val x.park 64 = .ok l
  (∀ (s : State) (p st : Fin 4) (l : List Byte) (next first count : Nat), woken s p st l → bits (ofLeBytes l) 64 32 = (s.str p.val st.val).seq →
      State.linkFields (ofLeBytes l) = some (next, first, count) → (read s p st).translatesAll p.val next 4096 1 = true →
      (s.translate p.val next 1).map place = some .hbm →
      Completes (.linkSlotWake p st) s (fun t => (t.str p.val st.val).block = some next ∧ (t.str p.val st.val).next = first
        ∧ (t.str p.val st.val).last = first + count - 1 ∧ (t.str p.val st.val).woken = false
        ∧ (t.str p.val st.val).cmds = (s.str p.val st.val).cmds ∧ t = { read s p st with strs := t.strs, regs := t.regs, ctx := t.ctx }))
    ∧ (∀ (s : State) (p st : Fin 4) (l : List Byte), woken s p st l → bits (ofLeBytes l) 64 32 ≠ (s.str p.val st.val).seq →
        Completes (.linkSlotWake p st) s (fun t => (t.str p.val st.val).block = none ∧ (t.str p.val st.val).woken = false
          ∧ (t.str p.val st.val).park = (s.str p.val st.val).park ∧ t = { read s p st with strs := t.strs, regs := t.regs, ctx := t.ctx }))
    ∧ (∀ (s : State) (p st : Fin 4), s.recordWaits p.val (s.str p.val st.val).park 64 = true →
        Completes (.linkSlotWake p st) s (fun t => t = s.noteReady p.val)))

/-- R306, R310, R274, R284: NOP, SIGNAL, FENCE and REDO_END start and end at once; a WAIT ends where its counter or fence has reached the target,
fails on a FAULTED fence, and waits otherwise.

R307, R310, R322: REGWRITE ends with success where its address is in the register pages and with EXTENT elsewhere; EVENT queues a record with
the next SEQ on its partition's ring. -/
def Obligations.SimpleCommands : Prop :=
  (
  let atOnce (c : Fin 4 → Fin 4 → Instr) (op : Nat) : Prop :=
    ∀ (s : State) (p st : Fin 4) (x : Cmd), Starts s p.val st.val op x →
      Completes (c p st) s (fun t => Ended t p.val st.val x.idx 0 ∧ t = { s.noteReady p.val with strs := t.strs })
  atOnce .nopCommand 0x00 ∧ atOnce .signal 0x06 ∧ atOnce .fence 0x08 ∧ atOnce .redoEnd 0x12
    ∧ (∀ (s : State) (p st : Fin 4) (x : Cmd), Starts s p.val st.val 0x07 x → x.f 0x10 14 1 = 0 → s.ctrDiscards p.val = false →
        let c := s.ctr (x.f 0x10 12 2) (x.f 0x10 0 12)
        (x.w32 0x18 ≤ c.value → Completes (.wait p st) s (fun t => Ended t p.val st.val x.idx 0 ∧ t.ctrs = s.ctrs ∧ t.mem = s.mem))
        ∧ (c.value < x.w32 0x18 → Completes (.wait p st) s (fun t =>
            (∃ y, t.cmdOf p.val st.val x.idx = some y ∧ y.started = true ∧ y.done = none)
            ∧ ∃ w, t.ctr (x.f 0x10 12 2) (x.f 0x10 0 12) = { c with waiters := c.waiters ++ [w] } ∧ w.target = x.w32 0x18
                ∧ w.who = .command st.val x.idx)))
    ∧ (∀ (s : State) (p st : Fin 4) (x : Cmd), Starts s p.val st.val 0x07 x → x.f 0x10 14 1 ≠ 0 →
        let f := s.fence (x.f 0x10 12 2 * 1024 + x.f 0x10 0 12)
        (f.faulted = true → Completes (.wait p st) s (fun t => Ended t p.val st.val x.idx 0x0101 ∧ t = { s.noteReady p.val with strs := t.strs }))
        ∧ (f.faulted = false → f.reached (x.w64 0x18) = true →
            Completes (.wait p st) s (fun t => Ended t p.val st.val x.idx 0 ∧ t = { s.noteReady p.val with strs := t.strs }))
        ∧ (f.faulted = false → f.reached (x.w64 0x18) = false → Completes (.wait p st) s (fun t =>
            (∃ y, t.cmdOf p.val st.val x.idx = some y ∧ y.started = true ∧ y.done = none) ∧ t = { s.noteReady p.val with strs := t.strs }))))
  ∧ (
  (∀ (s : State) (p st : Fin 4) (x : Cmd), Starts s p.val st.val 0x09 x →
      let ok := (s.translate p.val (x.w64 0x10) 2).any (fun a => place a == .control)
      Completes (.regwrite p st) s (fun t => Ended t p.val st.val x.idx (if ok then 0 else 0x0802) ∧ t = { s.noteReady p.val with strs := t.strs }))
    ∧ (∀ (s : State) (p st : Fin 4) (x : Cmd), Starts s p.val st.val 0x0A x → (s.ring p.val).set = false → (s.ring p.val).dropped = 0 →
        (s.ring p.val).queue.length < 256 →
        Completes (.event p st) s (fun t => Ended t p.val st.val x.idx 0
          ∧ (∃ e, (t.ring p.val).queue = (s.ring p.val).queue ++ [e] ∧ e.seq = (s.ring p.val).next ∧ e.type = 6 ∧ e.code = x.f 0x20 0 16
              ∧ e.context = s.ctxNum p.val ∧ e.stream = st.val ∧ e.index = x.idx ∧ e.d0 = x.w64 0x10 ∧ e.d1 = x.w64 0x18
              ∧ e.wake = (x.f 0x20 16 1 == 1))
          ∧ (t.ring p.val).next = ((s.ring p.val).next + 1) % 2 ^ 32 ∧ t.out = s.out ∧ t.mem = s.mem)))

/-- R96, R98, R276, R311: REDO_BEGIN records the borrowed counters; a REDO_COMMIT of a span without overflow commits: its deferred signal reaches
the fence; one of a failed span ends with UPSTREAM and commits nothing; one whose last attempt overflowed ends with its own code. -/
def Obligations.RedoSpans : Prop :=
  (∀ (s : State) (p st : Fin 4) (x : Cmd) (z : Span), Starts s p.val st.val 0x10 x → (s.str p.val st.val).span = some z →
      (let pa := (s.addrOf p.val (x.w64 0x10)).2
       let n := x.w32 0x1C
       (∀ i, i < n → (s.translate p.val (pa + i * 65536) 3).map place = some .hbm)
         ∧ (0 < n → (s.translate p.val (pa + n * 65536 - 1) 3).map place = some .hbm)) →
      Completes (.redoBegin p st) s (fun t => Ended t p.val st.val x.idx 0
        ∧ (∃ y, (t.str p.val st.val).span = some y
            ∧ y.borrowed = z.borrowed.map (fun b => (b.1, (s.ctr (b.1 / 4096) (b.1 % 4096)).value)) ∧ y.failed = z.failed)
        ∧ t = { s.noteReady p.val with strs := t.strs }))
    ∧ (∀ (s : State) (p st : Fin 4) (x : Cmd) (z : Span) (k v i : Nat), Starts s p.val st.val 0x11 x → (s.str p.val st.val).span = some z →
        (∀ d ∈ (s.str p.val st.val).cmds, d.span = true → d.idx = x.idx) → z.failed = false → bit z.flags 0 = false → z.staged = [] →
        z.deferred = [(k, v, i)] → x.notes = [] → (s.fence k).faulted = false → serialAfter 64 v (s.fence k).value = true →
        Completes (.redoCommit p st) s (fun t => Ended t p.val st.val x.idx 0
          ∧ t.fence k = { s.fence k with value := v, owed := (s.fence k).owed - 1, lastCmd := i }
          ∧ (∀ j, j ≠ k → t.fence j = s.fence j)
          ∧ (∃ y, (t.str p.val st.val).span = some y ∧ y.committed = true ∧ y.deferred = []) ∧ t.mem = s.mem ∧ t.ctrs = s.ctrs))
    ∧ (∀ (s : State) (p st : Fin 4) (x : Cmd) (z : Span), Starts s p.val st.val 0x11 x → (s.str p.val st.val).span = some z →
        (∀ d ∈ (s.str p.val st.val).cmds, d.span = true → d.idx = x.idx) → z.failed = true →
        Completes (.redoCommit p st) s (fun t => Ended t p.val st.val x.idx 0x0101 ∧ t = { s.noteReady p.val with strs := t.strs }))
    ∧ (∀ (s : State) (p st : Fin 4) (x : Cmd) (z : Span), Starts s p.val st.val 0x11 x → (s.str p.val st.val).span = some z →
        (∀ d ∈ (s.str p.val st.val).cmds, d.span = true → d.idx = x.idx) → z.failed = false → bit z.flags 0 = true → 2 ≤ z.attempt →
        Completes (.redoCommit p st) s (fun t => Ended t p.val st.val x.idx 0x0501 ∧ t.fences = s.fences ∧ t.ctrs = s.ctrs))

/-- R312 to R316: OBJECT_CREATE takes the lowest free index and the lowest heap place that fits; HOLD and RELEASE move its references, and at zero
it is freed and its generation advances; each fails with the code of R314, R315 where it must. -/
def Obligations.ObjectCommands : Prop :=
  (∀ (s : State) (p st : Fin 4) (x : Cmd) (i g lpa : Nat), Starts s p.val st.val 0x30 x → s.translatesAll p.val (x.w64 0x18) 16 2 = true →
      s.freeIndex p.val = some i → s.heapFit p.val ((x.w64 0x10 + 65535) / 65536) = some g →
      s.liveGranules p.val + (x.w64 0x10 + 65535) / 65536 ≤ s.reg (home .prt p.val 0x18) → x.f 0x20 0 1 = 0 →
      s.translate p.val (x.w64 0x18) 2 = some lpa → place lpa = .hbm → lpa % 128 ≤ 112 → (s.line lpa).present = true →
      s.paWaits p.val (x.w64 0x18) 16 = false →
      let gen := (s.obj p.val i).gen
      Completes (.objectCreate p st) s (fun t => Ended t p.val st.val x.idx 0
        ∧ t.obj p.val i = { live := true, base := g * 65536, size := (x.w64 0x10 + 65535) / 65536, refs := 1, gen := gen }
        ∧ (∀ q j, q * 65536 + j ≠ p.val * 65536 + i → t.obj q j = s.obj q j)
        ∧ t.peekNat lpa 4 = (i + gen * 65536) % 2 ^ 32 ∧ t.peekNat (lpa + 4) 4 = 0 ∧ t.peekNat (lpa + 8) 8 = g * 65536 % 2 ^ 64
        ∧ ∀ a, (a < lpa ∨ lpa + 16 ≤ a) → t.peek a = s.peek a))
    ∧ (∀ (s : State) (p st : Fin 4) (x : Cmd), Starts s p.val st.val 0x30 x → s.translatesAll p.val (x.w64 0x18) 16 2 = true →
        s.heapFit p.val ((x.w64 0x10 + 65535) / 65536) = none →
        Completes (.objectCreate p st) s (fun t => Ended t p.val st.val x.idx 0x0202 ∧ t = { s.noteReady p.val with strs := t.strs }))
    ∧ (∀ (s : State) (p st : Fin 4) (x : Cmd), Starts s p.val st.val 0x31 x →
        let i := bits (x.w32 0x10) 0 16
        (s.obj p.val i).refs + x.f 0x14 0 16 < 2 ^ 32 →
        Completes (.objectHold p st) s (fun t => Ended t p.val st.val x.idx 0
          ∧ t.obj p.val i = { s.obj p.val i with refs := (s.obj p.val i).refs + x.f 0x14 0 16 }
          ∧ t = { s.noteReady p.val with strs := t.strs, objs := t.objs }))
    ∧ (∀ (s : State) (p st : Fin 4) (x : Cmd), Starts s p.val st.val 0x31 x →
        2 ^ 32 ≤ (s.obj p.val (bits (x.w32 0x10) 0 16)).refs + x.f 0x14 0 16 →
        Completes (.objectHold p st) s (fun t => Ended t p.val st.val x.idx 0x0102 ∧ t = { s.noteReady p.val with strs := t.strs }))
    ∧ (∀ (s : State) (p st : Fin 4) (x : Cmd), Starts s p.val st.val 0x32 x →
        let i := bits (x.w32 0x10) 0 16
        let o := s.obj p.val i
        o.live = true →
        (x.f 0x14 0 16 < o.refs → Completes (.objectRelease p st) s (fun t => Ended t p.val st.val x.idx 0
            ∧ t.obj p.val i = { o with refs := o.refs - x.f 0x14 0 16 } ∧ t = { s.noteReady p.val with strs := t.strs, objs := t.objs }))
        ∧ (x.f 0x14 0 16 = o.refs → Completes (.objectRelease p st) s (fun t => Ended t p.val st.val x.idx 0
            ∧ t.obj p.val i = { gen := if 0xFFFF ≤ o.gen then 1 else o.gen + 1 } ∧ t.mem = s.mem))
        ∧ (o.refs < x.f 0x14 0 16 → Completes (.objectRelease p st) s (fun t => Ended t p.val st.val x.idx 0x0102 ∧ t.objs = s.objs)))

/-- R283, R285, R301, R310: a command of any opcode but REGWRITE whose work has ended, and which no redo span holds, completes: its word tells its
code, flags and index, it leaves its stream, its fence takes its value where it succeeded, and the fence that it names, or its stream's error
fence, the error where it failed. Every other byte of memory reads as before. -/
def Obligations.CommandCompletion : Prop :=
  ∀ (s : State) (p st : Fin 4) (idx : W32) (x : Cmd) (code lpa : Nat),
    s.cmdOf p.val st.val idx.toNat = some x → x.done = some code → s.mayComplete p.val st.val x = true → x.op ≠ 0x09 → x.span = false →
    ((s.str p.val st.val).span = none ∨ (x.op ≠ 0x11 ∧ x.op ≠ 0x12)) → code < 2 ^ 16 →
    s.translate p.val (x.pa + 0x38) 0 = some lpa → place lpa = .hbm → lpa % 128 ≤ 120 → (s.line lpa).present = true →
    let err : Nat := if x.signal ∧ x.errFence = false then x.fence else (s.str p.val st.val).errFence
    Completes (.commandComplete p st idx) s (fun t =>
      t.peekNat lpa 8 = code + x.flags % 512 * 2 ^ 16 + 2 ^ 31 + idx.toNat * 2 ^ 32
      ∧ (∀ a, (a < lpa ∨ lpa + 8 ≤ a) → t.peek a = s.peek a)
      ∧ (∀ d ∈ (t.str p.val st.val).cmds, d.idx ≠ idx.toNat)
      ∧ (code = 0 → x.signal = true → (s.fence x.fence).faulted = false → serialAfter 64 x.value (s.fence x.fence).value = true →
          t.fence x.fence = { s.fence x.fence with value := x.value, owed := (s.fence x.fence).owed - 1, lastCmd := idx.toNat }
          ∧ ∀ k, k ≠ x.fence → t.fence k = s.fence k)
      ∧ (code = 0 → x.signal = false → t.fences = s.fences)
      ∧ (code ≠ 0 → (s.fence err).faulted = false → (t.fence err).faulted = true ∧ (t.fence err).code = code
          ∧ (t.fence err).faultCmd = idx.toNat ∧ (t.fence err).faultSrc = st.val ∧ (t.fence err).value = (s.fence err).value
          ∧ ∀ k, k ≠ err → t.fence k = s.fence k)
      ∧ (x.op ∉ [0x03, 0x04, 0x06] → t.ctrs = s.ctrs) ∧ (x.refs = [] → t.objs = s.objs))

/-- R168 to R170, R309, R545: a launch that passes its checks, whose clusters are free and powered and for none of which an earlier ready launch waits,
reads its arguments and starts a team on
each: its groups are resident with 32 live threads at the entry address, its arguments in their uniform registers, every other register zero; a
launch that must wait for a cluster or a line starts nothing and stays in the order of the ready launches; one that fails a check ends with its
code.

R25, R26, R482: a cluster of a partition with a context at which a launch, an operation or an access aims powers up with its memory reading zero;
every other domain and byte is as before. A cluster
that is on, at which nothing aims, or whose partition has no context, does not change. -/
def Obligations.LaunchesAndPower : Prop :=
  (
  let launch (s : State) (p st : Fin 4) (x : Cmd) : Prop :=
    Starts s p.val st.val 0x01 x ∧ (s.ctxOf p.val).inter = none ∧ (s.str p.val st.val).span = none ∧ x.f 0x24 8 8 ≤ 128
  let joined (s : State) (p st : Fin 4) (x : Cmd) : State := (s.noteReady p.val).joinReady p.val st.val x
  let args (s : State) (p : Fin 4) (x : Cmd) : Nat := (s.addrOf p.val (x.w64 0x18)).2
  let read (s : State) (p st : Fin 4) (x : Cmd) : State := (joined s p st x).fetched p.val (args s p x) (4 * x.f 0x24 16 6)
  (∀ (s : State) (p st : Fin 4) (x : Cmd) (l : List Byte), launch s p st x → (s.noteReady p.val).launchCheck p.val x = 0 →
      (joined s p st x).clustersReady p.val st.val x = true → (joined s p st x).recordWaits p.val (args s p x) (4 * x.f 0x24 16 6) = false →
      (if x.f 0x24 16 6 = 0 then .ok [] else (read s p st x).readRecord p.val (args s p x) (4 * x.f 0x24 16 6)) = .ok l →
      Completes (.launch p st) s (fun t =>
        Loads (joined s p st x) (read s p st x)
        ∧ (∃ y, t.cmdOf p.val st.val x.idx = some y ∧ y.started = true ∧ y.done = none)
        ∧ (∀ k, k < 32 → (x.w32 0x20).testBit k = true →
            t.teams.get none k = some { part := p.val, stream := st.val, cmd := x.idx, live := x.f 0x24 8 8, issued := 0 }
            ∧ (t.vec k).lanes = []
            ∧ ∀ g, g < x.f 0x24 8 8 →
                let y := t.grp (4 * k + g % 4) (g / 4)
                y.live = true ∧ y.part = p.val ∧ y.stream = st.val ∧ y.cmd = x.idx ∧ y.index = g ∧ y.groups = x.f 0x24 8 8
                  ∧ y.alloc = (x.f 0x24 0 8 + 7) / 8 * 8
                  ∧ (∀ l, l < 32 → (y.thr l).alive = true ∧ (y.thr l).pc = (s.addrOf p.val (x.w64 0x10)).2 ∧ ∀ r, (y.thr l).getG r = 0)
                  ∧ ∀ r, r < 63 → y.getU r = if r < x.f 0x24 16 6 then State.rec32 l (4 * r) else 0)
        ∧ (∀ k, k < 32 → (x.w32 0x20).testBit k = false → t.teams.get none k = s.teams.get none k
            ∧ ∀ u g, u < 4 → g < 32 → t.grp (4 * k + u) g = s.grp (4 * k + u) g)
        ∧ t = { read s p st x with strs := t.strs, ctx := t.ctx, groups := t.groups, units := t.units, vecs := t.vecs, teams := t.teams, ops := t.ops }))
    ∧ (∀ (s : State) (p st : Fin 4) (x : Cmd), launch s p st x → (s.noteReady p.val).launchCheck p.val x = 0 →
        ((joined s p st x).clustersReady p.val st.val x = false
          ∨ (joined s p st x).recordWaits p.val (args s p x) (4 * x.f 0x24 16 6) = true) →
        Completes (.launch p st) s (fun t => t = { s with ctx := t.ctx } ∧ (st.val, x.idx) ∈ (t.ctxOf p.val).ready
          ∧ (s.ctxOf p.val).ready <+: (t.ctxOf p.val).ready))
    ∧ (∀ (s : State) (p st : Fin 4) (x : Cmd), launch s p st x → (s.noteReady p.val).launchCheck p.val x ≠ 0 →
        Completes (.launch p st) s (fun t => Ended t p.val st.val x.idx ((s.noteReady p.val).launchCheck p.val x)
          ∧ t = { s.noteReady p.val with strs := t.strs, regs := t.regs })))
  ∧ (
  (∀ (s : State) (c : Fin 32), s.domOn c.val = false → s.hasCtx (s.partOfCluster c.val) = true → s.aimedAt c.val = true →
      Completes (.clusterPowerUp c) s (fun t => t.domOn c.val = true ∧ (∀ d, d ≠ c.val → t.domOn d = s.domOn d)
        ∧ (∀ off, off < 0x1000000 → t.peek (State.cmemLpa c.val off) = 0)
        ∧ (∀ a, (a < State.cmemLpa c.val 0 ∨ State.cmemLpa (c.val + 1) 0 ≤ a) → t.peek a = s.peek a)
        ∧ t.vec c.val = {} ∧ t.arr c.val = {}
        ∧ t = { s with pkg := t.pkg, mem := t.mem, cpoison := t.cpoison, vecs := t.vecs, arrays := t.arrays }))
    ∧ (∀ (s : State) (c : Fin 32), (s.domOn c.val = true ∨ s.hasCtx (s.partOfCluster c.val) = false ∨ s.aimedAt c.val = false) →
        Completes (.clusterPowerUp c) s (fun t => t = s)))

/-- R327, R328: the TILE_INTERLEAVEs of F and B of one number with one table meet once no launch runs: the table is read and installed and both commands
end; tables
that differ end both with BAD_COMMAND and install nothing; one whose partner failed before they met ends with UPSTREAM. -/
def Obligations.InterleaveTables : Prop :=
  let meet (s : State) (p st : Fin 4) (x y : Cmd) : Prop :=
    st.val < 2 ∧ Starts s p.val st.val 0x02 x ∧ Starts s p.val (1 - st.val) 0x02 y
      ∧ (1 - st.val, s.ilvNumber p.val st.val x) ∉ (s.ctxOf p.val).ilvLost ∧ s.ilvNumber p.val st.val x = s.ilvNumber p.val (1 - st.val) y
      ∧ (∀ z, z < 2 → ∀ c ∈ (s.str p.val z).cmds, c.op = 0x01 → c.started = false)
  let table (s : State) (p : Fin 4) (x : Cmd) : Nat := (s.addrOf p.val (x.w64 0x10)).2
  let read (s : State) (p : Fin 4) (x : Cmd) : State := (s.noteReady p.val).fetched p.val (table s p x) (8 * x.f 0x18 0 9)
  (∀ (s : State) (p st : Fin 4) (x y : Cmd) (l : List Byte), meet s p st x y → x.w64 0x10 = y.w64 0x10 → x.f 0x18 0 9 = y.f 0x18 0 9 →
      table s p x % 8 = 0 → (s.noteReady p.val).recordWaits p.val (table s p x) (8 * x.f 0x18 0 9) = false →
      (read s p x).readRecord p.val (table s p x) (8 * x.f 0x18 0 9) = .ok l →
      s.ilvCheck p.val ((List.range (x.f 0x18 0 9)).map (fun i => State.rec64 l (8 * i))) = 0 →
      Completes (.tileInterleave p st) s (fun t => Loads (s.noteReady p.val) (read s p x)
        ∧ Ended t p.val st.val x.idx 0 ∧ Ended t p.val (1 - st.val) y.idx 0
        ∧ (∃ i, (t.ctxOf p.val).inter = some i ∧ i.entries = (List.range (x.f 0x18 0 9)).map (fun i => State.rec64 l (8 * i))
            ∧ ((s.ctxOf p.val).late = [] → i.admitted = []))
        ∧ (∀ e ∈ (t.ctxOf p.val).late, e ∈ (s.ctxOf p.val).late ∧ serialAfter 32 e.2 (if e.1 = st.val then x.idx else y.idx) = true)
        ∧ t.reg (home .str p.val 0x48) = table s p x ∧ t = { read s p x with strs := t.strs, ctx := t.ctx, regs := t.regs }))
    ∧ (∀ (s : State) (p st : Fin 4) (x y : Cmd), meet s p st x y →
        (x.w64 0x10 ≠ y.w64 0x10 ∨ x.f 0x18 0 9 ≠ y.f 0x18 0 9 ∨ table s p x % 8 ≠ 0) →
        Completes (.tileInterleave p st) s (fun t => Ended t p.val st.val x.idx 0x0102 ∧ Ended t p.val (1 - st.val) y.idx 0x0102
          ∧ t = { s.noteReady p.val with strs := t.strs }))
    ∧ (∀ (s : State) (p st : Fin 4) (x : Cmd), st.val < 2 → Starts s p.val st.val 0x02 x →
        (1 - st.val, s.ilvNumber p.val st.val x) ∈ (s.ctxOf p.val).ilvLost →
        Completes (.tileInterleave p st) s (fun t => Ended t p.val st.val x.idx 0x0101 ∧ t = { s.noteReady p.val with strs := t.strs, ctx := t.ctx }
          ∧ (t.ctxOf p.val).ilvLost = (s.ctxOf p.val).ilvLost.erase (1 - st.val, s.ilvNumber p.val st.val x)))

/-- R308: COPY, its shape record read, and FILL that pass their checks start and take the lowest-numbered idle engine they may use, or wait where all
are busy; a COPY that fails a check ends with its code; one whose record's line must wait does not start.

R246, R247: an engine's FILL within one line stores its pattern's bytes and ends; its COPY within one line of source and destination stores
the bytes that the source holds; no other byte of memory changes. -/
def Obligations.Transfers : Prop :=
  (
  let record (s : State) (p : Nat) (x : Cmd) : Nat := (s.addrOf p (x.w64 0x28)).2
  let bytes (x : Cmd) : Nat := if x.op = 0x04 ∨ x.f 0x24 0 1 = 0 then 0 else 32
  let read (s : State) (p : Nat) (x : Cmd) : State := (s.noteReady p).fetched p (record s p x) (bytes x)
  let starts (c : Fin 4 → Fin 4 → Instr) (op : Nat) (ok : State → Nat → Cmd → Prop) : Prop :=
    ∀ (s : State) (p st : Fin 4) (x : Cmd), Starts s p.val st.val op x → (s.noteReady p.val).recordWaits p.val (record s p.val x) (bytes x) = false →
      let u := read s p.val x
      ok u p.val x → (s.ctxOf p.val).xq = [] →
      Loads (s.noteReady p.val) u
      ∧ (∀ e, (u.enginesFor p.val x).find? (fun k => !u.xfeBusy k) = some e → Completes (c p st) s (fun t =>
          (∃ y, t.cmdOf p.val st.val x.idx = some y ∧ y.started = true ∧ y.done = none ∧ y.engine = some e)
          ∧ (t.ctxOf p.val).xq = [] ∧ t = { u with strs := t.strs, ctx := t.ctx }))
      ∧ ((u.enginesFor p.val x).find? (fun k => !u.xfeBusy k) = none → Completes (c p st) s (fun t =>
          (∃ y, t.cmdOf p.val st.val x.idx = some y ∧ y.started = true ∧ y.done = none)
          ∧ (t.ctxOf p.val).xq = [(st.val, x.idx)] ∧ t = { u with strs := t.strs, ctx := t.ctx }))
  starts .copy 0x03 (fun s p x => s.copyCheck p x = 0) ∧ starts .fill 0x04 (fun _ _ _ => True)
    ∧ (∀ (s : State) (p st : Fin 4) (x : Cmd), Starts s p.val st.val 0x03 x →
        (s.noteReady p.val).recordWaits p.val (record s p.val x) (bytes x) = false →
        let u := read s p.val x
        u.copyCheck p.val x ≠ 0 →
        Completes (.copy p st) s (fun t => Ended t p.val st.val x.idx (u.copyCheck p.val x) ∧ t = { u with strs := t.strs }))
    ∧ (∀ (s : State) (p st : Fin 4) (x : Cmd), Starts s p.val st.val 0x03 x →
        (s.noteReady p.val).recordWaits p.val (record s p.val x) (bytes x) = true →
        Completes (.copy p st) s (fun t => t = s.noteReady p.val)))
  ∧ (
  let runs (s : State) (e : Fin 16) (p st op : Nat) (x : Cmd) : Prop :=
    s.engineCmd e.val = some (p, st, x) ∧ s.cmdOf p st x.idx = some x ∧ x.started = true ∧ x.issued = false ∧ x.piece = 0 ∧ x.notes = [] ∧ x.op = op
      ∧ s.outstanding (State.ofCopy p st x.idx) = false
  (∀ (s : State) (e : Fin 16) (p st pa lpa : Nat) (x : Cmd), runs s e p st 0x04 x → s.addrOf p (x.w64 0x10) = (none, pa) →
      0 < x.w64 0x18 → pa % 128 + x.w64 0x18 ≤ 128 → s.translate p pa 2 = some lpa → place lpa = .hbm → s.lineFree p lpa = true →
      (s.line lpa).present = true →
      let w := if x.f 0x28 0 1 = 1 then 8 else 4
      Completes (.xfeComplete e) s (fun t => Ended t p st x.idx 0
        ∧ (∀ i, i < x.w64 0x18 → t.peek (lpa + i) = BitVec.ofNat 8 (x.w64 0x20 >>> (8 * (i % w))))
        ∧ ∀ a, (a < lpa ∨ lpa + x.w64 0x18 ≤ a) → t.peek a = s.peek a))
    ∧ (∀ (s : State) (e : Fin 16) (p st src dst lsrc ldst : Nat) (x : Cmd), runs s e p st 0x03 x → x.f 0x24 0 1 = 0 →
        s.addrOf p (x.w64 0x10) = (none, src) → s.addrOf p (x.w64 0x18) = (none, dst) → 0 < x.w32 0x20 → src % 128 + x.w32 0x20 ≤ 128 →
        dst % 128 + x.w32 0x20 ≤ 128 → s.translate p src 1 = some lsrc → s.translate p dst 2 = some ldst → place lsrc = .hbm → place ldst = .hbm →
        s.lineFree p lsrc = true → s.lineFree p ldst = true → (s.line ldst).present = true → (s.line lsrc).present = true → s.poisonedIn lsrc (x.w32 0x20) = false →
        Completes (.xfeComplete e) s (fun t => Ended t p st x.idx 0
          ∧ (∀ i, i < x.w32 0x20 → t.peek (ldst + i) = s.peek (lsrc + i))
          ∧ ∀ a, (a < ldst ∨ ldst + x.w32 0x20 ≤ a) → t.peek a = s.peek a)))

/-- R129 to R132: COMPRESS of one tile writes the tile's header, values and metadata from its destination on and ends; one that would pass its
limit ends with TILE_SHAPE and stores nothing. -/
def Obligations.CompressOneTile : Prop :=
  let src (s : State) (p st : Fin 4) (x : Cmd) : Prop :=
    let rows := if x.f 0x10 6 2 = 1 then x.f 0x1C 0 16 else x.f 0x1C 16 16
    let row := packedBytes (codeWidth (x.f 0x10 8 4)) (if x.f 0x10 6 2 = 1 then x.f 0x1C 16 16 else x.f 0x1C 0 16)
    Starts s p.val st.val 0x05 x ∧ s.domOn (x.f 0x10 0 5) = true ∧ x.f 0x10 8 4 ≠ 3 ∧ x.f 0x10 8 4 ≠ 13
      ∧ x.f 0x14 0 24 + (rows - 1) * x.f 0x20 0 24 + row ≤ 0xC00000
      ∧ (∀ r, r < rows → s.cpoisoned (x.f 0x10 0 5) (x.f 0x14 0 24 + r * x.f 0x20 0 24) row = false)
      ∧ 0 < x.f 0x1C 0 16 ∧ x.f 0x1C 0 16 ≤ State.compressDepth x
  (∀ (s : State) (p st : Fin 4) (x : Cmd), src s p st x →
      let l := (s.compressTile x 0 (x.f 0x1C 0 16)).1
      let dst := x.f 0x18 0 24
      l.length ≤ x.f 0x24 0 24 → dst + l.length ≤ 0xC00000 →
      Completes (.compress p st) s (fun t => Ended t p.val st.val x.idx 0
        ∧ (∀ i b, l[i]? = some b → t.peek (State.cmemLpa (x.f 0x10 0 5) (dst + i)) = b)
        ∧ ∀ a, (a < State.cmemLpa (x.f 0x10 0 5) dst ∨ State.cmemLpa (x.f 0x10 0 5) (dst + l.length) ≤ a) → t.peek a = s.peek a))
    ∧ (∀ (s : State) (p st : Fin 4) (x : Cmd), src s p st x →
        x.f 0x24 0 24 < (s.compressTile x 0 (x.f 0x1C 0 16)).1.length →
        Completes (.compress p st) s (fun t => Ended t p.val st.val x.idx 0x0401 ∧ t = { s.noteReady p.val with strs := t.strs }))

/-- R348, R349: a flit with a bad CRC, or a DATA flit out of sequence, is discarded with a RETRY for the expected SEQ; a DATA flit in sequence
advances it, a request for this device that it completes joins those that have arrived, and one for another device the queue of the port by which
it leaves; a good IDLE flit takes acknowledged flits out of the
replay buffer.

R348, R349, R356, R360: a port sends a queued CONTROL message first, then a DATA flit of a channel with credit, which joins the replay buffer
and takes the next SEQ, and an IDLE flit where nothing waits; RETRY and the acknowledgement timer send what they must. Each flit returns credit and
carries an acknowledgement once a DATA flit has been received. -/
def Obligations.FlitTraffic : Prop :=
  (
  let oneRead (s : State) (g : Fin 8) (f : BitVec 2048) (h : Nat) : Prop :=
    (s.port g.val).state = 3 ∧ flitCrcOk f.toNat = true ∧ bits f.toNat 0 3 = 1 ∧ bits f.toNat 8 12 = (s.port g.val).rxSeq ∧ bits f.toNat 3 3 ≠ 0
      ∧ (s.port g.val).rxPart.get [] (bits f.toNat 3 3) = [] ∧ (s.port g.val).rxFwd.get false (bits f.toNat 3 3) = false
      ∧ (s.port g.val).unacked < 63 ∧ flitSlot f.toNat 0 = h ∧ headerLength h = 1 ∧ bits h 0 4 = 3
      ∧ ∀ i, 1 ≤ i → i < 15 → flitSlot f.toNat i % 16 = 0
  (∀ (s : State) (g : Fin 8) (f : BitVec 2048), ((s.port g.val).state = 2 ∨ (s.port g.val).state = 3) → flitCrcOk f.toNat = false →
      let x := s.port g.val
      Completes (.flitReceive g f) s (fun t => t.port g.val = { x with retry := true, ctlOut := x.ctlOut ++ [[2 + x.rxSeq * 2 ^ 32]] }
        ∧ (∀ h, h ≠ g.val → t.port h = s.port h) ∧ t = { s with ports := t.ports, regs := t.regs }))
    ∧ (∀ (s : State) (g : Fin 8) (f : BitVec 2048), (s.port g.val).state = 3 → flitCrcOk f.toNat = true → bits f.toNat 0 3 = 1 →
        bits f.toNat 8 12 ≠ (s.port g.val).rxSeq →
        let x := s.port g.val
        Completes (.flitReceive g f) s (fun t => t.port g.val = { x with retry := true, ctlOut := x.ctlOut ++ [[2 + x.rxSeq * 2 ^ 32]] }
          ∧ t = { s with ports := t.ports, regs := t.regs }))
    ∧ (∀ (s : State) (g : Fin 8) (f : BitVec 2048) (h : Nat), oneRead s g f h → bits h 4 12 = s.self →
        Completes (.flitReceive g f) s (fun t => (t.port g.val).rxSeq = ((s.port g.val).rxSeq + 1) % 4096 ∧ (t.port g.val).retry = false
          ∧ (t.port g.val).unacked = (s.port g.val).unacked + 1 ∧ (t.port g.val).ackOk = true
          ∧ t.inTxn = s.inTxn ++ [⟨g.val, parseTxn [h], some ⟨g.val, State.poolOf (bits f.toNat 3 3) false, 1⟩⟩]
          ∧ t.mem = s.mem ∧ t.out = s.out))
    ∧ (∀ (s : State) (g : Fin 8) (f : BitVec 2048) (h out : Nat), oneRead s g f h → bits h 4 12 ≠ s.self → s.routePort (bits h 4 12) = some out →
        (s.port out).state = 3 →
        let vc := bits f.toNat 3 3
        let wc := s.outVc (parseTxn [h]) out (some (g.val, vc))
        let e : TxEntry := { slots := [h], begun := false, fwd := true, resp := false, part := (parseTxn [h]).part
                             held := some ⟨g.val, State.poolOf vc false, 1⟩ }
        Completes (.flitReceive g f) s (fun t => (t.port out).txq.get [] wc = (s.port out).txq.get [] wc ++ [e]
          ∧ (t.port g.val).rxSeq = ((s.port g.val).rxSeq + 1) % 4096 ∧ t.inTxn = s.inTxn ∧ t.mem = s.mem ∧ t.out = s.out))
    ∧ (∀ (s : State) (g : Fin 8) (f : BitVec 2048), (s.port g.val).state = 3 → flitCrcOk f.toNat = true → bits f.toNat 0 3 = 0 →
        bit f.toNat 32 = true →
        Completes (.flitReceive g f) s (fun t => (t.port g.val).rxSeq = (s.port g.val).rxSeq ∧ t.inTxn = s.inTxn
          ∧ (∀ r, r ∈ (t.port g.val).replay → 2048 ≤ (bits f.toNat 20 12 + 4096 - r.seq) % 4096)
          ∧ (∀ r, r ∈ (s.port g.val).replay → 2048 ≤ (bits f.toNat 20 12 + 4096 - r.seq) % 4096 →
              ∃ r', r' ∈ (t.port g.val).replay ∧ r'.seq = r.seq ∧ r'.flit = r.flit))))
  ∧ (
  let plain (s : State) (g : Fin 8) : Prop := (s.port g.val).downAfter = false ∧ ∀ p, (s.xchOf p).gathers = []
  let flit (x : Glp) (kind vc seq : Nat) (slots : List Nat) (first : Nat) : Nat :=
    let c := State.creditField x
    makeFlit kind vc seq ((x.rxSeq + 4095) % 4096) (b2n x.ackOk) c.1 c.2.1 c.2.2.1 slots first
  let sent (x : Glp) : Glp := { (State.creditField x).2.2.2 with unacked := 0 }
  (∀ (s : State) (g : Fin 8) (m : List Nat) (rest : List (List Nat)), plain s g → (s.port g.val).ctlOut = m :: rest →
      let x := s.port g.val
      Completes (.flitSend g) s (fun t => t.out = s.out ++ [.flit g.val (flit x 2 0 0 m 15)]
        ∧ t.port g.val = { sent x with ctlOut := rest } ∧ t.mem = s.mem ∧ t.regs = s.regs))
    ∧ (∀ (s : State) (g : Fin 8), plain s g → (s.port g.val).ctlOut = [] → (s.port g.val).state = 3 → (s.port g.val).txq = [] →
        let x := s.port g.val
        Completes (.flitSend g) s (fun t => t.out = s.out ++ [.flit g.val (flit x 0 0 0 [] 15)]
          ∧ t.port g.val = sent x ∧ t.mem = s.mem ∧ t.regs = s.regs))
    ∧ (∀ (s : State) (g : Fin 8) (e : TxEntry) (h : Nat), plain s g → (s.port g.val).ctlOut = [] → (s.port g.val).state = 3 →
        (s.port g.val).replay.length < 1024 → (s.port g.val).txq = [(6, [e])] → e.slots = [h] → e.more = 0 → e.begun = false → e.fwd = false →
        e.resp = true → e.held = none → 1 ≤ (s.port g.val).credits.get 0 6 →
        let x := s.port g.val
        let f := flit x 1 6 x.txSeq [h] 0
        Completes (.flitSend g) s (fun t => t.out = s.out ++ [.flit g.val f] ∧ (t.port g.val).txSeq = (x.txSeq + 1) % 4096
          ∧ (t.port g.val).replay = x.replay ++ [⟨x.txSeq, f, 0⟩] ∧ (t.port g.val).txq.get [] 6 = []
          ∧ (t.port g.val).credits.get 0 6 = x.credits.get 0 6 - 1 ∧ t.mem = s.mem))
    ∧ (∀ (s : State) (g : Fin 8), ((s.port g.val).state = 2 ∨ (s.port g.val).state = 3) → (s.port g.val).retry = true →
        let x := s.port g.val
        Completes (.retryRepeat g) s (fun t => t.port g.val = { x with ctlOut := x.ctlOut ++ [[2 + x.rxSeq * 2 ^ 32]] }
          ∧ t = { s with ports := t.ports }))
    ∧ (∀ (s : State) (g : Fin 8), (s.port g.val).state = 3 →
        let x := s.port g.val
        Completes (.ackTimer g) s (fun t => t.out = s.out ++ [.flit g.val (flit x 0 0 0 [] 15)]
          ∧ t.port g.val = sent x ∧ t = { s with out := t.out, ports := t.ports })))

/-- R349, R360, R364, R366 to R368: the link messages of every form: a neighbour record that passes every check is kept, fixes the device number
where the neighbour knows its own, and brings the port UP, one that fails takes it DOWN with the check's cause; RETRY replays the flits from its SEQ
on, or takes the port DOWN where one has been replayed 16 times; DOWN takes the port DOWN; LANES makes the lanes that it leaves out failed ones, and the
port moves to the rest or goes DOWN. A port that comes UP has its neighbours' feed groups to pass on over channel 0 of each UP port. In another state of
the port a message is taken and does nothing.

R37, R364 to R366: training, loss, lane failures, faults and retraining of a port, in the states in which each happens and in the others. -/
def Obligations.LinkManagement : Prop :=
  (
  let front (s : State) (g : Fin 8) (a b code : Nat) (rest : List (List Nat)) : Prop := (s.port g.val).ctlIn = [a, b] :: rest ∧ bits a 0 8 = code
  let taken (s t : State) (g : Fin 8) (rest : List (List Nat)) : Prop :=
    t.port g.val = { s.port g.val with ctlIn := rest } ∧ t = { s with ports := t.ports }
  let kept (s t : State) (g : Fin 8) (a b : Nat) : Prop :=
    (t.port g.val).peerDev = bits a 32 12 ∧ (t.port g.val).peerPort = bits a 8 3 * 2 + bits a 11 1 ∧ (t.port g.val).peerSerial = bits b 0 64
      ∧ (t.port g.val).peerFeed = bits a 64 8 ∧ (t.port g.val).peerLayout = bits a 72 2 ∧ (t.port g.val).recordOk = true
  (∀ (s : State) (g : Fin 8) (a b : Nat) (rest : List (List Nat)), front s g a b 1 rest →
      let dev := s.derived g.val (bits a 32 12)
      ((s.port g.val).state ≠ 2 → Completes (.record g) s (fun t => taken s t g rest))
      ∧ ((s.port g.val).state = 2 → s.recordCheck g.val a ≠ 0 → Completes (.record g) s (fun t =>
          WentDown s t g.val (s.recordCheck g.val a) ∧ t.pkg = s.pkg))
      ∧ ((s.port g.val).state = 2 → s.recordCheck g.val a = 0 → bit a 44 = false → Completes (.record g) s (fun t =>
          kept s t g a b ∧ (t.port g.val).state = 2 ∧ t = { s with ports := t.ports }))
      ∧ ((s.port g.val).state = 2 → s.recordCheck g.val a = 0 → bit a 44 = true → (s.pkg.device = none ∨ s.pkg.device = some dev) →
          Completes (.record g) s (fun t => kept s t g a b ∧ (t.port g.val).state = 3 ∧ t.pkg.device = some dev ∧ t.pkg.fixedDev = true
            ∧ (t.port g.val).peerValid = true ∧ (t.port g.val).rxSeq = 0 ∧ (t.port g.val).txSeq = 0
            ∧ (t.port g.val).credits = State.fullCredits ∧ t.mem = s.mem
            ∧ (∀ h, h ≠ g.val → t.port h = { s.port h with txq := (t.port h).txq } ∧ ((s.port h).state ≠ 3 → t.port h = s.port h))
            ∧ (∀ h vc, vc ≠ 0 → (t.port h).txq.get [] vc = if h = g.val then [] else (s.port h).txq.get [] vc)
            ∧ ∀ h, h < 8 → (t.port h).state = 3 → ∃ e, (t.port h).txq.get [] 0 = (if h = g.val then [] else (s.port h).txq.get [] 0) ++ [e]
                ∧ e.begun = false ∧ e.fwd = false ∧ e.held = none))
      ∧ (∀ n, (s.port g.val).state = 2 → s.recordCheck g.val a = 0 → bit a 44 = true → s.pkg.device = some n → n ≠ dev →
          Completes (.record g) s (fun t => WentDown s t g.val 9 ∧ t.pkg = s.pkg)))
    ∧ (∀ (s : State) (g : Fin 8) (a b : Nat) (rest : List (List Nat)), front s g a b 2 rest →
        let x := s.port g.val
        let hit (r : Replay) : Bool := decide ((r.seq + 4096 - bits a 32 12) % 4096 < 2048)
        (x.state ≠ 3 → Completes (.retry g) s (fun t => taken s t g rest))
        ∧ (x.state = 3 → (∀ r ∈ x.replay, hit r = true → r.count < 15) → Completes (.retry g) s (fun t =>
            t.out = s.out ++ (x.replay.filter hit).map (fun r => .flit g.val r.flit)
            ∧ t.port g.val = { x with ctlIn := rest, replay := x.replay.map (fun r => if hit r then { r with count := r.count + 1 } else r) }
            ∧ t = { s with out := t.out, ports := t.ports, regs := t.regs }))
        ∧ (x.state = 3 → (∃ r ∈ x.replay, hit r = true ∧ 15 ≤ r.count) → Completes (.retry g) s (fun t => WentDown s t g.val 4)))
    ∧ (∀ (s : State) (g : Fin 8) (a b : Nat) (rest : List (List Nat)), front s g a b 3 rest →
        (((s.port g.val).state = 2 ∨ (s.port g.val).state = 3) →
          Completes (.down g) s (fun t => WentDown s t g.val (State.peerCause (bits a 32 8))))
        ∧ (¬ ((s.port g.val).state = 2 ∨ (s.port g.val).state = 3) → Completes (.down g) s (fun t => taken s t g rest)))
    ∧ (∀ (s : State) (g : Fin 8) (a b : Nat) (rest : List (List Nat)), front s g a b 4 rest →
        let x := s.port g.val
        let y : Glp := { x with ctlIn := rest, failed := x.failed ||| (0xFFF ^^^ bits a 32 12) }
        let m := State.goodLanes y
        ((x.state = 2 ∨ x.state = 3) → 8 ≤ State.laneCount m → Completes (.lanes g) s (fun t =>
            t.port g.val = { y with
              lanes := State.bestLanes m
              ctlOut := if State.goodLanes x &&& bits a 32 12 = bits a 32 12 then x.ctlOut else x.ctlOut ++ [[4 + m * 2 ^ 32]] }
            ∧ t.mem = s.mem ∧ t.groups = s.groups))
        ∧ ((x.state = 2 ∨ x.state = 3) → State.laneCount m < 8 → Completes (.lanes g) s (fun t => WentDown s t g.val 3))
        ∧ (¬ (x.state = 2 ∨ x.state = 3) → Completes (.lanes g) s (fun t => taken s t g rest))))
  ∧ (
  (∀ (s : State) (g : Fin 8) (good : BitVec 12),
      ((s.port g.val).state = 1 → 8 ≤ State.laneCount good.toNat → Completes (.portTrainingEnd g good) s (fun t =>
          t.port g.val = { s.port g.val with state := 2, recordOk := false, ctlIn := [], ctlOut := []
                                             failed := 0xFFF ^^^ good.toNat, lanes := State.bestLanes good.toNat }
          ∧ t = { s with ports := t.ports }))
      ∧ ((s.port g.val).state = 1 → State.laneCount good.toNat < 8 → Completes (.portTrainingEnd g good) s (fun t => WentDown s t g.val 3))
      ∧ ((s.port g.val).state ≠ 1 → Completes (.portTrainingEnd g good) s (fun t => t = s)))
    ∧ (∀ (s : State) (g : Fin 8),
        let x := s.port g.val
        let c := State.creditField x
        (x.state = 2 → Completes (.negotiateRecordSend g) s (fun t =>
            t.out = s.out ++ [.flit g.val (makeFlit 2 0 0 ((x.rxSeq + 4095) % 4096) (b2n x.ackOk) c.1 c.2.1 c.2.2.1 (s.recordOf g.val) 15)]
            ∧ t.port g.val = { c.2.2.2 with unacked := 0 } ∧ t = { s with out := t.out, ports := t.ports }))
        ∧ (x.state ≠ 2 → Completes (.negotiateRecordSend g) s (fun t => t = s)))
    ∧ (∀ (s : State) (g : Fin 8),
        (((s.port g.val).state = 1 ∨ (s.port g.val).state = 2) → Completes (.noPeer g) s (fun t => WentDown s t g.val 1))
        ∧ (¬ ((s.port g.val).state = 1 ∨ (s.port g.val).state = 2) → Completes (.noPeer g) s (fun t => t = s)))
    ∧ (∀ (s : State) (g : Fin 8), ((s.port g.val).state = 3 → Completes (.lost g) s (fun t => WentDown s t g.val 2))
        ∧ ((s.port g.val).state ≠ 3 → Completes (.lost g) s (fun t => t = s)))
    ∧ (∀ (s : State) (g : Fin 8),
        let still : Prop := (s.port g.val).state = 0 ∨ ((s.port g.val).state = 4 ∧ (s.port g.val).cause = 11)
        (¬ still → Completes (.griwaldPortFault g) s (fun t => WentDown s t g.val 11
            ∧ t.domOn (48 + g.val) = (s.dome.boot.state != 1 && s.domOn (48 + g.val))))
        ∧ (still → Completes (.griwaldPortFault g) s (fun t => t = s)))
    ∧ (∀ (s : State) (g : Fin 8),
        let may : Prop := (s.port g.val).state = 4 ∧ 1 ≤ (s.port g.val).cause ∧ (s.port g.val).cause ≤ 5 ∧ s.domOn (48 + g.val) = true
        (may → Completes (.retrain g) s (fun t => t.port g.val = { s.port g.val with state := 1 } ∧ t = { s with ports := t.ports }))
        ∧ (¬ may → Completes (.retrain g) s (fun t => t = s)))
    ∧ (∀ (s : State) (g : Fin 8) (mask : BitVec 12),
        let x := s.port g.val
        let up : Prop := x.state = 2 ∨ x.state = 3
        let y : Glp := { x with failed := x.failed ||| mask.toNat }
        let m := State.goodLanes y
        (up → x.lanes &&& mask.toNat ≠ 0 → 8 ≤ State.laneCount m → Completes (.laneFailure g mask) s (fun t =>
            t.port g.val = { y with lanes := State.bestLanes m, ctlOut := x.ctlOut ++ [[4 + m * 2 ^ 32]] } ∧ t.mem = s.mem ∧ t.groups = s.groups))
        ∧ (up → x.lanes &&& mask.toNat ≠ 0 → State.laneCount m < 8 → Completes (.laneFailure g mask) s (fun t => WentDown s t g.val 3))
        ∧ (up → x.lanes &&& mask.toNat = 0 → Completes (.laneFailure g mask) s (fun t => t.port g.val = y ∧ t = { s with ports := t.ports }))
        ∧ (¬ up → Completes (.laneFailure g mask) s (fun t => t = s))))

/-- R59, R237, R251, R268, R269, R353: a remote write within one line is performed and acknowledged; a remote read loads its line and is answered with the
bytes, or with POISON where a word of them is poisoned (DEDUCED, notes/assumptions/26.md); a request
without permission is refused with its code and changes no byte.

R224, R353, R354: the answer to the last lane of a remote access: data reach its registers, an acknowledgement ends a store, a refusal or a timeout is an
EXTENT fault of the thread; the tag is freed, or withheld after a timeout until its time has passed. -/
def Obligations.RemoteTransactions : Prop :=
  (
  let answer (r : Txn) : TxEntry := { slots := r.slots, begun := false, fwd := false, resp := true, part := r.part, held := none }
  let served (s : State) (k op : Nat) (x : InTxn) (g lpa : Nat) : Prop :=
    s.arrivedTxn k op = some x ∧ s.refusal x.t = 0 ∧ s.mustWait k x.t = false ∧ s.paWaits x.t.part x.t.pa x.t.bytes = false ∧ s.routePort x.t.src = some g
      ∧ (s.port g).state = 3 ∧ x.held = none ∧ 0 < x.t.bytes ∧ x.t.pa % 128 + x.t.bytes ≤ 128 ∧ s.translate x.t.part x.t.pa 0 = some lpa
      ∧ place lpa = .hbm
  let write (c : Nat → Instr) (op : Nat) : Prop :=
    ∀ (s : State) (k g lpa : Nat) (x : InTxn), served s k op x g lpa → x.t.data.length = x.t.bytes → (s.line lpa).present = true →
      Completes (c k) s (fun t => (∀ i b, x.t.data[i]? = some b → t.peek (lpa + i) = b)
        ∧ (∀ a, (a < lpa ∨ lpa + x.t.bytes ≤ a) → t.peek a = s.peek a) ∧ t.inTxn = s.inTxn.eraseIdx k
        ∧ t.port g = { s.port g with txq := (s.port g).txq.set [] 6 ((s.port g).txq.get [] 6
            ++ [answer { x.t with op := 5, dst := x.t.src, code := 0, data := [] }]) })
  write .txnWrite 1 ∧ write .writeFinal 2
    ∧ (∀ (s : State) (k g lpa : Nat) (x : InTxn), served s k 3 x g lpa →
        let u := { s with inTxn := s.inTxn.eraseIdx k }.readPa x.t.part x.t.pa x.t.bytes
        Completes (.txnRead k) s (fun t => Loads { s with inTxn := s.inTxn.eraseIdx k } u
          ∧ ((s.line lpa).present = true ∨ (s.setLines (s.sliceOf lpa).1 (s.sliceOf lpa).2).length < 16 → ∀ a, t.peek a = s.peek a)
          ∧ t.port g = { s.port g with txq := (s.port g).txq.set [] 6 ((s.port g).txq.get [] 6
            ++ [answer (if u.poisonedPa x.t.part x.t.pa x.t.bytes = true then { x.t with op := 6, dst := x.t.src, code := 0x0801, data := [] }
                else { x.t with op := 4, dst := x.t.src, code := 0, data := u.peekPa x.t.part x.t.pa x.t.bytes })]) }
          ∧ t = { u with ports := t.ports, regs := t.regs }))
    ∧ (∀ (c : Nat → Instr) (op : Nat), (c, op) ∈ [(Instr.txnWrite, 1), (Instr.writeFinal, 2), (Instr.txnRead, 3)] →
        ∀ (s : State) (k g : Nat) (x : InTxn), s.arrivedTxn k op = some x → s.refusal x.t ≠ 0 → s.routePort x.t.src = some g →
          (s.port g).state = 3 → x.held = none →
          Completes (c k) s (fun t => t.inTxn = s.inTxn.eraseIdx k ∧ t.mem = s.mem ∧ t.lines = s.lines
            ∧ t.port g = { s.port g with txq := (s.port g).txq.set [] 6 ((s.port g).txq.get [] 6
                ++ [answer { x.t with op := 6, dst := x.t.src, code := s.refusal x.t, data := [] }]) })))
  ∧ (
  let alone (s : State) (id : Nat) (o : MemOp) (lane : Nat) (y : LaneOp) : Prop :=
    o.lanes = [y] ∧ y.lane = lane ∧ o.faults = [] ∧ ∀ e ∈ s.opList, e.2.instr = o.instr → e.1 = id
  let answer (s : State) (k op : Nat) (x : InTxn) (ok : Txn → Bool) (g id lane : Nat) (o : MemOp) (y : LaneOp) (q : Txn) : Prop :=
    s.arrivedTxn k op = some x ∧ s.answers x.t ok = some (g, .lane id lane) ∧ s.tagUse g x.t.tag = some (.lane id lane, q)
      ∧ (s.port g).reqQ = [] ∧ s.op id = some o ∧ alone s id o lane y ∧ x.held = none
  (∀ (s : State) (k g id lane : Nat) (x : InTxn) (o : MemOp) (y : LaneOp) (q : Txn), answer s k 4 x (fun q => q.op == 3) g id lane o y q →
      o.kind = .load → o.udst = false → (s.grp o.unit o.slot).live = true → o.dst + (o.bytes + 3) / 4 ≤ 255 →
      Completes (.readData k) s (fun t => (∀ j, j < (o.bytes + 3) / 4 →
          ((t.grp o.unit o.slot).thr lane).getG (o.dst + j) = bits (extendLoad o.bytes o.signed (ofLeBytes x.t.data)) (32 * j) 32)
        ∧ t.op id = none ∧ (t.port g).tags.get .free x.t.tag = .free ∧ t.inTxn = s.inTxn.eraseIdx k ∧ t.mem = s.mem))
    ∧ (∀ (s : State) (k g id lane : Nat) (x : InTxn) (o : MemOp) (y : LaneOp) (q : Txn), answer s k 5 x (fun q => q.op != 3) g id lane o y q →
        o.kind = .store → Completes (.ack k) s (fun t => t.op id = none ∧ (t.port g).tags.get .free x.t.tag = .free
          ∧ t.inTxn = s.inTxn.eraseIdx k ∧ t.groups = s.groups ∧ t.mem = s.mem))
    ∧ (∀ (s : State) (k g id lane : Nat) (x : InTxn) (o : MemOp) (y : LaneOp) (q : Txn), answer s k 6 x (fun _ => true) g id lane o y q →
        s.mayFault o.unit o.slot o.part o.cmd = true → o.unit < 128 → (s.unit o.unit).fault.kind = 0 →
        Completes (.nak k) s (fun t => (t.unit o.unit).fault.kind = 1 ∧ (t.unit o.unit).fault.code = 0x0802
          ∧ (t.unit o.unit).fault.lanes = 2 ^ lane ∧ (t.unit o.unit).fault.addr = q.pa % 2 ^ 44
          ∧ ((s.grp o.unit o.slot).live = true → (t.grp o.unit o.slot).faulted = true)
          ∧ t.op id = none ∧ (t.port g).tags.get .free x.t.tag = .free ∧ t.mem = s.mem))
    ∧ (∀ (s : State) (g : Fin 8) (tag : Fin 4096) (id lane : Nat) (o : MemOp) (y : LaneOp) (q : Txn),
        s.tagUse g.val tag.val = some (.lane id lane, q) → s.op id = some o → alone s id o lane y →
        s.mayFault o.unit o.slot o.part o.cmd = true → o.unit < 128 → (s.unit o.unit).fault.kind = 0 →
        Completes (.respTimeout g tag) s (fun t => (t.port g.val).tags.get .free tag.val = .withheld
          ∧ (t.port g.val).failedReqs = (s.port g.val).failedReqs + 1 ∧ (t.unit o.unit).fault.kind = 1
          ∧ ((s.grp o.unit o.slot).live = true → (t.grp o.unit o.slot).faulted = true) ∧ t.mem = s.mem))
    ∧ (∀ (s : State) (g : Fin 8) (tag : Fin 4096), (s.port g.val).tags.get .free tag.val = .withheld → (s.port g.val).reqQ = [] →
        Completes (.tagWithholdEnd g tag) s (fun t => (t.port g.val).tags.get .free tag.val = .free
          ∧ (∀ n, n ≠ tag.val → (t.port g.val).tags.get .free n = (s.port g.val).tags.get .free n) ∧ t = { s with ports := t.ports })))

/-- R371 to R375, R385, R390, R393 to R402: an EXCHANGE, GATHER or PERMUTE whose record passes its checks starts: its neighbours are told, the
GATHER copies its own shard, and the PERMUTE keeps its table; a record that fails a check ends the command with the code, which XCH_LAST_ERROR keeps;
one whose record's line must wait does not start. -/
def Obligations.CollectivesStart : Prop :=
  let idle (s : State) (p : Nat) : Prop :=
    (s.xchOf p).exch = none ∧ (s.xchOf p).perm = none ∧ (s.xchOf p).gathers = [] ∧ (s.xchOf p).held = []
  let up (s : State) (dims : List Nat) : Prop := ∀ g ∈ portsOf dims, (s.port g).state = 3
  let going (t : State) (p : Nat) (c : Cmd) : Prop := ∃ y, t.cmdOf p 3 c.idx = some y ∧ y.started = true ∧ y.done = none
  let free (s : State) (p : Nat) (c : Cmd) (n : Nat) : Prop := (s.noteReady p).recordWaits p (s.addrOf p (c.w64 0x10)).2 n = false
  let read (s : State) (p : Nat) (c : Cmd) (n : Nat) : State := (s.noteReady p).fetched p (s.addrOf p (c.w64 0x10)).2 n
  let told (s : State) (p : Nat) (c : Cmd) (g : Gath) : State :=
    let u := read s p c 64
    ((u.begin p 3 c).setXch p { u.xchOf p with gathers := [g] }).sendReady p g.dims (g.layer % 4) (State.gathReady g)
  (∀ (s : State) (p : Fin 4) (c : Cmd) (n : Nat), Loads (s.noteReady p.val) (read s p.val c n))
    ∧ (∀ (s : State) (p : Fin 4) (c : Cmd) (e : Exch), Starts s p.val 3 0x20 c → idle s p.val → free s p.val c 64 →
      (read s p.val c 64).exchParams p.val c = .ok e → up s e.dims →
      Completes (.exchange p) s (fun t => going t p.val c ∧ (t.xchOf p.val).exch = some e
        ∧ t = { read s p.val c 64 with strs := t.strs, xch := t.xch, regs := t.regs, ports := t.ports }
        ∧ (∀ g ∈ portsOf e.dims, ExchSent s t p.val g 0 0 (g % 2) 0 0 (leBytes 64 (State.exchReady e)))
        ∧ ∀ d ∈ e.dims, t.reg (pages .xch p.val d 0x20) = e.step))
    ∧ (∀ (s : State) (p : Fin 4) (c : Cmd) (code : Nat), Starts s p.val 3 0x20 c → idle s p.val → free s p.val c 64 →
        (read s p.val c 64).exchParams p.val c = .error code →
        Completes (.exchange p) s (fun t => Ended t p.val 3 c.idx code ∧ t.xchOf p.val = s.xchOf p.val ∧ t.mem = (read s p.val c 64).mem
          ∧ t.lines = (read s p.val c 64).lines ∧ t.groups = s.groups
          ∧ ∀ d ∈ dimsOf (c.f 0x20 0 4), t.reg (pages .xch p.val d 0x18) = code + s.self * 65536
            ∧ ∀ g ∈ [2 * d, 2 * d + 1], (s.port g).state = 3 →
              ExchSent s t p.val g 5 0 (g % 2) 0 0 (leBytes 16 (code + s.self * 2 ^ 16 + 1 * 2 ^ 28))))
    ∧ (∀ (s : State) (p : Fin 4) (c : Cmd) (g : Gath), Starts s p.val 3 0x21 c → idle s p.val → free s p.val c 64 →
        let u := read s p.val c 64
        let o := s.ownerIndex g.dims.reverse
        u.gathParams p.val c = .ok g → up s g.dims →
        u.paWaits p.val g.tag 16 = false → u.paWaits p.val g.shard g.bytes = false → u.paWaits p.val (g.dst + o * g.bytes) g.bytes = false →
        let tag := (told s p.val c g).loadPa p.val g.tag 16
        tag.2.poisonedPa p.val g.tag 16 = false → tag.2.poisonedPa p.val g.shard g.bytes = false → State.rec64 tag.1 0 = g.step →
        State.rec32 tag.1 0xC = g.bytes →
        let own := tag.2.loadPa p.val g.shard g.bytes
        Completes (.gather p) s (fun t => going t p.val c
          ∧ (t.xchOf p.val).gathers = [{ g with got := SMap.set 0 [] o (g.bytes / 512) }]
          ∧ (∀ x ∈ portsOf g.dims, ExchSent s t p.val x 0 (g.layer % 4) (x % 2) 0 0 (leBytes 64 (State.gathReady g)))
          ∧ ∀ a, t.peek a = (own.2.pokePa p.val (g.dst + o * g.bytes) own.1).peek a))
    ∧ (∀ (s : State) (p : Fin 4) (c : Cmd) (g : Gath), Starts s p.val 3 0x21 c → idle s p.val → free s p.val c 64 →
        let u := read s p.val c 64
        u.gathParams p.val c = .ok g →
        u.paWaits p.val g.tag 16 = false → u.paWaits p.val g.shard g.bytes = false →
        u.paWaits p.val (g.dst + s.ownerIndex g.dims.reverse * g.bytes) g.bytes = false →
        let tag := (told s p.val c g).loadPa p.val g.tag 16
        tag.2.poisonedPa p.val g.tag 16 = false → tag.2.poisonedPa p.val g.shard g.bytes = false → State.rec64 tag.1 0 ≠ g.step →
        Completes (.gather p) s (fun t => Ended t p.val 3 c.idx 0x0602 ∧ (t.xchOf p.val).gathers = [] ∧ t.mem = tag.2.mem ∧ t.lines = tag.2.lines))
    ∧ (∀ (s : State) (p : Fin 4) (c : Cmd) (l : List Byte) (table : List PermEntry), Starts s p.val 3 0x22 c → idle s p.val →
        let n := 16 * c.f 0x20 0 13
        free s p.val c n →
        let u := read s p.val c n
        u.readRecord p.val (s.addrOf p.val (c.w64 0x10)).2 n = .ok l → State.permTable l (c.f 0x20 0 13) = some table →
        1 + 2 * (table.filter (fun e => e.dst == s.self)).length ≤ c.w32 0x24 →
        u.translatesAll p.val (s.addrOf p.val (c.w64 0x18)).2 (c.w32 0x24 * 65536) 0x23 = true →
        (∃ e ∈ table, e.dst = s.self ∧ e.src ≠ s.self) →
        Completes (.permute p) s (fun t => going t p.val c ∧ t = { u with strs := t.strs, xch := t.xch, regs := t.regs }
          ∧ (t.xchOf p.val).perm = some ⟨c.idx, (s.addrOf p.val (c.w64 0x18)).2, table, [], [], [], 0⟩))
    ∧ (∀ (s : State) (p : Fin 4) (c : Cmd) (l : List Byte), Starts s p.val 3 0x22 c → idle s p.val →
        let n := 16 * c.f 0x20 0 13
        free s p.val c n →
        let u := read s p.val c n
        u.readRecord p.val (s.addrOf p.val (c.w64 0x10)).2 n = .ok l → State.permTable l (c.f 0x20 0 13) = none →
        Completes (.permute p) s (fun t => Ended t p.val 3 c.idx 0x0102 ∧ t = { u with strs := t.strs, regs := t.regs }
          ∧ (∀ d, d < 4 → t.reg (pages .xch p.val d 0x18) = 0x0102 + s.pkg.device.getD 0 * 65536)
          ∧ ∀ k, (∀ d, d < 4 → k ≠ regKey (pages .xch p.val d 0x18)) → t.regs.get none k = u.regs.get none k))
    ∧ (∀ (r : Fin 4 → Instr) (op : Nat), (r, op) ∈ [(Instr.exchange, 0x20), (Instr.gather, 0x21), (Instr.permute, 0x22)] →
        ∀ (s : State) (p : Fin 4) (c : Cmd), Starts s p.val 3 op c →
          (s.noteReady p.val).recordWaits p.val (s.addrOf p.val (c.w64 0x10)).2 (if op = 0x22 then 16 * c.f 0x20 0 13 else 64) = true →
          Completes (r p) s (fun t => t = s.noteReady p.val))

/-- R237, R244, R377 to R383: the stages of an exchange. A bucket enters its first stage with the values that are loaded from SRC, once no line waits; an EXPONENT is joined to the maximum and
sent on, or agreed by the owner; DATA and checksums are added in transit, or kept by the owner; clean verdicts are counted, and a mismatched half
is sent again. -/
def Obligations.ExchangeStages : Prop :=
  (∀ (s : State) (p : Fin 4) (e : Exch) (d : Nat), (s.xchOf p.val).exch = some e → e.dims.head? = some d → d < 4 → e.next < e.blocks / e.bucket →
      e.jobs = [] → e.held.get {} e.next = {} → e.ready.contains (2 * d) = true → e.ready.contains (2 * d + 1) = true → e.marked = false →
      let pa (i : Nat) : Nat := e.src + (e.next * e.bucket + i) * 1024
      let r := (List.range e.bucket).foldl (fun (a : List (List Byte) × State) i => (a.1 ++ [(a.2.loadPa p.val (pa i) 1024).1],
        (a.2.loadPa p.val (pa i) 1024).2)) ([], s)
      s.paWaits p.val (pa 0) (e.bucket * 1024) = false →
      (1024 * e.bucket ≤ e.stgSize → s.paWaits p.val (s.stagePlace e e.bucket) (1024 * e.bucket) = false) →
      (∀ i, i < e.bucket → r.2.poisonedPa p.val (pa i) 1024 = false) →
      Completes (.bucketStageStart p e.next) s (fun t =>
        ((∀ i a, i < e.stgSize → s.translate p.val (e.stg + i) 0 = some a → (r.2.line a).present = true ∧ place a = .hbm) →
          ∀ a, (∀ i, i < e.stgSize → s.translate p.val (e.stg + i) 0 ≠ some a) → t.peek a = r.2.peek a) ∧ ∃ j : XJob,
        (t.xchOf p.val).exch = some { e with jobs := [j], next := e.next + 1 }
        ∧ j.bucket = e.next ∧ j.stage = 0 ∧ j.first = 0 ∧ j.n = e.bucket ∧ j.vals.length = e.bucket
        ∧ ∀ i, i < e.bucket → ∃ v, j.vals[i]? = some ⟨none, v⟩ ∧ j.exps[i]? = some (localExpFp32 (v.map Int.toNat)).1
            ∧ v = (List.range 256).map (fun n => (State.rec32 ((r.1[i]?).getD []) (4 * n) : Int))))
    ∧ (∀ (s : State) (p : Fin 4) (e : Exch), (s.xchOf p.val).exch = some e → e.bucket ≠ 0 → e.held.get {} e.next = {} →
        s.paWaits p.val (e.src + e.next * e.bucket * 1024) (e.bucket * 1024) = true →
        Completes (.bucketStageStart p e.next) s (fun t => t = s))
    ∧ (∀ (s : State) (k : Nat) (x : InTxn) (e : Exch) (j : XJob) (d stage dir bucket block : Nat),
        JobArrives s k 1 x e j d stage dir bucket block → j.passed.contains block = false → 0 < x.t.data.length → x.t.data.length ≤ 512 →
        dir < 2 →
        let o := (State.halfOf j (s.torus d) block).1
        let m := x.t.data.zipIdx.map (fun v => max v.1.toNat ((j.exps[block + v.2 - j.first]?).getD 0))
        let a := m.map (fun v => agreeExp v (headroom (s.torus d)))
        (s.pos d ≠ o → Completes (.exponent k) s (fun t =>
            JobAfter s t k x stage bucket (fun y => y = { j with passed := j.passed ++ (List.range x.t.data.length).map (block + ·) })
            ∧ ExchSent s t x.t.part (2 * d + dir) 1 stage dir bucket block (m.map (BitVec.ofNat 8))))
        ∧ (s.pos d = o → Completes (.exponent k) s (fun t =>
            JobAfter s t k x stage bucket (fun y => ∀ i v, a[i]? = some v → y.agreed.get none (block + i) = some v
              ∧ y.q.get [] (block + i) = (let b := (j.vals[block + i - j.first]?).getD ⟨none, []⟩
                  b.vals.map (fun n => (quantise (b.value n) v (headroom (s.torus d))).1)))
            ∧ ExchSent s t x.t.part (2 * d + dir) 1 stage dir bucket block (a.map (BitVec.ofNat 8)))))
    ∧ (∀ (s : State) (k : Nat) (x : InTxn) (e : Exch) (j : XJob) (d stage dir bucket block : Nat),
        JobArrives s k 2 x e j d stage dir bucket block → (j.agreed.get none block).isSome = true → dir < 2 → j.carried = [] → j.okHalf = [] →
        j.res = [] → e.mism = [] → 2 ≤ j.n / s.torus d →
        let sum := (j.q.get [] block).zipIdx.map (fun v => wrap16 (v.1 + toSigned 16 (ofLeBytes ((x.t.data.drop (2 * v.2)).take 2))))
        (s.pos d ≠ (State.halfOf j (s.torus d) block).1 → Completes (.data k) s (fun t => JobAfter s t k x stage bucket (fun y => y = j)
            ∧ ExchSent s t x.t.part (2 * d + dir) 2 stage dir bucket block ((sum.map (fun v => leBytes 2 (ofSigned 16 v))).flatten)))
        ∧ (s.pos d = (State.halfOf j (s.torus d) block).1 → Completes (.data k) s (fun t =>
            JobAfter s t k x stage bucket (fun y => y = { j with sums := j.sums.set [] block sum }) ∧ t.ports = s.ports)))
    ∧ (∀ (s : State) (k : Nat) (x : InTxn) (e : Exch) (j : XJob) (d stage dir bucket block : Nat),
        JobArrives s k 3 x e j d stage dir bucket block → x.t.data.length = 8 → (j.agreed.get none block).isSome = true → dir < 2 → j.sums = [] →
        j.okHalf = [] → j.res = [] → e.mism = [] → 2 ≤ j.n / s.torus d →
        let sum := addChecksums (State.rec32 x.t.data 0, State.rec32 x.t.data 4) (checksums (j.q.get [] block))
        (s.pos d ≠ (State.halfOf j (s.torus d) block).1 → Completes (.checksum k) s (fun t => JobAfter s t k x stage bucket (fun y => y = j)
            ∧ ExchSent s t x.t.part (2 * d + dir) 3 stage dir bucket block (leBytes 4 sum.1 ++ leBytes 4 sum.2)))
        ∧ (s.pos d = (State.halfOf j (s.torus d) block).1 → Completes (.checksum k) s (fun t =>
            JobAfter s t k x stage bucket (fun y => y = { j with carried := j.carried.set none block (some sum) }) ∧ t.ports = s.ports)))
    ∧ (∀ (s : State) (k : Nat) (x : InTxn) (e : Exch) (j : XJob) (d stage dir bucket block : Nat),
        JobArrives s k 4 x e j d stage dir bucket block →
        let v := ofLeBytes x.t.data
        let o := bits v 0 8
        (bits v 8 2 = 0 → j.clean.contains o = false → j.clean.length + 1 < s.torus d → Completes (.verdict k) s (fun t =>
            JobAfter s t k x stage bucket (fun y => y = { j with clean := j.clean ++ [o] })
            ∧ if State.after (s.torus d) 0 (s.pos d) = o then t.ports = s.ports
              else ExchSent s t x.t.part (2 * d) 4 stage 0 bucket j.first x.t.data))
        ∧ (bits v 8 2 = 1 → State.after (s.torus d) 0 o = s.pos d → State.after (s.torus d) 0 (s.pos d) = o → Completes (.verdict k) s (fun t =>
            JobAfter s t k x stage bucket (fun y => y = j)
            ∧ t.ports = ((s.dropTxn k x).sendData x.t.part d j 0 (State.halfBlocks j (s.torus d) o 0)).ports)))

/-- R385 to R390, R401: a READY that matches is counted, one that does not fails the EXCHANGE, and one without a command is held; ABORT and a
timeout fail it; the closing tuples of a ring are summed, and with the last dimension's the EXCHANGE writes DST and ends. -/
def Obligations.ExchangeEnds : Prop :=
  let busy (s : State) (p : Nat) (e : Exch) : Prop := ∃ c, s.cmdOf p 3 e.idx = some c ∧ c.started = true ∧ c.done = none
  (∀ (s : State) (k : Nat) (x : InTxn) (e : Exch), ExchArrives s k 0 x e → s.prtState x.t.part < 2 → x.port ∈ portsOf e.dims →
      e.ready.contains x.port = false →
      (ofLeBytes x.t.data = State.exchReady e → (∃ g ∈ portsOf e.dims, g ≠ x.port ∧ e.ready.contains g = false) →
        Completes (.ready k) s (fun t => t = { s with inTxn := s.inTxn.eraseIdx k, xch := t.xch }
          ∧ t.xchOf x.t.part = { s.xchOf x.t.part with exch := some { e with ready := e.ready ++ [x.port] } }))
      ∧ (ofLeBytes x.t.data % 16 = 1 → ofLeBytes x.t.data ≠ State.exchReady e → busy s x.t.part e →
        Completes (.ready k) s (fun t => ExchFailed s t x.t.part e 0x0102)))
    ∧ (∀ (s : State) (k : Nat) (x : InTxn), s.arrivedExch k 0 = some x → x.held = none → s.prtState x.t.part < 2 → s.xchOf x.t.part = {} →
        (ofLeBytes x.t.data % 16 = 1 ∨ ofLeBytes x.t.data % 16 = 2) →
        Completes (.ready k) s (fun t => t = { s with inTxn := s.inTxn.eraseIdx k, xch := t.xch }
          ∧ t.xchOf x.t.part = { s.xchOf x.t.part with held := [⟨x.port, x.t.part, ofLeBytes x.t.data⟩] }))
    ∧ (∀ (s : State) (k : Nat) (x : InTxn) (e : Exch), ExchArrives s k 5 x e → bits (ofLeBytes x.t.data) 28 4 = 1 → x.port ∈ portsOf e.dims →
        busy s x.t.part e →
        Completes (.abort k) s (fun t => ExchFailed s t x.t.part e (State.peerCode (bits (ofLeBytes x.t.data) 0 16))))
    ∧ (∀ (s : State) (p : Fin 4) (idx : W32) (g : Fin 8) (e : Exch), (s.xchOf p.val).exch = some e → e.idx = idx.toNat → g.val ∈ portsOf e.dims →
        busy s p.val e → Completes (.xchTimeout p idx g) s (fun t => ExchFailed s t p.val e 0x0701))
    ∧ (∀ (s : State) (k : Nat) (x : InTxn) (e : Exch) (c : XClose), ExchArrives s k 6 x e → e.closing = some c → bits x.t.pa 4 2 = c.stage →
        x.port / 2 < 4 →
        (c.got.length + 1 < s.torus (x.port / 2) - 1 → 2 * (x.port / 2) ∈ portsOf e.dims → Completes (.close k) s (fun t =>
            t.xchOf x.t.part = { s.xchOf x.t.part with
              exch := some { e with closing := some { c with got := c.got ++ [State.bytesTuple x.t.data] } } }
            ∧ ExchSent s t x.t.part (2 * (x.port / 2)) 6 c.stage 0 0 0 x.t.data ∧ t.mem = s.mem ∧ t.inTxn = s.inTxn.eraseIdx k))
        ∧ (s.torus (x.port / 2) = 2 → c.got = [] → e.dims.length = c.stage + 1 → e.record = none → c.own.void = false →
            s.endWaits x.t.part e = false →
            (State.bytesTuple x.t.data).void = false → busy s x.t.part e → Completes (.close k) s (fun t =>
              Ended t x.t.part 3 e.idx 0 ∧ (t.xchOf x.t.part).exch = none
              ∧ ∀ a, t.peek a = ((s.dropTxn k x).writeDst x.t.part e false).peek a)))

/-- R395, R399, R400: GATHER_DATA is written at its owner's offset; a PERMUTE sends its next chunk to the destination's slot and then announces
it; the destination commits a chunk that is ready and tells its source. -/
def Obligations.GatherAndPermuteMove : Prop :=
  (∀ (s : State) (k slot dir o u d : Nat) (x : InTxn) (g : Gath), s.arrivedExch k 7 = some x → x.held = none →
      State.exchAddr x.t = (slot, dir, o, u) → (s.xchOf x.t.part).gathers = [g] → slot = g.layer % 4 → g.dims.contains (x.port / 2) = true →
      g.ready.contains (State.outPort (x.port / 2) dir) = true → (s.port (State.outPort (x.port / 2) dir)).state = 3 →
      o < s.deviceCount g.dims → u < g.bytes / 512 → s.paWaits x.t.part (g.dst + o * g.bytes + u * 512) x.t.data.length = false → g.sent = false → g.dims[g.stage]? = some d → g.ready.contains (2 * d) = false →
      Completes (.gatherData k) s (fun t => (t.xchOf x.t.part).gathers = [{ g with got := g.got.modify 0 o (· + 1) }]
        ∧ t.inTxn = s.inTxn.eraseIdx k
        ∧ (∀ a, t.peek a = ((s.dropTxn k x).pokePa x.t.part (g.dst + o * g.bytes + u * 512) x.t.data).peek a)
        ∧ let l := max 1 (s.torus (x.port / 2))
          let me := s.pos (x.port / 2)
          let src := s.ownerPos g.dims.reverse o (x.port / 2)
          if (if dir = 0 then (me + l - src) % l else (src + l - me) % l) < State.hopsOf l dir then
            ExchSent s t x.t.part (State.outPort (x.port / 2) dir) 7 slot dir o u x.t.data
          else t.ports = s.ports))
    ∧ (∀ (s : State) (p : Fin 4) (i : Fin 4096) (x : Perm) (e : PermEntry), (s.xchOf p.val).perm = some x → x.table[i.val]? = some e →
        e.src = s.self → e.dst ≠ s.self →
        s.outstanding (fun w => match w with
          | .permute q _ k j => q == p.val && k == x.idx && j == i.val
          | _ => false) = false →
        (x.told.get 0 i.val < x.issued.get 0 i.val → Completes (.permuteChunkSend p i) s (fun t =>
          t = (s.setPerm p.val { x with told := x.told.set 0 i.val (x.issued.get 0 i.val) }).permWrite p.val x.idx i.val e.dst
                (x.scratch + 16 * i.val) (leBytes 8 (x.issued.get 0 i.val))))
        ∧ (x.told.get 0 i.val = x.issued.get 0 i.val → x.issued.get 0 i.val < chunksOf e →
            x.issued.get 0 i.val < s.permHeader p.val x i.val 8 + 2 → s.inTorus e.dst = true →
            s.paWaits p.val (x.scratch + 16 * i.val) 16 = false →
            s.paWaits p.val (chunkOf e (x.issued.get 0 i.val)).1 (chunkOf e (x.issued.get 0 i.val)).2 = false →
            s.translatesAll p.val (chunkOf e (x.issued.get 0 i.val)).1 (chunkOf e (x.issued.get 0 i.val)).2 1 = true →
            s.poisonedPa p.val (chunkOf e (x.issued.get 0 i.val)).1 (chunkOf e (x.issued.get 0 i.val)).2 = false →
            let r := (s.readPa p.val (x.scratch + 16 * i.val) 16).loadPa p.val (chunkOf e (x.issued.get 0 i.val)).1 (chunkOf e (x.issued.get 0 i.val)).2
            Completes (.permuteChunkSend p i) s (fun t =>
              t = (r.2.setPerm p.val { x with issued := x.issued.set 0 i.val (x.issued.get 0 i.val + 1) }).permWrite p.val x.idx i.val e.dst
                    (slotAddr x e.dst i.val (x.issued.get 0 i.val)) r.1)))
    ∧ (∀ (s : State) (p : Fin 4) (i : Fin 4096) (x : Perm) (e : PermEntry), (s.xchOf p.val).perm = some x → x.table[i.val]? = some e →
        e.dst = s.self → e.src ≠ s.self →
        let c := x.committed.get 0 i.val
        let pa := (chunkOf e c).1
        let n := (chunkOf e c).2
        c + 1 < chunksOf e → c + 1 ≤ s.permHeader p.val x i.val 0 → s.sentAlready x pa n = true →
        s.paWaits p.val (x.scratch + 16 * i.val) 16 = false → s.paWaits p.val (slotAddr x e.dst i.val c) n = false → s.paWaits p.val pa n = false →
        s.writable p.val pa n = true →
        s.inTorus e.src = true → s.poisonedPa p.val (slotAddr x e.dst i.val c) n = false →
        (∀ a, contested x e a = false) →
        let r := (s.readPa p.val (x.scratch + 16 * i.val) 16).loadPa p.val (slotAddr x e.dst i.val c) n
        Completes (.permuteChunkCommit p i) s (fun t =>
          (∀ a, t.peek a = (r.2.pokePa p.val pa r.1).peek a)
          ∧ (t.xchOf p.val).perm = some { x with committed := x.committed.set 0 i.val (c + 1), done := x.done + n }
          ∧ t.reg (home .prog (21 + 16 * p.val) 8) = x.done + n))

/-- R403 to R408, R415 to R418, R420: a SAVE whose record need not wait and whose layer is free runs, and its flash layer reads the first slot's header;
one whose layer is still in use waits; a layer's end is recorded, and with the last one the command ends with its code; a FILL restores the blob and
image of the first surviving copy, or ends with NO_SNAPSHOT where no layer holds one; a record that fails a check ends the command with the code. -/
def Obligations.Snapshots : Prop :=
  let read (s : State) (p : Nat) (c : Cmd) : State := (s.noteReady p).fetched p (s.addrOf p (c.w64 0x10)).2 128
  let starts (s : State) (p : Nat) (c : Cmd) : Prop :=
    Starts s p 3 0x23 c ∧ (s.noteReady p).recordWaits p (s.addrOf p (c.w64 0x10)).2 128 = false
  let opens (s t : State) (p : Nat) (v : Save) : Prop :=
    (t.snapOf p).saves = [{ v with running := true, stagePoison := false, parts := [{ layer := 1, phase := 1, busy := true }] }]
      ∧ (t.snapOf p).fills = [] ∧ t.out = s.out ++ [.nvme (v.r.port * 4 + v.r.link) 2 v.r.fnsid v.r.flba 64 []]
      ∧ t = { s with strs := t.strs, snaps := t.snaps, regs := t.regs, out := t.out }
  let flash (s : State) (p : Nat) (r : SnapRec) : Prop :=
    r.layers = [1] ∧ r.stage = 0 ∧ s.dome.sag = false ∧ s.linkPart r.port r.link = p ∧ bit (s.reg (home .pcx r.port 0x10)) (8 + r.link) = true
  let fresh (c : Cmd) (r : SnapRec) (far : List Nat) : Save :=
    { idx := c.idx, step := c.w64 0x18, r := r, far := far, running := false, stagePoison := false, captured := false, partner := 0, entry := 0,
      parts := r.layers.map (fun l => { layer := l }) }
  (∀ (s : State) (p : Fin 4) (c : Cmd), Loads (s.noteReady p.val) (read s p.val c))
    ∧ (∀ (s : State) (p : Fin 4) (c : Cmd) (r : SnapRec) (far : List Nat), starts s p.val c → (read s p.val c).snapParams p.val c = .ok (false, r) →
      s.snapOf p.val = {} → flash (read s p.val c) p.val r → Completes (.snapshotSave p far) s (fun t => opens (read s p.val c) t p.val (fresh c r far)
        ∧ ∃ y, t.cmdOf p.val 3 c.idx = some y ∧ y.started = true ∧ y.done = none))
    ∧ (∀ (s : State) (p : Fin 4) (c : Cmd) (r : SnapRec) (far : List Nat) (v : Save), starts s p.val c →
        (read s p.val c).snapParams p.val c = .ok (false, r) → (s.snapOf p.val).saves = [v] → v.idx ≠ c.idx → r.stage = 0 → r.layers = [1] →
        v.parts.any (fun x => !x.ended && x.layer == 1) = true →
        Completes (.snapshotSave p far) s (fun t => (t.snapOf p.val).saves = [v, fresh c r far]
          ∧ bits (t.reg (home .prog (17 + 16 * p.val) 0)) 0 8 = 1
          ∧ t = { read s p.val c with strs := t.strs, snaps := t.snaps, regs := t.regs }))
    ∧ (∀ (s : State) (p : Fin 4) (c : Cmd) (far : List Nat) (code : Nat), starts s p.val c → (read s p.val c).snapParams p.val c = .error code →
        Completes (.snapshotSave p far) s (fun t => Ended t p.val 3 c.idx code ∧ t = { read s p.val c with strs := t.strs, regs := t.regs })
          ∧ Completes (.snapshotFill p) s (fun t => Ended t p.val 3 c.idx code ∧ t = { read s p.val c with strs := t.strs, regs := t.regs }))
    ∧ (∀ (s : State) (p : Fin 4) (v : Save), (s.snapOf p.val).saves = [v] → (s.snapOf p.val).fills = [] → v.running = false →
        v.parts = [{ layer := 1 }] → flash s p.val v.r → Completes (.snapshotQueuedStart p) s (fun t => opens s t p.val v))
    ∧ (∀ (s : State) (p : Fin 4) (idx : W32) (l : Fin 3) (v : Save) (x : SaveLayer) (c : Cmd) (e : LayerEnd) (code : Nat),
        (s.snapOf p.val).saves = [v] → v.idx = idx.toNat → v.parts = [x] → v.r.layers = [l.val] → x.layer = l.val → x.ended = false →
        x.res = some e → (e = .completed ∧ code = 0 ∨ e = .failed code) → v.r.capture = none → s.cmdOf p.val 3 v.idx = some c → c.started = true →
        c.done = none → Completes (.snapshotLayerEnd p idx l) s (fun t => Ended t p.val 3 v.idx code ∧ (t.snapOf p.val).saves = []
          ∧ (t.snapOf p.val).fills = (s.snapOf p.val).fills
          ∧ t = { s with strs := t.strs, snaps := t.snaps, regs := t.regs, rings := t.rings, out := t.out, eth := t.eth, shares := t.shares }
          ∧ t.reg (home .snp p.val (0x20 + 8 * l.val)) = (if e = .completed then v.step else s.reg (home .snp p.val (0x20 + 8 * l.val)))
          ∧ t.reg (home .snp p.val 0x18) = if e = .completed then s.reg (home .snp p.val 0x18) else code + l.val * 65536))
    ∧ (∀ (s : State) (p : Fin 4) (c : Cmd) (r : SnapRec), starts s p.val c → (read s p.val c).snapParams p.val c = .ok (true, r) →
        s.snapOf p.val = {} → r.layers = [0] → r.partner = s.self → s.inTorus s.self = true → s.fillEntry r ≠ none →
        let u := read s p.val c
        let h0 := u.loadPa p.val (s.fillSlot r 0) 64
        let h1 := h0.2.loadPa p.val (s.fillSlot r 1) 64
        let w := h1.2
        let hdr (k : Nat) : Nat := ofLeBytes (if k = 0 then h0.1 else h1.1)
        u.paWaits p.val (s.fillSlot r 0) 64 = false → u.paWaits p.val (s.fillSlot r 1) 64 = false →
        w.poisonedPa p.val (s.fillSlot r 0) 64 = false → w.poisonedPa p.val (s.fillSlot r 1) 64 = false →
        let b := w.loadPa p.val (s.fillSlot r 0 + 0x1000) r.blobBytes
        let i := b.2.loadPa p.val (s.fillSlot r 0 + 0x2000) r.img
        let x := (i.2.pokePa p.val r.blob b.1).pokePa p.val r.src i.1
        let sum := x.imageSum p.val r.blob r.blobBytes r.src r.img
        (survives (hdr 0) r (c.w64 0x18) = true → w.paWaits p.val (s.fillSlot r 0 + 0x1000) r.blobBytes = false →
          w.paWaits p.val (s.fillSlot r 0 + 0x2000) r.img = false → w.fillWaits p.val r = false → x.fillWaits p.val r = false →
          w.poisonedPa p.val (s.fillSlot r 0 + 0x1000) r.blobBytes = false → w.poisonedPa p.val (s.fillSlot r 0 + 0x2000) r.img = false →
          sum.1 = bits (hdr 0) 224 32 →
          Completes (.snapshotFill p) s (fun t => Ended t p.val 3 c.idx 0 ∧ (∀ a, t.peek a = sum.2.peek a) ∧ (t.snapOf p.val).fills = []))
        ∧ (survives (hdr 0) r (c.w64 0x18) = false → survives (hdr 1) r (c.w64 0x18) = false →
          Completes (.snapshotFill p) s (fun t => Ended t p.val 3 c.idx 0x0B02 ∧ t.mem = w.mem ∧ t.lines = w.lines
            ∧ (t.snapOf p.val).fills = [])))

/-- R441, R442, R444 to R447, R450, R451, R453, R455: frames, connections and verbs of the Ethernet ports. A control frame for the port's own address is
answered; a good request connects a free queue pair with REP; a management SEND joins its partition's requests; an RDMA WRITE within one line of memory
stores its bytes and is acknowledged, and waits while its line does, an RDMA READ returns them; a wrong key, a DREQ, a NAK and exhausted retries end the
queue pair; a packet marked CE is answered with a CNP; congestion epochs set each rate; a pause holds what would leave, and its end lets it go; links hold
and release their queue pairs. -/
def Obligations.EthernetPorts : Prop :=
  let on (s : State) (n : Nat) : Prop := (s.qp n).conn = true ∧ (s.qp n).held = false ∧ (s.qp n).waiting = []
  let pk (s : State) (port : Nat) (o : Output) : Output := .packet port (s.cfg (0x108 + 64 * port) 0 6 * 4 + 2) o
  let cm (s t : State) (p port : Nat) (o : Output) : Prop :=
    if s.mayLeave port 1 = true then t.out = s.out ++ [pk s port o] else t.out = s.out ∧ (t.ethOf port).tx = (s.ethOf port).tx ++ [⟨p, 1, 0, o⟩]
  let sent (s t : State) : Prop := t = { s with out := t.out, eth := t.eth, shares := t.shares, regs := t.regs }
  let gone (s t : State) (n : Nat) : Prop :=
    (t.qp n).conn = false ∧ (t.qp n).wait = false ∧ (t.qp n).waiting = [] ∧ (∀ m, m ≠ n → t.qp m = s.qp m) ∧ t.mem = s.mem ∧ t.lines = s.lines
      ∧ t.groups = s.groups
  let inLine (s : State) (n : Nat) (rkey : W32) (va lpa k : Nat) : Prop :=
    on s n ∧ rkey.toNat = s.windowKey (s.qp n).part ∧ 0 < k ∧ va % 128 + k ≤ 128 ∧ va + k ≤ 2 ^ 44
      ∧ s.translate (s.qp n).part va 16 = some lpa ∧ place lpa = .hbm ∧ s.paWaits (s.qp n).part va k = false
  let write (c : Nat → W32 → W64 → List Byte → Instr) : Prop :=
    (∀ (s : State) (n lpa : Nat) (rkey : W32) (va : W64) (l : List Byte), inLine s n rkey va.toNat lpa l.length → (s.line lpa).present = true →
      Completes (c n rkey va l) s (fun t => Left s t n 0 (.roce n none) ∧ (∀ i b, l[i]? = some b → t.peek (lpa + i) = b)
        ∧ ∀ a, (a < lpa ∨ lpa + l.length ≤ a) → t.peek a = s.peek a))
    ∧ (∀ (s : State) (n : Nat) (rkey : W32) (va : W64) (l : List Byte), on s n → rkey.toNat = s.windowKey (s.qp n).part → l ≠ [] →
        va.toNat + l.length ≤ 2 ^ 44 → s.paWaits (s.qp n).part va.toNat l.length = true →
        Completes (c n rkey va l) s (fun t => t.qp n = { s.qp n with waiting := [.write rkey.toNat va.toNat l] } ∧ (∀ m, m ≠ n → t.qp m = s.qp m)
          ∧ t = { s with qps := t.qps, eth := t.eth, out := t.out }))
    ∧ ∀ (s : State) (n : Nat) (rkey : W32) (va : W64) (l : List Byte), on s n → l ≠ [] → l.length ≤ 2 ^ 31 →
        rkey.toNat ≠ s.windowKey (s.qp n).part →
        Completes (c n rkey va l) s (fun t => gone s t n ∧ ((s.ethOf (s.qp n).port).up = true →
          if s.mayLeave (s.qp n).port n = true then pk s (s.qp n).port (.roce n (some 2)) ∈ t.out
          else ⟨(s.qp n).part, n, 0, .roce n (some 2)⟩ ∈ (t.ethOf (s.qp n).port).tx))
  (∀ (s : State) (port : Fin 4) (kind : Fin 5) (vlan : Option (BitVec 12)) (asked : BitVec 128) (l : List Byte), (s.ethOf port.val).up = true →
      let o := 0x100 + 64 * port.val
      let mine := if kind.val % 2 = 0 then s.cfg (o + 0x10) 0 32 else s.cfg (o + 0x20) 0 64 + s.cfg (o + 0x28) 0 64 * 2 ^ 64
      let tag := if s.cfg o 50 1 = 1 then some (BitVec.ofNat 12 (s.cfg o 51 12)) else none
      Completes (.ethControlFrame port kind ⟨vlan, asked, l⟩) s (fun t =>
        if kind.val = 4 then t = s.bump (home .eth port.val 0x110) 1
        else if s.dome.boot.state ≠ 2 ∧ vlan = tag ∧ asked.toNat = mine then
          t = { s with out := s.out ++ [.frame port.val 5 (leBytes 1 kind.val ++ (tag.map (fun v => leBytes 2 v.toNat)).getD []
            ++ leBytes 6 (s.cfg o 0 48) ++ leBytes 16 mine ++ l)] }
        else t = s))
    ∧ (∀ (s u : State) (port : Fin 4) (svc : W64) (peer : W32) (mtu : Fin 3) (p kind n : Nat), (s.ethOf port.val).up = true →
        State.serviceOf svc.toNat = some (p, kind) → s.formed = true → p < s.nParts → s.prtState p = 0 →
        (kind = 0 → ∀ e ∈ s.qps, e.2.conn = false ∨ e.2.part ≠ p ∨ e.2.kind ≠ 0) → s.allocQp p = some (n, u) →
        Completes (.cmReq port svc ⟨peer, mtu⟩) s (fun t =>
          t.qp n = { part := p, port := port.val, kind := kind, peer := peer.toNat, conn := true, mtu := 1024 * 2 ^ mtu.val }
          ∧ (∀ m, m ≠ n → t.qp m = s.qp m)
          ∧ cm s t p port.val (.frame port.val 1 (leBytes 4 n ++ leBytes 4 peer.toNat ++ leBytes 4 p ++ leBytes 4 (s.windowKey p) ++ leBytes 4 s.self))
          ∧ t = { s with qps := t.qps, free := s.free + 1, out := t.out, eth := t.eth, shares := t.shares, regs := t.regs }))
    ∧ (∀ (s : State) (port : Fin 4) (svc : W64) (peer : W32) (mtu : Fin 3), (s.ethOf port.val).up = true →
        (State.serviceOf svc.toNat = none ∨ ∃ p kind, State.serviceOf svc.toNat = some (p, kind)
          ∧ (s.formed = false ∨ s.nParts ≤ p ∨ s.prtState p ≠ 0 ∨ s.allocQp p = none)) →
        Completes (.cmReq port svc ⟨peer, mtu⟩) s (fun t => cm s t (svc.toNat % 4) port.val (.frame port.val 2 (leBytes 4 peer.toNat)) ∧ sent s t))
    ∧ (∀ (s : State) (n : Nat), (s.qp n).conn = true →
        Completes (.cmDreq n) s (fun t => gone s t n ∧ ((s.ethOf (s.qp n).port).up = true → 2 ≤ n →
          if s.mayLeave (s.qp n).port 1 = true then pk s (s.qp n).port (.frame (s.qp n).port 3 (leBytes 4 n)) ∈ t.out
          else ⟨(s.qp n).part, 1, 0, .frame (s.qp n).port 3 (leBytes 4 n)⟩ ∈ (t.ethOf (s.qp n).port).tx))
        ∧ Completes (.roceNak n) s (gone s · n) ∧ Completes (.roceRetryExhausted n) s (gone s · n))
    ∧ (∀ (s : State) (n : Nat) (peer : W32), (s.qp n).wait = true →
        let u := s.setQp n { s.qp n with wait := false, conn := true, peer := peer.toNat }
        u.storeOpen (s.qp n).part (s.qp n).target = false → Completes (.cmRep n peer) s (fun t => t = u))
    ∧ (∀ (s : State) (n : Nat), (s.qp n).wait = true → s.snapOf (s.qp n).part = {} →
        Completes (.cmRej n) s (fun t => t.qp n = { s.qp n with wait := false } ∧ (∀ m, m ≠ n → t.qp m = s.qp m) ∧ t.mem = s.mem
          ∧ ((s.stores.get {} ((s.qp n).part * 16 + (s.qp n).target)).io = n →
              (t.stores.get {} ((s.qp n).part * 16 + (s.qp n).target)).io = 0)))
    ∧ (∀ (s : State) (n : Nat) (msg : BitVec 2048), on s n →
        ((s.qp n).kind = 0 → 1 ≤ bits msg.toNat 0 8 → bits msg.toNat 0 8 ≤ 5 → s.mgmt.get [] (s.qp n).part = [] →
          Completes (.roceSend n msg false) s (fun t => t.mgmt.get [] (s.qp n).part = [(n, msg.toNat)] ∧ Left s t n 0 (.roce n none)
            ∧ t = { s with mgmt := t.mgmt, regs := t.regs, out := t.out, eth := t.eth, shares := t.shares }))
        ∧ ((s.qp n).kind = 1 → Completes (.roceSend n msg false) s (fun t => Left s t n 0 (.roce n (some 1)) ∧ sent s t)))
    ∧ write (fun n rkey va l => .rdmaWrite n rkey va l false)
    ∧ (∀ imm : W32, write (fun n rkey va l => .rdmaWriteWithImmediate n rkey va l imm false))
    ∧ (∀ (s : State) (n lpa : Nat) (rkey len : W32) (va : W64), inLine s n rkey va.toNat lpa len.toNat → s.poisonedIn lpa len.toNat = false →
        s.lineHeld lpa len.toNat = true →
        Completes (.rdmaRead n rkey va len false) s (fun t => Left s t n len.toNat (.readData n (s.peekBytes lpa len.toNat)) ∧ sent s t))
    ∧ (∀ (s : State) (n : Nat), on s n →
        Completes (.atomicVerb ⟨n, false⟩) s (fun t => Left s t n 0 (.roce n (some 1)) ∧ sent s t)
        ∧ (s.mayLeave (s.qp n).port n = true → (s.qp n).lastCnp = none → Completes (.atomicVerb ⟨n, true⟩) s (fun t =>
            t.out = s.out ++ [pk s (s.qp n).port (.frame (s.qp n).port 6 (leBytes 4 n)), pk s (s.qp n).port (.roce n (some 1))]
            ∧ t.qp n = { s.qp n with lastCnp := some s.pkg.time })))
    ∧ (∀ (s : State) (n : Nat) (tries : Fin 8),
        ((s.qp n).conn = true → Completes (.cnp n) s (fun t => t.qp n = { s.qp n with cnp := true } ∧ t = { s with qps := t.qps, regs := t.regs }))
        ∧ Completes (.localAckTimeout ⟨n, tries⟩) s (fun t =>
            if (s.qp n).conn = true ∧ (s.qp n).held = false then
              (if tries.val = 7 then gone s t n else Left s t n 0 (.frame (s.qp n).port 8 (leBytes 4 n)) ∧ sent s t)
            else t = s))
    ∧ (∀ s : State, s.qps.wf {} = true → Completes .cnpEpoch s (fun t => t = { s with qps := t.qps } ∧ ∀ n, t.qp n =
        if (s.qp n).conn = true then
          epochQp (bits (s.reg (home .eth (s.qp n).port 0x20)) 10 11) (bits (s.reg (home .eth (s.qp n).port 0x20)) 21 11) (s.qp n)
        else s.qp n))
    ∧ (∀ (s : State) (port : Fin 4) (prio : Fin 8) (quanta : BitVec 16), s.cfg (0x100 + 64 * port.val) 63 1 = 1 →
        s.cfg (0x108 + 64 * port.val) 8 3 = prio.val → Completes (.pfcPause port prio quanta) s (fun t =>
          (t.ethOf port.val).paused = decide (quanta.toNat ≠ 0) ∧ (t.ethOf port.val).up = (s.ethOf port.val).up ∧ sent s t
          ∧ (quanta ≠ 0 → t.out = s.out ∧ (t.ethOf port.val).tx = (s.ethOf port.val).tx)))
    ∧ (∀ (s : State) (port : Fin 4), Completes (.pfcPauseEnd port) s (fun t => (t.ethOf port.val).paused = false ∧ sent s t
        ∧ ((s.ethOf port.val).up = true → (∀ f ∈ (s.ethOf port.val).tx, f.part < 4 ∧ (s.qp f.qp).held = false) →
            (t.ethOf port.val).tx = [] ∧ t.out.length = s.out.length + (s.ethOf port.val).tx.length)))
    ∧ (∀ (s : State) (port : Fin 4), s.qps.wf {} = true →
        ((s.ethOf port.val).up = true → Completes (.ethLinkDown port) s (fun t => (t.ethOf port.val).up = false ∧ t.mem = s.mem
          ∧ ∀ n, t.qp n = if (s.qp n).conn = true ∧ (s.qp n).port = port.val then { s.qp n with held := true } else s.qp n))
        ∧ ((s.ethOf port.val).up = false → s.domOn (56 + port.val) = true → s.cfg (0x100 + 64 * port.val) 49 1 = 1 →
          Completes (.ethLinkUp port) s (fun t => (t.ethOf port.val).up = true ∧ t.mem = s.mem
            ∧ ∀ n, t.qp n = if (s.qp n).conn = true ∧ (s.qp n).port = port.val then { s.qp n with held := false } else s.qp n))
        ∧ ((s.ethOf port.val).up = false → Completes (.ethHoldExpiry port) s (fun t => t.mem = s.mem ∧ (∀ k, (t.ethOf k).up = (s.ethOf k).up)
            ∧ ∀ n, (s.qp n).held = true → (s.qp n).port = port.val → (t.qp n).conn = false)))

/-- R408, R412, R413, R454, R455, R458: the end of a drive's or a store's command takes the SAVE layer that waits for it to its next phase, unless a
line that it leads to must wait; an error status, a timeout and a link that goes down fail the layer with LINK_DOWN, and the status is recorded.

R254, R457, R540: a PCIe link is retrained with a pulse on its PERST_N; a CXL link that goes down loses its window's dirty lines, and returns
when it is retrained. -/
def Obligations.DrivesAndMemoryLinks : Prop :=
  (
  let waits (s : State) (p l drive : Nat) (v : Save) (x : SaveLayer) : Prop :=
    (s.snapOf p).saves = [v] ∧ v.running = true ∧ v.parts = [x] ∧ x.layer = l ∧ x.busy = true ∧ x.res = none ∧ driveOf v.r l = drive
      ∧ l = (if drive < 16 then 1 else 2) ∧ s.sourceWaits p v.r l = false
  let nsid (l : Nat) (v : Save) : Nat := if l = 1 then v.r.fnsid else v.r.snsid
  let lba (l drive : Nat) (v : Save) (x : SaveLayer) : Nat :=
    (if l = 1 then v.r.flba else v.r.slba) + x.slot * slotSize v.r / (if Config.lba4k drive (nsid l v) then 4096 else 512)
  let header (s : State) (v : Save) (x : SaveLayer) : List Byte := leBytes 64 (slotHeader 2 s.self v.r.job v.step v.r.img v.r.blobBytes x.sum)
  let flushed (s t : State) (p l : Nat) (v : Save) (x : SaveLayer) : Prop :=
    (t.snapOf p).saves = [{ v with parts := [{ x with phase := 7, busy := true }] }]
      ∧ t = { s with snaps := t.snaps, out := t.out, regs := t.regs, eth := t.eth, shares := t.shares }
      ∧ t.reg (home .prog (16 + 16 * p + l) 8) = v.r.blobBytes + v.r.img
  let failed (s t : State) (p : Nat) (v : Save) (x : SaveLayer) : Prop :=
    (t.snapOf p).saves = [{ v with parts := [{ x with busy := false, res := some (.failed 0x0701) }] }]
      ∧ t = { s with snaps := t.snaps, out := t.out, regs := t.regs, eth := t.eth, shares := t.shares, rings := t.rings }
  (∀ (s : State) (port link : Fin 4) (v : Save) (x : SaveLayer), waits s (s.linkPart port.val link.val) 1 (port.val * 4 + link.val) v x →
      (x.phase = 6 → s.dome.sag = false → x.sagged = false → ∀ l : List Byte, Completes (.nvmeCompletion port link 0 l) s (fun t =>
          flushed s t (s.linkPart port.val link.val) 1 v x ∧ t.eth = s.eth ∧ t.out = s.out ++ [.nvme (port.val * 4 + link.val) 1 (nsid 1 v)
            (lba 1 (port.val * 4 + link.val) v x) 64 (header s v x)]))
      ∧ (∀ (status : BitVec 16) (l : List Byte), status ≠ 0 → Completes (.nvmeCompletion port link status l) s (fun t =>
          failed s t (s.linkPart port.val link.val) v x ∧ t.reg (home .pcx port.val 0x20) = status.toNat + link.val * 65536))
      ∧ Completes (.nvmeTimeout port link) s (fun t => failed s t (s.linkPart port.val link.val) v x)
      ∧ (bits (s.reg (home .pcx port.val 0x10)) 0 2 = 2 → bit (s.reg (home .pcx port.val 0x10)) (8 + link.val) = true →
          Completes (.pcieLinkDown port link) s (fun t => failed s t (s.linkPart port.val link.val) v x
            ∧ bit (t.reg (home .pcx port.val 0x10)) (8 + link.val) = false)))
    ∧ (∀ (s : State) (port link : Fin 4) (status : BitVec 16) (l : List Byte), s.driveWaits (s.linkPart port.val link.val) (port.val * 4 + link.val) = true →
        Completes (.nvmeCompletion port link status l) s (fun t => t = s))
    ∧ (∀ (s : State) (n : Nat) (v : Save) (x : SaveLayer), (s.qp n).conn = true → (s.qp n).held = false → (s.qp n).kind = 3 → n ≠ 0 →
        waits s (s.qp n).part 2 (16 + (s.qp n).target) v x →
        (x.phase = 6 → (s.stores.get {} ((s.qp n).part * 16 + (s.qp n).target)).io = n → s.mayLeave (s.qp n).port n = true →
          ∀ l : List Byte, Completes (.storeResponseCapsule n 0 ⟨l, false⟩) s (fun t => flushed s t (s.qp n).part 2 v x
            ∧ t.out = s.out ++ ([.roce n none, .capsule n 1 (nsid 2 v) (lba 2 (16 + (s.qp n).target) v x) 64 (s.windowKey (s.qp n).part) []
                (header s v x)] : List Output).map (fun o => .packet (s.qp n).port (s.cfg (0x108 + 64 * (s.qp n).port) 0 6 * 4 + 2) o)))
        ∧ (∀ (status : BitVec 16) (l : List Byte), status ≠ 0 → Completes (.storeResponseCapsule n status ⟨l, false⟩) s (fun t =>
            failed s t (s.qp n).part v x
            ∧ t.reg (home .eth (s.qp n).port 0x24) = status.toNat + (s.qp n).target * 65536)))
    ∧ (∀ (s : State) (p : Fin 4) (k : Fin 16) (v : Save) (x : SaveLayer), waits s p.val 2 (16 + k.val) v x →
        Completes (.storeTimeout p k) s (fun t => failed s t p.val v x)))
  ∧ (
  (∀ (s : State) (port link : Fin 4), bits (s.reg (home .pcx port.val 0x10)) 0 2 = 2 → bit (s.reg (home .pcx port.val 0x10)) (8 + link.val) = false →
      s.domOn (60 + port.val) = true → link.val < s.pcxLinks port.val →
      Completes (.pcieLinkRetrain port link) s (fun t => bit (t.reg (home .pcx port.val 0x10)) (8 + link.val) = true
        ∧ t = { s with regs := t.regs, out := s.out ++ [.pin (0x100 + port.val * 4 + link.val) 0, .pin (0x100 + port.val * 4 + link.val) 1] }))
    ∧ (∀ (s : State) (port : Fin 4), bits (s.reg (home .pcx port.val 0x10)) 0 2 = 1 →
        (s.cxlUp port.val = true → Completes (.cxlLinkDown port) s (fun t => t.cxlUp port.val = false ∧ t.mem = s.mem
          ∧ (∀ a, place (a / 128 * 128) = .cxl port.val → (s.line a).present = true → (s.line a).dirty ≠ 0 → (t.line a).present = false)
          ∧ ∀ a, place (a / 128 * 128) ≠ .cxl port.val → t.line a = s.line a))
        ∧ (s.cxlUp port.val = false → s.domOn (60 + port.val) = true → Completes (.cxlRetrain port true) s (fun t =>
            t.cxlUp port.val = true ∧ t.mem = s.mem ∧ t.lines = s.lines))
        ∧ Completes (.cxlRetrain port false) s (fun t => t = s)))

/-- R425 to R428, R430: a round grants its 64 units by R426 from what waits at the point: in all no more than 64, each partition no more than its demand
and no less than its floor or its demand, and all 64 where they are wanted; a slice's way targets share its 16 ways likewise. L2 and POWER have no such
round. With the last point that a share change waits for, it is in force: SHARE_CHANGED joins the rings and the request is answered. A slice that sheds
writes back and invalidates the oldest unlocked line beyond a target, counted for its owner, and with none left it has ended shedding.

R250, R252: the patrol reads an HBM line where its controller runs: it counts 128 bytes and 32 for each word written back, a corrected error for each
word with a correctable one alone, and an uncorrectable one with the word's address for each word first found so, which is poisoned and for which a POISON
event joins the ring of the stack's partition. No byte changes; elsewhere nothing happens. -/
def Obligations.SharesAndScrub : Prop :=
  (
  let sum (l : List Nat) : Nat := at4 l 0 + at4 l 1 + at4 l 2 + at4 l 3
  let fair (r : Nat) (d w f g : List Nat) : Prop :=
    g.length = 4 ∧ sum g ≤ r ∧ (∀ p, p < 4 → min (at4 d p) (at4 f p * r / 100) ≤ at4 g p ∧ at4 g p ≤ at4 d p)
      ∧ ((∀ p, p < 4 → at4 d p ≠ 0 → at4 w p ≠ 0) → sum g = min r (sum d))
  let demand (s : State) (res : Fin 5) (pt : Fin 256) (d : List Nat) : List Nat :=
    s.demandOf (if res.val = 2 then s.linkDemand pt.val else if res.val = 3 then s.ethDemand pt.val else d)
  let settled (s : State) (res pt : Nat) : Prop := ∀ c ∈ s.dome.changes, c.points ≠ [] ∧ State.ShareChange.awaits c res pt = false
  let inForce (s t : State) (c : ShareChange) : Prop :=
    t.dome.changes = [] ∧ t.mem = s.mem ∧ t.lines = s.lines ∧ t.groups = s.groups
      ∧ (∀ p, p < s.nParts → s.prtState p ≠ 3 → (s.ring p).set = false → (s.ring p).dropped = 0 → (s.ring p).queue.length < 256 →
          ∃ e, (t.ring p).queue = (s.ring p).queue ++ [e] ∧ e.type = 0x0205 ∧ e.code = 0 ∧ e.d0 = c.part + c.res * 16 ∧ e.d1 = c.value)
      ∧ (if c.req.who < 4 then t.reg (home .dom c.req.who 0x110) = c.req.kind + c.req.seq * 2 ^ 16 ∧ t.reg (home .dom c.req.who 0x114) = 0
          else .mailbox c.req.who c.req.kind 0 c.req.seq 0 ∈ t.out)
  let slice (s : State) (k : Nat) : SliceSt := s.slices.get {} k
  (∀ (s : State) (res : Fin 5) (pt : Fin 256) (d0 d1 d2 d3 : W32), (res.val = 0 ∨ res.val = 2 ∨ res.val = 3) →
      let key := res.val * 256 + pt.val
      let d := demand s res pt [d0.toNat, d1.toNat, d2.toNat, d3.toNat]
      let g := arbitrate 64 d (s.weights res.val) (s.floors res.val)
      (sum (s.floors res.val) ≤ 100 → fair 64 d (s.weights res.val) (s.floors res.val) g)
      ∧ (settled s res.val pt.val → Completes (.arbitrationRound res pt d0 d1 d2 d3) s (fun t =>
          t = { s with shares := s.shares.set {} key { grants := g, last := (s.shares.get ({} : Share) key).last } }))
      ∧ ∀ c, s.dome.changes = [c] → c.res = res.val → c.points = [pt.val] →
          Completes (.arbitrationRound res pt d0 d1 d2 d3) s (fun t => inForce s t c
            ∧ ((∀ p, p < 4 → (s.ring p).set = false) → t.shares = s.shares.set {} key { grants := g, last := (s.shares.get ({} : Share) key).last })))
    ∧ (∀ (s : State) (res : Fin 5) (pt : Fin 256) (d0 d1 d2 d3 : W32), (res.val = 1 ∨ res.val = 4) →
        Completes (.arbitrationRound res pt d0 d1 d2 d3) s (fun t => t = s))
    ∧ (∀ (s : State) (sl : Fin 192),
        let wants (p : Nat) : Bool := (slice s sl.val).missed.testBit p
          || s.lines.any (fun e => e.2.present && (s.sliceOf (e.1 * 128)).1 == sl.val && e.2.owner == p)
        let d := s.demandOf ((List.range 4).map (fun p => if wants p then 16 else 0))
        let g := arbitrate 16 d (s.weights 1) (s.floors 1)
        (sum (s.floors 1) ≤ 100 → fair 16 d (s.weights 1) (s.floors 1) g)
        ∧ (settled s 1 sl.val → Completes (.l2ShareRecompute sl) s (fun t =>
            t = { s with slices := s.slices.set {} sl.val { slice s sl.val with targets := g, missed := 0 } }))
        ∧ ∀ c, s.dome.changes = [c] → c.res = 1 → c.points = [sl.val] → Completes (.l2ShareRecompute sl) s (fun t => inForce s t c
            ∧ t.slices = s.slices.set {} sl.val { slice s sl.val with targets := g, missed := 0, shedding := true }))
    ∧ (∀ (s : State) (sl : Fin 192),
        let beyond (k : Nat) (l : L2Line) : Prop := (k, l) ∈ s.lines ∧ l.present = true ∧ l.lock = none ∧ (s.sliceOf (k * 128)).1 = sl.val
          ∧ s.wayTarget sl.val l.owner
              < (s.lines.filter (fun f => f.2.present && f.2.owner == l.owner && s.sliceOf (f.1 * 128) == s.sliceOf (k * 128))).length
        ((slice s sl.val).shedding = false → Completes (.l2Shed sl) s (fun t => t = s))
        ∧ ((slice s sl.val).shedding = true → (∀ k l, ¬ beyond k l) → Completes (.l2Shed sl) s (fun t =>
            t = { s with slices := s.slices.set {} sl.val { slice s sl.val with shedding := false } }))
        ∧ ∀ (k : Nat) (l : L2Line), s.lines.wf {} = true → (slice s sl.val).shedding = true → beyond k l →
            (∀ j m, beyond j m → j ≠ k → l.born < m.born) →
            Completes (.l2Shed sl) s (fun t => t.line (128 * k) = {} ∧ (∀ j, j ≠ k → t.line (128 * j) = s.line (128 * j))
              ∧ (place (128 * k) = .hbm → ∀ a, t.peek a = s.peek a)
              ∧ t.reg (home .prt l.owner 0x100) % 2 ^ 48 = (s.reg (home .prt l.owner 0x100) + 1) % 2 ^ 48
              ∧ t.slices = s.slices ∧ t.groups = s.groups ∧ t.dome = s.dome)))
  ∧ (
  ∀ (s : State) (lpa : BitVec 44) (e : Ecc),
    let b := lpa.toNat / 128 * 128
    let stack := State.stackOf (s.sliceOf b).1
    let p := s.partOfStack stack
    let new := (List.range 4).filter (fun w => e.uncorr.testBit w && !s.poison.get false (b / 32 + w))
    let count (t : State) (off n : Nat) : Prop := t.reg (home .hbm stack off) % 2 ^ 48 = (s.reg (home .hbm stack off) + n) % 2 ^ 48
    (¬ (place b = .hbm ∧ s.domOn (36 + stack) = true) → Completes (.patrolScrub lpa e) s (fun t => t = s))
    ∧ (place b = .hbm → s.domOn (36 + stack) = true →
      Completes (.patrolScrub lpa e) s (fun t =>
        t = { s with poison := t.poison, regs := t.regs, rings := t.rings, out := t.out, eth := t.eth, shares := t.shares }
        ∧ (∀ w, w < 4 → t.poison.get false (b / 32 + w) = (s.poison.get false (b / 32 + w) || e.uncorr.testBit w))
        ∧ (∀ k, (k < b / 32 ∨ b / 32 + 4 ≤ k) → t.poison.get false k = s.poison.get false k)
        ∧ count t 0x110 128 ∧ count t 0x118 (32 * popcount 4 (e.corr ||| e.uncorr))
        ∧ count t 0x100 (popcount 4 (e.corr &&& (15 ^^^ (e.uncorr % 16)))) ∧ count t 0x108 new.length
        ∧ t.reg (home .hbm stack 0x18) = ((new.getLast?).map (fun w => b + 32 * w)).getD (s.reg (home .hbm stack 0x18))
        ∧ (∀ q, q ≠ p → t.ring q = s.ring q)
        ∧ ((s.ring p).set = false → (s.ring p).dropped = 0 → (s.ring p).queue.length + 4 ≤ 256 → t.out = s.out ∧ t.eth = s.eth
            ∧ (∀ k, k / 2 ^ 24 ≠ 0x8000 + stack → t.regs.get none k = s.regs.get none k)
            ∧ (t.ring p).queue = (s.ring p).queue ++ new.zipIdx.map (fun x =>
                { seq := ((s.ring p).next + x.2) % 2 ^ 32, type := 7, context := s.ctxNum p, code := 0x0801, stream := 0, index := 0,
                  d0 := b + 32 * x.1, d1 := 0, wake := false })))))

/-- R36, R432, R435 to R437: disabling and resetting a partition. When the drain of a disable ends, the partition's commands, context and groups
are gone and its scrub begins; at the end of the scrub every byte of its HBM reads zero and it is DISABLED, or READY again after a reset; an
uncorrectable error resets the partition of a region, or the whole package. -/
def Obligations.PartitionActions : Prop :=
  let zero (s t : State) (p : Nat) : Prop :=
    ∀ a, place a = .hbm → t.peek a = if s.ownsLpa p a then 0 else s.peek a
  (∀ (s : State) (p : Fin 4) (a : PartAct), s.actOf p.val = some a → a.scrubbing = false →
      a.began + s.reg (home .prt p.val 0x14) * 1000000 ≤ s.pkg.time → Completes (.partitionDrainEnd p) s (fun t =>
        t.prtState p.val = 2 ∧ (∃ n, t.actOf p.val = some { a with scrubbing := true, aborted := n }) ∧ t.hasCtx p.val = false
        ∧ (∀ st, st < 4 → (t.str p.val st).cmds = []) ∧ (∀ u k, u ∈ s.unitsOf p.val → k < 32 → (t.grp u k).live = false)
        ∧ ∀ q, q ≠ p.val → t.actOf q = s.actOf q))
    ∧ (∀ (s : State) (p : Fin 4) (a : PartAct), s.actOf p.val = some a → a.scrubbing = false →
        s.pkg.time < a.began + s.reg (home .prt p.val 0x14) * 1000000 → (∃ st, st < 4 ∧ (s.str p.val st).cmds ≠ []) →
        Completes (.partitionDrainEnd p) s (fun t => t = s))
    ∧ (∀ (s : State) (p : Fin 4) (a : PartAct), s.actOf p.val = some a → a.scrubbing = true → a.kind = .disable → s.pkg.layout < 3 →
        Completes (.partitionScrubEnd p) s (fun t => t.prtState p.val = 3 ∧ t.actOf p.val = none ∧ t.dome.disabled.contains p.val = true
          ∧ zero s t p.val))
    ∧ (∀ (s : State) (p : Fin 4) (a : PartAct), s.actOf p.val = some a → a.scrubbing = true → a.kind = .reset → a.thenDisable = [] →
        s.pkg.layout < 3 → Completes (.partitionScrubEnd p) s (fun t => t.prtState p.val = 0 ∧ t.actOf p.val = none ∧ t.snapOf p.val = {}
          ∧ t.xchOf p.val = {} ∧ (∀ i, i < 65536 → (t.obj p.val i).live = false) ∧ zero s t p.val))
    ∧ (∀ (s : State) (r : Fin 4), s.domOn (32 + r.val) = true → s.actOf (s.partOfRegion r.val) = none →
        Completes (.regionUncorrectableError r) s (fun t => t.prtState (s.partOfRegion r.val) = 4 ∧ t.hasCtx (s.partOfRegion r.val) = false
          ∧ (∃ a, t.actOf (s.partOfRegion r.val) = some a ∧ a.kind = .reset ∧ a.scrubbing = true ∧ a.answer = [])))
    ∧ (∀ s : State, (s.dome.boot.state = 2 → Completes .hubUncorrectableError s (fun t => t = s))
        ∧ (s.dome.boot.state ≠ 2 → Completes .hubUncorrectableError s (fun t => WarmReset s t 2)))

/-- R461, R468 to R473, R477, R478, R537: start-up. COLD_RST_N low holds the package in cold reset, and start-up begins when it rises; each stage ends
in the next, stage 4 writes every HBM byte to zero, the partitions are formed in stage 7 and stage 8 makes the package ready; what a stage finds wrong
stops start-up in RECOVERY, which a rail fault does not leave. A watchdog expires only once its time has passed.

R539: with REFCLK lost the oscillator runs uncalibrated and every Griwald port that trains or runs goes DOWN; calibration waits for its
return. -/
def Obligations.StartUp : Prop :=
  (
  let at_ (s : State) (n : Nat) : Prop := s.starting_ = true ∧ s.dome.boot.stage = n
  let next (s t : State) (n : Nat) : Prop := t.dome.boot.state = 0 ∧ t.dome.boot.stage = n ∧ t.reg (home .prog 0 8) = n - 1 ∧ t.flash = s.flash
    ∧ t.dome.fuses = s.dome.fuses
  (∀ s : State, Completes .coldRstNLow s (fun t => Cleared s t ∧ (s.dome.boot.update = none → Survives s t) ∧ (s.dome.pfw = false → t.regs = [])
      ∧ bit (t.reg (home .dom 0 0x10)) 3 = s.dome.pfw ∧ t.domeUp = false ∧ t.dome.vrOff = true ∧ t.dome.rails = []
      ∧ t.dome.boot.begun = s.dome.boot.begun ∧ t.pkg = {}))
    ∧ (∀ s : State, s.dome.boot.stage = 0 → s.dome.boot.cooling = false → s.dome.boot.update = none → Completes .startUp s (fun t =>
        t.dome.boot.state = 0 ∧ t.dome.boot.stage = 1 ∧ t.dome.boot.resetWaits = false ∧ t.reg (home .prog 0 0) = 0x12
        ∧ t.dome.smb = 0x68 + Config.smbStraps.toNat
        ∧ t = { s with dome := t.dome, regs := t.regs }))
    ∧ (∀ (s : State) (w : StartWork) (r : Running), at_ s 1 → s.dome.boot.resetWaits = false → s.dome.boot.refclk = true →
        imageCheck s.flash w.flashBytes s.dome.fuses s.dome.boot.begun = .ok r → Completes (.startUpStageEnd w) s (fun t => next s t 2
          ∧ t.mem = s.mem ∧ t.dome.boot.running = r ∧ t.dome.vrOff = false ∧ t.pkg.layout = bits (State.rec64 r.cfg 0) 0 2
          ∧ t.pkg.sizes = bits (State.rec64 r.cfg 4) 0 16 ∧ t.pkg.feed = bits (State.rec64 r.cfg 4) 16 8
          ∧ t.dome.mode = bits (State.rec64 r.cfg 0x14) 16 2))
    ∧ (∀ (s : State) (w : StartWork) (c d : Nat), at_ s 1 → s.dome.boot.resetWaits = false → s.dome.boot.refclk = true →
        imageCheck s.flash w.flashBytes s.dome.fuses s.dome.boot.begun = .error (c, d) →
        Completes (.startUpStageEnd w) s (fun t => InRecovery s t c d))
    ∧ (∀ (s : State) (w : StartWork), at_ s 2 → Completes (.startUpStageEnd w) s (fun t => next s t 3 ∧ t.mem = s.mem ∧ (∀ d, d < 68 → t.domOn d = true)
        ∧ ∀ h, h < 4 → (t.grp (128 + h) 0).live = true ∧ ∀ l, l < 32 → ((t.grp (128 + h) 0).thr l).pc = (w.hku[h]?).getD 0
            ∧ ((t.grp (128 + h) 0).thr l).alive = true))
    ∧ (∀ (s : State) (w : StartWork), at_ s 3 → (w.mismatch = none → Completes (.startUpStageEnd w) s (fun t => next s t 4 ∧ t.mem = s.mem))
        ∧ ∀ c r, w.mismatch = some (c, r) → Completes (.startUpStageEnd w) s (fun t => InRecovery s t 0x0A (c % 32)
            ∧ t.dome.boot.vector = r % 2 ^ 32))
    ∧ (∀ (s : State) (w : StartWork), at_ s 4 → (w.fails.findIdx? (fun n => decide (3 ≤ n)) = none → Completes (.startUpStageEnd w) s (fun t =>
            next s t 6 ∧ (∀ a, t.mem.get 0 a = if place a = .hbm then 0 else s.mem.get 0 a) ∧ (∀ a, place a = .hbm → t.peek a = 0)
            ∧ ∀ g, g < 8 → (t.port g).state = if s.torus (g / 2) = 1 then (s.port g).state else 1))
        ∧ ∀ k, w.fails.findIdx? (fun n => decide (3 ≤ n)) = some k → Completes (.startUpStageEnd w) s (fun t => InRecovery s t 0x0B (k % 12)))
    ∧ (∀ (s : State) (w : StartWork), at_ s 6 →
        let trained (t : State) : Prop := next s t 7 ∧ t.mem = s.mem ∧ ∀ n, n < 4 → s.pcxRole n = 1 →
          t.reg (home .pcx n 0x18) = (w.capacity[n]?).getD 0 ∧ t.cxlUp n = decide ((w.capacity[n]?).getD 0 ≠ 0)
        Completes (.startUpStageEnd w) s trained ∧ Completes (.startupPortTimeout w) s trained)
    ∧ (∀ (s : State) (w : StartWork), at_ s 7 → s.dome.boot.fresh = true → Completes (.startUpStageEnd w) s (fun t => next s t 8
        ∧ t.mem = s.mem ∧ t.dome.boot.fresh = false ∧ ∀ p, p < s.nParts → t.prtState p = if s.cfg 0 (4 + p) 1 = 0 then 3 else 0))
    ∧ (∀ (s : State) (w : StartWork), at_ s 8 → s.pkg.device.isSome = true → s.blocksPlaced w.blocks = true → Completes (.startUpStageEnd w) s (fun t =>
        t.dome.boot.state = 1 ∧ t.pkg.locked = true ∧ t.blocks = w.blocks ∧ t.dome.boot.epoch = s.dome.boot.epoch + 1 ∧ t.cat ≠ []
        ∧ t.reg (home .prog 0 8) = 8 ∧ ∀ c, c < 36 → t.domOn c = false))
    ∧ (∀ (s : State) (a : BitVec 7), at_ s 2 → Completes (.railRegulationTimeout a) s (fun t => InRecovery s t 8 a.toNat))
    ∧ (∀ (s : State) (h : Fin 4),
        (s.pkg.time < (s.unit (128 + h.val)).kickAt + 100000000 → Completes (.hkuWatchdogExpiry h) s (fun t => t = s))
        ∧ ((s.unit (128 + h.val)).kickAt + 100000000 ≤ s.pkg.time → at_ s 2 → Completes (.hkuWatchdogExpiry h) s (fun t => InRecovery s t 9 h.val))
        ∧ ((s.unit (128 + h.val)).kickAt + 100000000 ≤ s.pkg.time → ¬ at_ s 2 → s.domOn (64 + h.val) = true →
            Completes (.hkuWatchdogExpiry h) s (fun t => WarmReset s t 1)))
    ∧ (∀ s : State, (s.dome.rails = [] → Completes .railFault s (fun t => t = s))
        ∧ (s.dome.rails ≠ [] → s.dome.boot.state ≠ 2 →
            Completes .railFault s (fun t => WarmReset s t 2 ∧ t.dome.vrOff = true ∧ t.dome.rails = []))
        ∧ (s.dome.rails ≠ [] → s.dome.boot.state = 2 → s.dome.vrOff = false → Completes .railFault s (fun t =>
            InRecovery s t s.dome.boot.cause s.dome.boot.detail ∧ bits (t.reg (home .dom 0 0x10)) 8 3 = 2 ∧ t.dome.rails = [0x45, 0x49]))))
  ∧ (
  (∀ s : State, s.dome.boot.refclk = true → Completes .refclkLoss s (fun t => t.dome.boot.refclk = false ∧ t.dome.uncalibrated = true
      ∧ (∀ g, g < 8 → 1 ≤ (s.port g).state → (s.port g).state ≤ 3 → (t.port g).state = 4 ∧ (t.port g).cause = 2)
      ∧ (∀ n, n < 4 → (t.ethOf n).up = false) ∧ (s.snaps = [] → t.mem = s.mem)))
    ∧ (∀ s : State, s.dome.boot.refclk = false → Completes .refclkLoss s (fun t => t = s))
    ∧ (∀ s : State, Completes .refclkReturn s (fun t => t = { s with dome := { s.dome with boot := { s.dome.boot with refclk := true } } }))
    ∧ (∀ s : State, s.dome.boot.refclk = true → Completes .domOscCalibration s (fun t => t = { s with dome := { s.dome with uncalibrated := false } })))

/-- R479 to R481, R495: image updates. An accepted image erases the header sector; its end writes the sections and then the header where the image
passes its checks, and no header where it does not; one more update is BUSY, and under a sag none begins. In RECOVERY the recovery channel does the
same with its own messages, which leave with the addresses of R481, and writes each piece as it comes; a repeated SEQ repeats the reply. -/
def Obligations.ImageUpdates : Prop :=
  let erased (s t : State) : Prop := ∀ a, flashByte t.flash a = if a < 0x1000 then 0xFF else flashByte s.flash a
  let passes (s : State) (u : Update) : Prop := layoutOk (State.imageMap u.data []) u.data.length = true
    ∧ ∃ r, imageSections (State.imageMap u.data []) s.dome.fuses = .ok r
  let written (t : State) (u : Update) : Prop := ∀ i b, u.data[i]? = some b → flashByte t.flash i = b
  let still (s : State) : Prop := s.dome.boot.resetWaits = false ∧ s.dome.boot.coldWaits = false
  let here (s : State) : Prop := s.dome.boot.state = 2 ∧ s.domOn 56 = true
  let free (s : State) (seq : BitVec 16) : Prop := here s ∧ s.dome.boot.replies.find? (fun e => e.1 == seq.toNat) = none
  let frame (r : List Byte) : Output := .frame 0 9 ((leBytes 6 State.recoveryMac).reverse ++ (leBytes 16 State.recoveryIp).reverse
    ++ [BitVec.ofNat 8 (4793 / 256), BitVec.ofNat 8 4793] ++ r)
  let reply (s t : State) (kind : Nat) (seq : BitVec 16) (status v32 v64 : Nat) : Prop :=
    t.out = s.out ++ [frame (State.recoveryReply kind status seq.toNat v32 v64)]
      ∧ (seq.toNat, State.recoveryReply kind status seq.toNat v32 v64) ∈ t.dome.boot.replies
  (∀ (s : State) (l : List Byte), s.domeUp = true → s.dome.boot.update = none →
      (s.dome.sag = false → Completes (.pldmFirmwareUpdate l) s (fun t => erased s t
        ∧ t.dome.boot = { s.dome.boot with update := some ⟨.pldm, l.length, l⟩, begun := true } ∧ t.out = s.out ++ [.mctp 1 [0]]
        ∧ t = { s with flash := t.flash, dome := t.dome, regs := t.regs, out := t.out }))
      ∧ (s.dome.sag = true → Completes (.pldmFirmwareUpdate l) s (fun t => t = { s with out := s.out ++ [.mctp 1 [2]] })))
    ∧ (∀ (s : State) (l : List Byte), s.domeUp = true → s.dome.boot.update ≠ none →
        Completes (.pldmFirmwareUpdate l) s (fun t => t = { s with out := s.out ++ [.mctp 1 [1]] }))
    ∧ (∀ (s : State) (u : Update), s.dome.boot.update = some u → u.by_ = .pldm → still s → s.dome.boot.state ≠ 2 →
        (passes s u → Completes .imageWriteEnd s (fun t => written t u ∧ t.dome.boot = { s.dome.boot with update := none, begun := false }
            ∧ t.out = s.out ++ [.mctp 2 [0]] ∧ t.mem = s.mem))
        ∧ (layoutOk (State.imageMap u.data []) u.data.length = false → Completes .imageWriteEnd s (fun t =>
            (∀ a, a < 0x1000 → flashByte t.flash a = flashByte s.flash a) ∧ t.dome.boot = { s.dome.boot with update := none, begun := false }
            ∧ t.out = s.out ++ [.mctp 2 [2]] ∧ t.mem = s.mem)))
    ∧ (∀ (s : State) (seq : BitVec 16), free s seq →
        Completes (.recoveryHello seq) s (fun t => reply s t 1 seq 0 (s.dome.boot.cause * 2 ^ 8 + s.dome.boot.detail * 2 ^ 16) Config.serial.toNat
          ∧ t = { s with dome := t.dome, out := t.out })
        ∧ Completes (.recoveryProgress seq) s (fun t => reply s t 5 seq 0 (s.reg (home .prog 2 0x18)) (s.reg (home .prog 2 8))
          ∧ t = { s with dome := t.dome, out := t.out })
        ∧ ∀ len : W32, s.dome.boot.update = none → s.dome.sag = false → Completes (.recoveryBegin seq len) s (fun t => reply s t 2 seq 0 0 0
            ∧ erased s t ∧ t.dome.boot.update = some ⟨.recovery, len.toNat, []⟩ ∧ t.dome.boot.begun = true ∧ t.mem = s.mem))
    ∧ (∀ (s : State) (seq : BitVec 16) (off : W64) (l : List Byte) (u : Update), free s seq → s.dome.boot.update = some u → u.by_ = .recovery →
        (off.toNat = u.data.length → l ≠ [] → l.length ≤ 1024 → off.toNat + l.length ≤ u.length →
          Completes (.recoveryData seq off l) s (fun t => reply s t 3 seq 0 0 0 ∧ t.dome.boot.update = some { u with data := u.data ++ l }
            ∧ (∀ i b, 0x1000 ≤ off.toNat + i → l[i]? = some b → flashByte t.flash (off.toNat + i) = b)
            ∧ (∀ a, a < 0x1000 ∨ (a < off.toNat) → flashByte t.flash a = flashByte s.flash a) ∧ t.mem = s.mem))
        ∧ (off.toNat ≠ u.data.length → Completes (.recoveryData seq off l) s (fun t => reply s t 3 seq 2 0 0 ∧ t.dome.boot.update = some u
            ∧ t.flash = s.flash ∧ t.mem = s.mem))
        ∧ (passes s u → still s → (∀ i b, 0x1000 ≤ i → u.data[i]? = some b → flashByte s.flash i = b) →
          Completes (.recoveryEnd seq) s (fun t => reply s t 4 seq 0 0 0 ∧ written t u
            ∧ t.dome.boot.update = none ∧ t.dome.boot.state = 0 ∧ t.dome.boot.stage = 1 ∧ t.mem = s.mem)))
    ∧ (∀ (c : BitVec 16 → Instr), (c = .recoveryHello ∨ (∃ len, c = (.recoveryBegin · len)) ∨ (∃ off l, c = (.recoveryData · off l))
          ∨ c = .recoveryEnd ∨ c = .recoveryProgress) →
        ∀ (s : State) (seq : BitVec 16) (r : List Byte), here s → s.dome.boot.replies.find? (fun e => e.1 == seq.toNat) = some (seq.toNat, r) →
          Completes (c seq) s (fun t => t = { s with out := s.out ++ [frame r] }))

/-- R496 to R498: a request that the Dome refuses before it looks closely is answered with the code, and nothing else changes.

R425, R429 to R434, R436, R461, R462, R487 to R490, R497, R498, R501: what each accepted request of the mailbox does, and the refusal of an
argument that is out of its range. A share is answered once it is in force at every point, and a cold reset waits for an image write under way. -/
def Obligations.MailboxRequests : Prop :=
  (
  ∀ (c : Option Bmc → Instr) (kind : Nat), (c, kind) ∈ [(Instr.setMode, 1), (.setCap, 2), (.setShare, 3), (.setQuota, 4), (.partitionReset, 5),
      (.partitionDisable, 6), (.partitionEnable, 7), (.warmReset, 8), (.coldReset, 9), (.correlate, 10), (.setCal, 11), (.clearCal, 12)] →
    ∀ (s : State) (b : Option Bmc) (r : DomReq) (code : Nat), code ≠ 0 → Asked s kind b r code → Completes (c b) s (fun t =>
      Answered t r code 0 ∧ t = { s with out := t.out, regs := t.regs, dome := { s.dome with reqs := [], open_ := t.dome.open_ } }))
  ∧ (
  let only (s t : State) : Prop := t.mem = s.mem ∧ t.groups = s.groups ∧ t.ctx = s.ctx ∧ t.flash = s.flash
  let shareOk (s : State) (r : DomReq) : Prop :=
    let o := 0x40 + 8 * (4 * bits r.a0 0 3 + bits r.a0 4 2)
    bits r.a0 0 3 ≤ 4 ∧ 1 ≤ bits r.a1 0 8 ∧ s.cfg o 16 8 ≤ bits r.a1 0 8 ∧ bits r.a1 0 8 ≤ s.cfg o 24 8 ∧ s.cfg o 32 7 ≤ bits r.a1 8 7
      ∧ bits r.a1 8 7 ≤ s.cfg o 40 7
      ∧ State.total (((List.range s.nParts).filter (· != bits r.a0 4 2)).map (fun q => at4 (s.floors (bits r.a0 0 3)) q)) + bits r.a1 8 7 ≤ 100
  let takes (c : Option Bmc → Instr) (kind : Nat) (ok : State → DomReq → Prop) (P : State → DomReq → State → Prop) : Prop :=
    ∀ (s : State) (b : Option Bmc) (r : DomReq), Asked s kind b r 0 → ok s r → Completes (c b) s (P s r)
  takes .setMode 1 (fun s r => bits r.a0 0 2 ≠ 3 ∧ s.cfg 0x14 (12 + bits r.a0 0 2) 1 = 1) (fun s r t =>
      t.dome = { s.dome with reqs := [], newMode := some (bits r.a0 0 2, r), volt := t.dome.volt, clock := t.dome.clock }
        ∧ bit (t.reg (home .dom 0 0x10)) 2 = true ∧ only s t
        ∧ (if s.dome.clock < clusterMhz (bits r.a0 0 2) then t.dome.clock = s.dome.clock ∧ t.dome.volt = clusterMv (bits r.a0 0 2)
            ∧ t.out = s.out ++ [.avs (clusterMv (bits r.a0 0 2))]
          else t.dome.clock = clusterMhz (bits r.a0 0 2) ∧ t.dome.volt = s.dome.volt ∧ t.out = s.out))
    ∧ takes .setMode 1 (fun s r => bits r.a0 0 2 = 3 ∨ s.cfg 0x14 (12 + bits r.a0 0 2) 1 = 0) (fun s r t =>
        Answered t r 2 0 ∧ t.dome.newMode = none ∧ only s t)
    ∧ (∀ (s : State) (m : Nat) (r : DomReq), s.dome.newMode = some (m, r) → s.dome.reqs = [] → Completes .modeChangeEnd s (fun t =>
        t.dome.mode = m ∧ t.dome.newMode = none ∧ Answered t r 0 0 ∧ only s t
          ∧ (if s.dome.clock < clusterMhz m then t.dome.clock = clusterMhz m ∧ t.dome.volt = s.dome.volt
            else t.dome.clock = s.dome.clock ∧ t.dome.volt = clusterMv m)
          ∧ bits (t.reg (home .dom 0 0x14)) 0 16 = if s.dome.cap = 0 then modeBudget m else min (modeBudget m) s.dome.cap))
    ∧ takes .setCap 2 (fun _ r => bits r.a0 0 16 = 0 ∨ 600 ≤ bits r.a0 0 16 ∧ bits r.a0 0 16 ≤ 1800) (fun s r t =>
        t.dome.cap = bits r.a0 0 16 ∧ bits (t.reg (home .dom 0 0x14)) 16 16 = bits r.a0 0 16 ∧ Answered t r 0 0 ∧ only s t)
    ∧ takes .setCap 2 (fun _ r => bits r.a0 0 16 ≠ 0 ∧ (bits r.a0 0 16 < 600 ∨ 1800 < bits r.a0 0 16)) (fun s r t =>
        t.dome.cap = s.dome.cap ∧ Answered t r 2 0 ∧ only s t)
    ∧ takes .setShare 3 (fun s r => shareOk s r ∧ s.pointsOf (bits r.a0 0 3) = []) (fun s r t =>
        t.reg (State.shareReg (bits r.a0 4 2) (bits r.a0 0 3)) = bits r.a1 0 8 + bits r.a1 8 7 * 2 ^ 8 ∧ Answered t r 0 0
          ∧ t.dome.changes = s.dome.changes ∧ only s t)
    ∧ takes .setShare 3 (fun s r => shareOk s r ∧ s.pointsOf (bits r.a0 0 3) ≠ []) (fun s r t =>
        t.reg (State.shareReg (bits r.a0 4 2) (bits r.a0 0 3)) = bits r.a1 0 8 + bits r.a1 8 7 * 2 ^ 8
          ∧ t = { s with regs := t.regs, dome := { s.dome with reqs := [], changes := s.dome.changes ++
            [⟨r, bits r.a0 4 2, bits r.a0 0 3, bits r.a1 0 8 + bits r.a1 8 7 * 2 ^ 8, s.pointsOf (bits r.a0 0 3)⟩] } })
    ∧ takes .setShare 3 (fun s r => ¬ shareOk s r) (fun s r t => Answered t r 2 0 ∧ only s t)
    ∧ takes .setQuota 4 (fun s r => bits r.a1 0 28 ≤ (s.hbmRange (bits r.a0 0 2)).2 / 65536) (fun s r t =>
        t.reg (home .prt (bits r.a0 0 2) 0x18) = bits r.a1 0 28 ∧ Answered t r 0 0 ∧ only s t)
    ∧ takes .setQuota 4 (fun s r => (s.hbmRange (bits r.a0 0 2)).2 / 65536 < bits r.a1 0 28) (fun s r t => Answered t r 2 0 ∧ only s t)
    ∧ takes .partitionReset 5 (fun s r => s.prtState (bits r.a0 0 2) ≠ 3 ∧ s.actOf (bits r.a0 0 2) = none) (fun s r t =>
        t.prtState (bits r.a0 0 2) = 4 ∧ t.hasCtx (bits r.a0 0 2) = false
          ∧ (∃ a, t.actOf (bits r.a0 0 2) = some a ∧ a.kind = .reset ∧ a.scrubbing = true ∧ a.answer = [r]) ∧ t.flash = s.flash)
    ∧ takes .partitionDisable 6 (fun s r => s.prtState (bits r.a0 0 2) ≠ 3 ∧ s.actOf (bits r.a0 0 2) = none) (fun s r t =>
        t.prtState (bits r.a0 0 2) = 1 ∧ (∀ st, st < 4 → (t.str (bits r.a0 0 2) st).draining = true)
          ∧ (∃ a, t.actOf (bits r.a0 0 2) = some a ∧ a.kind = .disable ∧ a.scrubbing = false ∧ a.answer = [r] ∧ a.began = s.pkg.time) ∧ only s t)
    ∧ takes .partitionEnable 7 (fun s r => s.prtState (bits r.a0 0 2) = 3) (fun s r t =>
        t.prtState (bits r.a0 0 2) = 0 ∧ t.dome.disabled.contains (bits r.a0 0 2) = false ∧ Answered t r 0 0 ∧ t.mem = s.mem)
    ∧ (∀ (c : Option Bmc → Instr) (kind : Nat), (c, kind) ∈ [(Instr.partitionReset, 5), (.partitionDisable, 6)] →
        takes c kind (fun s r => s.prtState (bits r.a0 0 2) = 3) (fun s r t => Answered t r 5 0 ∧ only s t))
    ∧ takes .partitionEnable 7 (fun s r => s.prtState (bits r.a0 0 2) ≠ 3) (fun s r t => Answered t r 5 0 ∧ only s t)
    ∧ takes .warmReset 8 (fun s _ => s.dome.boot.cooling = false ∧ s.dome.boot.state ≠ 2) (fun s r t => WarmReset s t 5
        ∧ (r.who = 4 → .mailbox 4 r.kind 0 r.seq 0 ∈ t.out))
    ∧ takes .warmReset 8 (fun s _ => s.dome.boot.cooling = true ∨ s.dome.boot.state = 2) (fun s r t => Answered t r 5 0 ∧ only s t)
    ∧ takes .coldReset 9 (fun s _ => s.dome.boot.update ≠ none) (fun s r t => Answered t r 0 0 ∧ only s t
        ∧ t.dome.boot = { s.dome.boot with coldWaits := true })
    ∧ takes .coldReset 9 (fun s _ => s.dome.boot.update = none) (fun s r t => Cleared s t ∧ Survives s t ∧ t.dome.boot.stage = 1 ∧ t.dome.boot.state = 0
        ∧ t.dome.vrOff = true ∧ .mailbox 4 r.kind 0 r.seq 0 ∈ t.out)
    ∧ takes .correlate 10 (fun _ r => r.who ≤ 4) (fun s r t => Answered t r 0 ((s.dome.markSeq + 1) % 2 ^ 32)
        ∧ t.dome.markSeq = (s.dome.markSeq + 1) % 2 ^ 32 ∧ only s t
        ∧ (r.who < 4 → t.reg (home .dom r.who 0x208) = s.pkg.time % 2 ^ 64
            ∧ ∀ i, i < 74 → t.reg (home .dom r.who (0x400 + 8 * i)) = if s.islandOn i then s.cycle i % 2 ^ 63 + 2 ^ 63 else 0))
    ∧ takes .setCal 11 (fun _ r => (toSigned 16 r.a1).natAbs ≤ State.calBound (bits r.a0 0 2) ∧ (toSigned 32 r.a2).natAbs ≤ 20000)
        (fun s r t => t.dome.cal = s.dome.cal.set (bits r.a0 0 2) (bits r.a1 0 16, bits r.a2 0 32) ∧ Answered t r 0 0 ∧ only s t)
    ∧ takes .setCal 11 (fun _ r => State.calBound (bits r.a0 0 2) < (toSigned 16 r.a1).natAbs ∨ 20000 < (toSigned 32 r.a2).natAbs)
        (fun s r t => t.dome.cal = s.dome.cal ∧ Answered t r 2 0 ∧ only s t)
    ∧ takes .clearCal 12 (fun _ _ => True) (fun s r t =>
        t.dome.cal = s.dome.cal.set (bits r.a0 0 2) (0, 0) ∧ Answered t r 0 0 ∧ only s t))

/-- R429, R440, R490: a power evaluation while the Dome runs. The grants are R426's of the effective budget less the shared blocks, or none where those
alone exceed it; each partition shows its draw averaged over the last ten evaluations, rounded one way or the other where it is no whole number, and its
grant; those granted less than their demand are held and counted; the limit stands while the draw is above the budget, each 100 µs is counted, and its
start is posted; the calibrated draw is shown. R491 to R493: a reading shows every sensor; a die is hot from its throttle point on and limited from its
limit until it is no longer hot; a sensor at its trip point takes every domain down, and a Dome not in RECOVERY resets the package once every sensor has
cooled. R414, R494, R495: a sag is indicated by three samples below the threshold or by PFW_N: it is counted, an image update stops, and so do the flash
layers of SAVEs; it is cleared half a volt above the threshold. R484: droops stretch their islands. -/
def Obligations.PowerAndSensors : Prop :=
  let limit (k : Nat) : Int := if hbmDie (dieOf k) then 105 * 16 else 115 * 16
  let counted (s t : State) (off n : Nat) : Prop :=
    ∀ p, p < 4 → t.reg (home .dom p off) % 2 ^ 48 = (s.reg (home .dom p off) + n) % 2 ^ 48
  let quiet (s : State) (p : Nat) : Prop := (s.ring p).set = false ∧ (s.ring p).dropped = 0 ∧ (s.ring p).queue.length < 256
  let posted (s t : State) (type d0 d1 : Nat) : Prop := ∀ p, p < s.nParts → s.prtState p ≠ 3 → quiet s p →
    ∃ e, (t.ring p).queue = (s.ring p).queue ++ [e] ∧ e.type = type ∧ e.code = 0 ∧ e.d0 = d0 ∧ e.d1 = d1
  let feed (s t : State) (mv : Nat) : Prop :=
    t.reg (home .dom 0 0x1C) = putBits (s.reg (home .dom 0 0x1C)) 0 16 (ofSigned 16 (calibrate (s.calOf 2) mv))
  (∀ (s : State) (draw shared : BitVec 16) (draws demands : List (BitVec 16)), s.domeUp = true → s.pkg.layout < 3 →
      (∀ c ∈ s.dome.changes, c.points ≠ [] ∧ State.ShareChange.awaits c 4 0 = false) →
      let beyond := decide (s.effective < shared.toNat)
      let g := if beyond then [0, 0, 0, 0]
        else arbitrate (s.effective - shared.toNat) (s.demandOf (demands.map BitVec.toNat)) (s.weights 4) (s.floors 4)
      let lim := beyond || (s.dome.powerLimit && decide (s.effective < draw.toNat))
      let kept := (draws.map BitVec.toNat :: s.dome.draws).take 10
      let short (p : Nat) : Bool := s.demands p && decide (at4 g p < at4 (demands.map BitVec.toNat) p)
      Completes (.powerEvaluation draw shared draws demands) s (fun t =>
        t = { s with regs := t.regs, rings := t.rings, out := t.out, eth := t.eth, shares := t.shares, free := t.free
                     dome := { s.dome with draws := kept, powerLimit := lim, held := (List.range s.nParts).filter short } }
        ∧ (∀ p, p < s.nParts →
            let sum := State.total (kept.map (fun d => at4 d p))
            ∃ a, (a = sum / kept.length ∨ (sum % kept.length ≠ 0 ∧ a = sum / kept.length + 1))
              ∧ t.reg (home .prt p 0x20) = a % 2 ^ 16 + at4 g p % 2 ^ 16 * 2 ^ 16)
        ∧ (∀ p, p < s.nParts → t.reg (home .prt p 0x118) % 2 ^ 48 = (s.reg (home .prt p 0x118) + b2n (short p)) % 2 ^ 48)
        ∧ bit (t.reg (home .dom 0 0x10)) 5 = lim ∧ counted s t 0x308 (if lim then 100 else 0)
        ∧ t.reg (home .dom 0 0x18) = ofSigned 16 (calibrate (s.calOf 3) draw.toNat)
        ∧ (lim = true → s.dome.powerLimit = false → posted s t 0x0504 0 (draw.toNat + s.effective * 2 ^ 16))
        ∧ ((lim = false ∨ s.dome.powerLimit = true) → t.rings = s.rings)))
    ∧ (∀ (s : State) (draw shared : BitVec 16) (draws demands : List (BitVec 16)), s.domeUp = false →
        Completes (.powerEvaluation draw shared draws demands) s (fun t => t = s))
    ∧ (∀ (s : State) (l : List (BitVec 16)),
        let seen := (l.take 73).map BitVec.toInt
        let from_ (d : Nat) (v : Int) : Prop := ∃ k x, k < 73 ∧ l[k]? = some x ∧ dieOf k = d ∧ v ≤ x.toInt
        let hot (d : Nat) : Prop := from_ d (if hbmDie d then 95 * 16 else 100 * 16)
        let shown (s t : State) : Prop := ∀ k x, k < 73 → l[k]? = some x → t.reg (home .dom 0 (0x680 + 4 * k))
          = ofSigned 16 (calibrate (s.calOf (if hbmDie (dieOf k) then 1 else 0)) x.toInt)
        (s.domeUp = false → Completes (.thermalReading l) s (fun t => t = s))
        ∧ (s.dome.boot.cooling = true → Completes (.thermalReading l) s (fun t => shown s t
            ∧ t = { s with regs := t.regs, dome := { s.dome with temps := seen } }))
        ∧ (s.domeUp = true → s.dome.boot.cooling = false → (∀ k x, k < 73 → l[k]? = some x → x.toInt < limit k) →
            Completes (.thermalReading l) s (fun t => shown s t
              ∧ t = { s with regs := t.regs, rings := t.rings, out := t.out, eth := t.eth, shares := t.shares
                             dome := { s.dome with temps := seen, hot := t.dome.hot, limited := t.dome.limited, stretch := t.dome.stretch } }
              ∧ (∀ d, d < 18 → (t.dome.hot.contains d = true ↔ hot d)
                ∧ (t.dome.limited.contains d = true ↔
                    from_ d (if hbmDie d then 100 * 16 else 105 * 16) ∨ (s.dome.limited.contains d = true ∧ hot d)))
              ∧ bit (t.reg (home .dom 0 0x10)) 4 = (!t.dome.hot.isEmpty || !t.dome.limited.isEmpty)
              ∧ counted s t 0x300 (if t.dome.hot.isEmpty && t.dome.limited.isEmpty then 0 else 100)))
        ∧ ∀ (k : Nat) (x : BitVec 16), k < 73 → l[k]? = some x → limit k ≤ x.toInt → s.domeUp = true → s.dome.boot.cooling = false →
            Completes (.thermalReading l) s (fun t => PowerLost s t ∧ Survives s t ∧ t.pkg.domains = 0
              ∧ (∀ g, g < 8 → t.port g = if (s.port g).state = 0 then {} else { state := 4, cause := 10 })
              ∧ t.dome.boot = (if s.dome.boot.state = 2 then { s.dome.boot with cooling := true }
                  else { s.dome.boot with state := 0, stage := 0, cooling := true })
              ∧ t.dome.vrOff = true ∧ t.dome.temps = seen ∧ bits (t.reg (home .dom 0 0x10)) 8 3 = 4))
    ∧ (∀ s : State, (s.dome.boot.cooling = false ∨ s.coolEnough = false → Completes .tripCooldownEnd s (fun t => t = s))
        ∧ (s.dome.boot.cooling = true → s.coolEnough = true → s.dome.boot.state ≠ 2 →
            Completes .tripCooldownEnd s (fun t => WarmReset s t 4 ∧ t.dome.boot.cooling = false))
        ∧ (s.dome.boot.cooling = true → s.coolEnough = true → s.dome.boot.state = 2 → Completes .tripCooldownEnd s (fun t =>
            t.dome.boot = { s.dome.boot with cooling := false } ∧ t.dome.vrOff = false ∧ (∀ d, t.domOn d = (s.domOn d || d == 56))
            ∧ t = { s with dome := t.dome, pkg := { s.pkg with domains := t.pkg.domains }, out := t.out })))
    ∧ (∀ (s : State) (a b c : BitVec 16),
        let below := a.toNat < s.feedThresh ∧ b.toNat < s.feedThresh ∧ c.toNat < s.feedThresh
        (¬ below ∨ s.dome.sag = true → Completes (.supplySag a b c) s (fun t => feed s t c.toNat ∧ t = { s with regs := t.regs }))
        ∧ (below → s.dome.sag = false → s.dome.boot.coldWaits = false → Completes (.supplySag a b c) s (fun t =>
            feed s t c.toNat ∧ bit (t.reg (home .dom 0 0x10)) 3 = true ∧ counted s t 0x318 1
            ∧ posted s t 0x0505 (b2n s.dome.pfw + 2) c.toNat
            ∧ t = { s with regs := t.regs, rings := t.rings, out := t.out, eth := t.eth, shares := t.shares, snaps := t.snaps, flash := t.flash
                           free := t.free, dome := { s.dome with sag := true, boot := t.dome.boot } }
            ∧ t.dome.boot.update = none ∧ (s.dome.boot.update = none → t.flash = s.flash ∧ t.dome.boot = s.dome.boot ∧ t.free = s.free))))
    ∧ (∀ (s : State) (mv : BitVec 16),
        (s.dome.boot.coldWaits = false → Completes (.pfwNAssert mv) s (fun t => t.dome.pfw = true ∧ t.dome.sag = true ∧ t.dome.boot.update = none
          ∧ feed s t mv.toNat ∧ counted s t 0x318 (b2n (!s.dome.sag))
          ∧ t = { s with regs := t.regs, rings := t.rings, out := t.out, eth := t.eth, shares := t.shares, snaps := t.snaps, flash := t.flash
                         free := t.free, dome := { s.dome with pfw := true, sag := true, boot := t.dome.boot } }
          ∧ ∀ p v x, p < 4 → (s.snapOf p).saves = [v] → v.running = true → v.parts = [x] → x.layer = 1 → x.res = none → x.phase ≠ 0 →
              (t.snapOf p).saves = [{ v with parts := [{ x with busy := false, sagged := x.sagged || !s.dome.sag, res := some (.failed
                (if x.busy = true ∧ (x.phase = 3 ∨ x.phase = 4 ∨ x.phase = 5 ∨ x.phase = 7) then 0x0B01 else 0x0A01)) }] }]))
        ∧ (s.dome.sag = true → s.dome.pfw = false → s.feedThresh + 500 ≤ mv.toNat → Completes (.supplyRestored mv) s (fun t =>
            t = { s with regs := t.regs, rings := t.rings, out := t.out, eth := t.eth, shares := t.shares, dome := { s.dome with sag := false } }
            ∧ feed s t mv.toNat ∧ bit (t.reg (home .dom 0 0x10)) 3 = false ∧ posted s t 0x0506 0 mv.toNat))
        ∧ (s.dome.sag = false ∨ s.dome.pfw = true ∨ mv.toNat < s.feedThresh + 500 →
            Completes (.supplyRestored mv) s (fun t => feed s t mv.toNat ∧ t = { s with regs := t.regs })))
    ∧ (∀ s : State, Completes .pfwNDeassert s (fun t => t = { s with dome := { s.dome with pfw := false } }))
    ∧ (∀ (s : State) (i : Fin 74),
        Completes (.supplyDroop i) s (fun t => t = { s with dome := { s.dome with droop := t.dome.droop } }
          ∧ t.dome.droop.contains i.val = true ∧ ∀ j, j ≠ i.val → t.dome.droop.contains j = s.dome.droop.contains j)
        ∧ Completes (.supplyDroopEnd i) s (fun t => t = { s with dome := { s.dome with droop := t.dome.droop } }
          ∧ t.dome.droop.contains i.val = false ∧ ∀ j, j ≠ i.val → t.dome.droop.contains j = s.dome.droop.contains j))

/-- R506, R508 to R513, R516, R519 to R521: the Bolometer's registers. A sample adds its energy to the legal register, or to the reverse register where
it is negative, and before the seal to neither; the operational register takes the energy under the user calibration. An energy that is a whole number of
units is exact, another rounded one way or the other, and with no shunt resistance the rules give none. Each 32,000 samples the average power is formed. A
commit stores the volatile state with its count, and a Dome that is up shows its reading in every partition; none is made during a sag, whose end makes
one and logs it; without its supply the Bolometer keeps what the last commit stored. -/
def Obligations.BolometerEnergy : Prop :=
  let whole (x : Rat) (n : Int) : Prop := if x.den = 1 then n = x.num else n = x.floor ∨ n = x.floor + 1
  let shows (t : State) : Prop := ∀ p, p < 4 → t.reg (home .bol p 0x10) = t.bol.readSeq ∧ t.reg (home .bol p 0x14) = bolFlags t.bol + 16
    ∧ t.reg (home .bol p 0x18) = t.bol.now.energy % 2 ^ 64 ∧ t.reg (home .bol p 0x20) = t.bol.op % 2 ^ 64
    ∧ t.reg (home .bol p 0x28) = t.bol.mw % 2 ^ 32
    ∧ ∀ i, i < 32 → t.reg (home .bol p (0x100 + 4 * i)) = ofLeBytes (((reading t.bol t.bol.readSeq 0).drop (4 * i)).take 4)
  (∀ (s : State) (k f : BitVec 24) (t : BitVec 16), s.bol.aux = true →
      Completes (.bolSample k f t) s (fun u => ∃ e o : Int,
        (s.bol.shunt ≠ 0 →
          let w := bolPower k.toNat f.toNat t.toNat s.bol.shunt
          whole (w * 134217728) e ∧ whole (userPower s.bol.userGain s.bol.userOffset w * 134217728) o)
        ∧ u = { s with free := u.free, bol := { s.bol with now := u.bol.now, op := u.bol.op, opRest := u.bol.opRest, sum := u.bol.sum
                                                           mw := u.bol.mw, samples := s.bol.samples + 1 } }
        ∧ (u.bol.op, u.bol.opRest) = addEnergy s.bol.op s.bol.opRest o
        ∧ (s.bol.sealed_ = false → u.bol.now = s.bol.now)
        ∧ (s.bol.sealed_ = true → 0 ≤ e →
            let a := addEnergy s.bol.now.energy s.bol.now.rest e
            u.bol.now = { s.bol.now with energy := a.1, rest := a.2 })
        ∧ (s.bol.sealed_ = true → e < 0 →
            let a := addEnergy s.bol.now.reverse s.bol.now.reverseRest (-e)
            u.bol.now = { s.bol.now with reverse := a.1, reverseRest := a.2 })
        ∧ (if (s.bol.samples + 1) % 32000 = 0 then
            u.bol.sum = 0 ∧ ∃ n, whole (((s.bol.sum + o : Int) : Rat) / 2 ^ 32) n ∧ u.bol.mw = ofSigned 32 n
          else u.bol.sum = s.bol.sum + o ∧ u.bol.mw = s.bol.mw)))
    ∧ (∀ (s : State) (k f : BitVec 24) (t : BitVec 16), s.bol.aux = false → Completes (.bolSample k f t) s (fun u => u = s))
    ∧ (∀ s : State, s.bol.aux = true → s.bol.sag = false → s.dome.sag = false → Completes .bolCommit s (fun t =>
        t.bol = { s.bol with now := { s.bol.now with commit := (s.bol.now.commit + 1) % 2 ^ 32 }, saved := t.bol.now
                             readSeq := (s.bol.readSeq + 1) % 2 ^ 32 }
        ∧ t = { s with bol := t.bol, regs := t.regs } ∧ (s.domeUp = false → t.regs = s.regs) ∧ (s.domeUp = true → shows t)
        ∧ ∀ k, k / 2 ^ 36 ≠ 0x16 → t.regs.get none k = s.regs.get none k))
    ∧ (∀ s : State, (s.bol.aux = false ∨ s.bol.sag = true ∨ s.dome.sag = true) → Completes .bolCommit s (fun t => t = s))
    ∧ (∀ s : State, Completes .bolSagAssert s (fun t => t = if s.bol.aux = true ∧ s.dome.sag = true ∧ s.bol.sag = false then
        { s with bol := { s.bol with sag := true, sagSince := s.bol.samples } } else s))
    ∧ (∀ s : State, s.bol.aux = true → s.dome.sag = false → s.bol.sag = true → Completes .bolSagClear s (fun t =>
        t.bol.sag = false ∧ t.bol.saved = { s.bol.now with commit := (s.bol.now.commit + 1) % 2 ^ 32 } ∧ t.bol.dropped = 0
        ∧ t.bol.readSeq = (s.bol.readSeq + 1) % 2 ^ 32
        ∧ t.bol.now.log.getLast? = some ⟨s.bol.now.nextSeq, 9, min s.bol.dropped 0xFFFF, s.bol.now.energy, (s.bol.now.commit + 1) % 2 ^ 32,
            (s.bol.samples - s.bol.sagSince) / 32000⟩
        ∧ t.bol = { s.bol with now := { s.bol.now with commit := (s.bol.now.commit + 1) % 2 ^ 32, log := t.bol.now.log
                                                       nextSeq := s.bol.now.nextSeq + 1 }
                               saved := t.bol.saved, sag := false, dropped := 0, readSeq := t.bol.readSeq }
        ∧ t = { s with bol := t.bol, regs := t.regs } ∧ (s.domeUp = false → t.regs = s.regs)
        ∧ (s.domeUp = true → ∀ p, p < 4 → t.reg (home .bol p 0x10) = t.bol.readSeq
            ∧ t.reg (home .bol p 0x18) = s.bol.now.energy % 2 ^ 64 ∧ bit (t.reg (home .bol p 0x14)) 4 = true)))
    ∧ (∀ s : State, (s.bol.aux = false ∨ s.dome.sag = true ∨ s.bol.sag = false) → Completes .bolSagClear s (fun t => t = s))
    ∧ (∀ s : State, Completes .bolAuxLoss s (fun t =>
        t = { s with bol := { s.bol with aux := false, rx := [] }, out := s.out ++ if sealLevel s.bol then [.pin 2 0] else [] }))
    ∧ (∀ s : State, s.bol.aux = true → Completes .auxRestore s (fun t => t = s))
    ∧ (∀ s : State, s.bol.aux = false → Completes .auxRestore s (fun t => t.bol.aux = true ∧ t.bol.saved = s.bol.saved
        ∧ t.bol.shunt = s.bol.shunt ∧ t.bol.sealed_ = s.bol.sealed_ ∧ t.bol.op = 0 ∧ t.bol.opRest = 0 ∧ t.bol.rx = [] ∧ t.bol.sag = s.dome.sag
        ∧ t.bol.now = { s.bol.saved with log := t.bol.now.log, nextSeq := s.bol.saved.nextSeq + 1 }
        ∧ t.bol.now.log.getLast? = some ⟨s.bol.saved.nextSeq, 3, 0, s.bol.saved.energy, s.bol.saved.commit, 0⟩
        ∧ t = { s with bol := t.bol, out := s.out ++ if s.bol.sealed_ then [.pin 2 1] else [] }))

/-- R507, R508, R514, R515, R518, R520, R521: the Bolometer's events and its UART. Each change of the chain is logged once; a frame is found behind its
0x7E by its length and CRC, a partial one is held until more bytes or a silence of 10 ms come, and one with a bad CRC is ignored; a malformed frame is
answered as such and an unpowered Bolometer answers nothing; readings, entries and the identity leave with their data; the shunt is set within its
bounds until it is sealed, once and for all. -/
def Obligations.BolometerEventsAndUart : Prop :=
  let logs (s t : State) (kind detail value : Nat) : Prop :=
    t.bol.now.log.getLast? = some (bolEntry s.bol kind detail value) ∧ t.bol.now.nextSeq = s.bol.now.nextSeq + 1
      ∧ t.bol.now.energy = s.bol.now.energy ∧ t.bol.saved = s.bol.saved
  let replies (s t : State) (cmd status : Nat) (l : List Byte) : Prop :=
    t.out = (s.uartReply cmd status l).out ∧ t = { s with bol := t.bol, out := t.out }
  let on (s : State) : Prop := s.bol.aux = true ∧ s.bol.sag = false
  let frame (cmd : Nat) (l : List Byte) : List Byte :=
    let b := leBytes 2 (l.length + 1) ++ leBytes 1 cmd ++ l
    leBytes 1 0x7E ++ b ++ leBytes 4 (crc32 b)
  let hears (s u : State) (bytes : List Byte) (cmd : Nat) (l : List Byte) : Prop :=
    ∃ rest, State.uartFrame (s.bol.rx ++ bytes) = some (some (cmd, l), rest) ∧ u = s.setRx rest
  (∀ (cmd : Nat) (l rest : List Byte), cmd < 256 → l.length < 65535 →
      State.uartFrame (frame cmd l ++ rest) = some (some (cmd, l), rest))
    ∧ (∀ (s : State) (start : Bool), on s →
      (s.bol.clip ≠ start → Completes (.overRange start) s (fun t => t.bol.clip = start ∧ logs s t 4 (b2n start) 0
        ∧ t = { s with bol := t.bol }))
      ∧ (s.bol.back ≠ start → Completes (.reverse start) s (fun t => t.bol.back = start ∧ logs s t 5 (b2n start) 0
        ∧ t = { s with bol := t.bol }))
      ∧ (s.bol.fault ≠ start → Completes (.chainFault start) s (fun t => t.bol.fault = start ∧ (start = true → logs s t 6 0 0)
        ∧ (start = false → t.bol.now = s.bol.now)
        ∧ t = { s with bol := t.bol, out := s.out ++ if s.bol.sealed_ then [.pin 2 (b2n (!start))] else [] })))
    ∧ (∀ s : State, Completes .bolSilenceTimeout s (fun t => t = { s with regs := t.regs }
        ∧ ∀ p, p < 4 → t.reg (home .bol p 0x14) = s.reg (home .bol p 0x14) % 16))
    ∧ (∀ (s : State) (l : List Byte), Completes (.uartFrameTimeout l) s (fun t =>
        t = if State.uartFrame (s.bol.rx ++ l) = none then s.setRx [] else s))
    ∧ (∀ (c : List Byte → Instr) (cmd n : Nat), (c, cmd, n) ∈ [(Instr.read, 1, 8), (.log, 2, 5), (.identity, 3, 0), (.shuntSet, 4, 4), (.shuntSeal, 5, 4),
          (.calSet, 6, 8)] → ∀ (s : State) (l : List Byte),
        (s.bol.aux = false → Completes (c l) s (fun t => t = s))
        ∧ (s.bol.aux = true → State.uartFrame (s.bol.rx ++ l) = none → Completes (c l) s (fun t => t = s.setRx (s.bol.rx ++ l)))
        ∧ (∀ rest, s.bol.aux = true → State.uartFrame (s.bol.rx ++ l) = some (none, rest) → Completes (c l) s (fun t => t = s.setRx rest))
        ∧ (∀ u p, s.bol.aux = true → hears s u l cmd p → p.length ≠ n → Completes (c l) s (fun t => t = u.uartReply cmd 2 []))
        ∧ (∀ u k p, s.bol.aux = true → hears s u l k p → (k < 1 ∨ 6 < k) → Completes (c l) s (fun t =>
            ∃ status, (status = 1 ∨ status = 2) ∧ t = { u.uartReply k status [] with free := t.free })))
    ∧ (∀ (s u : State) (bytes l : List Byte), on s →
        (hears s u bytes 1 l → l.length = 8 → Completes (.read bytes) s (fun t =>
            replies u t 1 0 (reading { u.bol with readSeq := (s.bol.readSeq + 1) % 2 ^ 32 } ((s.bol.readSeq + 1) % 2 ^ 32) (ofLeBytes l))
            ∧ t.bol = { u.bol with readSeq := (s.bol.readSeq + 1) % 2 ^ 32 }))
        ∧ (hears s u bytes 2 l → l.length = 5 → 0 < ofLeBytes (l.take 4) → 1 ≤ ofLeBytes (l.drop 4) → ofLeBytes (l.drop 4) ≤ 16 →
            Completes (.log bytes) s (fun t =>
              t = u.uartReply 2 0 (((s.bol.saved.log.filter (fun e => decide (ofLeBytes (l.take 4) ≤ e.seq
                ∧ e.seq < ofLeBytes (l.take 4) + ofLeBytes (l.drop 4)))).map entryBytes).flatten)))
        ∧ (hears s u bytes 2 l → l.length = 5 → (ofLeBytes (l.drop 4) = 0 ∨ 16 < ofLeBytes (l.drop 4)) →
            Completes (.log bytes) s (fun t => t = u.uartReply 2 2 []))
        ∧ (hears s u bytes 3 [] → Completes (.identity bytes) s (fun t => t = u.uartReply 3 0 (leBytes 32 (partPublic .bolometer) ++ bolometerCert)))
        ∧ (hears s u bytes 4 l → l.length = 4 → s.bol.sealed_ = false → 50000000 ≤ ofLeBytes l → ofLeBytes l ≤ 200000000 →
            Completes (.shuntSet bytes) s (fun t => t.bol.shunt = ofLeBytes l ∧ logs s t 1 0 (ofLeBytes l) ∧ replies u t 4 0 []))
        ∧ (hears s u bytes 4 l → l.length = 4 → s.bol.sealed_ = false → (ofLeBytes l < 50000000 ∨ 200000000 < ofLeBytes l) →
            Completes (.shuntSet bytes) s (fun t => t = u.uartReply 4 1 []))
        ∧ (hears s u bytes 4 l → l.length = 4 → s.bol.sealed_ = true → Completes (.shuntSet bytes) s (fun t =>
            t.bol.shunt = s.bol.shunt ∧ logs s t 7 0 0 ∧ replies u t 4 1 []))
        ∧ (hears s u bytes 5 l → l.length = 4 → s.dome.sag = false → s.bol.sealed_ = false → s.bol.shunt ≠ 0 → ofLeBytes l = s.bol.shunt →
            s.bol.fault = false → Completes (.shuntSeal bytes) s (fun t =>
              t.bol.sealed_ = true ∧ t.bol.now.sealEntry = some (bolEntry s.bol 2 0 s.bol.shunt) ∧ t.bol.saved.sealEntry = t.bol.now.sealEntry
              ∧ t.bol.shunt = s.bol.shunt ∧ t.out = ({ u with out := s.out ++ [Output.pin 2 1] }.uartReply 5 0 []).out ∧ t.mem = s.mem))
        ∧ (hears s u bytes 5 l → l.length = 4 → (s.bol.sealed_ = true ∨ s.dome.sag = true ∨ s.bol.shunt = 0 ∨ ofLeBytes l ≠ s.bol.shunt) →
            Completes (.shuntSeal bytes) s (fun t => t = u.uartReply 5 1 []))
        ∧ (hears s u bytes 6 l → l.length = 8 →
            let o := toSigned 32 (ofLeBytes (l.take 4))
            let g := toSigned 32 (ofLeBytes (l.drop 4))
            (o.natAbs ≤ 20000 → g.natAbs ≤ 20000 → Completes (.calSet bytes) s (fun t => t.bol.userOffset = o ∧ t.bol.userGain = g
              ∧ logs s t 8 0 (ofLeBytes (l.drop 4)) ∧ replies u t 6 0 []))
            ∧ (20000 < o.natAbs ∨ 20000 < g.natAbs → Completes (.calSet bytes) s (fun t => t = u.uartReply 6 1 []))))

/-- R495, R526, R527, R530: the owner slots and challenges. ENROL fuses the first key while every slot is UNUSED; a challenge replaces the one that
stands; TRANSFER and SVN_COMMIT need the right response to the challenge of their purpose and use it up; a debug response opens its level; a
challenge is over after 60 s; under a sag no fuse is programmed.

R526, R528, R529: reports wait their turn; a partition's request makes its ID_STATUS BUSY, and the report of the request that came first lies in
its ID_ block or goes to the BMC, with its nonce and its signature. -/
def Obligations.OwnerSlotsAndReports : Prop :=
  (
  let able (s : State) : Prop := s.domeUp = true ∧ s.dome.sag = false
  let done (s t : State) (kind : Nat) (l : List Byte) : Prop := t.out = s.out ++ [.mctp (0x100 + kind) (leBytes 2 0 ++ l)]
  let refused (s t : State) (kind : Nat) : Prop :=
    (∃ x, x ≠ 0 ∧ x < 2 ^ 16 ∧ t.out = s.out ++ [.mctp (0x100 + kind) (leBytes 2 x)]) ∧ t = { s with out := t.out, free := t.free }
  let stands (s : State) (c : Challenge) : Prop := s.dome.challenge = some c ∧ s.pkg.time < c.issued + 60000000000
  let fused (s t : State) (f : Fuses) : Prop :=
    t = { s with out := t.out, dome := { s.dome with fuses := f, challenge := none } }
  (∀ (s : State) (key : BitVec 256), able s →
      (s.dome.fuses.states = [0, 0, 0, 0] → Completes (.enrol key) s (fun t => done s t 1 []
        ∧ t = { s with out := t.out, dome := { s.dome with
            fuses := { s.dome.fuses with keys := s.dome.fuses.keys.set 0 key.toNat, states := [1, 0, 0, 0] } } }))
      ∧ ((∃ x ∈ s.dome.fuses.states, x ≠ 0) → Completes (.enrol key) s (fun t => refused s t 1)))
    ∧ (∀ (s : State) (key : BitVec 256) (sig : BitVec 512), s.domeUp = true → s.dome.sag = true →
        ∀ (c : Instr) (kind : Nat), (c, kind) ∈ [(Instr.enrol key, 1), (.transfer sig, 3), (.svnCommit sig, 4)] →
          Completes c s (fun t => t = { s with out := s.out ++ [.mctp (0x100 + kind) (leBytes 2 0x0A01)] }))
    ∧ (∀ (s : State) (purpose : W32) (arg : BitVec 256), s.domeUp = true →
        let issued (t : State) (x : Nat) : Prop := t.dome = { s.dome with
          challenge := some ⟨purpose.toNat, arg.toNat, challengeBody purpose.toNat x arg.toNat, s.pkg.time⟩ }
        (1 ≤ purpose.toNat → purpose.toNat ≤ 4 → Completes (.challenge false purpose arg) s (fun t => ∃ x, issued t x
            ∧ done s t 2 (challengeBody purpose.toNat x arg.toNat) ∧ t = { s with out := t.out, free := t.free, dome := t.dome }))
        ∧ (purpose.toNat = 3 ∨ purpose.toNat = 4 → Completes (.challenge true purpose arg) s (fun t => ∃ x, issued t x
            ∧ t.out = s.out ++ [.pin 3 (ofLeBytes (challengeBody purpose.toNat x arg.toNat))]
            ∧ t = { s with out := t.out, free := t.free, dome := t.dome }))
        ∧ (purpose.toNat = 0 ∨ 4 < purpose.toNat → Completes (.challenge false purpose arg) s (fun t => refused s t 2)))
    ∧ (∀ (s : State) (sig : BitVec 512) (c : Challenge), able s → stands s c →
        (∀ a n, s.dome.fuses.states.findIdx? (· == 1) = some a → s.dome.fuses.states.findIdx? (· == 0) = some n → c.purpose = 1 →
          validResponse s.dome.fuses c (leBytes 64 sig.toNat) = true → Completes (.transfer sig) s (fun t => done s t 3 []
            ∧ fused s t { s.dome.fuses with keys := s.dome.fuses.keys.set n c.arg, states := (s.dome.fuses.states.set a 2).set n 1 }))
        ∧ (c.purpose = 2 → c.arg % 2 ^ 32 ≤ s.dome.boot.running.svn → c.arg % 2 ^ 32 ≤ 64 →
          validResponse s.dome.fuses c (leBytes 64 sig.toNat) = true → Completes (.svnCommit sig) s (fun t => done s t 4 []
            ∧ fused s t { s.dome.fuses with svnMin := max s.dome.fuses.svnMin (c.arg % 2 ^ 32) }))
        ∧ (c.purpose ≠ 1 ∨ validResponse s.dome.fuses c (leBytes 64 sig.toNat) = false → Completes (.transfer sig) s (fun t => refused s t 3))
        ∧ (c.purpose ≠ 2 ∨ validResponse s.dome.fuses c (leBytes 64 sig.toNat) = false → Completes (.svnCommit sig) s (fun t => refused s t 4)))
    ∧ (∀ (s : State) (sig : BitVec 512) (c : Challenge), s.domeUp = true → stands s c →
        ((c.purpose = 3 ∨ c.purpose = 4) → validResponse s.dome.fuses c (leBytes 64 sig.toNat) = true → Completes (.jtagResponse sig) s (fun t =>
            t = { s with dome := { s.dome with debug := max s.dome.debug (c.purpose - 2), challenge := none } }))
        ∧ (validResponse s.dome.fuses c (leBytes 64 sig.toNat) = false → Completes (.jtagResponse sig) s (fun t => t = s))
        ∧ Completes .challengeExpiry s (fun t => t = s))
    ∧ (∀ (s : State) (c : Challenge), s.dome.challenge = some c → c.issued + 60000000000 ≤ s.pkg.time →
        Completes .challengeExpiry s (fun t => t = { s with dome := { s.dome with challenge := none } }))
    ∧ (∀ s : State, Completes .trstN s (fun t => t = s)))
  ∧ (
  let front (s : State) (r : ReportReq) (l : List ReportReq) : Prop := s.domeUp = true ∧ s.dome.reports = r :: l
  let body (s : State) (r : ReportReq) (l : List ReportReq) : List Byte :=
    ({ s with dome := { s.dome with reports := l } }.reportBody r.nonce).1
  (∀ (s : State) (nonce : BitVec 256), s.domeUp = true → Completes (.attest nonce) s (fun t =>
      t = { s with dome := { s.dome with reports := s.dome.reports ++ [⟨4, 0, leBytes 32 nonce.toNat⟩] } }))
    ∧ (∀ (s : State) (p : Fin 4) (seq : BitVec 16), s.domeUp = true → p.val < s.nParts → bit (s.reg (home .id p.val 0x10)) 0 = false →
        seq.toNat ≠ bits (s.reg (home .id p.val 0x14)) 16 16 → Completes (.idReqWrite p seq) s (fun t =>
          t.reg (home .id p.val 0x10) = 1 + seq.toNat * 65536
          ∧ t.dome.reports = s.dome.reports ++ [⟨p.val, seq.toNat, ((List.range 8).map (fun i => leBytes 4 (s.reg (home .id p.val (0x40 + 4 * i))))).flatten⟩]
          ∧ t = { s with regs := t.regs, dome := { s.dome with reports := t.dome.reports } }))
    ∧ (∀ (s : State) (p : Fin 4) (seq : BitVec 16), bit (s.reg (home .id p.val 0x10)) 0 = true →
        Completes (.idReqWrite p seq) s (fun t => t = s))
    ∧ (∀ (s : State) (r : ReportReq) (l : List ReportReq), front s r l → r.who < 4 → Completes .idReportReady s (fun t =>
        t.dome = { s.dome with reports := l } ∧ t.reg (home .id r.who 0x10) = 2 + r.seq * 65536
        ∧ (∀ i, i < 96 → t.reg (home .id r.who (0x400 + 4 * i))
            = ofLeBytes (((body s r l ++ partSign .identity (sha512 (body s r l))).drop (4 * i)).take 4))
        ∧ ((body s r l).drop 0x10).take 32 = (r.nonce ++ List.replicate 32 0).take 32
        ∧ t = { s with regs := t.regs, dome := t.dome, free := t.free }))
    ∧ (∀ (s : State) (r : ReportReq) (l : List ReportReq), front s r l → r.who = 4 → Completes .idReportReady s (fun t =>
        t.out = s.out ++ [.mctp 0x105 (leBytes 2 0 ++ (body s r l ++ partSign .identity (sha512 (body s r l))))]
        ∧ t = { s with out := t.out, dome := { s.dome with reports := l }, free := t.free })))

/-- The command at the front of the queue runs with the rest behind it: a step is its execution (the model's own queue, notes/assumptions/1.md). -/
def Obligations.StepRunsFront : Prop :=
  ∀ (s : State) (c : Instr) (rest : List Instr), s.pending = c :: rest → step s = exec c { s with pending := rest }

/-- No command is ever refused and none ends in a fault: in every state each of the 324 is answered with a next state. -/
def Obligations.EveryCommandIsServed : Prop :=
  ∀ (i : Instr) (s : State), ∃ t, exec i s = .next t

/-- With no command waiting a step is a nanosecond of DOM_TIME and a cycle of every island that runs; besides, the cycles stretched, waiting for a lock
or for a credit and the errors of the lines are counted, and the barrier timeouts of halted groups do not count; a Dome held in cold reset stands still (the model's own idle step, notes/assumptions/2.md; R484 to R486). -/
def Obligations.IdleStep : Prop :=
  (∀ s : State, s.pending = [] → s.domeUp = true → (∀ e ∈ s.qps, e.2.waiting = []) → ∃ t, step s = .next t ∧ t.pkg.time = (s.pkg.time + 1) % 2 ^ 64
      ∧ (∀ i, i < 74 → t.cycle i = if s.islandOn i then (s.cycle i + 1) % 2 ^ 64 else s.cycle i)
      ∧ t = { s with pkg := { s.pkg with time := t.pkg.time, cycles := t.pkg.cycles }, regs := t.regs, groups := t.groups
                     free := t.free }
      ∧ (∀ u k, u < 132 → k < 32 → t.grp u k =
          if u < 128 ∧ (s.grp u k).live = true ∧ s.groupHalted u k = true ∧ s.islandOn (u / 4) = true then
            { s.grp u k with bar := (s.grp u k).bar.map (fun b => { b with opened := b.opened + 1 }) }
          else s.grp u k)
      ∧ (s.ops = [] → (∀ g, g < 8 → (s.port g).state = 0 ∨ (s.port g).state = 4) → (∀ n, n < 4 → s.cxlUp n = false) → s.dome.droop = [] → s.dome.held = [] → s.dome.powerLimit = false → s.dome.hot = [] → s.dome.limited = [] →
          t.regs = s.regs ∧ t.free = s.free))
    ∧ ∀ s : State, s.pending = [] → s.domeUp = false → step s = .next s

/-- What the spec states of a cold reset: every switched domain is off, no context, object, extent, queue pair or group is there, counters are
VALUE 0, FLOOR 0 and CEIL 0xFFFFFFFF, fences are SIGNALLED, ports and start-up have not begun, an object's generation is 1, and registers hold the
values of their tables (R24, R53, R174, R182, R252, R271, R281, R440, R461, R494). -/
def Obligations.ResetState : Prop :=
  let s := State.reset
  s.pending = [] ∧ (∀ d, s.domOn d = false) ∧ s.pkg.locked = false ∧ s.cat = [] ∧ s.dome.boot.state = 0 ∧ s.dome.boot.stage = 0
    ∧ (∀ p, s.hasCtx p = false ∧ s.ctxNum p = 0 ∧ (s.ring p).set = false) ∧ (∀ p e, (s.extent p e).valid = false)
    ∧ (∀ p i, (s.obj p i).live = false ∧ (s.obj p i).gen = 1)
    ∧ (∀ r n, (s.ctr r n).value = 0 ∧ (s.ctr r n).floor = 0 ∧ (s.ctr r n).ceil = 0xFFFFFFFF ∧ (s.ctr r n).waiters = [])
    ∧ (∀ n, (s.fence n).value = 0 ∧ (s.fence n).owed = 0 ∧ (s.fence n).state = 0)
    ∧ (∀ g, (s.port g).state = 0) ∧ (∀ n, (s.qp n).conn = false) ∧ (∀ u k, (s.grp u k).live = false)
    ∧ (∀ u, u < 132 → bits (s.reg (State.unitReg u 0x14)) 0 5 = 26 ∧ bits (s.reg (State.unitReg u 0x14)) 8 16 = 1024)
    ∧ (∀ k, s.reg (home .hbm k 0x14) = 24) ∧ (∀ p, s.reg (home .prt p 0x14) = 10) ∧ (∀ p, bits (s.reg (home .dom p 0x1C)) 16 16 = 420)

/-- Memory has its canonical form at reset. -/
def Obligations.MemoryCanonicalAtReset : Prop :=
  Memory.wf State.reset.mem = true

/-- Every step that answers a next state keeps the canonical form of memory: addresses strictly rising, and no byte listed that an unlisted
address reads as. -/
def Obligations.MemoryStaysCanonical : Prop :=
  ∀ s t : State, Memory.wf s.mem = true → step s = .next t → Memory.wf t.mem = true

/-- R44: offsets up to 0xBFFFFF of a cluster's stride hold its memory; those above read zero, and writes there are ignored. -/
def Obligations.ClusterMemoryStride : Prop :=
  (∀ (s : State) (c off : Nat), c < 32 → 0xC00000 ≤ off → off < 0x1000000 → s.peek (State.cmemLpa c off) = 0)
    ∧ (∀ (s : State) (p c off : Nat) (l : List Byte), c < 32 → 0xC00000 ≤ off → off < 0x1000000 → off % 128 + l.length ≤ 128 →
        ∀ a, (s.pokeLine p (State.cmemLpa c off) l).peek a = s.peek a)
    ∧ (∀ (s : State) (p c off : Nat) (l : List Byte), c < 32 → off < 0xC00000 → off % 128 + l.length ≤ 128 → s.domOn c = true →
        (∀ i b, l[i]? = some b → (s.pokeLine p (State.cmemLpa c off) l).peek (State.cmemLpa c off + i) = b)
        ∧ ∀ a, (a < State.cmemLpa c off ∨ State.cmemLpa c off + l.length ≤ a) → (s.pokeLine p (State.cmemLpa c off) l).peek a = s.peek a)

/-- R282: fence values are compared by serial-number arithmetic over a half range. -/
def Obligations.FenceValueOrder : Prop :=
  ∀ a b : BitVec 64, (serialAfter 64 a.toNat b.toNat = true ↔ 0 < (a - b).toNat ∧ (a - b).toNat < 2 ^ 63)
    ∧ (((a - b).toNat = 0 ∨ 2 ^ 63 ≤ (a - b).toNat) → serialAfter 64 a.toNat b.toNat = false)
end

