-- ==== Sys2Proof/Laws/Sparse.lean ====
section
/-! SUPPORT. Laws of sparse maps: a read after a write, and the canonical form. -/

namespace Sys2Proof.SMap

variable {α : Type}

@[simp] theorem get_nil (d : α) (k : Nat) : get d [] k = d := rfl

theorem get_cons (d : α) (e : Nat × α) (m : SMap α) (k : Nat) : get d (e :: m) k = if e.1 = k then e.2 else get d m k := rfl

theorem get_dropIf (d : α) (f : Nat → Bool) (m : SMap α) (k : Nat) :
    get d (dropIf f m) k = if f k then d else get d m k := by
  induction m with
  | nil => simp [dropIf]
  | cons e m ih =>
    unfold dropIf at ih ⊢
    rw [List.filter_cons, get_cons]
    by_cases h : e.1 = k
    · subst h; by_cases hf : f e.1 <;> simp_all [get_cons]
    · by_cases hf : f e.1 <;> simp_all [get_cons]

theorem get_put (d : α) (m : SMap α) (k : Nat) (v : α) (j : Nat) : get d (put m k v) j = if k = j then v else get d m j := by
  induction m with
  | nil => rfl
  | cons e m ih =>
    rcases e with ⟨k', w⟩
    simp only [put]
    split
    · next h => subst h; simp only [get_cons]; split <;> rfl
    · split
      · simp only [get_cons]
      · next h _ => simp only [get_cons, ih]; split <;> split <;> simp_all

/-! ### Order of the keys -/

theorem sortedFrom_cons (lo : Option Nat) (e : Nat × α) (m : SMap α) :
    sortedFrom lo (e :: m) = true ↔ (∀ l, lo = some l → l < e.1) ∧ sortedFrom (some e.1) m = true := by
  rcases e with ⟨k, v⟩
  cases lo <;> simp [sortedFrom]

theorem sortedFrom_weaken {lo : Option Nat} {a : Nat} (m : SMap α) (h : sortedFrom (some a) m = true)
    (hl : ∀ l, lo = some l → l ≤ a) : sortedFrom lo m = true := by
  cases m with
  | nil => cases lo <;> rfl
  | cons e m =>
    rw [sortedFrom_cons] at h ⊢
    exact ⟨fun l hl' => lt_of_le_of_lt (hl l hl') (h.1 a rfl), h.2⟩

theorem sortedFrom_filter (p : Nat × α → Bool) (lo : Option Nat) (m : SMap α) (h : sortedFrom lo m = true) :
    sortedFrom lo (m.filter p) = true := by
  induction m generalizing lo with
  | nil => exact h
  | cons e m ih =>
    rw [sortedFrom_cons] at h
    rw [List.filter_cons]
    split
    · rw [sortedFrom_cons]; exact ⟨h.1, ih _ h.2⟩
    · exact ih lo (sortedFrom_weaken m h.2 (fun l hl => le_of_lt (h.1 l hl)))

theorem sortedFrom_put (lo : Option Nat) (m : SMap α) (k : Nat) (v : α) (h : sortedFrom lo m = true)
    (hk : ∀ l, lo = some l → l < k) : sortedFrom lo (put m k v) = true := by
  induction m generalizing lo with
  | nil => rw [put, sortedFrom_cons]; exact ⟨hk, rfl⟩
  | cons e m ih =>
    rcases e with ⟨k', w⟩
    rw [sortedFrom_cons] at h
    simp only [put]
    split
    · next hk' => subst hk'; rw [sortedFrom_cons]; exact h
    · split
      · next hlt =>
        rw [sortedFrom_cons, sortedFrom_cons]
        refine ⟨hk, ?_, h.2⟩
        intro l hl; simp only [Option.some.injEq] at hl; subst hl; exact hlt
      · next hne hlt =>
        rw [sortedFrom_cons]
        refine ⟨h.1, ih _ h.2 ?_⟩
        intro l hl; simp only [Option.some.injEq] at hl; subst hl
        simp only at *
        omega

theorem mem_put {m : SMap α} {k : Nat} {v : α} {e : Nat × α} (h : e ∈ put m k v) : e = (k, v) ∨ e ∈ m := by
  induction m with
  | nil => simp only [put, List.mem_singleton] at h; exact .inl h
  | cons x m ih =>
    rcases x with ⟨k', w⟩
    simp only [put] at h
    split at h
    · rcases List.mem_cons.1 h with h | h
      · exact .inl h
      · exact .inr (List.mem_cons_of_mem _ h)
    · split at h
      · rcases List.mem_cons.1 h with h | h
        · exact .inl h
        · exact .inr h
      · rcases List.mem_cons.1 h with h | h
        · exact .inr (h ▸ List.mem_cons_self)
        · rcases ih h with h | h
          · exact .inl h
          · exact .inr (List.mem_cons_of_mem _ h)

/-! ### Reads and writes -/

variable [DecidableEq α]

/-- A read after a write. -/
theorem get_set (d : α) (m : SMap α) (k : Nat) (v : α) (j : Nat) : get d (set d m k v) j = if k = j then v else get d m j := by
  have other : k ≠ j → get d (dropIf (fun x => x == k) m) j = get d m j := fun h => by
    rw [get_dropIf, if_neg (by simpa using fun hj => h hj.symm)]
  unfold set
  by_cases h : k = j
  · subst h
    split
    · next hv => subst hv; simp [get_dropIf]
    · simp [get_put]
  · split
    · simp [h, other h]
    · simp [get_put, h, other h]

@[simp] theorem get_set_same (d : α) (m : SMap α) (k : Nat) (v : α) : get d (set d m k v) k = v := by simp [get_set]

theorem get_set_ne (d : α) (m : SMap α) (k : Nat) (v : α) {j : Nat} (h : k ≠ j) : get d (set d m k v) j = get d m j := by
  simp [get_set, h]

@[simp] theorem get_modify_same (d : α) (m : SMap α) (k : Nat) (f : α → α) : get d (modify d m k f) k = f (get d m k) := by
  simp [modify]

theorem get_modify_ne (d : α) (m : SMap α) (k : Nat) (f : α → α) {j : Nat} (h : k ≠ j) : get d (modify d m k f) j = get d m j := by
  simp [modify, get_set, h]

/-! ### The canonical form -/

/-- Removing entries keeps the canonical form. -/
theorem wf_dropIf (d : α) (f : Nat → Bool) (m : SMap α) (h : wf d m = true) : wf d (dropIf f m) = true := by
  unfold wf at h ⊢
  simp only [Bool.and_eq_true, List.all_eq_true, decide_eq_true_eq] at h ⊢
  exact ⟨sortedFrom_filter _ _ _ h.1, fun e he => h.2 e (List.mem_filter.1 he).1⟩

/-- Writing a listed value in its place keeps the canonical form. -/
theorem wf_put (d : α) (m : SMap α) (k : Nat) (v : α) (hv : v ≠ d) (h : wf d m = true) : wf d (put m k v) = true := by
  unfold wf at h ⊢
  simp only [Bool.and_eq_true, List.all_eq_true, decide_eq_true_eq] at h ⊢
  refine ⟨sortedFrom_put _ _ _ _ h.1 (by simp), fun e he => ?_⟩
  rcases mem_put he with he | he
  · subst he; exact hv
  · exact h.2 e he

/-- A write keeps the canonical form. -/
theorem wf_set (d : α) (m : SMap α) (k : Nat) (v : α) (h : wf d m = true) : wf d (set d m k v) = true := by
  unfold set
  split
  · exact wf_dropIf d _ m h
  · next hv => exact wf_put d _ k v hv (wf_dropIf d _ m h)

end Sys2Proof.SMap
end

