-- ==== Sys2Proof/Laws/State.lean ====
section
/-! SUPPORT. What each named update of the state leaves and what it writes. -/

namespace Sys2Proof.Machine.State

variable (s : State)

/-! ### Fields that an update leaves -/

@[simp] theorem setReg_pending (a : RegAddr) (v : Nat) : (s.setReg a v).pending = s.pending := rfl
@[simp] theorem setReg_free (a : RegAddr) (v : Nat) : (s.setReg a v).free = s.free := rfl
@[simp] theorem setReg_nextOp (a : RegAddr) (v : Nat) : (s.setReg a v).nextOp = s.nextOp := rfl
@[simp] theorem setReg_out (a : RegAddr) (v : Nat) : (s.setReg a v).out = s.out := rfl
@[simp] theorem setReg_pkg (a : RegAddr) (v : Nat) : (s.setReg a v).pkg = s.pkg := rfl
@[simp] theorem setReg_blocks (a : RegAddr) (v : Nat) : (s.setReg a v).blocks = s.blocks := rfl
@[simp] theorem setReg_latch (a : RegAddr) (v : Nat) : (s.setReg a v).latch = s.latch := rfl
@[simp] theorem setReg_held (a : RegAddr) (v : Nat) : (s.setReg a v).held = s.held := rfl
@[simp] theorem setReg_extents (a : RegAddr) (v : Nat) : (s.setReg a v).extents = s.extents := rfl
@[simp] theorem setReg_mem (a : RegAddr) (v : Nat) : (s.setReg a v).mem = s.mem := rfl
@[simp] theorem setReg_poison (a : RegAddr) (v : Nat) : (s.setReg a v).poison = s.poison := rfl
@[simp] theorem setReg_cpoison (a : RegAddr) (v : Nat) : (s.setReg a v).cpoison = s.cpoison := rfl
@[simp] theorem setReg_banks (a : RegAddr) (v : Nat) : (s.setReg a v).banks = s.banks := rfl
@[simp] theorem setReg_lines (a : RegAddr) (v : Nat) : (s.setReg a v).lines = s.lines := rfl
@[simp] theorem setReg_slices (a : RegAddr) (v : Nat) : (s.setReg a v).slices = s.slices := rfl
@[simp] theorem setReg_units (a : RegAddr) (v : Nat) : (s.setReg a v).units = s.units := rfl
@[simp] theorem setReg_groups (a : RegAddr) (v : Nat) : (s.setReg a v).groups = s.groups := rfl
@[simp] theorem setReg_ops (a : RegAddr) (v : Nat) : (s.setReg a v).ops = s.ops := rfl
@[simp] theorem setReg_teams (a : RegAddr) (v : Nat) : (s.setReg a v).teams = s.teams := rfl
@[simp] theorem setReg_ctrs (a : RegAddr) (v : Nat) : (s.setReg a v).ctrs = s.ctrs := rfl
@[simp] theorem setReg_ctrDbg (a : RegAddr) (v : Nat) : (s.setReg a v).ctrDbg = s.ctrDbg := rfl
@[simp] theorem setReg_ctrQ (a : RegAddr) (v : Nat) : (s.setReg a v).ctrQ = s.ctrQ := rfl
@[simp] theorem setReg_fences (a : RegAddr) (v : Nat) : (s.setReg a v).fences = s.fences := rfl
@[simp] theorem setReg_ctx (a : RegAddr) (v : Nat) : (s.setReg a v).ctx = s.ctx := rfl
@[simp] theorem setReg_strs (a : RegAddr) (v : Nat) : (s.setReg a v).strs = s.strs := rfl
@[simp] theorem setReg_objs (a : RegAddr) (v : Nat) : (s.setReg a v).objs = s.objs := rfl
@[simp] theorem setReg_rings (a : RegAddr) (v : Nat) : (s.setReg a v).rings = s.rings := rfl
@[simp] theorem setReg_faultQ (a : RegAddr) (v : Nat) : (s.setReg a v).faultQ = s.faultQ := rfl
@[simp] theorem setReg_ports (a : RegAddr) (v : Nat) : (s.setReg a v).ports = s.ports := rfl
@[simp] theorem setReg_inTxn (a : RegAddr) (v : Nat) : (s.setReg a v).inTxn = s.inTxn := rfl
@[simp] theorem setReg_arrays (a : RegAddr) (v : Nat) : (s.setReg a v).arrays = s.arrays := rfl
@[simp] theorem setReg_vecs (a : RegAddr) (v : Nat) : (s.setReg a v).vecs = s.vecs := rfl
@[simp] theorem setReg_cat (a : RegAddr) (v : Nat) : (s.setReg a v).cat = s.cat := rfl
@[simp] theorem setReg_dome (a : RegAddr) (v : Nat) : (s.setReg a v).dome = s.dome := rfl
@[simp] theorem setReg_flash (a : RegAddr) (v : Nat) : (s.setReg a v).flash = s.flash := rfl
@[simp] theorem setReg_shares (a : RegAddr) (v : Nat) : (s.setReg a v).shares = s.shares := rfl
@[simp] theorem setReg_xch (a : RegAddr) (v : Nat) : (s.setReg a v).xch = s.xch := rfl
@[simp] theorem setReg_snaps (a : RegAddr) (v : Nat) : (s.setReg a v).snaps = s.snaps := rfl
@[simp] theorem setReg_qps (a : RegAddr) (v : Nat) : (s.setReg a v).qps = s.qps := rfl
@[simp] theorem setReg_eth (a : RegAddr) (v : Nat) : (s.setReg a v).eth = s.eth := rfl
@[simp] theorem setReg_stores (a : RegAddr) (v : Nat) : (s.setReg a v).stores = s.stores := rfl
@[simp] theorem setReg_mgmt (a : RegAddr) (v : Nat) : (s.setReg a v).mgmt = s.mgmt := rfl
@[simp] theorem setReg_bol (a : RegAddr) (v : Nat) : (s.setReg a v).bol = s.bol := rfl

@[simp] theorem setUnit_pending (u : Nat) (x : UnitSt) : (s.setUnit u x).pending = s.pending := rfl
@[simp] theorem setUnit_free (u : Nat) (x : UnitSt) : (s.setUnit u x).free = s.free := rfl
@[simp] theorem setUnit_nextOp (u : Nat) (x : UnitSt) : (s.setUnit u x).nextOp = s.nextOp := rfl
@[simp] theorem setUnit_out (u : Nat) (x : UnitSt) : (s.setUnit u x).out = s.out := rfl
@[simp] theorem setUnit_pkg (u : Nat) (x : UnitSt) : (s.setUnit u x).pkg = s.pkg := rfl
@[simp] theorem setUnit_blocks (u : Nat) (x : UnitSt) : (s.setUnit u x).blocks = s.blocks := rfl
@[simp] theorem setUnit_regs (u : Nat) (x : UnitSt) : (s.setUnit u x).regs = s.regs := rfl
@[simp] theorem setUnit_latch (u : Nat) (x : UnitSt) : (s.setUnit u x).latch = s.latch := rfl
@[simp] theorem setUnit_held (u : Nat) (x : UnitSt) : (s.setUnit u x).held = s.held := rfl
@[simp] theorem setUnit_extents (u : Nat) (x : UnitSt) : (s.setUnit u x).extents = s.extents := rfl
@[simp] theorem setUnit_mem (u : Nat) (x : UnitSt) : (s.setUnit u x).mem = s.mem := rfl
@[simp] theorem setUnit_poison (u : Nat) (x : UnitSt) : (s.setUnit u x).poison = s.poison := rfl
@[simp] theorem setUnit_cpoison (u : Nat) (x : UnitSt) : (s.setUnit u x).cpoison = s.cpoison := rfl
@[simp] theorem setUnit_banks (u : Nat) (x : UnitSt) : (s.setUnit u x).banks = s.banks := rfl
@[simp] theorem setUnit_lines (u : Nat) (x : UnitSt) : (s.setUnit u x).lines = s.lines := rfl
@[simp] theorem setUnit_slices (u : Nat) (x : UnitSt) : (s.setUnit u x).slices = s.slices := rfl
@[simp] theorem setUnit_groups (u : Nat) (x : UnitSt) : (s.setUnit u x).groups = s.groups := rfl
@[simp] theorem setUnit_ops (u : Nat) (x : UnitSt) : (s.setUnit u x).ops = s.ops := rfl
@[simp] theorem setUnit_teams (u : Nat) (x : UnitSt) : (s.setUnit u x).teams = s.teams := rfl
@[simp] theorem setUnit_ctrs (u : Nat) (x : UnitSt) : (s.setUnit u x).ctrs = s.ctrs := rfl
@[simp] theorem setUnit_ctrDbg (u : Nat) (x : UnitSt) : (s.setUnit u x).ctrDbg = s.ctrDbg := rfl
@[simp] theorem setUnit_ctrQ (u : Nat) (x : UnitSt) : (s.setUnit u x).ctrQ = s.ctrQ := rfl
@[simp] theorem setUnit_fences (u : Nat) (x : UnitSt) : (s.setUnit u x).fences = s.fences := rfl
@[simp] theorem setUnit_ctx (u : Nat) (x : UnitSt) : (s.setUnit u x).ctx = s.ctx := rfl
@[simp] theorem setUnit_strs (u : Nat) (x : UnitSt) : (s.setUnit u x).strs = s.strs := rfl
@[simp] theorem setUnit_objs (u : Nat) (x : UnitSt) : (s.setUnit u x).objs = s.objs := rfl
@[simp] theorem setUnit_rings (u : Nat) (x : UnitSt) : (s.setUnit u x).rings = s.rings := rfl
@[simp] theorem setUnit_faultQ (u : Nat) (x : UnitSt) : (s.setUnit u x).faultQ = s.faultQ := rfl
@[simp] theorem setUnit_ports (u : Nat) (x : UnitSt) : (s.setUnit u x).ports = s.ports := rfl
@[simp] theorem setUnit_inTxn (u : Nat) (x : UnitSt) : (s.setUnit u x).inTxn = s.inTxn := rfl
@[simp] theorem setUnit_arrays (u : Nat) (x : UnitSt) : (s.setUnit u x).arrays = s.arrays := rfl
@[simp] theorem setUnit_vecs (u : Nat) (x : UnitSt) : (s.setUnit u x).vecs = s.vecs := rfl
@[simp] theorem setUnit_cat (u : Nat) (x : UnitSt) : (s.setUnit u x).cat = s.cat := rfl
@[simp] theorem setUnit_dome (u : Nat) (x : UnitSt) : (s.setUnit u x).dome = s.dome := rfl
@[simp] theorem setUnit_flash (u : Nat) (x : UnitSt) : (s.setUnit u x).flash = s.flash := rfl
@[simp] theorem setUnit_shares (u : Nat) (x : UnitSt) : (s.setUnit u x).shares = s.shares := rfl
@[simp] theorem setUnit_xch (u : Nat) (x : UnitSt) : (s.setUnit u x).xch = s.xch := rfl
@[simp] theorem setUnit_snaps (u : Nat) (x : UnitSt) : (s.setUnit u x).snaps = s.snaps := rfl
@[simp] theorem setUnit_qps (u : Nat) (x : UnitSt) : (s.setUnit u x).qps = s.qps := rfl
@[simp] theorem setUnit_eth (u : Nat) (x : UnitSt) : (s.setUnit u x).eth = s.eth := rfl
@[simp] theorem setUnit_stores (u : Nat) (x : UnitSt) : (s.setUnit u x).stores = s.stores := rfl
@[simp] theorem setUnit_mgmt (u : Nat) (x : UnitSt) : (s.setUnit u x).mgmt = s.mgmt := rfl
@[simp] theorem setUnit_bol (u : Nat) (x : UnitSt) : (s.setUnit u x).bol = s.bol := rfl

@[simp] theorem setGrp_pending (u k : Nat) (g : Grp) : (s.setGrp u k g).pending = s.pending := rfl
@[simp] theorem setGrp_free (u k : Nat) (g : Grp) : (s.setGrp u k g).free = s.free := rfl
@[simp] theorem setGrp_nextOp (u k : Nat) (g : Grp) : (s.setGrp u k g).nextOp = s.nextOp := rfl
@[simp] theorem setGrp_out (u k : Nat) (g : Grp) : (s.setGrp u k g).out = s.out := rfl
@[simp] theorem setGrp_pkg (u k : Nat) (g : Grp) : (s.setGrp u k g).pkg = s.pkg := rfl
@[simp] theorem setGrp_blocks (u k : Nat) (g : Grp) : (s.setGrp u k g).blocks = s.blocks := rfl
@[simp] theorem setGrp_regs (u k : Nat) (g : Grp) : (s.setGrp u k g).regs = s.regs := rfl
@[simp] theorem setGrp_latch (u k : Nat) (g : Grp) : (s.setGrp u k g).latch = s.latch := rfl
@[simp] theorem setGrp_held (u k : Nat) (g : Grp) : (s.setGrp u k g).held = s.held := rfl
@[simp] theorem setGrp_extents (u k : Nat) (g : Grp) : (s.setGrp u k g).extents = s.extents := rfl
@[simp] theorem setGrp_mem (u k : Nat) (g : Grp) : (s.setGrp u k g).mem = s.mem := rfl
@[simp] theorem setGrp_poison (u k : Nat) (g : Grp) : (s.setGrp u k g).poison = s.poison := rfl
@[simp] theorem setGrp_cpoison (u k : Nat) (g : Grp) : (s.setGrp u k g).cpoison = s.cpoison := rfl
@[simp] theorem setGrp_banks (u k : Nat) (g : Grp) : (s.setGrp u k g).banks = s.banks := rfl
@[simp] theorem setGrp_lines (u k : Nat) (g : Grp) : (s.setGrp u k g).lines = s.lines := rfl
@[simp] theorem setGrp_slices (u k : Nat) (g : Grp) : (s.setGrp u k g).slices = s.slices := rfl
@[simp] theorem setGrp_units (u k : Nat) (g : Grp) : (s.setGrp u k g).units = s.units := rfl
@[simp] theorem setGrp_ops (u k : Nat) (g : Grp) : (s.setGrp u k g).ops = s.ops := rfl
@[simp] theorem setGrp_teams (u k : Nat) (g : Grp) : (s.setGrp u k g).teams = s.teams := rfl
@[simp] theorem setGrp_ctrs (u k : Nat) (g : Grp) : (s.setGrp u k g).ctrs = s.ctrs := rfl
@[simp] theorem setGrp_ctrDbg (u k : Nat) (g : Grp) : (s.setGrp u k g).ctrDbg = s.ctrDbg := rfl
@[simp] theorem setGrp_ctrQ (u k : Nat) (g : Grp) : (s.setGrp u k g).ctrQ = s.ctrQ := rfl
@[simp] theorem setGrp_fences (u k : Nat) (g : Grp) : (s.setGrp u k g).fences = s.fences := rfl
@[simp] theorem setGrp_ctx (u k : Nat) (g : Grp) : (s.setGrp u k g).ctx = s.ctx := rfl
@[simp] theorem setGrp_strs (u k : Nat) (g : Grp) : (s.setGrp u k g).strs = s.strs := rfl
@[simp] theorem setGrp_objs (u k : Nat) (g : Grp) : (s.setGrp u k g).objs = s.objs := rfl
@[simp] theorem setGrp_rings (u k : Nat) (g : Grp) : (s.setGrp u k g).rings = s.rings := rfl
@[simp] theorem setGrp_faultQ (u k : Nat) (g : Grp) : (s.setGrp u k g).faultQ = s.faultQ := rfl
@[simp] theorem setGrp_ports (u k : Nat) (g : Grp) : (s.setGrp u k g).ports = s.ports := rfl
@[simp] theorem setGrp_inTxn (u k : Nat) (g : Grp) : (s.setGrp u k g).inTxn = s.inTxn := rfl
@[simp] theorem setGrp_arrays (u k : Nat) (g : Grp) : (s.setGrp u k g).arrays = s.arrays := rfl
@[simp] theorem setGrp_vecs (u k : Nat) (g : Grp) : (s.setGrp u k g).vecs = s.vecs := rfl
@[simp] theorem setGrp_cat (u k : Nat) (g : Grp) : (s.setGrp u k g).cat = s.cat := rfl
@[simp] theorem setGrp_dome (u k : Nat) (g : Grp) : (s.setGrp u k g).dome = s.dome := rfl
@[simp] theorem setGrp_flash (u k : Nat) (g : Grp) : (s.setGrp u k g).flash = s.flash := rfl
@[simp] theorem setGrp_shares (u k : Nat) (g : Grp) : (s.setGrp u k g).shares = s.shares := rfl
@[simp] theorem setGrp_xch (u k : Nat) (g : Grp) : (s.setGrp u k g).xch = s.xch := rfl
@[simp] theorem setGrp_snaps (u k : Nat) (g : Grp) : (s.setGrp u k g).snaps = s.snaps := rfl
@[simp] theorem setGrp_qps (u k : Nat) (g : Grp) : (s.setGrp u k g).qps = s.qps := rfl
@[simp] theorem setGrp_eth (u k : Nat) (g : Grp) : (s.setGrp u k g).eth = s.eth := rfl
@[simp] theorem setGrp_stores (u k : Nat) (g : Grp) : (s.setGrp u k g).stores = s.stores := rfl
@[simp] theorem setGrp_mgmt (u k : Nat) (g : Grp) : (s.setGrp u k g).mgmt = s.mgmt := rfl
@[simp] theorem setGrp_bol (u k : Nat) (g : Grp) : (s.setGrp u k g).bol = s.bol := rfl

@[simp] theorem setCtx_pending (p : Nat) (c : Ctx) : (s.setCtx p c).pending = s.pending := rfl
@[simp] theorem setCtx_free (p : Nat) (c : Ctx) : (s.setCtx p c).free = s.free := rfl
@[simp] theorem setCtx_nextOp (p : Nat) (c : Ctx) : (s.setCtx p c).nextOp = s.nextOp := rfl
@[simp] theorem setCtx_out (p : Nat) (c : Ctx) : (s.setCtx p c).out = s.out := rfl
@[simp] theorem setCtx_pkg (p : Nat) (c : Ctx) : (s.setCtx p c).pkg = s.pkg := rfl
@[simp] theorem setCtx_blocks (p : Nat) (c : Ctx) : (s.setCtx p c).blocks = s.blocks := rfl
@[simp] theorem setCtx_regs (p : Nat) (c : Ctx) : (s.setCtx p c).regs = s.regs := rfl
@[simp] theorem setCtx_latch (p : Nat) (c : Ctx) : (s.setCtx p c).latch = s.latch := rfl
@[simp] theorem setCtx_held (p : Nat) (c : Ctx) : (s.setCtx p c).held = s.held := rfl
@[simp] theorem setCtx_extents (p : Nat) (c : Ctx) : (s.setCtx p c).extents = s.extents := rfl
@[simp] theorem setCtx_mem (p : Nat) (c : Ctx) : (s.setCtx p c).mem = s.mem := rfl
@[simp] theorem setCtx_poison (p : Nat) (c : Ctx) : (s.setCtx p c).poison = s.poison := rfl
@[simp] theorem setCtx_cpoison (p : Nat) (c : Ctx) : (s.setCtx p c).cpoison = s.cpoison := rfl
@[simp] theorem setCtx_banks (p : Nat) (c : Ctx) : (s.setCtx p c).banks = s.banks := rfl
@[simp] theorem setCtx_lines (p : Nat) (c : Ctx) : (s.setCtx p c).lines = s.lines := rfl
@[simp] theorem setCtx_slices (p : Nat) (c : Ctx) : (s.setCtx p c).slices = s.slices := rfl
@[simp] theorem setCtx_units (p : Nat) (c : Ctx) : (s.setCtx p c).units = s.units := rfl
@[simp] theorem setCtx_groups (p : Nat) (c : Ctx) : (s.setCtx p c).groups = s.groups := rfl
@[simp] theorem setCtx_ops (p : Nat) (c : Ctx) : (s.setCtx p c).ops = s.ops := rfl
@[simp] theorem setCtx_teams (p : Nat) (c : Ctx) : (s.setCtx p c).teams = s.teams := rfl
@[simp] theorem setCtx_ctrs (p : Nat) (c : Ctx) : (s.setCtx p c).ctrs = s.ctrs := rfl
@[simp] theorem setCtx_ctrDbg (p : Nat) (c : Ctx) : (s.setCtx p c).ctrDbg = s.ctrDbg := rfl
@[simp] theorem setCtx_ctrQ (p : Nat) (c : Ctx) : (s.setCtx p c).ctrQ = s.ctrQ := rfl
@[simp] theorem setCtx_fences (p : Nat) (c : Ctx) : (s.setCtx p c).fences = s.fences := rfl
@[simp] theorem setCtx_strs (p : Nat) (c : Ctx) : (s.setCtx p c).strs = s.strs := rfl
@[simp] theorem setCtx_objs (p : Nat) (c : Ctx) : (s.setCtx p c).objs = s.objs := rfl
@[simp] theorem setCtx_rings (p : Nat) (c : Ctx) : (s.setCtx p c).rings = s.rings := rfl
@[simp] theorem setCtx_faultQ (p : Nat) (c : Ctx) : (s.setCtx p c).faultQ = s.faultQ := rfl
@[simp] theorem setCtx_ports (p : Nat) (c : Ctx) : (s.setCtx p c).ports = s.ports := rfl
@[simp] theorem setCtx_inTxn (p : Nat) (c : Ctx) : (s.setCtx p c).inTxn = s.inTxn := rfl
@[simp] theorem setCtx_arrays (p : Nat) (c : Ctx) : (s.setCtx p c).arrays = s.arrays := rfl
@[simp] theorem setCtx_vecs (p : Nat) (c : Ctx) : (s.setCtx p c).vecs = s.vecs := rfl
@[simp] theorem setCtx_cat (p : Nat) (c : Ctx) : (s.setCtx p c).cat = s.cat := rfl
@[simp] theorem setCtx_dome (p : Nat) (c : Ctx) : (s.setCtx p c).dome = s.dome := rfl
@[simp] theorem setCtx_flash (p : Nat) (c : Ctx) : (s.setCtx p c).flash = s.flash := rfl
@[simp] theorem setCtx_shares (p : Nat) (c : Ctx) : (s.setCtx p c).shares = s.shares := rfl
@[simp] theorem setCtx_xch (p : Nat) (c : Ctx) : (s.setCtx p c).xch = s.xch := rfl
@[simp] theorem setCtx_snaps (p : Nat) (c : Ctx) : (s.setCtx p c).snaps = s.snaps := rfl
@[simp] theorem setCtx_qps (p : Nat) (c : Ctx) : (s.setCtx p c).qps = s.qps := rfl
@[simp] theorem setCtx_eth (p : Nat) (c : Ctx) : (s.setCtx p c).eth = s.eth := rfl
@[simp] theorem setCtx_stores (p : Nat) (c : Ctx) : (s.setCtx p c).stores = s.stores := rfl
@[simp] theorem setCtx_mgmt (p : Nat) (c : Ctx) : (s.setCtx p c).mgmt = s.mgmt := rfl
@[simp] theorem setCtx_bol (p : Nat) (c : Ctx) : (s.setCtx p c).bol = s.bol := rfl

@[simp] theorem setStr_pending (p st : Nat) (x : Str) : (s.setStr p st x).pending = s.pending := rfl
@[simp] theorem setStr_free (p st : Nat) (x : Str) : (s.setStr p st x).free = s.free := rfl
@[simp] theorem setStr_nextOp (p st : Nat) (x : Str) : (s.setStr p st x).nextOp = s.nextOp := rfl
@[simp] theorem setStr_out (p st : Nat) (x : Str) : (s.setStr p st x).out = s.out := rfl
@[simp] theorem setStr_pkg (p st : Nat) (x : Str) : (s.setStr p st x).pkg = s.pkg := rfl
@[simp] theorem setStr_blocks (p st : Nat) (x : Str) : (s.setStr p st x).blocks = s.blocks := rfl
@[simp] theorem setStr_regs (p st : Nat) (x : Str) : (s.setStr p st x).regs = s.regs := rfl
@[simp] theorem setStr_latch (p st : Nat) (x : Str) : (s.setStr p st x).latch = s.latch := rfl
@[simp] theorem setStr_held (p st : Nat) (x : Str) : (s.setStr p st x).held = s.held := rfl
@[simp] theorem setStr_extents (p st : Nat) (x : Str) : (s.setStr p st x).extents = s.extents := rfl
@[simp] theorem setStr_mem (p st : Nat) (x : Str) : (s.setStr p st x).mem = s.mem := rfl
@[simp] theorem setStr_poison (p st : Nat) (x : Str) : (s.setStr p st x).poison = s.poison := rfl
@[simp] theorem setStr_cpoison (p st : Nat) (x : Str) : (s.setStr p st x).cpoison = s.cpoison := rfl
@[simp] theorem setStr_banks (p st : Nat) (x : Str) : (s.setStr p st x).banks = s.banks := rfl
@[simp] theorem setStr_lines (p st : Nat) (x : Str) : (s.setStr p st x).lines = s.lines := rfl
@[simp] theorem setStr_slices (p st : Nat) (x : Str) : (s.setStr p st x).slices = s.slices := rfl
@[simp] theorem setStr_units (p st : Nat) (x : Str) : (s.setStr p st x).units = s.units := rfl
@[simp] theorem setStr_groups (p st : Nat) (x : Str) : (s.setStr p st x).groups = s.groups := rfl
@[simp] theorem setStr_ops (p st : Nat) (x : Str) : (s.setStr p st x).ops = s.ops := rfl
@[simp] theorem setStr_teams (p st : Nat) (x : Str) : (s.setStr p st x).teams = s.teams := rfl
@[simp] theorem setStr_ctrs (p st : Nat) (x : Str) : (s.setStr p st x).ctrs = s.ctrs := rfl
@[simp] theorem setStr_ctrDbg (p st : Nat) (x : Str) : (s.setStr p st x).ctrDbg = s.ctrDbg := rfl
@[simp] theorem setStr_ctrQ (p st : Nat) (x : Str) : (s.setStr p st x).ctrQ = s.ctrQ := rfl
@[simp] theorem setStr_fences (p st : Nat) (x : Str) : (s.setStr p st x).fences = s.fences := rfl
@[simp] theorem setStr_ctx (p st : Nat) (x : Str) : (s.setStr p st x).ctx = s.ctx := rfl
@[simp] theorem setStr_objs (p st : Nat) (x : Str) : (s.setStr p st x).objs = s.objs := rfl
@[simp] theorem setStr_rings (p st : Nat) (x : Str) : (s.setStr p st x).rings = s.rings := rfl
@[simp] theorem setStr_faultQ (p st : Nat) (x : Str) : (s.setStr p st x).faultQ = s.faultQ := rfl
@[simp] theorem setStr_ports (p st : Nat) (x : Str) : (s.setStr p st x).ports = s.ports := rfl
@[simp] theorem setStr_inTxn (p st : Nat) (x : Str) : (s.setStr p st x).inTxn = s.inTxn := rfl
@[simp] theorem setStr_arrays (p st : Nat) (x : Str) : (s.setStr p st x).arrays = s.arrays := rfl
@[simp] theorem setStr_vecs (p st : Nat) (x : Str) : (s.setStr p st x).vecs = s.vecs := rfl
@[simp] theorem setStr_cat (p st : Nat) (x : Str) : (s.setStr p st x).cat = s.cat := rfl
@[simp] theorem setStr_dome (p st : Nat) (x : Str) : (s.setStr p st x).dome = s.dome := rfl
@[simp] theorem setStr_flash (p st : Nat) (x : Str) : (s.setStr p st x).flash = s.flash := rfl
@[simp] theorem setStr_shares (p st : Nat) (x : Str) : (s.setStr p st x).shares = s.shares := rfl
@[simp] theorem setStr_xch (p st : Nat) (x : Str) : (s.setStr p st x).xch = s.xch := rfl
@[simp] theorem setStr_snaps (p st : Nat) (x : Str) : (s.setStr p st x).snaps = s.snaps := rfl
@[simp] theorem setStr_qps (p st : Nat) (x : Str) : (s.setStr p st x).qps = s.qps := rfl
@[simp] theorem setStr_eth (p st : Nat) (x : Str) : (s.setStr p st x).eth = s.eth := rfl
@[simp] theorem setStr_stores (p st : Nat) (x : Str) : (s.setStr p st x).stores = s.stores := rfl
@[simp] theorem setStr_mgmt (p st : Nat) (x : Str) : (s.setStr p st x).mgmt = s.mgmt := rfl
@[simp] theorem setStr_bol (p st : Nat) (x : Str) : (s.setStr p st x).bol = s.bol := rfl

@[simp] theorem modCmd_pending (p st idx : Nat) (f : Cmd → Cmd) : (s.modCmd p st idx f).pending = s.pending := rfl
@[simp] theorem modCmd_free (p st idx : Nat) (f : Cmd → Cmd) : (s.modCmd p st idx f).free = s.free := rfl
@[simp] theorem modCmd_nextOp (p st idx : Nat) (f : Cmd → Cmd) : (s.modCmd p st idx f).nextOp = s.nextOp := rfl
@[simp] theorem modCmd_out (p st idx : Nat) (f : Cmd → Cmd) : (s.modCmd p st idx f).out = s.out := rfl
@[simp] theorem modCmd_pkg (p st idx : Nat) (f : Cmd → Cmd) : (s.modCmd p st idx f).pkg = s.pkg := rfl
@[simp] theorem modCmd_blocks (p st idx : Nat) (f : Cmd → Cmd) : (s.modCmd p st idx f).blocks = s.blocks := rfl
@[simp] theorem modCmd_regs (p st idx : Nat) (f : Cmd → Cmd) : (s.modCmd p st idx f).regs = s.regs := rfl
@[simp] theorem modCmd_latch (p st idx : Nat) (f : Cmd → Cmd) : (s.modCmd p st idx f).latch = s.latch := rfl
@[simp] theorem modCmd_held (p st idx : Nat) (f : Cmd → Cmd) : (s.modCmd p st idx f).held = s.held := rfl
@[simp] theorem modCmd_extents (p st idx : Nat) (f : Cmd → Cmd) : (s.modCmd p st idx f).extents = s.extents := rfl
@[simp] theorem modCmd_mem (p st idx : Nat) (f : Cmd → Cmd) : (s.modCmd p st idx f).mem = s.mem := rfl
@[simp] theorem modCmd_poison (p st idx : Nat) (f : Cmd → Cmd) : (s.modCmd p st idx f).poison = s.poison := rfl
@[simp] theorem modCmd_cpoison (p st idx : Nat) (f : Cmd → Cmd) : (s.modCmd p st idx f).cpoison = s.cpoison := rfl
@[simp] theorem modCmd_banks (p st idx : Nat) (f : Cmd → Cmd) : (s.modCmd p st idx f).banks = s.banks := rfl
@[simp] theorem modCmd_lines (p st idx : Nat) (f : Cmd → Cmd) : (s.modCmd p st idx f).lines = s.lines := rfl
@[simp] theorem modCmd_slices (p st idx : Nat) (f : Cmd → Cmd) : (s.modCmd p st idx f).slices = s.slices := rfl
@[simp] theorem modCmd_units (p st idx : Nat) (f : Cmd → Cmd) : (s.modCmd p st idx f).units = s.units := rfl
@[simp] theorem modCmd_groups (p st idx : Nat) (f : Cmd → Cmd) : (s.modCmd p st idx f).groups = s.groups := rfl
@[simp] theorem modCmd_ops (p st idx : Nat) (f : Cmd → Cmd) : (s.modCmd p st idx f).ops = s.ops := rfl
@[simp] theorem modCmd_teams (p st idx : Nat) (f : Cmd → Cmd) : (s.modCmd p st idx f).teams = s.teams := rfl
@[simp] theorem modCmd_ctrs (p st idx : Nat) (f : Cmd → Cmd) : (s.modCmd p st idx f).ctrs = s.ctrs := rfl
@[simp] theorem modCmd_ctrDbg (p st idx : Nat) (f : Cmd → Cmd) : (s.modCmd p st idx f).ctrDbg = s.ctrDbg := rfl
@[simp] theorem modCmd_ctrQ (p st idx : Nat) (f : Cmd → Cmd) : (s.modCmd p st idx f).ctrQ = s.ctrQ := rfl
@[simp] theorem modCmd_fences (p st idx : Nat) (f : Cmd → Cmd) : (s.modCmd p st idx f).fences = s.fences := rfl
@[simp] theorem modCmd_ctx (p st idx : Nat) (f : Cmd → Cmd) : (s.modCmd p st idx f).ctx = s.ctx := rfl
@[simp] theorem modCmd_objs (p st idx : Nat) (f : Cmd → Cmd) : (s.modCmd p st idx f).objs = s.objs := rfl
@[simp] theorem modCmd_rings (p st idx : Nat) (f : Cmd → Cmd) : (s.modCmd p st idx f).rings = s.rings := rfl
@[simp] theorem modCmd_faultQ (p st idx : Nat) (f : Cmd → Cmd) : (s.modCmd p st idx f).faultQ = s.faultQ := rfl
@[simp] theorem modCmd_ports (p st idx : Nat) (f : Cmd → Cmd) : (s.modCmd p st idx f).ports = s.ports := rfl
@[simp] theorem modCmd_inTxn (p st idx : Nat) (f : Cmd → Cmd) : (s.modCmd p st idx f).inTxn = s.inTxn := rfl
@[simp] theorem modCmd_arrays (p st idx : Nat) (f : Cmd → Cmd) : (s.modCmd p st idx f).arrays = s.arrays := rfl
@[simp] theorem modCmd_vecs (p st idx : Nat) (f : Cmd → Cmd) : (s.modCmd p st idx f).vecs = s.vecs := rfl
@[simp] theorem modCmd_cat (p st idx : Nat) (f : Cmd → Cmd) : (s.modCmd p st idx f).cat = s.cat := rfl
@[simp] theorem modCmd_dome (p st idx : Nat) (f : Cmd → Cmd) : (s.modCmd p st idx f).dome = s.dome := rfl
@[simp] theorem modCmd_flash (p st idx : Nat) (f : Cmd → Cmd) : (s.modCmd p st idx f).flash = s.flash := rfl
@[simp] theorem modCmd_shares (p st idx : Nat) (f : Cmd → Cmd) : (s.modCmd p st idx f).shares = s.shares := rfl
@[simp] theorem modCmd_xch (p st idx : Nat) (f : Cmd → Cmd) : (s.modCmd p st idx f).xch = s.xch := rfl
@[simp] theorem modCmd_snaps (p st idx : Nat) (f : Cmd → Cmd) : (s.modCmd p st idx f).snaps = s.snaps := rfl
@[simp] theorem modCmd_qps (p st idx : Nat) (f : Cmd → Cmd) : (s.modCmd p st idx f).qps = s.qps := rfl
@[simp] theorem modCmd_eth (p st idx : Nat) (f : Cmd → Cmd) : (s.modCmd p st idx f).eth = s.eth := rfl
@[simp] theorem modCmd_stores (p st idx : Nat) (f : Cmd → Cmd) : (s.modCmd p st idx f).stores = s.stores := rfl
@[simp] theorem modCmd_mgmt (p st idx : Nat) (f : Cmd → Cmd) : (s.modCmd p st idx f).mgmt = s.mgmt := rfl
@[simp] theorem modCmd_bol (p st idx : Nat) (f : Cmd → Cmd) : (s.modCmd p st idx f).bol = s.bol := rfl

@[simp] theorem failCmd_pending (p st idx code : Nat) : (s.failCmd p st idx code).pending = s.pending := rfl
@[simp] theorem failCmd_free (p st idx code : Nat) : (s.failCmd p st idx code).free = s.free := rfl
@[simp] theorem failCmd_nextOp (p st idx code : Nat) : (s.failCmd p st idx code).nextOp = s.nextOp := rfl
@[simp] theorem failCmd_out (p st idx code : Nat) : (s.failCmd p st idx code).out = s.out := rfl
@[simp] theorem failCmd_pkg (p st idx code : Nat) : (s.failCmd p st idx code).pkg = s.pkg := rfl
@[simp] theorem failCmd_blocks (p st idx code : Nat) : (s.failCmd p st idx code).blocks = s.blocks := rfl
@[simp] theorem failCmd_regs (p st idx code : Nat) : (s.failCmd p st idx code).regs = s.regs := rfl
@[simp] theorem failCmd_latch (p st idx code : Nat) : (s.failCmd p st idx code).latch = s.latch := rfl
@[simp] theorem failCmd_held (p st idx code : Nat) : (s.failCmd p st idx code).held = s.held := rfl
@[simp] theorem failCmd_extents (p st idx code : Nat) : (s.failCmd p st idx code).extents = s.extents := rfl
@[simp] theorem failCmd_mem (p st idx code : Nat) : (s.failCmd p st idx code).mem = s.mem := rfl
@[simp] theorem failCmd_poison (p st idx code : Nat) : (s.failCmd p st idx code).poison = s.poison := rfl
@[simp] theorem failCmd_cpoison (p st idx code : Nat) : (s.failCmd p st idx code).cpoison = s.cpoison := rfl
@[simp] theorem failCmd_banks (p st idx code : Nat) : (s.failCmd p st idx code).banks = s.banks := rfl
@[simp] theorem failCmd_lines (p st idx code : Nat) : (s.failCmd p st idx code).lines = s.lines := rfl
@[simp] theorem failCmd_slices (p st idx code : Nat) : (s.failCmd p st idx code).slices = s.slices := rfl
@[simp] theorem failCmd_units (p st idx code : Nat) : (s.failCmd p st idx code).units = s.units := rfl
@[simp] theorem failCmd_groups (p st idx code : Nat) : (s.failCmd p st idx code).groups = s.groups := rfl
@[simp] theorem failCmd_ops (p st idx code : Nat) : (s.failCmd p st idx code).ops = s.ops := rfl
@[simp] theorem failCmd_teams (p st idx code : Nat) : (s.failCmd p st idx code).teams = s.teams := rfl
@[simp] theorem failCmd_ctrs (p st idx code : Nat) : (s.failCmd p st idx code).ctrs = s.ctrs := rfl
@[simp] theorem failCmd_ctrDbg (p st idx code : Nat) : (s.failCmd p st idx code).ctrDbg = s.ctrDbg := rfl
@[simp] theorem failCmd_ctrQ (p st idx code : Nat) : (s.failCmd p st idx code).ctrQ = s.ctrQ := rfl
@[simp] theorem failCmd_fences (p st idx code : Nat) : (s.failCmd p st idx code).fences = s.fences := rfl
@[simp] theorem failCmd_ctx (p st idx code : Nat) : (s.failCmd p st idx code).ctx = s.ctx := rfl
@[simp] theorem failCmd_objs (p st idx code : Nat) : (s.failCmd p st idx code).objs = s.objs := rfl
@[simp] theorem failCmd_rings (p st idx code : Nat) : (s.failCmd p st idx code).rings = s.rings := rfl
@[simp] theorem failCmd_faultQ (p st idx code : Nat) : (s.failCmd p st idx code).faultQ = s.faultQ := rfl
@[simp] theorem failCmd_ports (p st idx code : Nat) : (s.failCmd p st idx code).ports = s.ports := rfl
@[simp] theorem failCmd_inTxn (p st idx code : Nat) : (s.failCmd p st idx code).inTxn = s.inTxn := rfl
@[simp] theorem failCmd_arrays (p st idx code : Nat) : (s.failCmd p st idx code).arrays = s.arrays := rfl
@[simp] theorem failCmd_vecs (p st idx code : Nat) : (s.failCmd p st idx code).vecs = s.vecs := rfl
@[simp] theorem failCmd_cat (p st idx code : Nat) : (s.failCmd p st idx code).cat = s.cat := rfl
@[simp] theorem failCmd_dome (p st idx code : Nat) : (s.failCmd p st idx code).dome = s.dome := rfl
@[simp] theorem failCmd_flash (p st idx code : Nat) : (s.failCmd p st idx code).flash = s.flash := rfl
@[simp] theorem failCmd_shares (p st idx code : Nat) : (s.failCmd p st idx code).shares = s.shares := rfl
@[simp] theorem failCmd_xch (p st idx code : Nat) : (s.failCmd p st idx code).xch = s.xch := rfl
@[simp] theorem failCmd_snaps (p st idx code : Nat) : (s.failCmd p st idx code).snaps = s.snaps := rfl
@[simp] theorem failCmd_qps (p st idx code : Nat) : (s.failCmd p st idx code).qps = s.qps := rfl
@[simp] theorem failCmd_eth (p st idx code : Nat) : (s.failCmd p st idx code).eth = s.eth := rfl
@[simp] theorem failCmd_stores (p st idx code : Nat) : (s.failCmd p st idx code).stores = s.stores := rfl
@[simp] theorem failCmd_mgmt (p st idx code : Nat) : (s.failCmd p st idx code).mgmt = s.mgmt := rfl
@[simp] theorem failCmd_bol (p st idx code : Nat) : (s.failCmd p st idx code).bol = s.bol := rfl

@[simp] theorem report_pending (p : Nat) (r : FaultRec) : (s.report p r).pending = s.pending := rfl
@[simp] theorem report_free (p : Nat) (r : FaultRec) : (s.report p r).free = s.free := rfl
@[simp] theorem report_nextOp (p : Nat) (r : FaultRec) : (s.report p r).nextOp = s.nextOp := rfl
@[simp] theorem report_out (p : Nat) (r : FaultRec) : (s.report p r).out = s.out := rfl
@[simp] theorem report_pkg (p : Nat) (r : FaultRec) : (s.report p r).pkg = s.pkg := rfl
@[simp] theorem report_blocks (p : Nat) (r : FaultRec) : (s.report p r).blocks = s.blocks := rfl
@[simp] theorem report_regs (p : Nat) (r : FaultRec) : (s.report p r).regs = s.regs := rfl
@[simp] theorem report_latch (p : Nat) (r : FaultRec) : (s.report p r).latch = s.latch := rfl
@[simp] theorem report_held (p : Nat) (r : FaultRec) : (s.report p r).held = s.held := rfl
@[simp] theorem report_extents (p : Nat) (r : FaultRec) : (s.report p r).extents = s.extents := rfl
@[simp] theorem report_mem (p : Nat) (r : FaultRec) : (s.report p r).mem = s.mem := rfl
@[simp] theorem report_poison (p : Nat) (r : FaultRec) : (s.report p r).poison = s.poison := rfl
@[simp] theorem report_cpoison (p : Nat) (r : FaultRec) : (s.report p r).cpoison = s.cpoison := rfl
@[simp] theorem report_banks (p : Nat) (r : FaultRec) : (s.report p r).banks = s.banks := rfl
@[simp] theorem report_lines (p : Nat) (r : FaultRec) : (s.report p r).lines = s.lines := rfl
@[simp] theorem report_slices (p : Nat) (r : FaultRec) : (s.report p r).slices = s.slices := rfl
@[simp] theorem report_units (p : Nat) (r : FaultRec) : (s.report p r).units = s.units := rfl
@[simp] theorem report_groups (p : Nat) (r : FaultRec) : (s.report p r).groups = s.groups := rfl
@[simp] theorem report_ops (p : Nat) (r : FaultRec) : (s.report p r).ops = s.ops := rfl
@[simp] theorem report_teams (p : Nat) (r : FaultRec) : (s.report p r).teams = s.teams := rfl
@[simp] theorem report_ctrs (p : Nat) (r : FaultRec) : (s.report p r).ctrs = s.ctrs := rfl
@[simp] theorem report_ctrDbg (p : Nat) (r : FaultRec) : (s.report p r).ctrDbg = s.ctrDbg := rfl
@[simp] theorem report_ctrQ (p : Nat) (r : FaultRec) : (s.report p r).ctrQ = s.ctrQ := rfl
@[simp] theorem report_fences (p : Nat) (r : FaultRec) : (s.report p r).fences = s.fences := rfl
@[simp] theorem report_ctx (p : Nat) (r : FaultRec) : (s.report p r).ctx = s.ctx := rfl
@[simp] theorem report_strs (p : Nat) (r : FaultRec) : (s.report p r).strs = s.strs := rfl
@[simp] theorem report_objs (p : Nat) (r : FaultRec) : (s.report p r).objs = s.objs := rfl
@[simp] theorem report_rings (p : Nat) (r : FaultRec) : (s.report p r).rings = s.rings := rfl
@[simp] theorem report_ports (p : Nat) (r : FaultRec) : (s.report p r).ports = s.ports := rfl
@[simp] theorem report_inTxn (p : Nat) (r : FaultRec) : (s.report p r).inTxn = s.inTxn := rfl
@[simp] theorem report_arrays (p : Nat) (r : FaultRec) : (s.report p r).arrays = s.arrays := rfl
@[simp] theorem report_vecs (p : Nat) (r : FaultRec) : (s.report p r).vecs = s.vecs := rfl
@[simp] theorem report_cat (p : Nat) (r : FaultRec) : (s.report p r).cat = s.cat := rfl
@[simp] theorem report_dome (p : Nat) (r : FaultRec) : (s.report p r).dome = s.dome := rfl
@[simp] theorem report_flash (p : Nat) (r : FaultRec) : (s.report p r).flash = s.flash := rfl
@[simp] theorem report_shares (p : Nat) (r : FaultRec) : (s.report p r).shares = s.shares := rfl
@[simp] theorem report_xch (p : Nat) (r : FaultRec) : (s.report p r).xch = s.xch := rfl
@[simp] theorem report_snaps (p : Nat) (r : FaultRec) : (s.report p r).snaps = s.snaps := rfl
@[simp] theorem report_qps (p : Nat) (r : FaultRec) : (s.report p r).qps = s.qps := rfl
@[simp] theorem report_eth (p : Nat) (r : FaultRec) : (s.report p r).eth = s.eth := rfl
@[simp] theorem report_stores (p : Nat) (r : FaultRec) : (s.report p r).stores = s.stores := rfl
@[simp] theorem report_mgmt (p : Nat) (r : FaultRec) : (s.report p r).mgmt = s.mgmt := rfl
@[simp] theorem report_bol (p : Nat) (r : FaultRec) : (s.report p r).bol = s.bol := rfl

@[simp] theorem emit_pending (o : Output) : (s.emit o).pending = s.pending := rfl
@[simp] theorem emit_free (o : Output) : (s.emit o).free = s.free := rfl
@[simp] theorem emit_nextOp (o : Output) : (s.emit o).nextOp = s.nextOp := rfl
@[simp] theorem emit_pkg (o : Output) : (s.emit o).pkg = s.pkg := rfl
@[simp] theorem emit_blocks (o : Output) : (s.emit o).blocks = s.blocks := rfl
@[simp] theorem emit_regs (o : Output) : (s.emit o).regs = s.regs := rfl
@[simp] theorem emit_latch (o : Output) : (s.emit o).latch = s.latch := rfl
@[simp] theorem emit_held (o : Output) : (s.emit o).held = s.held := rfl
@[simp] theorem emit_extents (o : Output) : (s.emit o).extents = s.extents := rfl
@[simp] theorem emit_mem (o : Output) : (s.emit o).mem = s.mem := rfl
@[simp] theorem emit_poison (o : Output) : (s.emit o).poison = s.poison := rfl
@[simp] theorem emit_cpoison (o : Output) : (s.emit o).cpoison = s.cpoison := rfl
@[simp] theorem emit_banks (o : Output) : (s.emit o).banks = s.banks := rfl
@[simp] theorem emit_lines (o : Output) : (s.emit o).lines = s.lines := rfl
@[simp] theorem emit_slices (o : Output) : (s.emit o).slices = s.slices := rfl
@[simp] theorem emit_units (o : Output) : (s.emit o).units = s.units := rfl
@[simp] theorem emit_groups (o : Output) : (s.emit o).groups = s.groups := rfl
@[simp] theorem emit_ops (o : Output) : (s.emit o).ops = s.ops := rfl
@[simp] theorem emit_teams (o : Output) : (s.emit o).teams = s.teams := rfl
@[simp] theorem emit_ctrs (o : Output) : (s.emit o).ctrs = s.ctrs := rfl
@[simp] theorem emit_ctrDbg (o : Output) : (s.emit o).ctrDbg = s.ctrDbg := rfl
@[simp] theorem emit_ctrQ (o : Output) : (s.emit o).ctrQ = s.ctrQ := rfl
@[simp] theorem emit_fences (o : Output) : (s.emit o).fences = s.fences := rfl
@[simp] theorem emit_ctx (o : Output) : (s.emit o).ctx = s.ctx := rfl
@[simp] theorem emit_strs (o : Output) : (s.emit o).strs = s.strs := rfl
@[simp] theorem emit_objs (o : Output) : (s.emit o).objs = s.objs := rfl
@[simp] theorem emit_rings (o : Output) : (s.emit o).rings = s.rings := rfl
@[simp] theorem emit_faultQ (o : Output) : (s.emit o).faultQ = s.faultQ := rfl
@[simp] theorem emit_ports (o : Output) : (s.emit o).ports = s.ports := rfl
@[simp] theorem emit_inTxn (o : Output) : (s.emit o).inTxn = s.inTxn := rfl
@[simp] theorem emit_arrays (o : Output) : (s.emit o).arrays = s.arrays := rfl
@[simp] theorem emit_vecs (o : Output) : (s.emit o).vecs = s.vecs := rfl
@[simp] theorem emit_cat (o : Output) : (s.emit o).cat = s.cat := rfl
@[simp] theorem emit_dome (o : Output) : (s.emit o).dome = s.dome := rfl
@[simp] theorem emit_flash (o : Output) : (s.emit o).flash = s.flash := rfl
@[simp] theorem emit_shares (o : Output) : (s.emit o).shares = s.shares := rfl
@[simp] theorem emit_xch (o : Output) : (s.emit o).xch = s.xch := rfl
@[simp] theorem emit_snaps (o : Output) : (s.emit o).snaps = s.snaps := rfl
@[simp] theorem emit_qps (o : Output) : (s.emit o).qps = s.qps := rfl
@[simp] theorem emit_eth (o : Output) : (s.emit o).eth = s.eth := rfl
@[simp] theorem emit_stores (o : Output) : (s.emit o).stores = s.stores := rfl
@[simp] theorem emit_mgmt (o : Output) : (s.emit o).mgmt = s.mgmt := rfl
@[simp] theorem emit_bol (o : Output) : (s.emit o).bol = s.bol := rfl

@[simp] theorem setLine_pending (lpa : Nat) (l : L2Line) : (s.setLine lpa l).pending = s.pending := rfl
@[simp] theorem setLine_free (lpa : Nat) (l : L2Line) : (s.setLine lpa l).free = s.free := rfl
@[simp] theorem setLine_nextOp (lpa : Nat) (l : L2Line) : (s.setLine lpa l).nextOp = s.nextOp := rfl
@[simp] theorem setLine_out (lpa : Nat) (l : L2Line) : (s.setLine lpa l).out = s.out := rfl
@[simp] theorem setLine_pkg (lpa : Nat) (l : L2Line) : (s.setLine lpa l).pkg = s.pkg := rfl
@[simp] theorem setLine_blocks (lpa : Nat) (l : L2Line) : (s.setLine lpa l).blocks = s.blocks := rfl
@[simp] theorem setLine_regs (lpa : Nat) (l : L2Line) : (s.setLine lpa l).regs = s.regs := rfl
@[simp] theorem setLine_latch (lpa : Nat) (l : L2Line) : (s.setLine lpa l).latch = s.latch := rfl
@[simp] theorem setLine_held (lpa : Nat) (l : L2Line) : (s.setLine lpa l).held = s.held := rfl
@[simp] theorem setLine_extents (lpa : Nat) (l : L2Line) : (s.setLine lpa l).extents = s.extents := rfl
@[simp] theorem setLine_mem (lpa : Nat) (l : L2Line) : (s.setLine lpa l).mem = s.mem := rfl
@[simp] theorem setLine_poison (lpa : Nat) (l : L2Line) : (s.setLine lpa l).poison = s.poison := rfl
@[simp] theorem setLine_cpoison (lpa : Nat) (l : L2Line) : (s.setLine lpa l).cpoison = s.cpoison := rfl
@[simp] theorem setLine_banks (lpa : Nat) (l : L2Line) : (s.setLine lpa l).banks = s.banks := rfl
@[simp] theorem setLine_slices (lpa : Nat) (l : L2Line) : (s.setLine lpa l).slices = s.slices := rfl
@[simp] theorem setLine_units (lpa : Nat) (l : L2Line) : (s.setLine lpa l).units = s.units := rfl
@[simp] theorem setLine_groups (lpa : Nat) (l : L2Line) : (s.setLine lpa l).groups = s.groups := rfl
@[simp] theorem setLine_ops (lpa : Nat) (l : L2Line) : (s.setLine lpa l).ops = s.ops := rfl
@[simp] theorem setLine_teams (lpa : Nat) (l : L2Line) : (s.setLine lpa l).teams = s.teams := rfl
@[simp] theorem setLine_ctrs (lpa : Nat) (l : L2Line) : (s.setLine lpa l).ctrs = s.ctrs := rfl
@[simp] theorem setLine_ctrDbg (lpa : Nat) (l : L2Line) : (s.setLine lpa l).ctrDbg = s.ctrDbg := rfl
@[simp] theorem setLine_ctrQ (lpa : Nat) (l : L2Line) : (s.setLine lpa l).ctrQ = s.ctrQ := rfl
@[simp] theorem setLine_fences (lpa : Nat) (l : L2Line) : (s.setLine lpa l).fences = s.fences := rfl
@[simp] theorem setLine_ctx (lpa : Nat) (l : L2Line) : (s.setLine lpa l).ctx = s.ctx := rfl
@[simp] theorem setLine_strs (lpa : Nat) (l : L2Line) : (s.setLine lpa l).strs = s.strs := rfl
@[simp] theorem setLine_objs (lpa : Nat) (l : L2Line) : (s.setLine lpa l).objs = s.objs := rfl
@[simp] theorem setLine_rings (lpa : Nat) (l : L2Line) : (s.setLine lpa l).rings = s.rings := rfl
@[simp] theorem setLine_faultQ (lpa : Nat) (l : L2Line) : (s.setLine lpa l).faultQ = s.faultQ := rfl
@[simp] theorem setLine_ports (lpa : Nat) (l : L2Line) : (s.setLine lpa l).ports = s.ports := rfl
@[simp] theorem setLine_inTxn (lpa : Nat) (l : L2Line) : (s.setLine lpa l).inTxn = s.inTxn := rfl
@[simp] theorem setLine_arrays (lpa : Nat) (l : L2Line) : (s.setLine lpa l).arrays = s.arrays := rfl
@[simp] theorem setLine_vecs (lpa : Nat) (l : L2Line) : (s.setLine lpa l).vecs = s.vecs := rfl
@[simp] theorem setLine_cat (lpa : Nat) (l : L2Line) : (s.setLine lpa l).cat = s.cat := rfl
@[simp] theorem setLine_dome (lpa : Nat) (l : L2Line) : (s.setLine lpa l).dome = s.dome := rfl
@[simp] theorem setLine_flash (lpa : Nat) (l : L2Line) : (s.setLine lpa l).flash = s.flash := rfl
@[simp] theorem setLine_shares (lpa : Nat) (l : L2Line) : (s.setLine lpa l).shares = s.shares := rfl
@[simp] theorem setLine_xch (lpa : Nat) (l : L2Line) : (s.setLine lpa l).xch = s.xch := rfl
@[simp] theorem setLine_snaps (lpa : Nat) (l : L2Line) : (s.setLine lpa l).snaps = s.snaps := rfl
@[simp] theorem setLine_qps (lpa : Nat) (l : L2Line) : (s.setLine lpa l).qps = s.qps := rfl
@[simp] theorem setLine_eth (lpa : Nat) (l : L2Line) : (s.setLine lpa l).eth = s.eth := rfl
@[simp] theorem setLine_stores (lpa : Nat) (l : L2Line) : (s.setLine lpa l).stores = s.stores := rfl
@[simp] theorem setLine_mgmt (lpa : Nat) (l : L2Line) : (s.setLine lpa l).mgmt = s.mgmt := rfl
@[simp] theorem setLine_bol (lpa : Nat) (l : L2Line) : (s.setLine lpa l).bol = s.bol := rfl

@[simp] theorem setMem_pending (lpa : Nat) (b : Byte) : (s.setMem lpa b).pending = s.pending := rfl
@[simp] theorem setMem_free (lpa : Nat) (b : Byte) : (s.setMem lpa b).free = s.free := rfl
@[simp] theorem setMem_nextOp (lpa : Nat) (b : Byte) : (s.setMem lpa b).nextOp = s.nextOp := rfl
@[simp] theorem setMem_out (lpa : Nat) (b : Byte) : (s.setMem lpa b).out = s.out := rfl
@[simp] theorem setMem_pkg (lpa : Nat) (b : Byte) : (s.setMem lpa b).pkg = s.pkg := rfl
@[simp] theorem setMem_blocks (lpa : Nat) (b : Byte) : (s.setMem lpa b).blocks = s.blocks := rfl
@[simp] theorem setMem_regs (lpa : Nat) (b : Byte) : (s.setMem lpa b).regs = s.regs := rfl
@[simp] theorem setMem_latch (lpa : Nat) (b : Byte) : (s.setMem lpa b).latch = s.latch := rfl
@[simp] theorem setMem_held (lpa : Nat) (b : Byte) : (s.setMem lpa b).held = s.held := rfl
@[simp] theorem setMem_extents (lpa : Nat) (b : Byte) : (s.setMem lpa b).extents = s.extents := rfl
@[simp] theorem setMem_poison (lpa : Nat) (b : Byte) : (s.setMem lpa b).poison = s.poison := rfl
@[simp] theorem setMem_cpoison (lpa : Nat) (b : Byte) : (s.setMem lpa b).cpoison = s.cpoison := rfl
@[simp] theorem setMem_banks (lpa : Nat) (b : Byte) : (s.setMem lpa b).banks = s.banks := rfl
@[simp] theorem setMem_lines (lpa : Nat) (b : Byte) : (s.setMem lpa b).lines = s.lines := rfl
@[simp] theorem setMem_slices (lpa : Nat) (b : Byte) : (s.setMem lpa b).slices = s.slices := rfl
@[simp] theorem setMem_units (lpa : Nat) (b : Byte) : (s.setMem lpa b).units = s.units := rfl
@[simp] theorem setMem_groups (lpa : Nat) (b : Byte) : (s.setMem lpa b).groups = s.groups := rfl
@[simp] theorem setMem_ops (lpa : Nat) (b : Byte) : (s.setMem lpa b).ops = s.ops := rfl
@[simp] theorem setMem_teams (lpa : Nat) (b : Byte) : (s.setMem lpa b).teams = s.teams := rfl
@[simp] theorem setMem_ctrs (lpa : Nat) (b : Byte) : (s.setMem lpa b).ctrs = s.ctrs := rfl
@[simp] theorem setMem_ctrDbg (lpa : Nat) (b : Byte) : (s.setMem lpa b).ctrDbg = s.ctrDbg := rfl
@[simp] theorem setMem_ctrQ (lpa : Nat) (b : Byte) : (s.setMem lpa b).ctrQ = s.ctrQ := rfl
@[simp] theorem setMem_fences (lpa : Nat) (b : Byte) : (s.setMem lpa b).fences = s.fences := rfl
@[simp] theorem setMem_ctx (lpa : Nat) (b : Byte) : (s.setMem lpa b).ctx = s.ctx := rfl
@[simp] theorem setMem_strs (lpa : Nat) (b : Byte) : (s.setMem lpa b).strs = s.strs := rfl
@[simp] theorem setMem_objs (lpa : Nat) (b : Byte) : (s.setMem lpa b).objs = s.objs := rfl
@[simp] theorem setMem_rings (lpa : Nat) (b : Byte) : (s.setMem lpa b).rings = s.rings := rfl
@[simp] theorem setMem_faultQ (lpa : Nat) (b : Byte) : (s.setMem lpa b).faultQ = s.faultQ := rfl
@[simp] theorem setMem_ports (lpa : Nat) (b : Byte) : (s.setMem lpa b).ports = s.ports := rfl
@[simp] theorem setMem_inTxn (lpa : Nat) (b : Byte) : (s.setMem lpa b).inTxn = s.inTxn := rfl
@[simp] theorem setMem_arrays (lpa : Nat) (b : Byte) : (s.setMem lpa b).arrays = s.arrays := rfl
@[simp] theorem setMem_vecs (lpa : Nat) (b : Byte) : (s.setMem lpa b).vecs = s.vecs := rfl
@[simp] theorem setMem_cat (lpa : Nat) (b : Byte) : (s.setMem lpa b).cat = s.cat := rfl
@[simp] theorem setMem_dome (lpa : Nat) (b : Byte) : (s.setMem lpa b).dome = s.dome := rfl
@[simp] theorem setMem_flash (lpa : Nat) (b : Byte) : (s.setMem lpa b).flash = s.flash := rfl
@[simp] theorem setMem_shares (lpa : Nat) (b : Byte) : (s.setMem lpa b).shares = s.shares := rfl
@[simp] theorem setMem_xch (lpa : Nat) (b : Byte) : (s.setMem lpa b).xch = s.xch := rfl
@[simp] theorem setMem_snaps (lpa : Nat) (b : Byte) : (s.setMem lpa b).snaps = s.snaps := rfl
@[simp] theorem setMem_qps (lpa : Nat) (b : Byte) : (s.setMem lpa b).qps = s.qps := rfl
@[simp] theorem setMem_eth (lpa : Nat) (b : Byte) : (s.setMem lpa b).eth = s.eth := rfl
@[simp] theorem setMem_stores (lpa : Nat) (b : Byte) : (s.setMem lpa b).stores = s.stores := rfl
@[simp] theorem setMem_mgmt (lpa : Nat) (b : Byte) : (s.setMem lpa b).mgmt = s.mgmt := rfl
@[simp] theorem setMem_bol (lpa : Nat) (b : Byte) : (s.setMem lpa b).bol = s.bol := rfl

@[simp] theorem setCtr_pending (r n : Nat) (c : Ctr) : (s.setCtr r n c).pending = s.pending := rfl
@[simp] theorem setCtr_free (r n : Nat) (c : Ctr) : (s.setCtr r n c).free = s.free := rfl
@[simp] theorem setCtr_nextOp (r n : Nat) (c : Ctr) : (s.setCtr r n c).nextOp = s.nextOp := rfl
@[simp] theorem setCtr_out (r n : Nat) (c : Ctr) : (s.setCtr r n c).out = s.out := rfl
@[simp] theorem setCtr_pkg (r n : Nat) (c : Ctr) : (s.setCtr r n c).pkg = s.pkg := rfl
@[simp] theorem setCtr_blocks (r n : Nat) (c : Ctr) : (s.setCtr r n c).blocks = s.blocks := rfl
@[simp] theorem setCtr_regs (r n : Nat) (c : Ctr) : (s.setCtr r n c).regs = s.regs := rfl
@[simp] theorem setCtr_latch (r n : Nat) (c : Ctr) : (s.setCtr r n c).latch = s.latch := rfl
@[simp] theorem setCtr_held (r n : Nat) (c : Ctr) : (s.setCtr r n c).held = s.held := rfl
@[simp] theorem setCtr_extents (r n : Nat) (c : Ctr) : (s.setCtr r n c).extents = s.extents := rfl
@[simp] theorem setCtr_mem (r n : Nat) (c : Ctr) : (s.setCtr r n c).mem = s.mem := rfl
@[simp] theorem setCtr_poison (r n : Nat) (c : Ctr) : (s.setCtr r n c).poison = s.poison := rfl
@[simp] theorem setCtr_cpoison (r n : Nat) (c : Ctr) : (s.setCtr r n c).cpoison = s.cpoison := rfl
@[simp] theorem setCtr_banks (r n : Nat) (c : Ctr) : (s.setCtr r n c).banks = s.banks := rfl
@[simp] theorem setCtr_lines (r n : Nat) (c : Ctr) : (s.setCtr r n c).lines = s.lines := rfl
@[simp] theorem setCtr_slices (r n : Nat) (c : Ctr) : (s.setCtr r n c).slices = s.slices := rfl
@[simp] theorem setCtr_units (r n : Nat) (c : Ctr) : (s.setCtr r n c).units = s.units := rfl
@[simp] theorem setCtr_groups (r n : Nat) (c : Ctr) : (s.setCtr r n c).groups = s.groups := rfl
@[simp] theorem setCtr_ops (r n : Nat) (c : Ctr) : (s.setCtr r n c).ops = s.ops := rfl
@[simp] theorem setCtr_teams (r n : Nat) (c : Ctr) : (s.setCtr r n c).teams = s.teams := rfl
@[simp] theorem setCtr_ctrDbg (r n : Nat) (c : Ctr) : (s.setCtr r n c).ctrDbg = s.ctrDbg := rfl
@[simp] theorem setCtr_ctrQ (r n : Nat) (c : Ctr) : (s.setCtr r n c).ctrQ = s.ctrQ := rfl
@[simp] theorem setCtr_fences (r n : Nat) (c : Ctr) : (s.setCtr r n c).fences = s.fences := rfl
@[simp] theorem setCtr_ctx (r n : Nat) (c : Ctr) : (s.setCtr r n c).ctx = s.ctx := rfl
@[simp] theorem setCtr_strs (r n : Nat) (c : Ctr) : (s.setCtr r n c).strs = s.strs := rfl
@[simp] theorem setCtr_objs (r n : Nat) (c : Ctr) : (s.setCtr r n c).objs = s.objs := rfl
@[simp] theorem setCtr_rings (r n : Nat) (c : Ctr) : (s.setCtr r n c).rings = s.rings := rfl
@[simp] theorem setCtr_faultQ (r n : Nat) (c : Ctr) : (s.setCtr r n c).faultQ = s.faultQ := rfl
@[simp] theorem setCtr_ports (r n : Nat) (c : Ctr) : (s.setCtr r n c).ports = s.ports := rfl
@[simp] theorem setCtr_inTxn (r n : Nat) (c : Ctr) : (s.setCtr r n c).inTxn = s.inTxn := rfl
@[simp] theorem setCtr_arrays (r n : Nat) (c : Ctr) : (s.setCtr r n c).arrays = s.arrays := rfl
@[simp] theorem setCtr_vecs (r n : Nat) (c : Ctr) : (s.setCtr r n c).vecs = s.vecs := rfl
@[simp] theorem setCtr_cat (r n : Nat) (c : Ctr) : (s.setCtr r n c).cat = s.cat := rfl
@[simp] theorem setCtr_dome (r n : Nat) (c : Ctr) : (s.setCtr r n c).dome = s.dome := rfl
@[simp] theorem setCtr_flash (r n : Nat) (c : Ctr) : (s.setCtr r n c).flash = s.flash := rfl
@[simp] theorem setCtr_shares (r n : Nat) (c : Ctr) : (s.setCtr r n c).shares = s.shares := rfl
@[simp] theorem setCtr_xch (r n : Nat) (c : Ctr) : (s.setCtr r n c).xch = s.xch := rfl
@[simp] theorem setCtr_snaps (r n : Nat) (c : Ctr) : (s.setCtr r n c).snaps = s.snaps := rfl
@[simp] theorem setCtr_qps (r n : Nat) (c : Ctr) : (s.setCtr r n c).qps = s.qps := rfl
@[simp] theorem setCtr_eth (r n : Nat) (c : Ctr) : (s.setCtr r n c).eth = s.eth := rfl
@[simp] theorem setCtr_stores (r n : Nat) (c : Ctr) : (s.setCtr r n c).stores = s.stores := rfl
@[simp] theorem setCtr_mgmt (r n : Nat) (c : Ctr) : (s.setCtr r n c).mgmt = s.mgmt := rfl
@[simp] theorem setCtr_bol (r n : Nat) (c : Ctr) : (s.setCtr r n c).bol = s.bol := rfl

@[simp] theorem draw_pending : s.draw.2.pending = s.pending := rfl
@[simp] theorem draw_nextOp : s.draw.2.nextOp = s.nextOp := rfl
@[simp] theorem draw_out : s.draw.2.out = s.out := rfl
@[simp] theorem draw_pkg : s.draw.2.pkg = s.pkg := rfl
@[simp] theorem draw_blocks : s.draw.2.blocks = s.blocks := rfl
@[simp] theorem draw_regs : s.draw.2.regs = s.regs := rfl
@[simp] theorem draw_latch : s.draw.2.latch = s.latch := rfl
@[simp] theorem draw_held : s.draw.2.held = s.held := rfl
@[simp] theorem draw_extents : s.draw.2.extents = s.extents := rfl
@[simp] theorem draw_mem : s.draw.2.mem = s.mem := rfl
@[simp] theorem draw_poison : s.draw.2.poison = s.poison := rfl
@[simp] theorem draw_cpoison : s.draw.2.cpoison = s.cpoison := rfl
@[simp] theorem draw_banks : s.draw.2.banks = s.banks := rfl
@[simp] theorem draw_lines : s.draw.2.lines = s.lines := rfl
@[simp] theorem draw_slices : s.draw.2.slices = s.slices := rfl
@[simp] theorem draw_units : s.draw.2.units = s.units := rfl
@[simp] theorem draw_groups : s.draw.2.groups = s.groups := rfl
@[simp] theorem draw_ops : s.draw.2.ops = s.ops := rfl
@[simp] theorem draw_teams : s.draw.2.teams = s.teams := rfl
@[simp] theorem draw_ctrs : s.draw.2.ctrs = s.ctrs := rfl
@[simp] theorem draw_ctrDbg : s.draw.2.ctrDbg = s.ctrDbg := rfl
@[simp] theorem draw_ctrQ : s.draw.2.ctrQ = s.ctrQ := rfl
@[simp] theorem draw_fences : s.draw.2.fences = s.fences := rfl
@[simp] theorem draw_ctx : s.draw.2.ctx = s.ctx := rfl
@[simp] theorem draw_strs : s.draw.2.strs = s.strs := rfl
@[simp] theorem draw_objs : s.draw.2.objs = s.objs := rfl
@[simp] theorem draw_rings : s.draw.2.rings = s.rings := rfl
@[simp] theorem draw_faultQ : s.draw.2.faultQ = s.faultQ := rfl
@[simp] theorem draw_ports : s.draw.2.ports = s.ports := rfl
@[simp] theorem draw_inTxn : s.draw.2.inTxn = s.inTxn := rfl
@[simp] theorem draw_arrays : s.draw.2.arrays = s.arrays := rfl
@[simp] theorem draw_vecs : s.draw.2.vecs = s.vecs := rfl
@[simp] theorem draw_cat : s.draw.2.cat = s.cat := rfl
@[simp] theorem draw_dome : s.draw.2.dome = s.dome := rfl
@[simp] theorem draw_flash : s.draw.2.flash = s.flash := rfl
@[simp] theorem draw_shares : s.draw.2.shares = s.shares := rfl
@[simp] theorem draw_xch : s.draw.2.xch = s.xch := rfl
@[simp] theorem draw_snaps : s.draw.2.snaps = s.snaps := rfl
@[simp] theorem draw_qps : s.draw.2.qps = s.qps := rfl
@[simp] theorem draw_eth : s.draw.2.eth = s.eth := rfl
@[simp] theorem draw_stores : s.draw.2.stores = s.stores := rfl
@[simp] theorem draw_mgmt : s.draw.2.mgmt = s.mgmt := rfl
@[simp] theorem draw_bol : s.draw.2.bol = s.bol := rfl
@[simp] theorem draw_free : s.draw.2.free = s.free + 1 := rfl

@[simp] theorem bump_pending (a : RegAddr) (n : Nat) : (s.bump a n).pending = s.pending := by
  unfold bump; split <;> rfl
@[simp] theorem bump_free (a : RegAddr) (n : Nat) : (s.bump a n).free = s.free := by
  unfold bump; split <;> rfl
@[simp] theorem bump_nextOp (a : RegAddr) (n : Nat) : (s.bump a n).nextOp = s.nextOp := by
  unfold bump; split <;> rfl
@[simp] theorem bump_out (a : RegAddr) (n : Nat) : (s.bump a n).out = s.out := by
  unfold bump; split <;> rfl
@[simp] theorem bump_pkg (a : RegAddr) (n : Nat) : (s.bump a n).pkg = s.pkg := by
  unfold bump; split <;> rfl
@[simp] theorem bump_blocks (a : RegAddr) (n : Nat) : (s.bump a n).blocks = s.blocks := by
  unfold bump; split <;> rfl
@[simp] theorem bump_latch (a : RegAddr) (n : Nat) : (s.bump a n).latch = s.latch := by
  unfold bump; split <;> rfl
@[simp] theorem bump_held (a : RegAddr) (n : Nat) : (s.bump a n).held = s.held := by
  unfold bump; split <;> rfl
@[simp] theorem bump_extents (a : RegAddr) (n : Nat) : (s.bump a n).extents = s.extents := by
  unfold bump; split <;> rfl
@[simp] theorem bump_mem (a : RegAddr) (n : Nat) : (s.bump a n).mem = s.mem := by
  unfold bump; split <;> rfl
@[simp] theorem bump_poison (a : RegAddr) (n : Nat) : (s.bump a n).poison = s.poison := by
  unfold bump; split <;> rfl
@[simp] theorem bump_cpoison (a : RegAddr) (n : Nat) : (s.bump a n).cpoison = s.cpoison := by
  unfold bump; split <;> rfl
@[simp] theorem bump_banks (a : RegAddr) (n : Nat) : (s.bump a n).banks = s.banks := by
  unfold bump; split <;> rfl
@[simp] theorem bump_lines (a : RegAddr) (n : Nat) : (s.bump a n).lines = s.lines := by
  unfold bump; split <;> rfl
@[simp] theorem bump_slices (a : RegAddr) (n : Nat) : (s.bump a n).slices = s.slices := by
  unfold bump; split <;> rfl
@[simp] theorem bump_units (a : RegAddr) (n : Nat) : (s.bump a n).units = s.units := by
  unfold bump; split <;> rfl
@[simp] theorem bump_groups (a : RegAddr) (n : Nat) : (s.bump a n).groups = s.groups := by
  unfold bump; split <;> rfl
@[simp] theorem bump_ops (a : RegAddr) (n : Nat) : (s.bump a n).ops = s.ops := by
  unfold bump; split <;> rfl
@[simp] theorem bump_teams (a : RegAddr) (n : Nat) : (s.bump a n).teams = s.teams := by
  unfold bump; split <;> rfl
@[simp] theorem bump_ctrs (a : RegAddr) (n : Nat) : (s.bump a n).ctrs = s.ctrs := by
  unfold bump; split <;> rfl
@[simp] theorem bump_ctrDbg (a : RegAddr) (n : Nat) : (s.bump a n).ctrDbg = s.ctrDbg := by
  unfold bump; split <;> rfl
@[simp] theorem bump_ctrQ (a : RegAddr) (n : Nat) : (s.bump a n).ctrQ = s.ctrQ := by
  unfold bump; split <;> rfl
@[simp] theorem bump_fences (a : RegAddr) (n : Nat) : (s.bump a n).fences = s.fences := by
  unfold bump; split <;> rfl
@[simp] theorem bump_ctx (a : RegAddr) (n : Nat) : (s.bump a n).ctx = s.ctx := by
  unfold bump; split <;> rfl
@[simp] theorem bump_strs (a : RegAddr) (n : Nat) : (s.bump a n).strs = s.strs := by
  unfold bump; split <;> rfl
@[simp] theorem bump_objs (a : RegAddr) (n : Nat) : (s.bump a n).objs = s.objs := by
  unfold bump; split <;> rfl
@[simp] theorem bump_rings (a : RegAddr) (n : Nat) : (s.bump a n).rings = s.rings := by
  unfold bump; split <;> rfl
@[simp] theorem bump_faultQ (a : RegAddr) (n : Nat) : (s.bump a n).faultQ = s.faultQ := by
  unfold bump; split <;> rfl
@[simp] theorem bump_ports (a : RegAddr) (n : Nat) : (s.bump a n).ports = s.ports := by
  unfold bump; split <;> rfl
@[simp] theorem bump_inTxn (a : RegAddr) (n : Nat) : (s.bump a n).inTxn = s.inTxn := by
  unfold bump; split <;> rfl
@[simp] theorem bump_arrays (a : RegAddr) (n : Nat) : (s.bump a n).arrays = s.arrays := by
  unfold bump; split <;> rfl
@[simp] theorem bump_vecs (a : RegAddr) (n : Nat) : (s.bump a n).vecs = s.vecs := by
  unfold bump; split <;> rfl
@[simp] theorem bump_cat (a : RegAddr) (n : Nat) : (s.bump a n).cat = s.cat := by
  unfold bump; split <;> rfl
@[simp] theorem bump_dome (a : RegAddr) (n : Nat) : (s.bump a n).dome = s.dome := by
  unfold bump; split <;> rfl
@[simp] theorem bump_flash (a : RegAddr) (n : Nat) : (s.bump a n).flash = s.flash := by
  unfold bump; split <;> rfl
@[simp] theorem bump_shares (a : RegAddr) (n : Nat) : (s.bump a n).shares = s.shares := by
  unfold bump; split <;> rfl
@[simp] theorem bump_xch (a : RegAddr) (n : Nat) : (s.bump a n).xch = s.xch := by
  unfold bump; split <;> rfl
@[simp] theorem bump_snaps (a : RegAddr) (n : Nat) : (s.bump a n).snaps = s.snaps := by
  unfold bump; split <;> rfl
@[simp] theorem bump_qps (a : RegAddr) (n : Nat) : (s.bump a n).qps = s.qps := by
  unfold bump; split <;> rfl
@[simp] theorem bump_eth (a : RegAddr) (n : Nat) : (s.bump a n).eth = s.eth := by
  unfold bump; split <;> rfl
@[simp] theorem bump_stores (a : RegAddr) (n : Nat) : (s.bump a n).stores = s.stores := by
  unfold bump; split <;> rfl
@[simp] theorem bump_mgmt (a : RegAddr) (n : Nat) : (s.bump a n).mgmt = s.mgmt := by
  unfold bump; split <;> rfl
@[simp] theorem bump_bol (a : RegAddr) (n : Nat) : (s.bump a n).bol = s.bol := by
  unfold bump; split <;> rfl
@[simp] theorem bumpUnit_pending (u off n : Nat) : (s.bumpUnit u off n).pending = s.pending := bump_pending s _ n
@[simp] theorem bumpUnit_free (u off n : Nat) : (s.bumpUnit u off n).free = s.free := bump_free s _ n
@[simp] theorem bumpUnit_nextOp (u off n : Nat) : (s.bumpUnit u off n).nextOp = s.nextOp := bump_nextOp s _ n
@[simp] theorem bumpUnit_out (u off n : Nat) : (s.bumpUnit u off n).out = s.out := bump_out s _ n
@[simp] theorem bumpUnit_pkg (u off n : Nat) : (s.bumpUnit u off n).pkg = s.pkg := bump_pkg s _ n
@[simp] theorem bumpUnit_blocks (u off n : Nat) : (s.bumpUnit u off n).blocks = s.blocks := bump_blocks s _ n
@[simp] theorem bumpUnit_latch (u off n : Nat) : (s.bumpUnit u off n).latch = s.latch := bump_latch s _ n
@[simp] theorem bumpUnit_held (u off n : Nat) : (s.bumpUnit u off n).held = s.held := bump_held s _ n
@[simp] theorem bumpUnit_extents (u off n : Nat) : (s.bumpUnit u off n).extents = s.extents := bump_extents s _ n
@[simp] theorem bumpUnit_mem (u off n : Nat) : (s.bumpUnit u off n).mem = s.mem := bump_mem s _ n
@[simp] theorem bumpUnit_poison (u off n : Nat) : (s.bumpUnit u off n).poison = s.poison := bump_poison s _ n
@[simp] theorem bumpUnit_cpoison (u off n : Nat) : (s.bumpUnit u off n).cpoison = s.cpoison := bump_cpoison s _ n
@[simp] theorem bumpUnit_banks (u off n : Nat) : (s.bumpUnit u off n).banks = s.banks := bump_banks s _ n
@[simp] theorem bumpUnit_lines (u off n : Nat) : (s.bumpUnit u off n).lines = s.lines := bump_lines s _ n
@[simp] theorem bumpUnit_slices (u off n : Nat) : (s.bumpUnit u off n).slices = s.slices := bump_slices s _ n
@[simp] theorem bumpUnit_units (u off n : Nat) : (s.bumpUnit u off n).units = s.units := bump_units s _ n
@[simp] theorem bumpUnit_groups (u off n : Nat) : (s.bumpUnit u off n).groups = s.groups := bump_groups s _ n
@[simp] theorem bumpUnit_ops (u off n : Nat) : (s.bumpUnit u off n).ops = s.ops := bump_ops s _ n
@[simp] theorem bumpUnit_teams (u off n : Nat) : (s.bumpUnit u off n).teams = s.teams := bump_teams s _ n
@[simp] theorem bumpUnit_ctrs (u off n : Nat) : (s.bumpUnit u off n).ctrs = s.ctrs := bump_ctrs s _ n
@[simp] theorem bumpUnit_ctrDbg (u off n : Nat) : (s.bumpUnit u off n).ctrDbg = s.ctrDbg := bump_ctrDbg s _ n
@[simp] theorem bumpUnit_ctrQ (u off n : Nat) : (s.bumpUnit u off n).ctrQ = s.ctrQ := bump_ctrQ s _ n
@[simp] theorem bumpUnit_fences (u off n : Nat) : (s.bumpUnit u off n).fences = s.fences := bump_fences s _ n
@[simp] theorem bumpUnit_ctx (u off n : Nat) : (s.bumpUnit u off n).ctx = s.ctx := bump_ctx s _ n
@[simp] theorem bumpUnit_strs (u off n : Nat) : (s.bumpUnit u off n).strs = s.strs := bump_strs s _ n
@[simp] theorem bumpUnit_objs (u off n : Nat) : (s.bumpUnit u off n).objs = s.objs := bump_objs s _ n
@[simp] theorem bumpUnit_rings (u off n : Nat) : (s.bumpUnit u off n).rings = s.rings := bump_rings s _ n
@[simp] theorem bumpUnit_faultQ (u off n : Nat) : (s.bumpUnit u off n).faultQ = s.faultQ := bump_faultQ s _ n
@[simp] theorem bumpUnit_ports (u off n : Nat) : (s.bumpUnit u off n).ports = s.ports := bump_ports s _ n
@[simp] theorem bumpUnit_inTxn (u off n : Nat) : (s.bumpUnit u off n).inTxn = s.inTxn := bump_inTxn s _ n
@[simp] theorem bumpUnit_arrays (u off n : Nat) : (s.bumpUnit u off n).arrays = s.arrays := bump_arrays s _ n
@[simp] theorem bumpUnit_vecs (u off n : Nat) : (s.bumpUnit u off n).vecs = s.vecs := bump_vecs s _ n
@[simp] theorem bumpUnit_cat (u off n : Nat) : (s.bumpUnit u off n).cat = s.cat := bump_cat s _ n
@[simp] theorem bumpUnit_dome (u off n : Nat) : (s.bumpUnit u off n).dome = s.dome := bump_dome s _ n
@[simp] theorem bumpUnit_flash (u off n : Nat) : (s.bumpUnit u off n).flash = s.flash := bump_flash s _ n
@[simp] theorem bumpUnit_shares (u off n : Nat) : (s.bumpUnit u off n).shares = s.shares := bump_shares s _ n
@[simp] theorem bumpUnit_xch (u off n : Nat) : (s.bumpUnit u off n).xch = s.xch := bump_xch s _ n
@[simp] theorem bumpUnit_snaps (u off n : Nat) : (s.bumpUnit u off n).snaps = s.snaps := bump_snaps s _ n
@[simp] theorem bumpUnit_qps (u off n : Nat) : (s.bumpUnit u off n).qps = s.qps := bump_qps s _ n
@[simp] theorem bumpUnit_eth (u off n : Nat) : (s.bumpUnit u off n).eth = s.eth := bump_eth s _ n
@[simp] theorem bumpUnit_stores (u off n : Nat) : (s.bumpUnit u off n).stores = s.stores := bump_stores s _ n
@[simp] theorem bumpUnit_mgmt (u off n : Nat) : (s.bumpUnit u off n).mgmt = s.mgmt := bump_mgmt s _ n
@[simp] theorem bumpUnit_bol (u off n : Nat) : (s.bumpUnit u off n).bol = s.bol := bump_bol s _ n
@[simp] theorem addFlags_pending (p st idx fl : Nat) : (s.addFlags p st idx fl).pending = s.pending := by
  unfold addFlags; split <;> rfl
@[simp] theorem addFlags_free (p st idx fl : Nat) : (s.addFlags p st idx fl).free = s.free := by
  unfold addFlags; split <;> rfl
@[simp] theorem addFlags_nextOp (p st idx fl : Nat) : (s.addFlags p st idx fl).nextOp = s.nextOp := by
  unfold addFlags; split <;> rfl
@[simp] theorem addFlags_out (p st idx fl : Nat) : (s.addFlags p st idx fl).out = s.out := by
  unfold addFlags; split <;> rfl
@[simp] theorem addFlags_pkg (p st idx fl : Nat) : (s.addFlags p st idx fl).pkg = s.pkg := by
  unfold addFlags; split <;> rfl
@[simp] theorem addFlags_blocks (p st idx fl : Nat) : (s.addFlags p st idx fl).blocks = s.blocks := by
  unfold addFlags; split <;> rfl
@[simp] theorem addFlags_regs (p st idx fl : Nat) : (s.addFlags p st idx fl).regs = s.regs := by
  unfold addFlags; split <;> rfl
@[simp] theorem addFlags_latch (p st idx fl : Nat) : (s.addFlags p st idx fl).latch = s.latch := by
  unfold addFlags; split <;> rfl
@[simp] theorem addFlags_held (p st idx fl : Nat) : (s.addFlags p st idx fl).held = s.held := by
  unfold addFlags; split <;> rfl
@[simp] theorem addFlags_extents (p st idx fl : Nat) : (s.addFlags p st idx fl).extents = s.extents := by
  unfold addFlags; split <;> rfl
@[simp] theorem addFlags_mem (p st idx fl : Nat) : (s.addFlags p st idx fl).mem = s.mem := by
  unfold addFlags; split <;> rfl
@[simp] theorem addFlags_poison (p st idx fl : Nat) : (s.addFlags p st idx fl).poison = s.poison := by
  unfold addFlags; split <;> rfl
@[simp] theorem addFlags_cpoison (p st idx fl : Nat) : (s.addFlags p st idx fl).cpoison = s.cpoison := by
  unfold addFlags; split <;> rfl
@[simp] theorem addFlags_banks (p st idx fl : Nat) : (s.addFlags p st idx fl).banks = s.banks := by
  unfold addFlags; split <;> rfl
@[simp] theorem addFlags_lines (p st idx fl : Nat) : (s.addFlags p st idx fl).lines = s.lines := by
  unfold addFlags; split <;> rfl
@[simp] theorem addFlags_slices (p st idx fl : Nat) : (s.addFlags p st idx fl).slices = s.slices := by
  unfold addFlags; split <;> rfl
@[simp] theorem addFlags_units (p st idx fl : Nat) : (s.addFlags p st idx fl).units = s.units := by
  unfold addFlags; split <;> rfl
@[simp] theorem addFlags_groups (p st idx fl : Nat) : (s.addFlags p st idx fl).groups = s.groups := by
  unfold addFlags; split <;> rfl
@[simp] theorem addFlags_ops (p st idx fl : Nat) : (s.addFlags p st idx fl).ops = s.ops := by
  unfold addFlags; split <;> rfl
@[simp] theorem addFlags_teams (p st idx fl : Nat) : (s.addFlags p st idx fl).teams = s.teams := by
  unfold addFlags; split <;> rfl
@[simp] theorem addFlags_ctrs (p st idx fl : Nat) : (s.addFlags p st idx fl).ctrs = s.ctrs := by
  unfold addFlags; split <;> rfl
@[simp] theorem addFlags_ctrDbg (p st idx fl : Nat) : (s.addFlags p st idx fl).ctrDbg = s.ctrDbg := by
  unfold addFlags; split <;> rfl
@[simp] theorem addFlags_ctrQ (p st idx fl : Nat) : (s.addFlags p st idx fl).ctrQ = s.ctrQ := by
  unfold addFlags; split <;> rfl
@[simp] theorem addFlags_fences (p st idx fl : Nat) : (s.addFlags p st idx fl).fences = s.fences := by
  unfold addFlags; split <;> rfl
@[simp] theorem addFlags_ctx (p st idx fl : Nat) : (s.addFlags p st idx fl).ctx = s.ctx := by
  unfold addFlags; split <;> rfl
@[simp] theorem addFlags_objs (p st idx fl : Nat) : (s.addFlags p st idx fl).objs = s.objs := by
  unfold addFlags; split <;> rfl
@[simp] theorem addFlags_rings (p st idx fl : Nat) : (s.addFlags p st idx fl).rings = s.rings := by
  unfold addFlags; split <;> rfl
@[simp] theorem addFlags_faultQ (p st idx fl : Nat) : (s.addFlags p st idx fl).faultQ = s.faultQ := by
  unfold addFlags; split <;> rfl
@[simp] theorem addFlags_ports (p st idx fl : Nat) : (s.addFlags p st idx fl).ports = s.ports := by
  unfold addFlags; split <;> rfl
@[simp] theorem addFlags_inTxn (p st idx fl : Nat) : (s.addFlags p st idx fl).inTxn = s.inTxn := by
  unfold addFlags; split <;> rfl
@[simp] theorem addFlags_arrays (p st idx fl : Nat) : (s.addFlags p st idx fl).arrays = s.arrays := by
  unfold addFlags; split <;> rfl
@[simp] theorem addFlags_vecs (p st idx fl : Nat) : (s.addFlags p st idx fl).vecs = s.vecs := by
  unfold addFlags; split <;> rfl
@[simp] theorem addFlags_cat (p st idx fl : Nat) : (s.addFlags p st idx fl).cat = s.cat := by
  unfold addFlags; split <;> rfl
@[simp] theorem addFlags_dome (p st idx fl : Nat) : (s.addFlags p st idx fl).dome = s.dome := by
  unfold addFlags; split <;> rfl
@[simp] theorem addFlags_flash (p st idx fl : Nat) : (s.addFlags p st idx fl).flash = s.flash := by
  unfold addFlags; split <;> rfl
@[simp] theorem addFlags_shares (p st idx fl : Nat) : (s.addFlags p st idx fl).shares = s.shares := by
  unfold addFlags; split <;> rfl
@[simp] theorem addFlags_xch (p st idx fl : Nat) : (s.addFlags p st idx fl).xch = s.xch := by
  unfold addFlags; split <;> rfl
@[simp] theorem addFlags_snaps (p st idx fl : Nat) : (s.addFlags p st idx fl).snaps = s.snaps := by
  unfold addFlags; split <;> rfl
@[simp] theorem addFlags_qps (p st idx fl : Nat) : (s.addFlags p st idx fl).qps = s.qps := by
  unfold addFlags; split <;> rfl
@[simp] theorem addFlags_eth (p st idx fl : Nat) : (s.addFlags p st idx fl).eth = s.eth := by
  unfold addFlags; split <;> rfl
@[simp] theorem addFlags_stores (p st idx fl : Nat) : (s.addFlags p st idx fl).stores = s.stores := by
  unfold addFlags; split <;> rfl
@[simp] theorem addFlags_mgmt (p st idx fl : Nat) : (s.addFlags p st idx fl).mgmt = s.mgmt := by
  unfold addFlags; split <;> rfl
@[simp] theorem addFlags_bol (p st idx fl : Nat) : (s.addFlags p st idx fl).bol = s.bol := by
  unfold addFlags; split <;> rfl

/-! ### A read after a write -/

@[simp] theorem setGrp_grp_same (u k : Nat) (g : Grp) : (s.setGrp u k g).grp u k = g := by
  simp [setGrp, grp]

theorem setGrp_grp_ne (u k u' k' : Nat) (g : Grp) (h : u * 32 + k ≠ u' * 32 + k') : (s.setGrp u k g).grp u' k' = s.grp u' k' := by
  simp [setGrp, grp, SMap.get_set, h]

@[simp] theorem setUnit_unit_same (u : Nat) (x : UnitSt) : (s.setUnit u x).unit u = x := by
  simp [setUnit, unit]

theorem setUnit_unit_ne (u u' : Nat) (x : UnitSt) (h : u ≠ u') : (s.setUnit u x).unit u' = s.unit u' := by
  simp [setUnit, unit, SMap.get_set, h]

@[simp] theorem setCtr_ctr_same (r n : Nat) (c : Ctr) : (s.setCtr r n c).ctr r n = c := by
  simp [setCtr, ctr]

@[simp] theorem setCtx_ctxOf_same (p : Nat) (c : Ctx) : (s.setCtx p c).ctxOf p = c := by
  simp [setCtx, ctxOf]

@[simp] theorem setStr_str_same (p st : Nat) (x : Str) : (s.setStr p st x).str p st = x := by
  simp [setStr, str]

@[simp] theorem setReg_reg_same (a : RegAddr) (v : Nat) : (s.setReg a v).reg a = v := by
  unfold reg setReg
  rw [SMap.get_set_same]
  by_cases h : v = regReset a <;> simp [h]

theorem setReg_reg_ne (a b : RegAddr) (v : Nat) (h : regKey a ≠ regKey b) : (s.setReg a v).reg b = s.reg b := by
  unfold reg setReg
  rw [SMap.get_set_ne _ _ _ _ h]

theorem bump_reg_ne (a b : RegAddr) (n : Nat) (h : regKey a ≠ regKey b) : (s.bump a n).reg b = s.reg b := by
  unfold bump
  split
  · rfl
  · exact setReg_reg_ne s a b _ h

end Sys2Proof.Machine.State
end

