-- ==== Sys2Proof/Laws/Issue.lean ====
section
/-! SUPPORT. What the issue of an instruction does, once for every instruction that touches registers only. -/

namespace Sys2Proof.Machine

/-! ### Threads and groups -/

@[simp] theorem Grp.thr_setThr_same (g : Grp) (l : Nat) (t : Thr) : (g.setThr l t).thr l = t := by simp [Grp.setThr, Grp.thr]

theorem Grp.thr_setThr (g : Grp) (l m : Nat) (t : Thr) : (g.setThr l t).thr m = if l = m then t else g.thr m := by
  simp [Grp.setThr, Grp.thr, SMap.get_set]

theorem Grp.thr_modThr (g : Grp) (l m : Nat) (f : Thr → Thr) : (g.modThr l f).thr m = if l = m then f (g.thr m) else g.thr m := by
  unfold Grp.modThr
  rw [Grp.thr_setThr]
  split
  · next h => subst h; rfl
  · rfl

@[simp] theorem Grp.getU_modThr (g : Grp) (l n : Nat) (f : Thr → Thr) : (g.modThr l f).getU n = g.getU n := rfl

theorem Thr.getG_setG (t : Thr) (n v r : Nat) (hr : r < 255) :
    (t.setG n v).getG r = if n = r then v % 2 ^ 32 else t.getG r := by
  unfold Thr.setG
  have hr' : r ≠ 255 := by omega
  split
  · next h => rw [if_neg (by omega)]
  · simp only [Thr.getG, if_neg hr', SMap.get_set]

@[simp] theorem Thr.getP_setG (t : Thr) (n v r : Nat) : (t.setG n v).getP r = t.getP r := by
  unfold Thr.setG; split <;> rfl

@[simp] theorem Thr.pc_setG (t : Thr) (n v : Nat) : (t.setG n v).pc = t.pc := by
  unfold Thr.setG; split <;> rfl

theorem bits_mod (x lo w : Nat) : bits x lo w % 2 ^ w = bits x lo w := by simp [bits]

theorem Thr.getG_foldl (v d : Nat) (n : List Nat) (t : Thr) (r : Nat) (hr : r < 255) (hn : n.Nodup) :
    (n.foldl (fun t j => t.setG (d + j) (bits v (32 * j) 32)) t).getG r
      = if d ≤ r ∧ r - d ∈ n then bits v (32 * (r - d)) 32 else t.getG r := by
  induction n generalizing t with
  | nil => simp
  | cons j n ih =>
    rw [List.foldl_cons, ih _ (List.nodup_cons.1 hn).2, Thr.getG_setG _ _ _ _ hr, bits_mod]
    have hj : j ∉ n := (List.nodup_cons.1 hn).1
    by_cases h1 : d ≤ r ∧ r - d ∈ n
    · rw [if_pos h1, if_pos ⟨h1.1, List.mem_cons_of_mem _ h1.2⟩]
    · rw [if_neg h1]
      by_cases h2 : d + j = r
      · have : r - d = j := by omega
        rw [if_pos h2, if_pos ⟨by omega, by rw [this]; exact List.mem_cons_self⟩, this]
      · rw [if_neg h2, if_neg]
        rintro ⟨h3, h4⟩
        rcases List.mem_cons.1 h4 with h5 | h5
        · omega
        · exact h1 ⟨h3, h5⟩

/-- The general registers after a result is written. -/
theorem Thr.getG_setRegs (t : Thr) (d n v r : Nat) (hr : r < 255) :
    (t.setRegs d n v).getG r = if d ≤ r ∧ r < d + n then bits v (32 * (r - d)) 32 else t.getG r := by
  unfold Thr.setRegs
  split
  · next h => subst h; rw [if_neg (by omega)]
  · rw [Thr.getG_foldl v d _ t r hr List.nodup_range]
    by_cases h : d ≤ r ∧ r < d + n
    · rw [if_pos h, if_pos ⟨h.1, List.mem_range.2 (by omega)⟩]
    · rw [if_neg h, if_neg]
      rintro ⟨h1, h2⟩
      exact h ⟨h1, by have := List.mem_range.1 h2; omega⟩

theorem Thr.setRegs_keeps (t : Thr) (d n v : Nat) :
    (∀ r, (t.setRegs d n v).getP r = t.getP r) ∧ (t.setRegs d n v).pc = t.pc := by
  unfold Thr.setRegs
  split
  · exact ⟨fun _ => rfl, rfl⟩
  · generalize List.range n = l
    induction l generalizing t with
    | nil => exact ⟨fun _ => rfl, rfl⟩
    | cons j l ih =>
      rw [List.foldl_cons]
      have := ih (t.setG (d + j) (bits v (32 * j) 32))
      exact ⟨fun r => by rw [this.1, Thr.getP_setG], by rw [this.2, Thr.pc_setG]⟩

theorem Grp.getU_setU (g : Grp) (n v r : Nat) (hr : r < 63) : (g.setU n v).getU r = if n = r then v % 2 ^ 32 else g.getU r := by
  unfold Grp.setU
  have h63 : ¬ 63 ≤ r := by omega
  split
  · next h => rw [if_neg (by omega)]
  · simp only [Grp.getU, if_neg h63, SMap.get_set]

@[simp] theorem Grp.thr_setU (g : Grp) (n v l : Nat) : (g.setU n v).thr l = g.thr l := by
  unfold Grp.setU; split <;> rfl

theorem Grp.getU_setURegs (g : Grp) (d n v r : Nat) (hr : r < 63) :
    (g.setURegs d n v).getU r = if d ≤ r ∧ r < d + n then bits v (32 * (r - d)) 32 else g.getU r := by
  unfold Grp.setURegs
  have key : ∀ (l : List Nat) (g : Grp), l.Nodup →
      (l.foldl (fun g i => g.setU (d + i) (bits v (32 * i) 32)) g).getU r
        = if d ≤ r ∧ r - d ∈ l then bits v (32 * (r - d)) 32 else g.getU r := by
    intro l
    induction l with
    | nil => intro g _; simp
    | cons j l ih =>
      intro g hn
      rw [List.foldl_cons, ih _ (List.nodup_cons.1 hn).2, Grp.getU_setU _ _ _ _ hr, bits_mod]
      by_cases h1 : d ≤ r ∧ r - d ∈ l
      · rw [if_pos h1, if_pos ⟨h1.1, List.mem_cons_of_mem _ h1.2⟩]
      · rw [if_neg h1]
        by_cases h2 : d + j = r
        · have : r - d = j := by omega
          rw [if_pos h2, if_pos ⟨by omega, by rw [this]; exact List.mem_cons_self⟩, this]
        · rw [if_neg h2, if_neg]
          rintro ⟨h3, h4⟩
          rcases List.mem_cons.1 h4 with h5 | h5
          · omega
          · exact h1 ⟨h3, h5⟩
  rw [key _ g List.nodup_range]
  by_cases h : d ≤ r ∧ r < d + n
  · rw [if_pos h, if_pos ⟨h.1, List.mem_range.2 (by omega)⟩]
  · rw [if_neg h, if_neg]
    rintro ⟨h1, h2⟩
    exact h ⟨h1, by have := List.mem_range.1 h2; omega⟩

@[simp] theorem Grp.thr_setURegs (g : Grp) (d n v l : Nat) : (g.setURegs d n v).thr l = g.thr l := by
  unfold Grp.setURegs
  generalize List.range n = ls
  induction ls generalizing g with
  | nil => rfl
  | cons j ls ih => rw [List.foldl_cons, ih, Grp.thr_setU]

/-- A change of one lane after another: each lane of the list once. -/
theorem Grp.thr_foldl (f : Nat → Thr → Thr) (ls : List Nat) (g : Grp) (l : Nat) (hn : ls.Nodup) :
    (ls.foldl (fun g m => g.modThr m (f m)) g).thr l = if l ∈ ls then f l (g.thr l) else g.thr l := by
  induction ls generalizing g with
  | nil => simp
  | cons m ls ih =>
    rw [List.foldl_cons, ih _ (List.nodup_cons.1 hn).2, Grp.thr_modThr]
    have hm : m ∉ ls := (List.nodup_cons.1 hn).1
    by_cases h : l = m
    · subst h; simp [hm]
    · have h' : m ≠ l := fun e => h e.symm
      simp [h, h']

theorem Grp.getU_foldl (f : Nat → Thr → Thr) (ls : List Nat) (g : Grp) (r : Nat) :
    (ls.foldl (fun g m => g.modThr m (f m)) g).getU r = g.getU r := by
  induction ls generalizing g with
  | nil => rfl
  | cons m ls ih => rw [List.foldl_cons, ih, Grp.getU_modThr]

theorem nodup_lanesOf (m : Nat) : (lanesOf m).Nodup := List.nodup_range.filter _

@[simp] theorem mem_lanesOf (m l : Nat) : l ∈ lanesOf m ↔ l < 32 ∧ m.testBit l = true := by
  simp [lanesOf]

/-! ### The registers after a result is written -/

theorem Thr.getP_setP (t : Thr) (n r : Nat) (v : Bool) (hr : r < 7) : (t.setP n v).getP r = if n = r then v else t.getP r := by
  unfold Thr.setP
  have hr' : (r == 7) = false := by simp; omega
  split
  · next h => rw [if_neg (by omega)]
  · next h =>
    simp only [Thr.getP, hr', Bool.false_or]
    have hb : ∀ x : Nat, (putBits x n 1 (b2n v)).testBit r = if n = r then v else x.testBit r := by
      intro x
      have e : putBits x n 1 (b2n v) = x - (x / 2 ^ n % 2) * 2 ^ n + b2n v * 2 ^ n := by
        unfold putBits bits
        have hv : b2n v % 2 ^ 1 = b2n v := by cases v <;> rfl
        rw [hv, Nat.shiftLeft_eq, Nat.shiftLeft_eq, Nat.shiftRight_eq_div_pow]
        simp
      rw [e]
      have hx : x = x / 2 ^ (n + 1) * 2 ^ (n + 1) + (x / 2 ^ n % 2) * 2 ^ n + x % 2 ^ n := by
        have h1 := Nat.div_add_mod x (2 ^ n)
        have h2 := Nat.div_add_mod (x / 2 ^ n) 2
        rw [Nat.div_div_eq_div_mul, ← pow_succ] at h2
        have h3 : 2 ^ n * (2 * (x / 2 ^ (n + 1)) + x / 2 ^ n % 2) + x % 2 ^ n = x := by rw [h2]; exact h1
        calc x = 2 ^ n * (2 * (x / 2 ^ (n + 1)) + x / 2 ^ n % 2) + x % 2 ^ n := h3.symm
          _ = _ := by ring
      set hi := x / 2 ^ (n + 1) with hhi
      set lo := x % 2 ^ n with hlo
      have hlo' : lo < 2 ^ n := Nat.mod_lt _ (by positivity)
      have e2 : x - (x / 2 ^ n % 2) * 2 ^ n + b2n v * 2 ^ n = hi * 2 ^ (n + 1) + b2n v * 2 ^ n + lo := by omega
      rw [e2]
      by_cases hnr : n = r
      · subst hnr
        rw [if_pos rfl, Nat.testBit_eq_decide_div_mod_eq]
        have : (hi * 2 ^ (n + 1) + b2n v * 2 ^ n + lo) / 2 ^ n = hi * 2 + b2n v := by
          rw [show hi * 2 ^ (n + 1) + b2n v * 2 ^ n + lo = lo + 2 ^ n * (hi * 2 + b2n v) by rw [pow_succ]; ring]
          rw [Nat.add_mul_div_left _ _ (by positivity), Nat.div_eq_of_lt hlo', Nat.zero_add]
        rw [this]
        cases v <;> simp [b2n]
      · rw [if_neg hnr]
        rcases Nat.lt_or_gt_of_ne hnr with hlt | hgt
        · -- r above n
          rw [Nat.testBit_eq_decide_div_mod_eq, Nat.testBit_eq_decide_div_mod_eq]
          have hd : ∀ y : Nat, y < 2 ^ (n + 1) → (hi * 2 ^ (n + 1) + y) / 2 ^ r = hi / 2 ^ (r - (n + 1)) := by
            intro y hy
            rw [show (2 : Nat) ^ r = 2 ^ (n + 1) * 2 ^ (r - (n + 1)) by rw [← pow_add]; congr 1; omega]
            rw [← Nat.div_div_eq_div_mul, show hi * 2 ^ (n + 1) + y = y + 2 ^ (n + 1) * hi by ring,
              Nat.add_mul_div_left _ _ (by positivity), Nat.div_eq_of_lt hy, Nat.zero_add]
          have hb1 : b2n v * 2 ^ n + lo < 2 ^ (n + 1) := by
            rw [pow_succ]; cases v <;> simp [b2n] <;> omega
          have hb2 : (x / 2 ^ n % 2) * 2 ^ n + lo < 2 ^ (n + 1) := by
            have : x / 2 ^ n % 2 < 2 := Nat.mod_lt _ (by decide)
            rw [pow_succ]
            have : x / 2 ^ n % 2 = 0 ∨ x / 2 ^ n % 2 = 1 := by omega
            rcases this with h | h <;> rw [h] <;> omega
          rw [Nat.add_assoc, hd _ hb1]
          conv_rhs => rw [hx, Nat.add_assoc, hd _ hb2]
        · have hl : ∀ y : Nat, (y * 2 ^ n + lo).testBit r = lo.testBit r := by
            intro y
            rw [show y * 2 ^ n + lo = 2 ^ n * y + lo by ring, Nat.testBit_two_pow_mul_add _ hlo', if_pos hgt]
          rw [show hi * 2 ^ (n + 1) + b2n v * 2 ^ n + lo = (hi * 2 + b2n v) * 2 ^ n + lo by rw [pow_succ]; ring, hl]
          conv_rhs => rw [hx, show hi * 2 ^ (n + 1) + x / 2 ^ n % 2 * 2 ^ n + lo = (hi * 2 + x / 2 ^ n % 2) * 2 ^ n + lo by rw [pow_succ]; ring, hl]
    exact hb t.p

@[simp] theorem Thr.getG_setP (t : Thr) (n r : Nat) (v : Bool) : (t.setP n v).getG r = t.getG r := by
  unfold Thr.setP; split <;> rfl

@[simp] theorem Thr.pc_setP (t : Thr) (n : Nat) (v : Bool) : (t.setP n v).pc = t.pc := by
  unfold Thr.setP; split <;> rfl

/-- The registers of a group after each executing lane's result is written. -/
theorem Grp.writeAll_spec (g : Grp) (sh : Shape) (mi : Mi) (exec : Nat) (f : Nat → Nat) (he : exec ≠ 0) :
    (∀ l r, l < 32 → r < 255 → ((g.writeAll sh mi exec f).thr l).getG r = genAfter g sh mi exec f l r)
      ∧ (∀ r, r < 63 → (g.writeAll sh mi exec f).getU r = uniAfter g sh mi exec f r)
      ∧ (∀ l n, l < 32 → n < 7 → ((g.writeAll sh mi exec f).thr l).getP n = predAfter g sh mi exec f l n)
      ∧ (∀ l, ((g.writeAll sh mi exec f).thr l).pc = (g.thr l).pc) := by
  unfold Grp.writeAll genAfter uniAfter predAfter
  by_cases hp : sh.pd = true
  · simp only [hp, if_true, Bool.not_true, Bool.false_and, Bool.true_and]
    refine ⟨?_, ?_, ?_, ?_⟩
    · intro l r _ _
      rw [Grp.thr_foldl (fun l t => t.setP mi.dst.toNat (f l != 0)) _ _ _ (nodup_lanesOf _)]
      split <;> simp
    · intro r _
      rw [Grp.getU_foldl (fun l t => t.setP mi.dst.toNat (f l != 0))]
      simp
    · intro l n hl hn
      rw [Grp.thr_foldl (fun l t => t.setP mi.dst.toNat (f l != 0)) _ _ _ (nodup_lanesOf _)]
      by_cases hx : exec.testBit l = true
      · rw [if_pos (by simp [hl, hx]), Thr.getP_setP _ _ _ _ hn]
        by_cases hd : mi.dst.toNat = n
        · simp [hx, hd]
        · have : ¬ n = mi.dst.toNat := fun e => hd e.symm
          simp [hx, hd, this]
      · rw [if_neg (by simp [hx])]; simp [hx]
    · intro l
      rw [Grp.thr_foldl (fun l t => t.setP mi.dst.toNat (f l != 0)) _ _ _ (nodup_lanesOf _)]
      split <;> simp
  · have hp' : sh.pd = false := by simpa using hp
    simp only [hp', Bool.not_false, Bool.true_and, Bool.false_and]
    by_cases hu : mi.udst = true
    · simp only [hu, if_true, if_neg he, Bool.not_true, Bool.false_and, Bool.true_and]
      refine ⟨?_, ?_, ?_, ?_⟩
      · intro l r _ _; simp
      · intro r hr
        simp only [Bool.false_eq_true, if_false]
        rw [Grp.getU_setURegs _ _ _ _ _ hr]
        simp
      · intro l n _ _; simp
      · intro l; simp
    · have hu' : mi.udst = false := by simpa using hu
      simp only [hu', Bool.not_false, Bool.true_and, Bool.false_and]
      refine ⟨?_, ?_, ?_, ?_⟩
      · intro l r hl hr
        simp only [Bool.false_eq_true, if_false]
        rw [Grp.thr_foldl (fun l t => t.setRegs mi.dst.toNat sh.d (f l)) _ _ _ (nodup_lanesOf _)]
        by_cases hx : exec.testBit l = true
        · rw [if_pos (by simp [hl, hx]), Thr.getG_setRegs _ _ _ _ _ hr]
          simp [hx]
        · rw [if_neg (by simp [hx])]; simp [hx]
      · intro r _
        simp only [Bool.false_eq_true, if_false]
        rw [Grp.getU_foldl (fun l t => t.setRegs mi.dst.toNat sh.d (f l))]
      · intro l n _ _
        simp only [Bool.false_eq_true, if_false]
        rw [Grp.thr_foldl (fun l t => t.setRegs mi.dst.toNat sh.d (f l)) _ _ _ (nodup_lanesOf _)]
        split
        · exact (Thr.setRegs_keeps _ _ _ _).1 n
        · rfl
      · intro l
        simp only [Bool.false_eq_true, if_false]
        rw [Grp.thr_foldl (fun l t => t.setRegs mi.dst.toNat sh.d (f l)) _ _ _ (nodup_lanesOf _)]
        split
        · exact (Thr.setRegs_keeps _ _ _ _).2
        · rfl

/-! ### Issue -/

theorem SameRegs.refl (g : Grp) : SameRegs g g := ⟨fun _ _ => rfl, fun _ _ => rfl, fun _ => rfl⟩

theorem SameRegs.trans {g g' g'' : Grp} (h : SameRegs g g') (h' : SameRegs g' g'') : SameRegs g g'' :=
  ⟨fun l r => (h'.1 l r).trans (h.1 l r), fun l r => (h'.2.1 l r).trans (h.2.1 l r), fun r => (h'.2.2 r).trans (h.2.2 r)⟩

theorem Keeps.refl (s : State) : Keeps s s := ⟨rfl, fun _ _ _ => rfl⟩

theorem Keeps.trans {s t u : State} (h : Keeps s t) (h' : Keeps t u) : Keeps s u := by
  refine ⟨?_, fun k h1 h2 => (h'.2 k h1 h2).trans (h.2 k h1 h2)⟩
  have := h'.1
  rw [h.1] at this
  exact this

theorem Keeps.mk' {s t : State}
    (h : t = { s with groups := t.groups, regs := t.regs, strs := t.strs, slots := t.slots, halts := t.halts }) (hr : t.regs = s.regs) : Keeps s t :=
  ⟨h, fun _ _ _ => by rw [hr]⟩

theorem Keeps.peek {s t : State} (h : Keeps s t) (a : Nat) : t.peek a = s.peek a := by
  rw [h.1]; rfl

/-- A register of a thread unit has a key of its kind. -/
theorem unitReg_key (u off : Nat) (hu : u < 132) (ho : off < 0x1000000) :
    regKey (State.unitReg u off) / 2 ^ 36 = 0x03 ∨ regKey (State.unitReg u off) / 2 ^ 36 = 0x14 := by
  unfold State.unitReg regKey home
  split
  · left; simp only [Kind.code]; omega
  · right; simp only [Kind.code]; omega

theorem Keeps.setUnitReg (s : State) (u off v : Nat) (hu : u < 132) (ho : off < 0x1000000) : Keeps s (s.setReg (State.unitReg u off) v) := by
  refine ⟨rfl, fun k h1 h2 => ?_⟩
  simp only [State.setReg]
  refine SMap.get_set_ne _ _ _ _ (fun e => ?_)
  rcases unitReg_key u off hu ho with h | h
  · exact h1 (e ▸ h)
  · exact h2 (e ▸ h)

theorem Keeps.bumpUnit (s : State) (u off n : Nat) (hu : u < 132) (ho : off < 0x1000000) : Keeps s (s.bumpUnit u off n) := by
  unfold State.bumpUnit State.bump
  split
  · exact Keeps.refl s
  · exact Keeps.setUnitReg s u off _ hu ho

theorem Keeps.setGrp (s : State) (u k : Nat) (g : Grp) : Keeps s (s.setGrp u k g) := Keeps.mk' rfl rfl

theorem Keeps.addFlags (s : State) (p st idx fl : Nat) : Keeps s (s.addFlags p st idx fl) := by
  unfold State.addFlags
  split
  · exact Keeps.refl s
  · exact Keeps.mk' rfl rfl

theorem grp_congr {s t : State} (h : t.groups = s.groups) (u k : Nat) : t.grp u k = s.grp u k := by
  simp [State.grp, h]

/-- The bookkeeping of an issue moves the chosen threads' PC and touches no register. -/
theorem bookIssue_spec (s : State) (i : Iss) (ready : Nat) (forced : Bool) (hu : i.u < 132) :
    Keeps s (s.bookIssue i ready forced) ∧ SameRegs (s.grp i.u i.k) ((s.bookIssue i ready forced).grp i.u i.k)
      ∧ (∀ l, l < 32 → (((s.bookIssue i ready forced).grp i.u i.k).thr l).pc
          = if i.chosen.testBit l then i.next else ((s.grp i.u i.k).thr l).pc)
      ∧ (∀ u k, u * 32 + k ≠ i.u * 32 + i.k → (s.bookIssue i ready forced).grp u k = s.grp u k) := by
  unfold State.bookIssue
  set F : Nat → Thr → Thr := fun l t => if i.chosen.testBit l then { t with age := 0, pc := i.next }
    else if ready.testBit l && decide (i.u < 128) then { t with age := t.age + 1 } else t with hF
  have hfold : ∀ (ls : List Nat) (g : Grp), (ls.foldl (fun g l =>
      if i.chosen.testBit l then g.modThr l (fun t => { t with age := 0, pc := i.next })
      else if ready.testBit l && decide (i.u < 128) then g.modThr l (fun t => { t with age := t.age + 1 }) else g) g).getU
        = g.getU ∧ ∀ m, ls.Nodup → ((ls.foldl (fun g l =>
      if i.chosen.testBit l then g.modThr l (fun t => { t with age := 0, pc := i.next })
      else if ready.testBit l && decide (i.u < 128) then g.modThr l (fun t => { t with age := t.age + 1 }) else g) g).thr m)
        = if m ∈ ls then F m (g.thr m) else g.thr m := by
    intro ls
    induction ls with
    | nil => intro g; exact ⟨rfl, fun m _ => by simp⟩
    | cons j ls ih =>
      intro g
      simp only [List.foldl_cons]
      refine ⟨?_, ?_⟩
      · rw [(ih _).1]; funext n; split
        · rfl
        · split <;> rfl
      · intro m hn
        rw [(ih _).2 m (List.nodup_cons.1 hn).2]
        have hj : j ∉ ls := (List.nodup_cons.1 hn).1
        by_cases hm : m = j
        · subst hm
          rw [if_neg hj, if_pos List.mem_cons_self, hF]
          simp only
          split
          · rw [Grp.thr_modThr, if_pos rfl]
          · split
            · rw [Grp.thr_modThr, if_pos rfl]
            · rfl
        · have hjm : j ≠ m := fun e => hm e.symm
          have : ∀ g' : Grp, (if i.chosen.testBit j then g.modThr j (fun t => { t with age := 0, pc := i.next })
              else if ready.testBit j && decide (i.u < 128) then g.modThr j (fun t => { t with age := t.age + 1 }) else g) = g' → g'.thr m = g.thr m := by
            intro g' hg; rw [← hg]
            split
            · rw [Grp.thr_modThr, if_neg hjm]
            · split
              · rw [Grp.thr_modThr, if_neg hjm]
              · rfl
          rw [this _ rfl]
          simp [hm]
  obtain ⟨hU, hT⟩ := hfold (List.range 32) (s.grp i.u i.k)
  set g' := (List.range 32).foldl (fun g l =>
      if i.chosen.testBit l then g.modThr l (fun t => { t with age := 0, pc := i.next })
      else if ready.testBit l && decide (i.u < 128) then g.modThr l (fun t => { t with age := t.age + 1 }) else g) (s.grp i.u i.k) with hg'
  have hT' := fun m => hT m List.nodup_range
  set s1 : State := { s.setGrp i.u i.k { g' with pass := false } with slots := s.slots.set 31 i.u i.k } with hs1
  have hgrp : ∀ u k, (if forced then (s1.bumpUnit i.u 0x100 1).bumpUnit i.u 0x140 1 else s1.bumpUnit i.u 0x100 1).grp u k
      = (s.setGrp i.u i.k { g' with pass := false }).grp u k := by
    intro u k; apply grp_congr; split <;> simp [hs1]
  have hthr : ∀ l, (({ g' with pass := false } : Grp)).thr l = g'.thr l := fun _ => rfl
  refine ⟨?_, ?_, ?_, ?_⟩
  · have h0 : Keeps s s1 := Keeps.mk' rfl rfl
    have h1 := h0.trans (Keeps.bumpUnit _ i.u 0x100 1 hu (by decide))
    cases forced
    · exact h1
    · exact h1.trans (Keeps.bumpUnit _ i.u 0x140 1 hu (by decide))
  · rw [hgrp, State.setGrp_grp_same]
    refine ⟨?_, ?_, ?_⟩
    · intro l r; rw [hthr, hT', hF]; simp only; split
      · split
        · rfl
        · split <;> rfl
      · rfl
    · intro l r; rw [hthr, hT', hF]; simp only; split
      · split
        · rfl
        · split <;> rfl
      · rfl
    · intro r; exact congrFun hU r
  · intro l hl
    rw [hgrp, State.setGrp_grp_same, hthr, hT', hF, if_pos (List.mem_range.2 hl)]
    simp only
    split
    · rfl
    · split <;> rfl
  · intro u k h
    rw [hgrp, State.setGrp_grp_ne _ _ _ _ _ _ (fun e => h e.symm)]

/-- Delivery of the operands counts and fills register caches only (R180). -/
theorem delivery_spec (s : State) (sh : Shape) (mi : Mi) (i : Iss) (hu : i.u < 132) :
    Keeps s (s.delivery sh mi i) ∧ SameRegs (s.grp i.u i.k) ((s.delivery sh mi i).grp i.u i.k)
      ∧ (∀ l, (((s.delivery sh mi i).grp i.u i.k).thr l).pc = ((s.grp i.u i.k).thr l).pc)
      ∧ (∀ u k, u * 32 + k ≠ i.u * 32 + i.k → (s.delivery sh mi i).grp u k = s.grp u k) := by
  have hb : ∀ (s : State) off n, off < 0x1000000 → Keeps s (s.bumpUnit i.u off n) := fun s off n ho => Keeps.bumpUnit s i.u off n hu ho
  have hg : ∀ (s : State) off n u k, (s.bumpUnit i.u off n).grp u k = s.grp u k := fun s off n u k =>
    grp_congr (by simp) u k
  unfold State.delivery
  extract_lets srcs rc g hit missed s1 s2 s3 place
  split
  · refine ⟨hb _ _ _ (by decide), ?_, ?_, ?_⟩
    · rw [hg]; exact SameRegs.refl _
    · intro l; rw [hg]
    · intro u k _; rw [hg]
  · have hk3 : Keeps s s3 := ((hb s _ _ (by decide)).trans (hb s1 _ _ (by decide))).trans (hb s2 _ _ (by decide))
    have hg3 : ∀ u k, s3.grp u k = s.grp u k := fun u k => by simp only [s3, s2, s1, hg]
    have hplace : ∀ t, (∀ r, (place t).getG r = t.getG r) ∧ (∀ r, (place t).getP r = t.getP r) ∧ (place t).pc = t.pc := by
      intro t
      simp only [place]
      generalize missed = ms
      induction ms generalizing t with
      | nil => exact ⟨fun _ => rfl, fun _ => rfl, rfl⟩
      | cons x ms ih =>
        rw [List.foldl_cons]
        split
        · exact ih t
        · exact ih _
    refine ⟨hk3.trans (Keeps.setGrp _ _ _ _), ?_, ?_, ?_⟩
    · rw [State.setGrp_grp_same]
      refine ⟨?_, ?_, ?_⟩
      · intro l r
        rw [Grp.thr_foldl (fun _ => place) _ _ _ (nodup_lanesOf _)]
        split
        · exact (hplace _).1 r
        · rfl
      · intro l r
        rw [Grp.thr_foldl (fun _ => place) _ _ _ (nodup_lanesOf _)]
        split
        · exact (hplace _).2.1 r
        · rfl
      · intro r; rw [Grp.getU_foldl (fun _ => place)]
    · intro l
      rw [State.setGrp_grp_same, Grp.thr_foldl (fun _ => place) _ _ _ (nodup_lanesOf _)]
      split
      · exact (hplace _).2.2
      · rfl
    · intro u k h
      rw [State.setGrp_grp_ne _ _ _ _ _ _ (fun e => h e.symm), hg3]

/-- A halt changes no register. -/
theorem debugHalt_spec (s : State) (u : Nat) (k : Option Nat) (c b : Nat) (hu : u < 132) :
    Keeps s (s.debugHalt u k c b) ∧ (∀ u' k', SameRegs (s.grp u' k') ((s.debugHalt u k c b).grp u' k')
      ∧ ∀ l, (((s.debugHalt u k c b).grp u' k').thr l).pc = ((s.grp u' k').thr l).pc) := by
  have key : ∀ (P : Nat → Bool) (u : Nat) (ks : List Nat) (s : State),
      let t := ks.foldl (fun (s : State) k' => let g := s.grp u k'; if g.live && P k' then s.setGrp u k' { g with halted := true, step := false } else s) s
      Keeps s t ∧ (∀ u' k', SameRegs (s.grp u' k') (t.grp u' k') ∧ ∀ l, ((t.grp u' k').thr l).pc = ((s.grp u' k').thr l).pc) := by
    intro P u ks
    induction ks with
    | nil => intro s; exact ⟨Keeps.refl _, fun u' k' => ⟨SameRegs.refl _, fun _ => rfl⟩⟩
    | cons k ks ih =>
      intro s
      simp only [List.foldl_cons]
      split
      · obtain ⟨h1, h2⟩ := ih (s.setGrp u k { s.grp u k with halted := true, step := false })
        refine ⟨(Keeps.setGrp _ _ _ _).trans h1, fun u' k' => ?_⟩
        by_cases he : u * 32 + k = u' * 32 + k'
        · have hh : (s.setGrp u k { s.grp u k with halted := true, step := false }).grp u' k' = { s.grp u' k' with halted := true, step := false } := by
            simp only [State.setGrp, State.grp, ← he, SMap.get_set_same]
          have := h2 u' k'
          rw [hh] at this
          exact ⟨⟨fun l r => this.1.1 l r, fun l r => this.1.2.1 l r, fun r => this.1.2.2 r⟩, fun l => this.2 l⟩
        · have := h2 u' k'
          rw [State.setGrp_grp_ne _ _ _ _ _ _ he] at this
          exact this
      · exact ih s
  have key2 : ∀ (P : Nat → Nat → Bool) (us : List Nat) (s : State),
      let t := us.foldl (fun (s : State) u => (List.range 32).foldl (fun (s : State) k' => let g := s.grp u k'; if g.live && P u k' then s.setGrp u k' { g with halted := true, step := false } else s) s) s
      Keeps s t ∧ (∀ u' k', SameRegs (s.grp u' k') (t.grp u' k') ∧ ∀ l, ((t.grp u' k').thr l).pc = ((s.grp u' k').thr l).pc) := by
    intro P us
    induction us with
    | nil => intro s; exact ⟨Keeps.refl _, fun u' k' => ⟨SameRegs.refl _, fun _ => rfl⟩⟩
    | cons u us ih =>
      intro s
      simp only [List.foldl_cons]
      obtain ⟨h1, h2⟩ := key (P u) u (List.range 32) s
      obtain ⟨h3, h4⟩ := ih _
      exact ⟨h1.trans h3, fun u' k' => ⟨(h2 u' k').1.trans (h4 u' k').1, fun l => ((h4 u' k').2 l).trans ((h2 u' k').2 l)⟩⟩
  have key3 : ∀ (v : Nat) (us : List Nat) (s : State), (∀ u' ∈ us, u' < 132) →
      let t := us.foldl (fun (s : State) u' => s.setReg (State.unitReg u' 0x1C) v) s
      Keeps s t ∧ t.groups = s.groups := by
    intro v us
    induction us with
    | nil => intro s _; exact ⟨Keeps.refl _, rfl⟩
    | cons u us ih =>
      intro s h
      simp only [List.foldl_cons]
      obtain ⟨h1, h2⟩ := ih (s.setReg (State.unitReg u 0x1C) v) (fun u' hu' => h u' (List.mem_cons_of_mem _ hu'))
      exact ⟨(Keeps.setUnitReg s u 0x1C v (h u List.mem_cons_self) (by decide)).trans h1, h2⟩
  unfold State.debugHalt
  extract_lets scope us halts s1 s2
  have hus : ∀ u' ∈ us, u' < 132 := by
    intro u' hu'
    simp only [us] at hu'
    split at hu'
    · split at hu'
      · rw [List.mem_filter, State.unitsOf, List.mem_filter, List.mem_range] at hu'
        omega
      · rw [List.mem_singleton] at hu'; omega
    · rw [List.mem_singleton] at hu'; omega
  obtain ⟨h1, h2⟩ := key2 halts us s
  have h3 : Keeps s1 s2 := by
    simp only [s2]
    split
    · exact Keeps.refl _
    · exact Keeps.mk' rfl rfl
  have hg : s2.groups = s1.groups := by simp only [s2]; split <;> rfl
  obtain ⟨h4, h5⟩ := key3 (c * 2 + k.getD 0 * 8 + b * 256) us s2 hus
  refine ⟨(h1.trans h3).trans h4, fun u' k' => ?_⟩
  rw [grp_congr (h5.trans hg)]
  exact h2 u' k'

/-- The end of a debug step changes no register. -/
theorem afterStep_spec (s : State) (u k : Nat) (b : Bool) (hu : u < 132) :
    Keeps s (s.afterStep u k b) ∧ (∀ u' k', SameRegs (s.grp u' k') ((s.afterStep u k b).grp u' k')
      ∧ ∀ l, (((s.afterStep u k b).grp u' k').thr l).pc = ((s.grp u' k').thr l).pc) := by
  unfold State.afterStep
  extract_lets g
  split
  · exact ⟨Keeps.refl _, fun u' k' => ⟨SameRegs.refl _, fun _ => rfl⟩⟩
  · split
    · exact ⟨Keeps.refl _, fun u' k' => ⟨SameRegs.refl _, fun _ => rfl⟩⟩
    · obtain ⟨h1, h2⟩ := debugHalt_spec (s.setGrp u k { g with step := false, halted := true }) u (some k) 3 0 hu
      refine ⟨(Keeps.setGrp _ _ _ _).trans h1, fun u' k' => ?_⟩
      have := h2 u' k'
      by_cases he : u * 32 + k = u' * 32 + k'
      · have hg : s.grp u k = s.grp u' k' := by simp only [State.grp, he]
        have hh : (s.setGrp u k { g with step := false, halted := true }).grp u' k' = { s.grp u' k' with step := false, halted := true } := by
          simp only [g, hg]
          simp only [State.setGrp, State.grp, ← he, SMap.get_set_same]
        rw [hh] at this
        exact ⟨⟨fun l r => this.1.1 l r, fun l r => this.1.2.1 l r, fun r => this.1.2.2 r⟩, fun l => this.2 l⟩
      · rw [State.setGrp_grp_ne _ _ _ _ _ _ he] at this
        exact this

/-- The state in which the effect of an issued instruction takes place. -/
def State.atIssue (s : State) (sh : Shape) (mi : Mi) (i : Iss) (forced : Bool) : State :=
  (s.bookIssue i (s.readyLanes i.u i.k mi.stall.toNat) forced).delivery sh mi i

/-- An instruction that issues has its effect (R172, R203). -/
theorem issue_eq {s : State} {sh : Shape} {mi : Mi} {i : Iss} {bad : Bool} {ready : Iss → Bool} {f : Iss → State → State}
    (h : Issues s sh mi i) (hb : bad = false) (hr : ready i = true) :
    ∃ forced, s.issue sh mi bad ready f = (f i (s.atIssue sh mi i forced)).afterStep i.u i.k (s.grp i.u i.k).step := by
  obtain ⟨hu, hk, hmay, hturn, hch, hf, hbp, hn, hx, hne, hdef, hleg, hp⟩ := h
  obtain ⟨u, k, pc, next, chosen, exec⟩ := i
  simp only at *
  subst hu; subst hk
  cases hc : s.choose mi.unit.val mi.slot.val mi.stall.toNat with
  | none => rw [hc] at hch; simp at hch
  | some x =>
    obtain ⟨pc', chosen', forced⟩ := x
    rw [hc] at hch
    simp only [Option.map_some, Option.some.injEq, Prod.mk.injEq] at hch
    obtain ⟨rfl, rfl⟩ := hch
    refine ⟨forced, ?_⟩
    unfold State.issue State.atIssue
    subst hx; subst hn; subst hb
    simp only [hmay, hturn, hc, hf, hbp, hdef, hleg, hp, hr, hne, Bool.not_true, Bool.or_self, Bool.false_eq_true, Bool.and_false,
      if_false, ne_eq, not_false_eq_true, decide_true]

/-- What the bookkeeping and the delivery of an issue leave and do. -/
theorem atIssue_spec (s : State) (sh : Shape) (mi : Mi) (i : Iss) (forced : Bool) (hu : i.u < 132) :
    Keeps s (s.atIssue sh mi i forced) ∧ SameRegs (s.grp i.u i.k) ((s.atIssue sh mi i forced).grp i.u i.k)
      ∧ (∀ l, l < 32 → (((s.atIssue sh mi i forced).grp i.u i.k).thr l).pc
          = if i.chosen.testBit l then i.next else ((s.grp i.u i.k).thr l).pc)
      ∧ (∀ u k, u * 32 + k ≠ i.u * 32 + i.k → (s.atIssue sh mi i forced).grp u k = s.grp u k) := by
  unfold State.atIssue
  obtain ⟨h1, h2, h3, h4⟩ := bookIssue_spec s i (s.readyLanes i.u i.k mi.stall.toNat) forced hu
  obtain ⟨h5, h6, h7, h8⟩ := delivery_spec (s.bookIssue i (s.readyLanes i.u i.k mi.stall.toNat) forced) sh mi i hu
  exact ⟨h1.trans h5, h2.trans h6, fun l hl => (h7 l).trans (h3 l hl), fun u k h => (h8 u k h).trans (h4 u k h)⟩

theorem readRegs_same {g g' : Grp} (h : SameRegs g g') (l : Nat) (b : Bool) (f n : Nat) :
    readRegs g' (g'.thr l) b f n = readRegs g (g.thr l) b f n := by
  unfold readRegs
  have : (fun a i => a + (if b then g'.getU (f + i) else (g'.thr l).getG (f + i)) <<< (32 * i))
      = (fun a i => a + (if b then g.getU (f + i) else (g.thr l).getG (f + i)) <<< (32 * i)) := by
    funext a i; rw [h.2.2, h.1]
  rw [this]

theorem opA_same {g g' : Grp} (h : SameRegs g g') (sh : Shape) (mi : Mi) (l : Nat) : opA sh mi g' (g'.thr l) = opA sh mi g (g.thr l) := by
  unfold opA; rw [readRegs_same h]
theorem opB_same {g g' : Grp} (h : SameRegs g g') (sh : Shape) (mi : Mi) (l : Nat) : opB sh mi g' (g'.thr l) = opB sh mi g (g.thr l) := by
  unfold opB; rw [readRegs_same h]
theorem opC_same {g g' : Grp} (h : SameRegs g g') (sh : Shape) (mi : Mi) (l : Nat) : opC sh mi g' (g'.thr l) = opC sh mi g (g.thr l) := by
  unfold opC; rw [readRegs_same h]

theorem predAfter_same {g g' : Grp} (h : SameRegs g g') (sh : Shape) (mi : Mi) (e : Nat) (f : Nat → Nat) (l n : Nat) :
    predAfter g' sh mi e f l n = predAfter g sh mi e f l n := by
  unfold predAfter; rw [h.2.1]
theorem genAfter_same {g g' : Grp} (h : SameRegs g g') (sh : Shape) (mi : Mi) (e : Nat) (f : Nat → Nat) (l n : Nat) :
    genAfter g' sh mi e f l n = genAfter g sh mi e f l n := by
  unfold genAfter; rw [h.1]
theorem uniAfter_same {g g' : Grp} (h : SameRegs g g') (sh : Shape) (mi : Mi) (e : Nat) (f : Nat → Nat) (n : Nat) :
    uniAfter g' sh mi e f n = uniAfter g sh mi e f n := by
  unfold uniAfter; rw [h.2.2]

/-- An instruction that writes each executing lane's result `f`, with its flags, and does nothing else. -/
theorem results_spec {s : State} {sh : Shape} {mi : Mi} {i : Iss} {bad : Bool} {ready : Iss → Bool} {F : Iss → Grp → Nat → Nat × Nat}
    {f : Nat → Nat} (h : Issues s sh mi i) (hb : bad = false) (hr : ready i = true)
    (hF : ∀ g', SameRegs (s.grp i.u i.k) g' → ∀ l, (F i g' l).1 = f l) :
    let t := s.issue sh mi bad ready (fun i s => s.writeResults sh mi i (F i))
    ResultIn s t sh mi i f ∧ RegistersOnly s t i.u i.k := by
  obtain ⟨forced, he⟩ := issue_eq (ready := ready) (f := fun i s => s.writeResults sh mi i (F i)) h hb hr
  intro t
  have ht : t = ((s.atIssue sh mi i forced).writeResults sh mi i (F i)).afterStep i.u i.k (s.grp i.u i.k).step := he
  have hu : i.u < 132 := by rw [h.1]; exact mi.unit.isLt
  obtain ⟨a1, a2, a3, a4⟩ := atIssue_spec s sh mi i forced hu
  set s1 := s.atIssue sh mi i forced with hs1
  obtain ⟨b1, b2⟩ := afterStep_spec (s1.writeResults sh mi i (F i)) i.u i.k (s.grp i.u i.k).step hu
  rw [← ht] at b1 b2
  have hne : i.exec ≠ 0 := h.2.2.2.2.2.2.2.2.2.1
  have hw : Keeps s1 (s1.writeResults sh mi i (F i)) ∧ (s1.writeResults sh mi i (F i)).grp i.u i.k
        = (s1.grp i.u i.k).writeAll sh mi i.exec (fun l => (F i (s1.grp i.u i.k) l).1)
      ∧ ∀ u k, u * 32 + k ≠ i.u * 32 + i.k → (s1.writeResults sh mi i (F i)).grp u k = s1.grp u k := by
    unfold State.writeResults
    extract_lets g fl s2
    have hk : Keeps s1 s2 := Keeps.setGrp _ _ _ _
    have hg : s2.grp i.u i.k = g.writeAll sh mi i.exec (fun l => (F i g l).1) := State.setGrp_grp_same _ _ _ _
    have ho : ∀ u k, u * 32 + k ≠ i.u * 32 + i.k → s2.grp u k = s1.grp u k := fun u k hh =>
      State.setGrp_grp_ne _ _ _ _ _ _ (fun e => hh e.symm)
    split
    · exact ⟨hk, hg, ho⟩
    · refine ⟨hk.trans (Keeps.addFlags _ _ _ _ _), ?_, ?_⟩
      · rw [← hg]; exact grp_congr (by simp) _ _
      · intro u k hh; rw [← ho u k hh]; exact grp_congr (by simp) _ _
  obtain ⟨w1, w2, w3⟩ := hw
  obtain ⟨v1, v2, v3, v4⟩ := Grp.writeAll_spec (s1.grp i.u i.k) sh mi i.exec (fun l => (F i (s1.grp i.u i.k) l).1) hne
  have hfl : (fun l => (F i (s1.grp i.u i.k) l).1) = f := funext (fun l => hF _ a2 l)
  rw [hfl] at v1 v2 v3 v4 w2
  obtain ⟨c1, c2⟩ := b2 i.u i.k
  rw [w2] at c1 c2
  refine ⟨⟨?_, ?_, ?_, ?_⟩, ?_⟩
  · intro l r hl hr; rw [c1.1, v1 l r hl hr, genAfter_same a2]
  · intro r hr; rw [c1.2.2, v2 r hr, uniAfter_same a2]
  · intro l n hl hn; rw [c1.2.1, v3 l n hl hn, predAfter_same a2]
  · intro l hl; rw [c2, v4, a3 l hl]
  · have hk := (a1.trans w1).trans b1
    refine ⟨hk.peek, hk, ?_⟩
    intro u' k' hk' hk0 hne' l r
    have hne2 : u' * 32 + k' ≠ i.u * 32 + i.k := by
      intro e; apply hne'; ext <;> simp only <;> omega
    obtain ⟨d1, -⟩ := b2 u' k'
    rw [w3 u' k' hne2, a4 u' k' hne2] at d1
    exact ⟨d1.1 l r, d1.2.1 l r, d1.2.2 r⟩

/-- An instruction that computes each lane's result from its operands. -/
theorem alu_spec {s : State} {sh : Shape} {mi : Mi} {i : Iss} {bad : Bool} {F : Nat → Nat → Nat → Nat × Nat}
    (h : Issues s sh mi i) (hb : bad = false) :
    let g := s.grp i.u i.k
    let f : Nat → Nat := fun l => (F (opA sh mi g (g.thr l)) (opB sh mi g (g.thr l)) (opC sh mi g (g.thr l))).1
    ResultIn s (s.alu sh mi bad F) sh mi i f ∧ RegistersOnly s (s.alu sh mi bad F) i.u i.k := by
  intro g f
  refine results_spec (F := fun _ g l => let t := g.thr l; F (opA sh mi g t) (opB sh mi g t) (opC sh mi g t)) h hb rfl ?_
  intro g' hs l
  simp only [f, opA_same hs, opB_same hs, opC_same hs, g]

/-- `Computes` of an instruction whose meaning is `State.alu`. -/
theorem computes_of {c : Mi → Instr} {sh : Mi → Shape} {ok : Mi → Prop} {bad : Mi → Bool} {F : Mi → Nat → Nat → Nat → Nat × Nat}
    {f : Mi → Nat → Nat → Nat → Nat} (hc : ∀ mi s, exec (c mi) s = .next (s.alu (sh mi) mi (bad mi) (F mi)))
    (hb : ∀ mi, ok mi → bad mi = false) (hf : ∀ mi a b c, (F mi a b c).1 = f mi a b c) : Computes c sh ok f := by
  intro s mi i hok hi
  refine ⟨_, hc mi s, ?_⟩
  have := alu_spec (F := F mi) hi (hb mi hok)
  simp only [hf] at this
  exact this

/-- `Results` of an instruction whose meaning writes results only. -/
theorem results_of {c : Mi → Instr} {sh : Mi → Shape} {ok : State → Mi → Iss → Prop} {bad : Mi → Bool}
    {F : Mi → Iss → Grp → Nat → Nat × Nat} {f : State → Mi → Iss → Nat → Nat}
    (hc : ∀ mi s, exec (c mi) s = .next (s.issue (sh mi) mi (bad mi) (fun _ => true) (fun i s => s.writeResults (sh mi) mi i (F mi i))))
    (hb : ∀ s mi i, ok s mi i → bad mi = false)
    (hf : ∀ mi i s g', SameRegs (s.grp i.u i.k) g' → ∀ l, (F mi i g' l).1 = f s mi i l) : Results c sh ok f := by
  intro s mi i hok hi
  exact ⟨_, hc mi s, results_spec (F := F mi) hi (hb s mi i hok) rfl (fun g' hg l => hf mi i s g' hg l)⟩

end Sys2Proof.Machine
end

