-- ==== Sys2Proof/Laws/Memory.lean ====
section
/-! SUPPORT. Laws of memory: a read after a write, and that each operation of memory keeps the canonical form. -/

namespace Sys2Proof.Machine

/-- The memory of reset is canonical. -/
theorem State.reset_wf : Memory.wf State.reset.mem = true := by decide

namespace State

/-- A fold keeps what each of its steps keeps. -/
theorem foldl_keeps {α : Type} (P : State → Prop) (f : State → α → State) (hf : ∀ s a, P s → P (f s a)) (l : List α) (s : State) (h : P s) :
    P (l.foldl f s) := by
  induction l generalizing s with
  | nil => exact h
  | cons a l ih => exact ih _ (hf s a h)

/-! ### One byte -/

/-- A byte of memory after a byte is stored. -/
theorem memByte_setMem (s : State) (a : Nat) (b : Byte) (k : Nat) : (s.setMem a b).memByte k = if a = k then b else s.memByte k :=
  SMap.get_set 0 s.mem a b k

theorem memByte_setMem_ne (s : State) {a k : Nat} (b : Byte) (h : a ≠ k) : (s.setMem a b).memByte k = s.memByte k := by
  rw [memByte_setMem, if_neg h]

@[simp] theorem memByte_setMem_same (s : State) (a : Nat) (b : Byte) : (s.setMem a b).memByte a = b := by rw [memByte_setMem, if_pos rfl]

theorem setMem_wf {s : State} (a : Nat) (b : Byte) (h : Memory.wf s.mem = true) : Memory.wf (s.setMem a b).mem = true :=
  SMap.wf_set 0 s.mem a b h

/-! ### A run of bytes -/

/-- Bytes of memory after a run of bytes is stored. -/
theorem memByte_foldl_setMem (l : List Byte) (a n : Nat) (s : State) (k : Nat) :
    ((l.zipIdx n).foldl (fun s p => s.setMem (a + p.2) p.1) s).memByte k
      = if a + n ≤ k ∧ k < a + n + l.length then (l[k - (a + n)]?).getD 0 else s.memByte k := by
  induction l generalizing n s with
  | nil => rw [if_neg (by simp only [List.length_nil]; omega)]; rfl
  | cons b l ih =>
    rw [List.zipIdx_cons, List.foldl_cons, ih, memByte_setMem]
    by_cases h0 : k = a + n
    · subst h0
      rw [if_neg (by omega), if_pos rfl, if_pos (by simp only [List.length_cons]; omega), Nat.sub_self]
      rfl
    · by_cases h1 : a + (n + 1) ≤ k ∧ k < a + (n + 1) + l.length
      · rw [if_pos h1, if_pos (by simp only [List.length_cons]; omega), show k - (a + n) = k - (a + (n + 1)) + 1 by omega, List.getElem?_cons_succ]
      · rw [if_neg h1, if_neg (fun h => h0 h.symm), if_neg (by simp only [List.length_cons]; omega)]

theorem memByte_setMemBytes (s : State) (a : Nat) (l : List Byte) (k : Nat) :
    (s.setMemBytes a l).memByte k = if a ≤ k ∧ k < a + l.length then (l[k - a]?).getD 0 else s.memByte k :=
  memByte_foldl_setMem l a 0 s k

theorem setMemBytes_wf {s : State} (a : Nat) (l : List Byte) (h : Memory.wf s.mem = true) : Memory.wf (s.setMemBytes a l).mem = true :=
  foldl_keeps (fun s => Memory.wf s.mem = true) _ (fun _ _ h => setMem_wf _ _ h) _ s h

/-! ### Lines -/

/-- The dirty bytes of a line, stored one by one. -/
theorem storeDirty_wf (l : L2Line) (b : Nat) {s : State} (h : Memory.wf s.mem = true) :
    Memory.wf ((List.range 128).foldl (fun s i => if l.dirty.testBit i then s.setMem (b + i) ((l.data[i]?).getD 0) else s) s).mem = true :=
  foldl_keeps (fun s => Memory.wf s.mem = true) _ (fun s i h => by split; exacts [setMem_wf _ _ h, h]) _ s h

/-- A packet that leaves or waits changes no byte of memory. -/
@[simp] theorem sendFrom_mem (s : State) (port : Nat) (f : EthFrame) : (s.sendFrom port f).mem = s.mem := by
  unfold sendFrom transmit
  split
  · rw [bumpEth, bump_mem]; rfl
  · rfl

/-- A post changes no byte of memory. -/
@[simp] theorem post_mem (s : State) (p t c st i d0 d1 : Nat) (w : Bool) : (s.post p t c st i d0 d1 w).mem = s.mem := by
  unfold post flushRing
  dsimp only
  refine foldl_keeps (fun t => t.mem = s.mem) _ (fun t x h => (sendFrom_mem ..).trans h) _ _ ?_
  show State.mem (if _ then _ else _) = _
  split <;> simp only [bump_mem, setRing]

/-- What the ECC finds in the read of a read-modify-write changes no byte of memory. -/
@[simp] theorem rmwFound_mem (s : State) (a w : Nat) : (s.rmwFound a w).mem = s.mem := by
  unfold rmwFound postPoison hbmFound
  dsimp only
  split
  · rfl
  · refine foldl_keeps (fun t => t.mem = s.mem) _ (fun t x h => (post_mem t ..).trans h) _ _ ?_
    refine foldl_keeps (fun t => t.mem = s.mem) _ (fun t x h => ?_) _ _ (bump_mem _ _ _)
    split
    · exact (bump_mem _ _ _).trans h
    · exact h

/-- A line that leaves its slice keeps memory canonical. -/
theorem writeBack_wf {s : State} (a : Nat) (h : Memory.wf s.mem = true) : Memory.wf (s.writeBack a).mem = true := by
  unfold writeBack
  dsimp only
  cases place (a / 128 * 128) <;> dsimp only <;> repeat' first | rw [bump_mem] | split
  all_goals first
    | exact h
    | exact foldl_keeps (fun s => Memory.wf s.mem = true) _ (fun s w h => by split <;> exact h) _ _
        (storeDirty_wf (s.line (a / 128 * 128)) (a / 128 * 128) (by first | exact h | (rw [rmwFound_mem]; exact h)))

theorem evict_wf {s : State} (a : Nat) (h : Memory.wf s.mem = true) : Memory.wf (s.evict a).mem = true := writeBack_wf a h

theorem allocLine_wf {s t : State} {p a : Nat} (h : Memory.wf s.mem = true) (ht : s.allocLine p a = some t) : Memory.wf t.mem = true := by
  unfold allocLine at ht
  split at ht
  · exact Option.some.inj ht ▸ h
  · dsimp only at ht
    split at ht
    · exact Option.some.inj ht ▸ h
    · split at ht
      · cases ht
      · exact Option.some.inj ht ▸ evict_wf _ h

@[simp] theorem fillLine_mem (s : State) (a : Nat) : (s.fillLine a).mem = s.mem := by
  unfold fillLine
  dsimp only
  split
  · rfl
  · cases place (a / 128 * 128) with
    | cxl n =>
      show State.mem (if (!s.cxlUp n) = true then _ else _) = s.mem
      split
      · rfl
      · rw [bump_mem]; rfl
    | hbm => dsimp only; rw [bump_mem]; rfl
    | _ => rfl

@[simp] theorem writeLine_mem (s : State) (a : Nat) (l : List Byte) : (s.writeLine a l).mem = s.mem := rfl

@[simp] theorem wake_mem (s : State) (a : Nat) : (s.wake a).mem = s.mem := rfl

/-! ### Writes at a point -/

theorem putMemory_wf {s : State} (a : Nat) (l : List Byte) (h : Memory.wf s.mem = true) : Memory.wf (s.putMemory a l).mem = true :=
  foldl_keeps (fun s => Memory.wf s.mem = true) _ (fun s i h => by split <;> exact h) _ _ (setMemBytes_wf _ _ h)

theorem pokeLine_wf {s : State} (p a : Nat) (l : List Byte) (h : Memory.wf s.mem = true) : Memory.wf (s.pokeLine p a l).mem = true := by
  have hw : Memory.wf (s.wake a).mem = true := h
  unfold pokeLine
  dsimp only
  have hline : Memory.wf (match (s.wake a).allocLine p a with | some s => s.writeLine a l | none => (s.wake a).putMemory a l).mem = true := by
    split
    · next t ht =>
      rw [writeLine_mem]
      exact allocLine_wf hw ht
    · exact putMemory_wf _ _ hw
  split
  · split
    · exact hw
    · exact foldl_keeps (fun s => Memory.wf s.mem = true) _ (fun s i h => by split <;> exact h) _ _ (setMemBytes_wf _ _ hw)
  · exact hline
  · split
    · rw [bump_mem]; exact hw
    · exact hline
  · exact hw

theorem poke_wf {s : State} (p a : Nat) (l : List Byte) (h : Memory.wf s.mem = true) : Memory.wf (s.poke p a l).mem = true :=
  foldl_keeps (fun s => Memory.wf s.mem = true) _ (fun _ _ h => pokeLine_wf _ _ _ h) _ s h

theorem pokePa_wf {s : State} (p a : Nat) (l : List Byte) (h : Memory.wf s.mem = true) : Memory.wf (s.pokePa p a l).mem = true := by
  unfold pokePa
  split
  · exact h
  · exact foldl_keeps (fun s => Memory.wf s.mem = true) _ (fun s i h => by dsimp only; split; exacts [pokeLine_wf _ _ _ h, h]) _ s h

/-- Memory that a reset or a power change clears stays canonical. -/
theorem dropMem_wf {s : State} (f : Nat → Bool) (h : Memory.wf s.mem = true) : Memory.wf (s.mem.dropIf f) = true := SMap.wf_dropIf 0 f s.mem h

end State

end Sys2Proof.Machine
end

