-- ==== Sys2Proof/WellFormed.lean ====
section
/-! DEFINITION. Commands whose operands have the sizes that the spec gives what they carry. The meanings are total: an ill-formed command is
one that nothing outside the package sends. -/

namespace Sys2Proof

/-- A register address: a partition's page or, with 0, the home of a block; a 32-bit aligned offset in 64 KiB blocks (R6, R18, R48). -/
def RegAddr.wellFormed (a : RegAddr) : Bool :=
  decide (a.part < 4) && decide (a.inst < 256) && decide (a.off < 0x100000) && a.off % 4 == 0

/-- The ECC of a line of `n` words (R236: 16 of 8 bytes; R250: 4 of 32 bytes). -/
def Ecc.wellFormed (n : Nat) (e : Ecc) : Bool := decide (e.corr < 2 ^ n) && decide (e.uncorr < 2 ^ n) && e.corr &&& e.uncorr == 0

/-- Register blocks: whole pages of 64 KiB, no page of one in another (R47). -/
def blocksWellFormed : List Block → Bool
  | [] => true
  | b :: l => b.base % 65536 == 0 && b.pages != 0
    && l.all (fun c => decide (b.base + b.pages * 65536 ≤ c.base) || decide (c.base + c.pages * 65536 ≤ b.base)) && blocksWellFormed l

/-- The work of a start-up stage: four housekeeping units, twelve stacks, four PCIe/CXL ports with at most four links each, four Ethernet ports (R468 to
R474). -/
def StartWork.wellFormed (w : StartWork) : Bool :=
  w.hku.length == 4 && w.capacity.length == 4 && w.links.length == 4 && w.width.length == 16 && w.slow.length == 4
    && w.links.all (fun m => decide (m < 16)) && decide (w.eth < 16) && w.fails.length == 12
    && w.nvme.all (fun x => decide (x.1 < 4) && decide (x.2.1 < 4)) && blocksWellFormed w.blocks

/-- Whether the operands of a command have the sizes that the spec gives what they carry. -/
def Instr.wellFormed : Instr → Bool
  | .lowWordRead a => a.wellFormed
  | .lowWordWrite a _ | .highWordWrite a _ | .registerWrite a _ => a.wellFormed
  | .progStateRead n => decide (n < 80)
  | .cmemBankAccess _ e => e.wellFormed 16
  | .hbmFillReturn _ e | .patrolScrub _ e => e.wellFormed 4
  | .snapshotSave _ far => far.length == 4 && far.all (fun x => decide (x < 512))
  | .ethControlFrame _ _ f => decide (f.data.length ≤ 9216)
  | .rdmaWrite _ _ _ bytes _ | .rdmaWriteWithImmediate _ _ _ bytes _ _ => decide (bytes.length < 2 ^ 31)
  | .storeResponseCapsule _ _ b => decide (b.data.length ≤ 131072)
  | .nvmeCompletion _ _ _ bytes => decide (bytes.length ≤ 131072)
  | .recoveryData _ _ bytes => !bytes.isEmpty && decide (bytes.length ≤ 1024)
  | .powerEvaluation _ _ draws demands => draws.length == 4 && demands.length == 4
  | .thermalReading t => t.length == 73
  | .startUpStageEnd w | .startupPortTimeout w => w.wellFormed
  | .read payload | .log payload | .identity payload | .shuntSet payload | .shuntSeal payload | .calSet payload =>
    decide (payload.length < 65535)
  | _ => true

end Sys2Proof
end

