-- ==== Sys2Proof/Tests/Slice0.lean ====
section
/-! SUPPORT. Tests of the model by its author. The first part refuses an ill-formed command for each check of well-formedness and compares
single operations with the spec's own examples. The second part has, for every statement with hypotheses, a theorem that meets those of each
of its clauses on a concrete state and concrete operands: its proof applies the statement there and closes every hypothesis by evaluation.
Where a clause's hypothesis needs a key that the spec leaves open, the theorem takes it as its own. -/

namespace Sys2Proof.Tests

open Machine

set_option maxRecDepth 100000
set_option Elab.async false

/-! ### Ill-formed commands -/

theorem test_wf_offset : (Instr.lowWordRead ⟨.dom, 0, 0, 2⟩).wellFormed = false := by decide
theorem test_wf_block : (Instr.registerWrite ⟨.dom, 0, 256, 0⟩ 0).wellFormed = false := by decide
theorem test_wf_counter : (Instr.progStateRead 80).wellFormed = false := by decide
theorem test_wf_ecc : (Instr.cmemBankAccess (.op 0) ⟨1, 1⟩).wellFormed = false := by decide
theorem test_wf_save : (Instr.snapshotSave 0 [0]).wellFormed = false := by decide
theorem test_wf_far : (Instr.snapshotSave 0 [0, 0, 0, 512]).wellFormed = false := by decide
theorem test_wf_data : (Instr.recoveryData 0 0 []).wellFormed = false := by decide
theorem test_wf_power : (Instr.powerEvaluation 0 0 [] []).wellFormed = false := by decide
theorem test_wf_sensors : (Instr.thermalReading []).wellFormed = false := by decide
theorem test_wf_blocks : blocksWellFormed [⟨0, 2, .dom, 0, 0⟩, ⟨0x10000, 1, .id, 0, 0⟩] = false := by decide
theorem test_wf_frame : (Instr.ethControlFrame 0 0 ⟨none, 0, List.replicate 9217 0⟩).wellFormed = false := by decide +kernel
theorem test_wf_write : (Instr.rdmaWrite 0 0 0 [] false).wellFormed = true := by decide
theorem test_wf_capsule : (Instr.storeResponseCapsule 0 0 ⟨List.replicate 131073 0, false⟩).wellFormed = false := by decide +kernel
theorem test_wf_uart : (Instr.read (List.replicate 65535 0)).wellFormed = false := by decide +kernel

/-! ### The spec's own examples -/

/-- Vectors 0x0001_0210 and 0x0001_0211 of R102: FP32 to BF16. -/
theorem test_convert_tie : (convert (.fp fp32) (.fp bf16) .rne 0x3F808000).1 = 0x3F80 := by decide +kernel
theorem test_convert_toward_zero : (convert (.fp fp32) (.fp bf16) .rz 0x3F80C000).1 = 0x3F80 := by decide +kernel

/-- Vector 0x0003_0C02 of R102: the order of addition. -/
theorem test_dot_order :
    dot85 (0, 0) ([0x4B80, 0x3F80, 0x3F80].map (fun a => (decodeFp bf16 a, decodeFp bf16 0x3F80))) = (0x4B800000, 0) := by decide +kernel

/-- Vector 0x0002_0807 of R102, the worked example of the collimator. -/
theorem test_collimate :
    (collimate n8 (fun _ => .rne) ([0x42C80000, 0xC0400000, 0x3F000000, 0x3C800000, 0x3A800000] ++ List.replicate 11 0)).1 = 0x97
      ∧ ((collimate n8 (fun _ => .rne) ([0x42C80000, 0xC0400000, 0x3F000000, 0x3C800000, 0x3A800000] ++ List.replicate 11 0)).2.1).take 6
        = [0x7E, 0xD6, 0x41, 0x19, 0x02, 0] := by decide +kernel

/-- The worked word of chapter 07: `@!p2 ffma.rz g10, g4, u7, g13` with the reuse bit of A. -/
theorem test_worked_word :
    decodeInstr 5 3 0x004110D07040A33A 0 = some (.ffma { unit := 5, slot := 3, pred := 2, pneg := true, dst := 10, a := 4, b := 7, c := 13, reuse := 1
                                                         usel := 2, udst := false, mod := 4, ext := none, stall := 0 }) ∧ instrBytes 0x004110D07040A33A = 8 := by decide +kernel

/-- Words written from the encoding tables of R202, R208 and R230: `add` with an immediate (OPCODE 0x10, EXT), `csrw` (0xE3), `atom` (0x80) and
`vop` (0xC0); `decodeInstr` reads none from the reserved families 0xD and 0xF or past the end of family 0x3 (0x38). -/
theorem test_words :
    decodeInstr 0 0 0x0004000000405107 9 = some (.add { unit := 0, slot := 0, pred := 7, pneg := false, dst := 5, a := 4, b := 0, c := 0, reuse := 0
                                                        usel := 0, udst := false, mod := 0, ext := some 9, stall := 0 })
      ∧ (decodeInstr 128 0 0x0000000000400E37 0).map Instr.wellFormed = some true
      ∧ ((decodeInstr 0 0 0x0000000000400807 0).map fun i => match i with | .atom _ => true | _ => false) = some true
      ∧ ((decodeInstr 0 0 0x0003454241100C07 2).map fun i => match i with | .vop v => (v.vop, v.lane, v.dst, v.a, v.b, v.c, v.repeatN) | _ => (0, 0, 0, 0, 0, 0, 0))
          = some (0, 4, 0x41, 0x42, 0x45, 0x03, 2)
      ∧ decodeInstr 0 0 0xD07 0 = none ∧ decodeInstr 0 0 0xF07 0 = none ∧ decodeInstr 0 0 0x387 0 = none := by decide +kernel

/-- The decoder and the table of shapes know the same OPCODEs. -/
theorem test_opcodes : ((List.range 256).all fun op =>
    ((decodeInstr 0 0 (op * 16 + 7) 0).isSome == opDefined op) && ((opShape op (miOfWord 0 0 7 0)).isSome == opDefined op)) = true := by decide +kernel

/-- A difference of 2^63 orders neither value after the other (R282). -/
theorem test_serial_edge : serialAfter 64 (2 ^ 63) 0 = false ∧ serialAfter 64 (2 ^ 63 - 1) 0 = true ∧ serialAfter 64 0 (2 ^ 64 - 1) = true := by
  decide +kernel

/-- The message of three letters of FIPS 180-4, and test 1 of RFC 8032, which R523 and R524 name. -/
theorem test_sha512 : (sha512 [0x61, 0x62, 0x63]).take 8 = [0xDD, 0xAF, 0x35, 0xA1, 0x93, 0x61, 0x7A, 0xBA] := by decide +kernel
theorem test_public_key : edPublicOf (ofBeBytes ([0x9D, 0x61, 0xB1, 0x9D, 0xEF, 0xFD, 0x5A, 0x60, 0xBA, 0x84, 0x4A, 0xF4, 0x92, 0xEC, 0x2C, 0xC4,
      0x44, 0x49, 0xC5, 0x69, 0x7B, 0x32, 0x69, 0x19, 0x70, 0x3B, 0xAC, 0x03, 0x1C, 0xAE, 0x7F, 0x60].reverse)) % 2 ^ 32 = 0x01985AD7 := by
  decide +kernel

/-! ### Witnesses -/

/-- A device at work: every island powered, device 1, configured, two extents of partition 0 and one context. -/
def on : State := { State.reset with
  pkg := { domains := 2 ^ 68 - 1, device := some 1, fixedDev := true, locked := true }
  dome := { boot := { state := 1, stage := 8, fresh := false } }
  extents := [(0, { base := 0, limit := 0x8FFFFF, target := 0, perm := 63, valid := true }),
              (1, { base := 0xE000000, limit := 0xE001FFF, target := 0xE000000, perm := 59, valid := true })]
  ctx := [(0, { num := 1, state := 1 })]
  free := 7
  nextOp := 40 }

/-- Thread of lane `l`. -/
def lane (l : Nat) : Thr := { alive := true, pc := 0x10000, p := 1 + 2 * (l % 2)
                              g := [(2, 0x20000 + 8 * l), (4, 100 + l), (5, 3), (6, 7 * l + 5), (7, 0xFFFFFFFF), (8, 2 + l), (9, 1), (12, 0x30000), (26, 0x400 + 4 * l), (27, 0xE00)] }

/-- A live thread group. -/
def group : Grp := { live := true, stream := 0, cmd := 5, alloc := 64, active := 0xFFFFFFFF, groups := 1
                     threads := (List.range 32).map (fun l => (l, lane l)), u := [(3, 17), (4, 19)] }

/-- Group 0 of unit 0 and of housekeeping unit 0 are at their next issue. -/
def s0 : State := { on with groups := [(0, group), (128 * 32, { group with alloc := 256 })] }

/-- Helper of the witnesses. -/
def m0 : Mi := { unit := 0, slot := 0, pred := 7, pneg := false, dst := 10, a := 4, b := 6, c := 8, reuse := 0, usel := 0, udst := false, mod := 0
                 ext := none, stall := 0 }

/-- Helper of the witnesses. -/
def i0 : Iss := { u := 0, k := 0, pc := 0x10000, next := 0x10008, chosen := 0xFFFFFFFF, exec := 0xFFFFFFFF }

/-- A command that completes answers a next state. -/
theorem Completes.runs {c s P} (h : Completes c s P) : ∃ t, exec c s = .next t := h.imp fun _ => And.left

/-- `MemOk` from checks that evaluate. -/
theorem memOk_of {s : State} {mi : Mi} {i : Iss} {sh : Shape} {x : Access} {release : Bool} (h1 : s.memReady x release sh mi i = true)
    (h2 : s.lanesFault (s.partOfUnit i.u) x ((x.lanes i.exec).map (fun n => (n, laneAddr sh mi (s.grp i.u i.k) n))) = none)
    (h3 : ((x.lanes i.exec).all fun l => match s.destOf (s.partOfUnit i.u) x (laneAddr sh mi (s.grp i.u i.k) l) with
      | some (.here a) => decide (place a ≠ .control) && decide (place a ≠ .reserved) | _ => false) = true) : MemOk s mi i sh x release := by
  refine ⟨h1, h2, fun l hl => ?_⟩
  have h := List.all_eq_true.1 h3 l hl
  split at h
  · next a ha => exact ⟨a, ha, by simpa using h⟩
  · cases h

/-- The hypotheses of `Obligations.IntegerResults` are met on these states and operands, clause by clause. -/
theorem witness_IntegerResults (h : Obligations.IntegerResults) :
    (∃ t, exec (.add m0) s0 = .next t)
    ∧ (∃ t, exec (.sub m0) s0 = .next t)
    ∧ (∃ t, exec (.mul m0) s0 = .next t)
    ∧ (∃ t, exec (.mulhiS m0) s0 = .next t)
    ∧ (∃ t, exec (.mulhiU m0) s0 = .next t)
    ∧ (∃ t, exec (.minS m0) s0 = .next t)
    ∧ (∃ t, exec (.maxS m0) s0 = .next t)
    ∧ (∃ t, exec (.minU m0) s0 = .next t)
    ∧ (∃ t, exec (.maxU m0) s0 = .next t)
    ∧ (∃ t, exec (.mad m0) s0 = .next t) :=
  ⟨Completes.runs ((h.1.1 s0 m0 i0 trivial) (by unfold Issues; decide +kernel)),
   Completes.runs ((h.1.2.1 s0 m0 i0 trivial) (by unfold Issues; decide +kernel)),
   Completes.runs ((h.1.2.2.1 s0 m0 i0 trivial) (by unfold Issues; decide +kernel)),
   Completes.runs ((h.1.2.2.2.1 s0 m0 i0 trivial) (by unfold Issues; decide +kernel)),
   Completes.runs ((h.1.2.2.2.2.1 s0 m0 i0 trivial) (by unfold Issues; decide +kernel)),
   Completes.runs ((h.1.2.2.2.2.2.1 s0 m0 i0 trivial) (by unfold Issues; decide +kernel)),
   Completes.runs ((h.1.2.2.2.2.2.2.1 s0 m0 i0 trivial) (by unfold Issues; decide +kernel)),
   Completes.runs ((h.1.2.2.2.2.2.2.2.1 s0 m0 i0 trivial) (by unfold Issues; decide +kernel)),
   Completes.runs ((h.1.2.2.2.2.2.2.2.2 s0 m0 i0 trivial) (by unfold Issues; decide +kernel)),
   Completes.runs ((h.2.1.1 s0 m0 i0 trivial) (by unfold Issues; decide +kernel))⟩

/-- More clauses of the same statement. -/
theorem witness_IntegerResults_2 (h : Obligations.IntegerResults) :
    (∃ t, exec (.abs m0) s0 = .next t)
    ∧ (∃ t, exec (.popc m0) s0 = .next t)
    ∧ (∃ t, exec (.clz m0) s0 = .next t)
    ∧ (∃ t, exec (.add64 m0) s0 = .next t)
    ∧ (∃ t, exec (.sub64 m0) s0 = .next t)
    ∧ (∃ t, exec (.and m0) s0 = .next t)
    ∧ (∃ t, exec (.or m0) s0 = .next t)
    ∧ (∃ t, exec (.xor m0) s0 = .next t)
    ∧ (∃ t, exec (.andn m0) s0 = .next t)
    ∧ (∃ t, exec (.not m0) s0 = .next t) :=
  ⟨Completes.runs ((h.2.1.2.1 s0 m0 i0 trivial) (by unfold Issues; decide +kernel)),
   Completes.runs ((h.2.1.2.2.1 s0 m0 i0 trivial) (by unfold Issues; decide +kernel)),
   Completes.runs ((h.2.1.2.2.2.1 s0 m0 i0 trivial) (by unfold Issues; decide +kernel)),
   Completes.runs ((h.2.1.2.2.2.2.1 s0 m0 i0 trivial) (by unfold Issues; decide +kernel)),
   Completes.runs ((h.2.1.2.2.2.2.2 s0 m0 i0 trivial) (by unfold Issues; decide +kernel)),
   Completes.runs ((h.2.2.1 s0 m0 i0 trivial) (by unfold Issues; decide +kernel)),
   Completes.runs ((h.2.2.2.1 s0 m0 i0 trivial) (by unfold Issues; decide +kernel)),
   Completes.runs ((h.2.2.2.2.1 s0 m0 i0 trivial) (by unfold Issues; decide +kernel)),
   Completes.runs ((h.2.2.2.2.2.1 s0 m0 i0 trivial) (by unfold Issues; decide +kernel)),
   Completes.runs ((h.2.2.2.2.2.2.1 s0 m0 i0 trivial) (by unfold Issues; decide +kernel))⟩

/-- More clauses of the same statement. -/
theorem witness_IntegerResults_3 (h : Obligations.IntegerResults) :
    (∃ t, exec (.shl m0) s0 = .next t)
    ∧ (∃ t, exec (.shr m0) s0 = .next t)
    ∧ (∃ t, exec (.sar m0) s0 = .next t)
    ∧ (∃ t, exec (.bfeU m0) s0 = .next t)
    ∧ (∃ t, exec (.bfeS m0) s0 = .next t)
    ∧ (∃ t, exec (.bfi m0) s0 = .next t) :=
  ⟨Completes.runs ((h.2.2.2.2.2.2.2.1 s0 m0 i0 trivial) (by unfold Issues; decide +kernel)),
   Completes.runs ((h.2.2.2.2.2.2.2.2.1 s0 m0 i0 trivial) (by unfold Issues; decide +kernel)),
   Completes.runs ((h.2.2.2.2.2.2.2.2.2.1 s0 m0 i0 trivial) (by unfold Issues; decide +kernel)),
   Completes.runs ((h.2.2.2.2.2.2.2.2.2.2.1 s0 m0 i0 trivial) (by unfold Issues; decide +kernel)),
   Completes.runs ((h.2.2.2.2.2.2.2.2.2.2.2.1 s0 m0 i0 trivial) (by unfold Issues; decide +kernel)),
   Completes.runs ((h.2.2.2.2.2.2.2.2.2.2.2.2 s0 m0 i0 trivial) (by unfold Issues; decide +kernel))⟩

/-- The instruction of a witness below. -/
def mi1 : Mi := {m0 with a:=20,b:=21,c:=22}

/-- Helper of the witnesses. -/
def sf : State := { s0 with groups := s0.groups.map (fun e => (e.1, { e.2 with threads := (List.range 32).map (fun l => (l, { lane l with
  g := [(4, 100 + l), (5, 124 + l), (8, 120 + l % 9), (20, 0x3F800000 + 0x11111 * l), (21, 0x40490FDB + 0x1000000 * l), (22, 0xC1200000 + l), (23, 0x3FF00000 + l * 0x300000),
        (24, 0x40300000), (25, 0xBFF80000 + l)] }) ) })) }

/-- The instruction of a witness below. -/
def mi2 : Mi := {m0 with a:=20,b:=22,c:=24,dst:=30}

/-- The hypotheses of `Obligations.FloatResults` are met on these states and operands, clause by clause. -/
theorem witness_FloatResults (h : Obligations.FloatResults) :
    (∃ t, exec (.fadd mi1) sf = .next t)
    ∧ (∃ t, exec (.fsub mi1) sf = .next t)
    ∧ (∃ t, exec (.fmul mi1) sf = .next t)
    ∧ (∃ t, exec (.ffma mi1) sf = .next t)
    ∧ (∃ t, exec (.fmin mi1) sf = .next t)
    ∧ (∃ t, exec (.fmax mi1) sf = .next t)
    ∧ (∃ t, exec (.fabs mi1) sf = .next t)
    ∧ (∃ t, exec (.fneg mi1) sf = .next t)
    ∧ (∃ t, exec (.dadd mi2) sf = .next t)
    ∧ (∃ t, exec (.dsub mi2) sf = .next t) :=
  ⟨Completes.runs ((h.1.1 sf mi1 i0 (by decide)) (by unfold Issues; decide +kernel)),
   Completes.runs ((h.1.2.1 sf mi1 i0 (by decide)) (by unfold Issues; decide +kernel)),
   Completes.runs ((h.1.2.2.1 sf mi1 i0 (by decide)) (by unfold Issues; decide +kernel)),
   Completes.runs ((h.1.2.2.2.1 sf mi1 i0 (by decide)) (by unfold Issues; decide +kernel)),
   Completes.runs ((h.1.2.2.2.2.1 sf mi1 i0 (by decide)) (by unfold Issues; decide +kernel)),
   Completes.runs ((h.1.2.2.2.2.2.1 sf mi1 i0 (by decide)) (by unfold Issues; decide +kernel)),
   Completes.runs ((h.1.2.2.2.2.2.2.1 sf mi1 i0 (by decide)) (by unfold Issues; decide +kernel)),
   Completes.runs ((h.1.2.2.2.2.2.2.2 sf mi1 i0 (by decide)) (by unfold Issues; decide +kernel)),
   Completes.runs ((h.2.1 sf mi2 i0 (by decide)) (by unfold Issues; decide +kernel)),
   Completes.runs ((h.2.2.1 sf mi2 i0 (by decide)) (by unfold Issues; decide +kernel))⟩

/-- More clauses of the same statement. -/
theorem witness_FloatResults_2 (h : Obligations.FloatResults) :
    (∃ t, exec (.dmul mi2) sf = .next t)
    ∧ (∃ t, exec (.dfma mi2) sf = .next t)
    ∧ (∃ t, exec (.dmin mi2) sf = .next t)
    ∧ (∃ t, exec (.dmax mi2) sf = .next t) :=
  ⟨Completes.runs ((h.2.2.2.1 sf mi2 i0 (by decide)) (by unfold Issues; decide +kernel)),
   Completes.runs ((h.2.2.2.2.1 sf mi2 i0 (by decide)) (by unfold Issues; decide +kernel)),
   Completes.runs ((h.2.2.2.2.2.1 sf mi2 i0 (by decide)) (by unfold Issues; decide +kernel)),
   Completes.runs ((h.2.2.2.2.2.2 sf mi2 i0 (by decide)) (by unfold Issues; decide +kernel))⟩

/-- The instruction of a witness below. -/
def mi3 : Mi := {m0 with dst:=1,mod:=0}

/-- The instruction of a witness below. -/
def mi4 : Mi := {m0 with a:=20,b:=21,dst:=1,mod:=0}

/-- The instruction of a witness below. -/
def mi5 : Mi := {m0 with a:=20,b:=22,dst:=1,mod:=0}

/-- The instruction of a witness below. -/
def mi6 : Mi := {m0 with a:=0,b:=1,c:=0,dst:=1,mod:=0}

/-- The instruction of a witness below. -/
def mi7 : Mi := {m0 with mod:=1}

/-- The instruction of a witness below. -/
def mi8 : Mi := {m0 with dst:=3,c:=1}

/-- The instruction of a witness below. -/
def mi9 : Mi := {m0 with c:=1}

/-- The hypotheses of `Obligations.MoveAndConversionResults` are met on these states and operands, clause by clause. -/
theorem witness_MoveAndConversionResults (h : Obligations.MoveAndConversionResults) :
    (∃ t, exec (.isetp mi3) s0 = .next t)
    ∧ (∃ t, exec (.fsetp mi4) sf = .next t)
    ∧ (∃ t, exec (.dsetp mi5) sf = .next t)
    ∧ (∃ t, exec (.psetp mi6) s0 = .next t)
    ∧ (∃ t, exec (.sel mi7) s0 = .next t)
    ∧ (∃ t, exec (.voteAll mi8) s0 = .next t)
    ∧ (∃ t, exec (.voteAny mi8) s0 = .next t)
    ∧ (∃ t, exec (.voteBallot mi9) s0 = .next t)
    ∧ (∃ t, exec (.mov m0) s0 = .next t)
    ∧ (∃ t, exec (.mov64 m0) s0 = .next t) :=
  ⟨Completes.runs ((h.1.1 s0 mi3 i0 (by decide)) (by unfold Issues; decide +kernel)),
   Completes.runs ((h.1.2.1 sf mi4 i0 (by decide)) (by unfold Issues; decide +kernel)),
   Completes.runs ((h.1.2.2.1 sf mi5 i0 (by decide)) (by unfold Issues; decide +kernel)),
   Completes.runs ((h.1.2.2.2.1 s0 mi6 i0 (by decide)) (by unfold Issues; decide +kernel)),
   Completes.runs ((h.1.2.2.2.2.1 s0 mi7 i0 trivial) (by unfold Issues; decide +kernel)),
   Completes.runs ((h.1.2.2.2.2.2.1 s0 mi8 i0 trivial) (by unfold Issues; decide +kernel)),
   Completes.runs ((h.1.2.2.2.2.2.2.1 s0 mi8 i0 trivial) (by unfold Issues; decide +kernel)),
   Completes.runs ((h.1.2.2.2.2.2.2.2.1 s0 mi9 i0 trivial) (by unfold Issues; decide +kernel)),
   Completes.runs ((h.1.2.2.2.2.2.2.2.2.1 s0 m0 i0 trivial) (by unfold Issues; decide +kernel)),
   Completes.runs ((h.1.2.2.2.2.2.2.2.2.2.1 s0 m0 i0 trivial) (by unfold Issues; decide +kernel))⟩

/-- The instruction of a witness below. -/
def mi10 : Mi := {m0 with b:=9,mod:=0}

/-- The instruction of a witness below. -/
def mi11 : Mi := {m0 with a:=20,dst:=30,mod:=0}

/-- The instruction of a witness below. -/
def mi12 : Mi := {m0 with a:=4,b:=5,mod:=8}

/-- The instruction of a witness below. -/
def mi13 : Mi := {m0 with a:=20,mod:=0}

/-- The instruction of a witness below. -/
def mi14 : Mi := {m0 with a:=20,b:=8,mod:=0}

/-- The instruction of a witness below. -/
def mi15 : Mi := {m0 with a:=0}

/-- More clauses of the same statement. -/
theorem witness_MoveAndConversionResults_2 (h : Obligations.MoveAndConversionResults) :
    (∃ t, exec (.shfl mi10) s0 = .next t)
    ∧ (∃ t, exec (.cvt mi11) sf = .next t)
    ∧ (∃ t, exec (.ndec mi12) sf = .next t)
    ∧ (∃ t, exec (.mximp mi13) sf = .next t)
    ∧ (∃ t, exec (.mxexp mi14) sf = .next t)
    ∧ (∃ t, exec (.mxsimp mi14) sf = .next t)
    ∧ (∃ t, exec (.mxsexp mi13) sf = .next t)
    ∧ (∃ t, exec (.s2r mi15) s0 = .next t) :=
  ⟨Completes.runs ((h.1.2.2.2.2.2.2.2.2.2.2 s0 mi10 i0 trivial) (by unfold Issues; decide +kernel)),
   Completes.runs ((h.2.1 sf mi11 i0 (by decide)) (by unfold Issues; decide +kernel)),
   Completes.runs ((h.2.2.1 sf mi12 i0 (by decide)) (by unfold Issues; decide +kernel)),
   Completes.runs ((h.2.2.2.1 sf mi13 i0 (by decide)) (by unfold Issues; decide +kernel)),
   Completes.runs ((h.2.2.2.2.1 sf mi14 i0 (by decide)) (by unfold Issues; decide +kernel)),
   Completes.runs ((h.2.2.2.2.2.1 sf mi14 i0 (by decide)) (by unfold Issues; decide +kernel)),
   Completes.runs ((h.2.2.2.2.2.2.1 sf mi13 i0 (by decide)) (by unfold Issues; decide +kernel)),
   Completes.runs ((h.2.2.2.2.2.2.2 s0 mi15 i0 (by decide)) (by unfold Issues; decide +kernel))⟩

/-- The instruction of a witness below. -/
def mi16 : Mi := {m0 with ext:=some 0x100000002}

/-- Helper of the witnesses. -/
def ix : Iss := { i0 with next := 0x10010 }

/-- The state of a witness below. -/
def st1 : State := (s0.setReg (State.unitReg 0 0x18) 1)

/-- The hypotheses of `Obligations.PassingAndBreak` are met on these states and operands, clause by clause. -/
theorem witness_PassingAndBreak (h : Obligations.PassingAndBreak) :
    (∃ t, exec (.nopInstruction m0) s0 = .next t)
    ∧ (∃ t, exec (.tfence m0) s0 = .next t)
    ∧ (∃ t, exec (.vfence m0) s0 = .next t)
    ∧ (∃ t, exec (.join m0) s0 = .next t)
    ∧ (∃ t, exec (.div mi16) s0 = .next t)
    ∧ (∃ t, exec (.brk m0) s0 = .next t)
    ∧ (∃ t, exec (.brk m0) st1 = .next t) :=
  ⟨Completes.runs ((h.1.1 s0 m0 i0 (by decide)) (by unfold Issues; decide +kernel)),
   Completes.runs ((h.1.2.1 s0 m0 i0 (by decide)) (by unfold Issues; decide +kernel)),
   Completes.runs ((h.1.2.2.1 s0 m0 i0 (by decide)) (by unfold Issues; decide +kernel)),
   Completes.runs ((h.1.2.2.2.1 s0 m0 i0 (by decide)) (by unfold Issues; decide +kernel)),
   Completes.runs ((h.1.2.2.2.2.1 s0 mi16 ix (by decide)) (by unfold Issues; decide +kernel)),
   Completes.runs ((h.1.2.2.2.2.2 s0 m0 i0 (by decide)) (by unfold Issues; decide +kernel)),
   Completes.runs ((h.2 st1 m0 i0) (by unfold Issues; decide +kernel) rfl rfl rfl (by decide +kernel))⟩

/-- The instruction of a witness below. -/
def mi17 : Mi := {m0 with a:=12}

/-- The instruction of a witness below. -/
def mi18 : Mi := {m0 with dst:=40}

/-- The hypotheses of `Obligations.ControlFlow` are met on these states and operands, clause by clause. -/
theorem witness_ControlFlow (h : Obligations.ControlFlow) :
    (∃ t, exec (.bra m0) s0 = .next t)
    ∧ (∃ t, exec (.brx mi17) s0 = .next t)
    ∧ (∃ t, exec (.call mi18) s0 = .next t)
    ∧ (∃ t, exec (.exit m0) s0 = .next t) :=
  ⟨Completes.runs ((h.1.1 s0 m0 i0) (by unfold Issues; decide +kernel) (by decide +kernel)),
   Completes.runs (h.1.2.1 s0 mi17 i0 (by unfold Issues; decide +kernel) (by decide +kernel) (Or.inl (by decide +kernel))),
   Completes.runs ((h.1.2.2 s0 mi18 i0) (by unfold Issues; decide +kernel) (by decide +kernel)),
   Completes.runs ((h.2 s0 m0 i0) (by unfold Issues; decide +kernel) (by decide +kernel))⟩

/-- Helper of the witnesses. -/
def mh : Mi := { m0 with unit := 128 }

/-- The instruction of a witness below. -/
def mi19 : Mi := {mh with mod:=1,ext:=some 0x0000001000000020}

/-- Helper of the witnesses. -/
def ih : Iss := { i0 with u := 128 }

/-- The Iss of a witness below. -/
def is1 : Iss := {ih with next:=0x10010}

/-- Helper of the witnesses. -/
def sst : State := { s0 with groups := [(128 * 32, { group with alloc := 256, active := 0xFFFFFFFF, stack := [(0x20000, 0xFF00), (0x30000, 0xFFFF)] })] }

/-- The instruction of a witness below. -/
def mi20 : Mi := {m0 with a:=7}

/-- Helper of the witnesses. -/
def sbar : State := { s0 with pkg := { s0.pkg with cycles := [(0, 2 ^ 27)] }, groups := [(0, { group with bar := some ⟨0xFF, 0xF, 5, 0x10000⟩ })] }

/-- The instruction of a witness below. -/
def mi38 : Mi := {mh with mod:=6,ext:=some 0x0000001000000020}

/-- The instruction of a witness below. -/
def mi39 : Mi := {mh with a:=7}

/-- The hypotheses of `Obligations.MaskStackAndBarrier` are met on these states and operands, clause by clause. -/
theorem witness_MaskStackAndBarrier (h : Obligations.MaskStackAndBarrier) :
    (∃ t, exec (.div mi19) s0 = .next t)
    ∧ (∃ t, exec (.join mh) sst = .next t)
    ∧ (∃ t, exec (.gbar mi20) s0 = .next t)
    ∧ (∃ t, exec (.barrierStall 0 0) sbar = .next t)
    ∧ (∃ t, exec (.div mi38) s0 = .next t)
    ∧ (∃ t, exec (.gbar mi39) s0 = .next t) :=
  ⟨Completes.runs ((h.1.1 s0 mi19 is1) (by unfold Issues; decide +kernel) (by decide +kernel) (by decide +kernel) (by decide +kernel)),
   Completes.runs ((h.1.2.2 sst mh ih 0x20000 0xFF00 [(0x30000,0xFFFF)]) (by unfold Issues; decide +kernel) (by decide +kernel) rfl),
   Completes.runs ((h.2.1 s0 mi20 i0) (by unfold Issues; decide +kernel) (by decide +kernel) (by decide +kernel)),
   Completes.runs ((h.2.2.2 sbar 0 0 ⟨0xFF,0xF,5,0x10000⟩) rfl rfl rfl rfl rfl (by decide +kernel) rfl),
   Completes.runs ((h.1.2.1 s0 mi38 is1) (by unfold Issues; decide +kernel) (by decide +kernel) (by decide +kernel) rfl (by decide +kernel)),
   Completes.runs ((h.2.2.1 s0 mi39 ih) (by unfold Issues; decide +kernel) (by decide +kernel) (by decide +kernel) (by decide +kernel) rfl)⟩

/-- The hypotheses of `Obligations.IllegalInstructions` are met on these states and operands, clause by clause. -/
theorem witness_IllegalInstructions (h : Obligations.IllegalInstructions) :
    ((s0.issue {} mi7 false (fun _ => true) fun _ s => s).unit 0).fault.kind = 3
    ∧ (∃ t, exec (.csrr m0) s0 = .next t)
    ∧ (∃ t, exec (.csrw m0) s0 = .next t)
    ∧ (∃ t, exec (.wdkick m0) s0 = .next t)
    ∧ (∃ t, exec (.wfe m0) s0 = .next t)
    ∧ (∃ t, exec (.sev m0) s0 = .next t)
    ∧ (∃ t, exec (.ldp m0) s0 = .next t)
    ∧ (∃ t, exec (.stp m0) s0 = .next t) :=
  ⟨(h.1 s0 {} mi7 false (fun _ => true) (fun _ s => s) 0x10000 0xFFFFFFFF false (by decide +kernel) (by decide +kernel) (by decide +kernel) (by first | decide +kernel) (by decide +kernel) (by decide +kernel) (by decide +kernel) (by first | decide +kernel)).1,
   Completes.runs ((h.2.1 s0 m0 i0) (by unfold Issues; decide +kernel) (by decide +kernel) rfl),
   Completes.runs ((h.2.2.1 s0 m0 i0) (by unfold Issues; decide +kernel) (by decide +kernel) rfl),
   Completes.runs ((h.2.2.2.1 s0 m0 i0) (by unfold Issues; decide +kernel) (by decide +kernel) rfl),
   Completes.runs ((h.2.2.2.2.1 s0 m0 i0) (by unfold Issues; decide +kernel) (by decide +kernel) rfl),
   Completes.runs ((h.2.2.2.2.2.1 s0 m0 i0) (by unfold Issues; decide +kernel) (by decide +kernel) rfl),
   Completes.runs ((h.2.2.2.2.2.2.1 s0 m0 i0) (by unfold Issues; decide +kernel) (by decide +kernel) rfl),
   Completes.runs ((h.2.2.2.2.2.2.2 s0 m0 i0) (by unfold Issues; decide +kernel) (by decide +kernel) rfl)⟩

/-- The instruction of a witness below. -/
def mi21 : Mi := {m0 with dst:=24,a:=12,mod:=0}

/-- Helper of the witnesses. -/
def slotN (l : List (Nat × Nat)) : Nat := l.foldl (fun a x => a + x.2 <<< (8 * x.1)) 0

/-- Helper of the witnesses. -/
def cfgBody : List Byte := leBytes 4096 (slotN ([(0,0x110),(4,0x1111),(8,0xAA),(0x10,20+10*65536),(0x14,420+7*2^12)] ++ (List.range 20).map (fun i => (0x40+8*i, 25+25*2^8+2^16+255*2^24+100*2^40))))

/-- Helper of the witnesses. -/
def st (n : Nat) : State := { on with blocks := [], cat := [], regs := [], pkg := {on.pkg with locked := false}, dome := { boot := { state := 0, stage := n, fresh := true, running := { cfg := cfgBody } }, fuses := { keys := [0,0,0,0], states := [1,0,0,0] } } }

/-- The instruction of a witness below. -/
def mi22 : Mi := {m0 with b:=20,a:=12,mod:=0}

/-- The instruction of a witness below. -/
def mi23 : Mi := {m0 with dst:=24,a:=2,mod:=2}

/-- The instruction of a witness below. -/
def mi24 : Mi := {mh with dst:=24,a:=2,mod:=3}

/-- The instruction of a witness below. -/
def mi25 : Mi := {mh with b:=24,a:=2,mod:=3}

/-- The instruction of a witness below. -/
def mi26 : Mi := {m0 with a:=2,b:=4,c:=0,mod:=0}

/-- The instruction of a witness below. -/
def mi27 : Mi := {m0 with a:=2}

/-- The instruction of a witness below. -/
def mi28 : Mi := {m0 with a:=12,b:=4}

/-- Helper of the witnesses. -/
def sl1 : State := { s0 with units := [(0, { l1 := [(0x30000, (List.range 128).map (fun i => BitVec.ofNat 8 (200 - i)))] })] }

/-- The List Byte of a witness below. -/
def va97 : List Byte := ((List.range 128).map (fun i => BitVec.ofNat 8 (200 - i)))

/-- Every lane of a list reaches one line, from a check that evaluates. -/
theorem oneLine_of {l : List Nat} {f : Nat → Option Dest} {line : Nat}
    (h : l.all (fun x => match f x with | some (.here a) => a / 128 * 128 == line | _ => false) = true) :
    ∀ x ∈ l, ∃ a, f x = some (.here a) ∧ a / 128 * 128 = line := by
  intro x hx
  have := List.all_eq_true.1 h x hx
  split at this
  · exact ⟨_, ‹_›, by simpa using this⟩
  · simp at this

/-- The hypotheses of `Obligations.MemoryInstructionsSent` are met on these states and operands, clause by clause. -/
theorem witness_MemoryInstructionsSent (h : Obligations.MemoryInstructionsSent) :
    (∃ t, exec (.ld mi21) s0 = .next t)
    ∧ (∃ t, exec (.st mi22) s0 = .next t)
    ∧ (∃ t, exec (.ldc mi23) s0 = .next t)
    ∧ (∃ t, exec (.ldp mi24) s0 = .next t)
    ∧ (∃ t, exec (.stp mi25) s0 = .next t)
    ∧ (∃ t, exec (.atom mi26) s0 = .next t)
    ∧ (∃ t, exec (.dead mi17) s0 = .next t)
    ∧ (∃ t, exec (.pf mi27) s0 = .next t)
    ∧ (∃ t, exec (.accl mi28) s0 = .next t)
    ∧ (∃ t, exec (.ld mi21) sl1 = .next t) :=
  ⟨Completes.runs (h.1.1 s0 mi21 i0 (by unfold Issues; decide +kernel) (by decide +kernel) (by decide +kernel) (by decide +kernel) (by first | decide +kernel) (memOk_of (by decide +kernel) (by decide +kernel) (by decide +kernel))),
   Completes.runs (h.1.2.2.2.1 s0 mi22 i0 (by unfold Issues; decide +kernel) (by decide +kernel) (by decide +kernel) (by decide +kernel) (memOk_of (by first | decide +kernel) (by decide +kernel) (by decide +kernel))),
   Completes.runs (h.1.2.1 s0 mi23 i0 (by unfold Issues; decide +kernel) (by decide +kernel) (by decide +kernel) (by decide +kernel) (by first | decide +kernel) (memOk_of (by decide +kernel) (by decide +kernel) (by decide +kernel))),
   Completes.runs (h.1.2.2.1 s0 mi24 ih (by unfold Issues; decide +kernel) (by decide +kernel) (by decide +kernel) (by decide +kernel) (by first | decide +kernel) (memOk_of (by decide +kernel) (by decide +kernel) (by decide +kernel))),
   Completes.runs (h.1.2.2.2.2 s0 mi25 ih (by unfold Issues; decide +kernel) (by decide +kernel) (by decide +kernel) (by decide +kernel) (memOk_of (by first | decide +kernel) (by decide +kernel) (by decide +kernel))),
   Completes.runs (h.2.2.2.1 s0 mi26 i0 (by unfold Issues; decide +kernel) (by decide +kernel) (by decide +kernel) (by decide +kernel) (memOk_of (by first | decide +kernel) (by decide +kernel) (by decide +kernel))),
   Completes.runs (h.2.2.2.2.1 s0 mi17 i0 (by unfold Issues; decide +kernel) (by decide +kernel) (memOk_of (by decide +kernel) (by decide +kernel) (by first | decide +kernel))),
   Completes.runs ((h.2.2.2.2.2.1 s0 mi27 i0) (by unfold Issues; decide +kernel) rfl (by decide +kernel)),
   Completes.runs (h.2.2.2.2.2.2 s0 mi28 i0 (by unfold Issues; decide +kernel) (by decide +kernel) (memOk_of (by decide +kernel) (by decide +kernel) (by first | decide +kernel)) (by decide +kernel) (by decide +kernel)),
   Completes.runs (h.2.1 sl1 mi21 i0 0x30000 va97 (by unfold Issues; decide +kernel) (by decide +kernel) (by decide +kernel) (by decide +kernel) (memOk_of (by first | decide +kernel) (by decide +kernel) (by decide +kernel)) (by decide +kernel) (by first | decide +kernel) (oneLine_of (by decide +kernel)) (by decide +kernel) (by decide +kernel))⟩

/-- Helper of the witnesses. -/
def m3 : Mi := { m0 with pred := 2, a := 30, dst := 24, b := 5 }

/-- The instruction of a witness below. -/
def mi36 : Mi := {m3 with mod:=2}

/-- Helper of the witnesses. -/
def srg : State := { s0 with blocks := [{ base := 0xF1000200000, pages := 1, kind := .unit, part := 0, inst := 5 }],
                             extents := s0.extents ++ [(2, { base := 0xF100020, limit := 0xF10003F, target := 0xF100020, perm := 3, valid := true })],
                             groups := s0.groups.map (fun e => (e.1, { e.2 with threads := (List.range 32).map (fun l => (l, { lane l with
                              p := if l = 3 then 4 else 0, g := (lane l).g ++ [(30, 0x200014), (31, 0xF10)] })) })) }

/-- Helper of the witnesses. -/
def i3 : Iss := { i0 with exec := 8 }

/-- Helper of the witnesses. -/
def runit : RegAddr := { kind := .unit, part := 0, inst := 5, off := 0x14 }

/-- The instruction of a witness below. -/
def mi37 : Mi := {m3 with mod:=2,unit:=128}

/-- The Iss of a witness below. -/
def is3 : Iss := {i3 with u:=128}

/-- More clauses of the same statement. -/
theorem witness_MemoryInstructionsSent_2 (h : Obligations.MemoryInstructionsSent) :
    (∃ t, exec (.ld mi36) srg = .next t)
    ∧ (∃ t, exec (.ldc mi36) srg = .next t)
    ∧ (∃ t, exec (.ldp mi37) srg = .next t)
    ∧ (∃ t, exec (.st mi36) srg = .next t)
    ∧ (∃ t, exec (.stp mi37) srg = .next t) :=
  ⟨Completes.runs (h.2.2.1.1 srg mi36 i3 3 runit (by unfold Issues; decide +kernel) (by decide +kernel) (by decide +kernel) (by decide +kernel) (by first | decide +kernel) (by decide +kernel) (by decide +kernel) ⟨(by decide +kernel), (by first | decide +kernel), (by decide +kernel), (by decide +kernel), 0xF1000200014, (by decide +kernel), (by first | decide +kernel), (by decide +kernel)⟩ (by decide +kernel)),
   Completes.runs (h.2.2.1.2.1 srg mi36 i3 3 runit (by unfold Issues; decide +kernel) (by decide +kernel) (by decide +kernel) (by decide +kernel) (by first | decide +kernel) (by decide +kernel) (by decide +kernel) ⟨(by decide +kernel), (by first | decide +kernel), (by decide +kernel), (by decide +kernel), 0xF1000200014, (by decide +kernel), (by first | decide +kernel), (by decide +kernel)⟩ (by decide +kernel)),
   Completes.runs (h.2.2.1.2.2.1 srg mi37 is3 3 runit (by unfold Issues; decide +kernel) (by decide +kernel) (by decide +kernel) (by decide +kernel) (by first | decide +kernel) (by decide +kernel) (by decide +kernel) ⟨(by decide +kernel), (by first | decide +kernel), (by decide +kernel), (by decide +kernel), 0xF1000200014, (by decide +kernel), (by first | decide +kernel), (by decide +kernel)⟩ (by decide +kernel)),
   Completes.runs (h.2.2.1.2.2.2.1 srg mi36 i3 3 runit (by unfold Issues; decide +kernel) (by decide +kernel) (by decide +kernel) (by decide +kernel) ⟨(by first | decide +kernel), (by decide +kernel), (by decide +kernel), (by decide +kernel), 0xF1000200014, (by first | decide +kernel), (by decide +kernel), (by decide +kernel)⟩),
   Completes.runs (h.2.2.1.2.2.2.2 srg mi37 is3 3 runit (by unfold Issues; decide +kernel) (by decide +kernel) (by decide +kernel) (by decide +kernel) ⟨(by first | decide +kernel), (by decide +kernel), (by decide +kernel), (by decide +kernel), 0xF1000200014, (by first | decide +kernel), (by decide +kernel), (by decide +kernel)⟩)⟩

/-- Helper of the witnesses. -/
def sop (o : MemOp) (l : L2Line) : State := { s0 with ops := [(10, some o)], lines := if l = {} then [] else [(0x20000 / 128, l)]
                                                      mem := [(0x20009, 7), (0x20077, 9), (0xE0000000409, 33), (0xE0000000500, 4)] }

/-- Helper of the witnesses. -/
def op0 (k : OpKind) (l : List LaneOp) : MemOp :=
  { kind := k, unit := 0, slot := 0, part := 0, stream := 0, cmd := 5, pc := 0x10000, line := 0x20000, lanes := l, bytes := 4, signed := false, dst := 20
    udst := false, aop := 0, aty := 0, scope := 0, ord := false, final := false, remote := none, keepL1 := true, filling := false, queued := false
    fromTile := false }

/-- Helper of the witnesses. -/
def lo (l lpa d e : Nat) : LaneOp := ⟨l, lpa, lpa, d, e⟩

/-- Helper of the witnesses. -/
def full : L2Line := { present := true, valid := 2 ^ 128 - 1, data := (List.range 128).map (fun i => BitVec.ofNat 8 (200 - i)) }

/-- The state of a witness below. -/
def st2 : State := (sop (op0 .load [lo 3 0x20008 0 0]) full)

/-- The state of a witness below. -/
def st3 : State := (sop (op0 .load [lo 3 0x20008 0 0]) {})

/-- The state of a witness below. -/
def st4 : State := (((sop (op0 .load [lo 3 0x20008 0 0]) {}).allocLine 0 0x20000).getD on)

/-- The state of a witness below. -/
def st5 : State := (sop (op0 .store [lo 3 0x20008 0x12345678 0, lo 5 0x20078 9 0]) full)

/-- The MemOp of a witness below. -/
def va1 : MemOp := (op0 .store [lo 3 0x20008 0x12345678 0, lo 5 0x20078 9 0])

/-- The state of a witness below. -/
def st6 : State := (sop {op0 .atomic [lo 3 0x20008 0x3F812345 0] with aop:=0,aty:=0,bytes:=4,dst:=24} full)

/-- The MemOp of a witness below. -/
def va2 : MemOp := {op0 .atomic [lo 3 0x20008 0x3F812345 0] with aop:=0,aty:=0,bytes:=4,dst:=24}

/-- The state of a witness below. -/
def st7 : State := (sop (op0 .accum [lo 3 0x20008 0x3F812345 0]) full)

/-- The state of a witness below. -/
def st8 : State := (sop (op0 .dead [lo 3 0x20000 0 0]) full)

/-- The state of a witness below. -/
def st9 : State := (sop (op0 .prefetch [lo 3 0x20000 0 0]) full)

/-- The state of a witness below. -/
def st10 : State := (sop (op0 .prefetch [lo 3 0x20000 0 0]) {})

/-- The state of a witness below. -/
def st11 : State := (((sop (op0 .prefetch [lo 3 0x20000 0 0]) {}).allocLine 0 0x20000).getD on)

/-- The state of a witness below. -/
def st12 : State := (sop {op0 .load [lo 3 0x20008 0 0] with filling:=true} {full with valid:=0xFF0,dirty:=0x30})

/-- The MemOp of a witness below. -/
def va3 : MemOp := {op0 .load [lo 3 0x20008 0 0] with filling:=true}

/-- The hypotheses of `Obligations.SliceOperations` are met on these states and operands, clause by clause. -/
theorem witness_SliceOperations (h : Obligations.SliceOperations) :
    (∃ t, exec (.sliceLoad (LineAccess.op 10)) st2 = .next t)
    ∧ (∃ t, exec (.sliceLoad (LineAccess.op 10)) st3 = .next t)
    ∧ (∃ t, exec (.sliceStore 10) st5 = .next t)
    ∧ (∃ t, exec (.sliceAtomic 10) st6 = .next t)
    ∧ (∃ t, exec (.sliceAccumulate 10) st7 = .next t)
    ∧ (∃ t, exec (.sliceDeadHint 10) st8 = .next t)
    ∧ (∃ t, exec (.slicePrefetch 10) st9 = .next t)
    ∧ (∃ t, exec (.slicePrefetch 10) st10 = .next t)
    ∧ (∃ t, exec (.hbmFillReturn (LineAccess.op 10) { corr := 1, uncorr := 0 }) st12 = .next t) :=
  ⟨Completes.runs ((h.1.1 st2 10 (op0 .load [lo 3 0x20008 0 0])) rfl rfl rfl (by unfold Answerable; decide +kernel)),
   Completes.runs ((h.1.2.1 st3 st4 10 (op0 .load [lo 3 0x20008 0 0])) rfl rfl rfl (by decide +kernel) rfl),
   Completes.runs ((h.1.2.2 st5 10 va1) rfl rfl rfl rfl (by unfold DisjointLanes; decide +kernel)),
   Completes.runs ((h.2.1.1 st6 10 va2 (lo 3 0x20008 0x3F812345 0)) rfl rfl rfl rfl rfl (by unfold DisjointLanes; decide +kernel) (by unfold Answerable; decide +kernel) (by decide +kernel)),
   Completes.runs ((h.2.1.2 st7 10 (op0 .accum [lo 3 0x20008 0x3F812345 0]) (lo 3 0x20008 0x3F812345 0)) rfl rfl rfl rfl rfl rfl (by unfold DisjointLanes; decide +kernel) rfl),
   Completes.runs ((h.2.2.1 st8 10 (op0 .dead [lo 3 0x20000 0 0])) rfl rfl rfl),
   Completes.runs ((h.2.2.2.1 st9 10 (op0 .prefetch [lo 3 0x20000 0 0])) rfl rfl),
   Completes.runs ((h.2.2.2.2.1 st10 st11 10 (op0 .prefetch [lo 3 0x20000 0 0])) rfl rfl (by decide +kernel) rfl),
   Completes.runs ((h.2.2.2.2.2 st12 10 va3 ⟨1,0⟩) rfl rfl rfl (by decide +kernel) rfl rfl rfl rfl rfl (by decide +kernel))⟩

/-- The state of a witness below. -/
def st13 : State := (sop {op0 .store [lo 3 0xE0000000408 0x12345678 0, lo 5 0xE0000000478 9 0] with line:=0xE0000000400} full)

/-- The MemOp of a witness below. -/
def va4 : MemOp := {op0 .store [lo 3 0xE0000000408 0x12345678 0, lo 5 0xE0000000478 9 0] with line:=0xE0000000400}

/-- The state of a witness below. -/
def st14 : State := (sop {op0 .load [lo 3 0xE0000000408 0 0, lo 5 0xE0000000478 9 0] with line:=0xE0000000400} full)

/-- The MemOp of a witness below. -/
def va5 : MemOp := {op0 .load [lo 3 0xE0000000408 0 0, lo 5 0xE0000000478 9 0] with line:=0xE0000000400}

/-- The hypotheses of `Obligations.ClusterMemoryAccess` are met on these states and operands, clause by clause. -/
theorem witness_ClusterMemoryAccess (h : Obligations.ClusterMemoryAccess) :
    (∃ t, exec (.cmemBankAccess (LineAccess.op 10) { corr := 0, uncorr := 0 }) st13 = .next t)
    ∧ (∃ t, exec (.cmemBankAccess (LineAccess.op 10) { corr := 0, uncorr := 0 }) st14 = .next t) :=
  ⟨Completes.runs (h.1 st13 10 ⟨0,0⟩ va4 0 16 ⟨(by decide +kernel), (by decide +kernel), (by decide +kernel), (by first | decide +kernel), ⟨0x400, (by decide +kernel)⟩, (by decide +kernel), (by decide +kernel), (by first | decide +kernel)⟩ (by decide +kernel) (by unfold DisjointLanes; decide +kernel) (List.forall_mem_cons.2 ⟨⟨0x408, (by decide +kernel), (by decide +kernel)⟩, List.forall_mem_cons.2 ⟨⟨0x478, (by first | decide +kernel), (by decide +kernel)⟩, fun _ h => by cases h⟩⟩)),
   Completes.runs (h.2 st14 10 va5 0 16 ⟨(by decide +kernel), (by decide +kernel), (by decide +kernel), (by first | decide +kernel), ⟨0x400, (by decide +kernel)⟩, (by decide +kernel), (by decide +kernel), (by first | decide +kernel)⟩ (by decide +kernel) (by unfold Answerable; decide +kernel))⟩

/-- The instruction of a witness below. -/
def mi29 : Mi := {m0 with mod:=0}

/-- Helper of the witnesses. -/
def sfe : State := { s0 with units := [(0, { l1 := [(0x20000, [])], cc := [(0x20080, [])] }), (128, { l1 := [(0x20000, [])], cc := [(0x20080, [])] })] }

/-- The hypotheses of `Obligations.FenceInstruction` are met on these states and operands, clause by clause. -/
theorem witness_FenceInstruction (h : Obligations.FenceInstruction) :
    ∃ t, exec (.fenceInstruction mi29) sfe = .next t :=
  Completes.runs ((h sfe mi29 i0) (by unfold Issues; decide +kernel) (by decide +kernel) rfl (by decide +kernel))

/-- The instruction of a witness below. -/
def mi30 : Mi := {m0 with a:=9,b:=4}

/-- The instruction of a witness below. -/
def mi31 : Mi := {m0 with a:=8}

/-- The state of a witness below. -/
def st15 : State := {s0 with ctrs:=[(2,{value:=9}),(7,{value:=11})]}

/-- The hypotheses of `Obligations.CounterInstructions` are met on these states and operands, clause by clause. -/
theorem witness_CounterInstructions (h : Obligations.CounterInstructions) :
    (∃ t, exec (.csig mi30) s0 = .next t)
    ∧ (∃ t, exec (.cwait mi30) s0 = .next t)
    ∧ (∃ t, exec (.cget mi31) st15 = .next t) :=
  ⟨Completes.runs ((h.1 s0 mi30 i0) (by unfold Issues; decide +kernel) (by decide +kernel) rfl rfl (by decide +kernel)),
   Completes.runs ((h.2.1 s0 mi30 i0) (by unfold Issues; decide +kernel) (by decide +kernel) rfl rfl (by decide +kernel)),
   Completes.runs ((h.2.2 st15 mi31 i0 (by decide)) (by unfold Issues; decide +kernel))⟩

/-- The state of a witness below. -/
def st16 : State := {s0 with ctrs:=[(4099,{value:=5,waiters:=[⟨0,1,6,5,.thread 0 1 3⟩,⟨0,2,9,5,.thread 0 2 3⟩,⟨2,2,6,5,.command 0 7⟩]})],ctrQ:=[(1,[⟨[(4099,[(3,2),(4,-1)])],none,0,0,0,5,0,0,0x10000,1,40⟩])]}

/-- The CtrMsg of a witness below. -/
def va6 : CtrMsg := ⟨[(4099,[(3,2),(4,-1)])],none,0,0,0,5,0,0,0x10000,1,40⟩

/-- The state of a witness below. -/
def st17 : State := {s0 with ctrs:=[(4099,{value:=5,floor:=5})],ctrQ:=[(1,[⟨[(4099,[(3,-2),(4,-1)])],none,0,0,0,5,0,0,0x10000,1,40⟩])]}

/-- The CtrMsg of a witness below. -/
def va7 : CtrMsg := ⟨[(4099,[(3,-2),(4,-1)])],none,0,0,0,5,0,0,0x10000,1,40⟩

/-- The state of a witness below. -/
def st18 : State := {s0 with ctrs:=[(4099,{value:=5})],ctrQ:=[(1,[⟨[],some (4099,⟨0,1,9,5,.thread 0 0 6⟩),0,0,0,5,0,0,0x10000,1,40⟩])]}

/-- The CtrMsg of a witness below. -/
def va8 : CtrMsg := ⟨[],some (4099,⟨0,1,9,5,.thread 0 0 6⟩),0,0,0,5,0,0,0x10000,1,40⟩

/-- The state of a witness below. -/
def st19 : State := {s0 with ctrs:=[(4099,{value:=12})],ctrQ:=[(1,[⟨[],some (4099,⟨0,1,9,5,.thread 0 0 6⟩),0,0,0,5,0,0,0x10000,1,40⟩])],groups:=[(0,{group with threads:=(List.range 32).map (fun l => (l,{lane l with wait:=some ⟨1,3,9,1,20,false⟩}))})]}

/-- The hypotheses of `Obligations.CounterArrivals` are met on these states and operands, clause by clause. -/
theorem witness_CounterArrivals (h : Obligations.CounterArrivals) :
    (∃ t, exec (.counterSignalArrival 1 0) st16 = .next t)
    ∧ (∃ t, exec (.counterSignalArrival 1 0) st17 = .next t)
    ∧ (∃ t, exec (.counterWaitArrival 1 0) st18 = .next t)
    ∧ (∃ t, exec (.counterWaitArrival 1 0) st19 = .next t) :=
  ⟨Completes.runs ((h.1.1 st16 1 0 va6 4099 6 [(3,2),(4,-1)] (by decide)) rfl rfl rfl rfl rfl),
   Completes.runs ((h.1.2 st17 1 0 va7 4099 3 false [(3,-2),(4,-1)]) rfl rfl rfl rfl rfl rfl (by decide +kernel) rfl rfl),
   Completes.runs ((h.2.1 st18 1 0 va8 4099 ⟨0,1,9,5,.thread 0 0 6⟩ (by decide)) rfl rfl rfl (by decide +kernel)),
   Completes.runs ((h.2.2 st19 1 0 va8 4099 ⟨0,1,9,5,.thread 0 0 6⟩ 0 0 6) rfl rfl rfl rfl (by decide +kernel) rfl)⟩

/-- The instruction of a witness below. -/
def mi32 : Mi := {m0 with a:=0,b:=0,c:=0,mod:=4}

/-- The Vi of a witness below. -/
def va98 : Vi := {unit:=0,slot:=0,pred:=7,pneg:=false,vop:=3,lane:=0,round:=1,dst:=0x41,a:=0x42,b:=0x84,c:=0x43,relu:=false,maskout:=false,lse:=false,signal:=true,link:=true,rsv:=0,repeatN:=7,rows:=0,mask:=0x20,counter:=9,srcfmt:=0,rsvExt:=0,stall:=0 }

/-- Helper of the witnesses. -/
def tdesc : List Nat := [1, 0x0202, 2 + 3 * 4096, 4, 0x100, 1, 0, 0x200, 1, 0, 0, 1, 0, 0x400, 0, 0, 0, 0, 0, 0]

/-- Helper of the witnesses. -/
def tq : TileReq := ⟨0, 0, 0, 5, tdesc⟩

/-- The state of a witness below. -/
def st246 : State := {s0 with units:=[(0,{tileQ:=[tq,tq]})]}

/-- Helper of the witnesses. -/
def vq : VecReq := { unit := 0, slot := 0, cmd := 5, vop := 0, lane := 0, dst := 0x45, a := 0x41, b := 0x42, c := 0x43, reps := 2 }

/-- The state of a witness below. -/
def st247 : State := {s0 with units:=[(0,{vecQ:=[vq,vq]})]}

/-- The instruction of a witness below. -/
def mi40 : Mi := {m0 with a:=0,b:=3,c:=0,mod:=4}

/-- The Vi of a witness below. -/
def va99 : Vi := {unit:=0,slot:=0,pred:=7,pneg:=false,vop:=3,lane:=0,round:=1,dst:=0x41,a:=0x42,b:=0x84,c:=0x43,relu:=false,maskout:=false,lse:=false,signal:=true,link:=true,rsv:=1,repeatN:=7,rows:=0,mask:=0x20,counter:=9,srcfmt:=0,rsvExt:=0,stall:=0 }

/-- The hypotheses of `Obligations.EngineInstructionsIssued` are met on these states and operands, clause by clause. -/
theorem witness_EngineInstructionsIssued (h : Obligations.EngineInstructionsIssued) :
    (∃ t, exec (.tile mi32) s0 = .next t)
    ∧ (∃ t, exec (.vop va98) s0 = .next t)
    ∧ (∃ t, exec (.tile mi32) st246 = .next t)
    ∧ (∃ t, exec (.vop va98) st247 = .next t)
    ∧ (∃ t, exec (.tile mi40) s0 = .next t)
    ∧ (∃ t, exec (.vop va99) s0 = .next t) :=
  ⟨Completes.runs ((h.1 s0 mi32 i0) (by unfold Issues; decide +kernel) rfl rfl rfl rfl (by decide +kernel) (by decide +kernel) rfl rfl),
   Completes.runs ((h.2.1 s0 va98 ix) (by unfold Issues; decide +kernel) rfl rfl (by decide +kernel) (by decide +kernel) (by decide +kernel) rfl (by first | decide +kernel)),
   Completes.runs ((h.2.2.1 st246 mi32 i0) (by unfold Issues; decide +kernel) rfl rfl rfl rfl (by decide +kernel) (by decide +kernel)),
   Completes.runs ((h.2.2.2.1 st247 va98 ix) (by unfold Issues; decide +kernel) rfl rfl (by decide +kernel) (by decide +kernel)),
   Completes.runs ((h.2.2.2.2.1 s0 mi40 i0) (by unfold Issues; decide +kernel) (by decide +kernel) (by decide +kernel) rfl),
   Completes.runs ((h.2.2.2.2.2 s0 va99 ix) (by unfold Issues; decide +kernel) (by decide +kernel) (by decide +kernel) rfl)⟩

/-- The instruction of a witness below. -/
def mi33 : Mi := {mh with pred:=2,a:=30}

/-- Lane 3 alone holds predicate 2. -/
def sp (a : Nat) : State := { s0 with groups := [(128 * 32, { group with alloc := 256, threads := (List.range 32).map (fun l =>
  (l, { lane l with p := if l = 3 then 4 else 0, g := (lane l).g ++ [(30, a)] })) })] }

/-- The Iss of a witness below. -/
def is2 : Iss := {ih with exec:=8}

/-- The instruction of a witness below. -/
def mi34 : Mi := {mh with pred:=2,a:=30,b:=7}

/-- The instruction of a witness below. -/
def mi35 : Mi := {mh with pred:=2,a:=5,b:=30}

/-- The state of a witness below. -/
def st20 : State := {sp 1 with groups:=(sp 1).groups ++ [(129*32+4,{live:=true,wfe:=true})]}

/-- The hypotheses of `Obligations.PrivilegedInstructions` are met on these states and operands, clause by clause. -/
theorem witness_PrivilegedInstructions (h : Obligations.PrivilegedInstructions) :
    (∃ t, exec (.csrr mi33) (sp 0) = .next t)
    ∧ (∃ t, exec (.csrw mi34) (sp 8) = .next t)
    ∧ (∃ t, exec (.wdkick mh) s0 = .next t)
    ∧ (∃ t, exec (.wfe mh) s0 = .next t)
    ∧ (∃ t, exec (.sev mi35) (sp 3) = .next t)
    ∧ (∃ t, exec (.sev mi35) st20 = .next t) :=
  ⟨Completes.runs ((h.1 (sp 0) mi33 is2 3) (by unfold Issues; decide +kernel) (by decide +kernel) (by decide +kernel) rfl rfl (by decide +kernel) (by first | decide +kernel)),
   Completes.runs ((h.2.1 (sp 8) mi34 is2 3) (by unfold Issues; decide +kernel) (by decide +kernel) (by decide +kernel) rfl rfl),
   Completes.runs ((h.2.2.1 s0 mh ih) (by unfold Issues; decide +kernel) (by decide +kernel)),
   Completes.runs ((h.2.2.2.1 s0 mh ih) (by unfold Issues; decide +kernel) (by decide +kernel)),
   Completes.runs ((h.2.2.2.2.1 (sp 3) mi35 is2 3) (by unfold Issues; decide +kernel) (by decide +kernel) (by decide +kernel) rfl (by decide +kernel) (by first | decide +kernel)),
   Completes.runs ((h.2.2.2.2.2 st20 mi35 is2 3 4) (by unfold Issues; decide +kernel) (by decide +kernel) (by decide +kernel) rfl (by decide +kernel) (by first | decide +kernel) (by decide +kernel) rfl rfl)⟩

/-- Helper of the witnesses. -/
def cbytes (l : List (Nat × Nat)) : SMap Byte := l.map (fun e => (0xE0000000000 + e.1, BitVec.ofNat 8 e.2))

/-- Helper of the witnesses. -/
def stile (d : List Nat) : State := { s0 with groups := [(0, { group with tiles := 1 })], units := [(0, { tileQ := [{ tq with desc := d }] })]
                                              mem := cbytes [(0x100, 0x80), (0x101, 0x3F), (0x102, 0x20), (0x103, 0x41), (0x112, 0x80), (0x113, 0xBF),
                                                (0x200, 0x80), (0x201, 0x3F), (0x210, 0x40), (0x211, 0x40), (0x214, 0x81), (0x215, 0x40), (0x300, 9)] }

/-- The state of a witness below. -/
def st21 : State := (stile (tdesc.set 1 0x0302))

/-- The state of a witness below. -/
def st248 : State := (stile tdesc)

/-- The state of a witness below. -/
def st249 : State := {stile tdesc with arrays:=[(0,{runs:=[⟨3,0,0,0,0,5,1,1,0,none,0⟩],images:=[⟨3,7,[(0,5)]⟩]})]}

/-- The state of a witness below. -/
def st250 : State := {stile tdesc with units:=[],arrays:=[(0,{held:=some (1,tq)})]}

/-- The hypotheses of `Obligations.TileAcceptance` are met on these states and operands, clause by clause. -/
theorem witness_TileAcceptance (h : Obligations.TileAcceptance) :
    (∃ t, exec (.tileAccept 0) st21 = .next t)
    ∧ (∃ t, exec (.tileAccept 0) st248 = .next t)
    ∧ (∃ t, exec (.tileAccept 0) st249 = .next t)
    ∧ (∃ t, exec (.tileAccept 0) st250 = .next t) :=
  ⟨Completes.runs ((h.2 st21 0 0 {tq with desc:=tdesc.set 1 0x0302} 0x0401 1) rfl rfl (by decide +kernel) rfl),
   Completes.runs ((h.1.1 st248 0 0 tq []) rfl (by decide +kernel) rfl rfl),
   Completes.runs ((h.1.2.1 st249 0 0 tq []) rfl (by decide +kernel) rfl),
   Completes.runs (((h.1.2.2 st250 0 1 tq (by decide +kernel) (by decide +kernel)).2) rfl rfl)⟩

/-- The state of a witness below. -/
def st22 : State := {stile tdesc with arrays:=[(0,{runs:=[⟨3,0,0,0,0,5,0,1,0,none,0⟩,⟨3,0,0,0,0,5,0,1,0,none,0⟩]})]}

/-- Helper of the witnesses. -/
def vregs : SMap Nat := (List.range 512).map (fun l => (512 + l, 0x3F800000 + 12345 * l))
  ++ (List.range 512).map (fun l => (1024 + l, if l < 300 then 0xC0490FDB + 4321 * l else 5 + l))
  ++ (List.range 512).map (fun l => (1536 + l, l % 7 * 0x11111111)) ++ [(5 * 512 + 3, 77), (9 * 512, 1), (9 * 512 + 511, 3)]

/-- Helper of the witnesses. -/
def svec (x : VecRun) : State := { s0 with vecs := [(0, { lanes := vregs, run := some x })], groups := [(0, { group with vecs := 1 })]
                                           mem := cbytes [(0x100, 0x80), (0x101, 0x3F), (0x102, 0x20), (0x103, 0x41), (0x112, 0x80), (0x113, 0xBF)] }

/-- Helper of the witnesses. -/
def vrun (q : VecReq) (rep : Nat) : VecRun := ⟨q, none, rep, false, [], 0⟩

/-- The state of a witness below. -/
def st23 : State := {svec (vrun vq 0) with vecs:=[(0,{done:=[(vq,3),(vq,4)]})]}

/-- The state of a witness below. -/
def st24 : State := {svec (vrun vq 0) with arrays:=[(0,{images:=[⟨3,7,[(0,5),(3,9)]⟩]})]}

/-- The hypotheses of `Obligations.EngineCompletion` are met on these states and operands, clause by clause. -/
theorem witness_EngineCompletion (h : Obligations.EngineCompletion) :
    (∃ t, exec (.tileComplete 0) st22 = .next t)
    ∧ (∃ t, exec (.vectorComplete 0) st23 = .next t)
    ∧ (∃ t, exec (.portImageDeliver 0) st24 = .next t) :=
  ⟨Completes.runs ((h.1 st22 0 ⟨3,0,0,0,0,5,0,1,0,none,0⟩ [⟨3,0,0,0,0,5,0,1,0,none,0⟩]) rfl rfl),
   Completes.runs ((h.2.1 st23 0 vq 3 [(vq,4)]) rfl),
   Completes.runs ((h.2.2 st24 0 ⟨3,7,[(0,5),(3,9)]⟩ []) rfl rfl rfl (by decide +kernel) (by decide +kernel))⟩

/-- The state of a witness below. -/
def st25 : State := (svec (vrun {vq with vop:=0,lane:=0} 0))

/-- The state of a witness below. -/
def st26 : State := (svec (vrun {vq with vop:=1,lane:=0} 0))

/-- The state of a witness below. -/
def st27 : State := (svec (vrun {vq with vop:=2,lane:=0} 0))

/-- The state of a witness below. -/
def st28 : State := (svec (vrun {vq with vop:=3,lane:=0} 0))

/-- The state of a witness below. -/
def st29 : State := (svec (vrun {vq with vop:=4,lane:=0} 0))

/-- The state of a witness below. -/
def st30 : State := (svec (vrun {vq with vop:=5,lane:=0} 0))

/-- The state of a witness below. -/
def st31 : State := (svec (vrun {vq with vop:=6,lane:=0} 0))

/-- The state of a witness below. -/
def st32 : State := (svec (vrun {vq with vop:=7,lane:=0} 0))

/-- The state of a witness below. -/
def st33 : State := (svec (vrun {vq with vop:=9,lane:=0} 0))

/-- The state of a witness below. -/
def st34 : State := (svec (vrun {vq with vop:=14,lane:=0} 0))

/-- The hypotheses of `Obligations.VectorInstructions` are met on these states and operands, clause by clause. -/
theorem witness_VectorInstructions (h : Obligations.VectorInstructions) :
    (∃ t, exec (.vopAdd 0) st25 = .next t)
    ∧ (∃ t, exec (.vopSub 0) st26 = .next t)
    ∧ (∃ t, exec (.vopMul 0) st27 = .next t)
    ∧ (∃ t, exec (.vopFma 0) st28 = .next t)
    ∧ (∃ t, exec (.vopMin 0) st29 = .next t)
    ∧ (∃ t, exec (.vopMax 0) st30 = .next t)
    ∧ (∃ t, exec (.vopAbs 0) st31 = .next t)
    ∧ (∃ t, exec (.vopNeg 0) st32 = .next t)
    ∧ (∃ t, exec (.vopCmp 0) st33 = .next t)
    ∧ (∃ t, exec (.vopSel 0) st34 = .next t) :=
  ⟨Completes.runs ((h.1.1 st25 0 (vrun {vq with vop:=0,lane:=0} 0) {vq with vop:=0,lane:=0}) (by unfold RunsNext; decide +kernel) rfl rfl rfl rfl),
   Completes.runs ((h.1.2.1 st26 0 (vrun {vq with vop:=1,lane:=0} 0) {vq with vop:=1,lane:=0}) (by unfold RunsNext; decide +kernel) rfl rfl rfl rfl),
   Completes.runs ((h.1.2.2.1 st27 0 (vrun {vq with vop:=2,lane:=0} 0) {vq with vop:=2,lane:=0}) (by unfold RunsNext; decide +kernel) rfl rfl rfl rfl),
   Completes.runs ((h.1.2.2.2.1 st28 0 (vrun {vq with vop:=3,lane:=0} 0) {vq with vop:=3,lane:=0}) (by unfold RunsNext; decide +kernel) rfl rfl rfl rfl),
   Completes.runs ((h.1.2.2.2.2.1 st29 0 (vrun {vq with vop:=4,lane:=0} 0) {vq with vop:=4,lane:=0}) (by unfold RunsNext; decide +kernel) rfl rfl rfl rfl),
   Completes.runs ((h.1.2.2.2.2.2.1 st30 0 (vrun {vq with vop:=5,lane:=0} 0) {vq with vop:=5,lane:=0}) (by unfold RunsNext; decide +kernel) rfl rfl rfl rfl),
   Completes.runs ((h.1.2.2.2.2.2.2.1 st31 0 (vrun {vq with vop:=6,lane:=0} 0) {vq with vop:=6,lane:=0}) (by unfold RunsNext; decide +kernel) rfl rfl rfl rfl),
   Completes.runs ((h.1.2.2.2.2.2.2.2.1 st32 0 (vrun {vq with vop:=7,lane:=0} 0) {vq with vop:=7,lane:=0}) (by unfold RunsNext; decide +kernel) rfl rfl rfl rfl),
   Completes.runs ((h.1.2.2.2.2.2.2.2.2.1 st33 0 (vrun {vq with vop:=9,lane:=0} 0) {vq with vop:=9,lane:=0}) (by unfold RunsNext; decide +kernel) rfl rfl rfl rfl),
   Completes.runs ((h.1.2.2.2.2.2.2.2.2.2.1 st34 0 (vrun {vq with vop:=14,lane:=0} 0) {vq with vop:=14,lane:=0}) (by unfold RunsNext; decide +kernel) rfl rfl rfl rfl)⟩

/-- The state of a witness below. -/
def st35 : State := (svec (vrun {vq with vop:=16,lane:=0} 0))

/-- The state of a witness below. -/
def st36 : State := (svec (vrun {vq with vop:=17,lane:=0} 0))

/-- The state of a witness below. -/
def st37 : State := (svec (vrun {vq with vop:=18,lane:=0} 0))

/-- The state of a witness below. -/
def st38 : State := (svec (vrun {vq with vop:=19,lane:=0} 0))

/-- The state of a witness below. -/
def st39 : State := (svec (vrun {vq with vop:=20,lane:=0} 0))

/-- The state of a witness below. -/
def st40 : State := (svec (vrun {vq with vop:=21,lane:=0} 0))

/-- The state of a witness below. -/
def st41 : State := (svec (vrun {vq with vop:=22,lane:=0} 0))

/-- The state of a witness below. -/
def st42 : State := (svec (vrun {vq with vop:=24,lane:=0} 0))

/-- The state of a witness below. -/
def st43 : State := (svec (vrun {vq with vop:=32,lane:=0} 0))

/-- The state of a witness below. -/
def st44 : State := (svec (vrun {vq with vop:=33,lane:=0} 0))

/-- More clauses of the same statement. -/
theorem witness_VectorInstructions_2 (h : Obligations.VectorInstructions) :
    (∃ t, exec (.vopShl 0) st35 = .next t)
    ∧ (∃ t, exec (.vopShr 0) st36 = .next t)
    ∧ (∃ t, exec (.vopSar 0) st37 = .next t)
    ∧ (∃ t, exec (.vopAnd 0) st38 = .next t)
    ∧ (∃ t, exec (.vopOr 0) st39 = .next t)
    ∧ (∃ t, exec (.vopXor 0) st40 = .next t)
    ∧ (∃ t, exec (.vopAndn 0) st41 = .next t)
    ∧ (∃ t, exec (.vopCvt 0) st42 = .next t)
    ∧ (∃ t, exec (.exp2 0) st43 = .next t)
    ∧ (∃ t, exec (.log2 0) st44 = .next t) :=
  ⟨Completes.runs ((h.1.2.2.2.2.2.2.2.2.2.2.1 st35 0 (vrun {vq with vop:=16,lane:=0} 0) {vq with vop:=16,lane:=0}) (by unfold RunsNext; decide +kernel) rfl rfl rfl rfl),
   Completes.runs ((h.1.2.2.2.2.2.2.2.2.2.2.2.1 st36 0 (vrun {vq with vop:=17,lane:=0} 0) {vq with vop:=17,lane:=0}) (by unfold RunsNext; decide +kernel) rfl rfl rfl rfl),
   Completes.runs ((h.1.2.2.2.2.2.2.2.2.2.2.2.2.1 st37 0 (vrun {vq with vop:=18,lane:=0} 0) {vq with vop:=18,lane:=0}) (by unfold RunsNext; decide +kernel) rfl rfl rfl rfl),
   Completes.runs ((h.1.2.2.2.2.2.2.2.2.2.2.2.2.2.1 st38 0 (vrun {vq with vop:=19,lane:=0} 0) {vq with vop:=19,lane:=0}) (by unfold RunsNext; decide +kernel) rfl rfl rfl rfl),
   Completes.runs ((h.1.2.2.2.2.2.2.2.2.2.2.2.2.2.2.1 st39 0 (vrun {vq with vop:=20,lane:=0} 0) {vq with vop:=20,lane:=0}) (by unfold RunsNext; decide +kernel) rfl rfl rfl rfl),
   Completes.runs ((h.1.2.2.2.2.2.2.2.2.2.2.2.2.2.2.2.1 st40 0 (vrun {vq with vop:=21,lane:=0} 0) {vq with vop:=21,lane:=0}) (by unfold RunsNext; decide +kernel) rfl rfl rfl rfl),
   Completes.runs ((h.1.2.2.2.2.2.2.2.2.2.2.2.2.2.2.2.2.1 st41 0 (vrun {vq with vop:=22,lane:=0} 0) {vq with vop:=22,lane:=0}) (by unfold RunsNext; decide +kernel) rfl rfl rfl rfl),
   Completes.runs ((h.1.2.2.2.2.2.2.2.2.2.2.2.2.2.2.2.2.2.1 st42 0 (vrun {vq with vop:=24,lane:=0} 0) {vq with vop:=24,lane:=0}) (by unfold RunsNext; decide +kernel) rfl rfl rfl rfl),
   Completes.runs ((h.1.2.2.2.2.2.2.2.2.2.2.2.2.2.2.2.2.2.2.1 st43 0 (vrun {vq with vop:=32,lane:=0} 0) {vq with vop:=32,lane:=0}) (by unfold RunsNext; decide +kernel) rfl rfl rfl rfl),
   Completes.runs ((h.1.2.2.2.2.2.2.2.2.2.2.2.2.2.2.2.2.2.2.2.1 st44 0 (vrun {vq with vop:=33,lane:=0} 0) {vq with vop:=33,lane:=0}) (by unfold RunsNext; decide +kernel) rfl rfl rfl rfl)⟩

/-- The state of a witness below. -/
def st45 : State := (svec (vrun {vq with vop:=34,lane:=0} 0))

/-- The state of a witness below. -/
def st46 : State := (svec (vrun {vq with vop:=35,lane:=0} 0))

/-- The state of a witness below. -/
def st47 : State := (svec (vrun {vq with vop:=36,lane:=0} 0))

/-- The state of a witness below. -/
def st48 : State := (svec (vrun {vq with vop:=37,lane:=0} 0))

/-- The state of a witness below. -/
def st49 : State := (svec (vrun {vq with vop:=0x19,a:=0x80,descs:=[[],[0,1,0,0,3,4,5,6]]} 1))

/-- The VecRun of a witness below. -/
def va9 : VecRun := (vrun {vq with vop:=0x19,a:=0x80,descs:=[[],[0,1,0,0,3,4,5,6]]} 1)

/-- The VecReq of a witness below. -/
def va10 : VecReq := {vq with vop:=0x19,a:=0x80,descs:=[[],[0,1,0,0,3,4,5,6]]}

/-- The state of a witness below. -/
def st50 : State := (svec (vrun {vq with vop:=0x31} 1))

/-- The state of a witness below. -/
def st51 : State := (svec (vrun {vq with vop:=0x2D,b:=0x48} 0))

/-- The state of a witness below. -/
def st52 : State := (svec (vrun {vq with vop:=0x2E,b:=0x41,c:=0x42} 0))

/-- The VecRun of a witness below. -/
def va11 : VecRun := (vrun {vq with vop:=0x2E,b:=0x41,c:=0x42} 0)

/-- The state of a witness below. -/
def st53 : State := (svec (vrun {vq with vop:=0x2E,b:=0x41,c:=0x42,lse:=true} 0))

/-- The VecRun of a witness below. -/
def va12 : VecRun := (vrun {vq with vop:=0x2E,b:=0x41,c:=0x42,lse:=true} 0)

/-- The VecReq of a witness below. -/
def va13 : VecReq := {vq with vop:=0x2E,b:=0x41,c:=0x42,lse:=true}

/-- The state of a witness below. -/
def st54 : State := (svec (vrun {vq with vop:=0x30} 0))

/-- More clauses of the same statement. -/
theorem witness_VectorInstructions_3 (h : Obligations.VectorInstructions) :
    (∃ t, exec (.rcp 0) st45 = .next t)
    ∧ (∃ t, exec (.rsqrt 0) st46 = .next t)
    ∧ (∃ t, exec (.tanh 0) st47 = .next t)
    ∧ (∃ t, exec (.sigmoid 0) st48 = .next t)
    ∧ (∃ t, exec (.rndbits 0) st49 = .next t)
    ∧ (∃ t, exec (.unpack 0) st50 = .next t)
    ∧ (∃ t, exec (.smExp 0) st51 = .next t)
    ∧ (∃ t, exec (.smNorm 0) st52 = .next t)
    ∧ (∃ t, exec (.smNorm 0) st53 = .next t)
    ∧ (∃ t, exec (.pack 0) st54 = .next t) :=
  ⟨Completes.runs ((h.1.2.2.2.2.2.2.2.2.2.2.2.2.2.2.2.2.2.2.2.2.1 st45 0 (vrun {vq with vop:=34,lane:=0} 0) {vq with vop:=34,lane:=0}) (by unfold RunsNext; decide +kernel) rfl rfl rfl rfl),
   Completes.runs ((h.1.2.2.2.2.2.2.2.2.2.2.2.2.2.2.2.2.2.2.2.2.2.1 st46 0 (vrun {vq with vop:=35,lane:=0} 0) {vq with vop:=35,lane:=0}) (by unfold RunsNext; decide +kernel) rfl rfl rfl rfl),
   Completes.runs ((h.1.2.2.2.2.2.2.2.2.2.2.2.2.2.2.2.2.2.2.2.2.2.2.1 st47 0 (vrun {vq with vop:=36,lane:=0} 0) {vq with vop:=36,lane:=0}) (by unfold RunsNext; decide +kernel) rfl rfl rfl rfl),
   Completes.runs ((h.1.2.2.2.2.2.2.2.2.2.2.2.2.2.2.2.2.2.2.2.2.2.2.2 st48 0 (vrun {vq with vop:=37,lane:=0} 0) {vq with vop:=37,lane:=0}) (by unfold RunsNext; decide +kernel) rfl rfl rfl rfl),
   Completes.runs ((h.2.1.1 st49 0 va9 va10) (by unfold RunsNext; decide +kernel) rfl rfl rfl rfl trivial),
   Completes.runs ((h.2.1.2.1 st50 0 (vrun {vq with vop:=0x31} 1) {vq with vop:=0x31}) (by unfold RunsNext; decide +kernel) rfl rfl rfl rfl (by decide +kernel)),
   Completes.runs ((h.2.1.2.2.1 st51 0 (vrun {vq with vop:=0x2D,b:=0x48} 0) {vq with vop:=0x2D,b:=0x48}) (by unfold RunsNext; decide +kernel) rfl rfl rfl rfl (by decide +kernel)),
   Completes.runs ((h.2.1.2.2.2.1 st52 0 va11 {vq with vop:=0x2E,b:=0x41,c:=0x42}) (by unfold RunsNext; decide +kernel) rfl rfl rfl rfl (by decide +kernel)),
   Completes.runs ((h.2.1.2.2.2.2.1 st53 0 va12 va13) (by unfold RunsNext; decide +kernel) rfl rfl rfl (by decide +kernel)),
   Completes.runs ((h.2.1.2.2.2.2.2 st54 0 (vrun {vq with vop:=0x30} 0) {vq with vop:=0x30}) (by unfold RunsNext; decide +kernel) rfl rfl rfl rfl)⟩

/-- The state of a witness below. -/
def st55 : State := (svec (vrun {vq with vop:=40,rows:=1,reps:=2} 1))

/-- The VecRun of a witness below. -/
def va14 : VecRun := (vrun {vq with vop:=40,rows:=1,reps:=2} 1)

/-- The state of a witness below. -/
def st56 : State := (svec (vrun {vq with vop:=41,rows:=1,reps:=2} 1))

/-- The VecRun of a witness below. -/
def va15 : VecRun := (vrun {vq with vop:=41,rows:=1,reps:=2} 1)

/-- The state of a witness below. -/
def st57 : State := (svec (vrun {vq with vop:=42,rows:=1,reps:=2} 1))

/-- The VecRun of a witness below. -/
def va16 : VecRun := (vrun {vq with vop:=42,rows:=1,reps:=2} 1)

/-- The state of a witness below. -/
def st58 : State := (svec (vrun {vq with vop:=44,rows:=1,reps:=2} 1))

/-- The VecRun of a witness below. -/
def va17 : VecRun := (vrun {vq with vop:=44,rows:=1,reps:=2} 1)

/-- The state of a witness below. -/
def st59 : State := (svec (vrun {vq with dst:=0x80,descs:=[[0x1000,1,2048,0,0,0,0,0]]} 1))

/-- The VecRun of a witness below. -/
def va18 : VecRun := (vrun {vq with dst:=0x80,descs:=[[0x1000,1,2048,0,0,0,0,0]]} 1)

/-- The VecReq of a witness below. -/
def va19 : VecReq := {vq with dst:=0x80,descs:=[[0x1000,1,2048,0,0,0,0,0]]}

/-- More clauses of the same statement. -/
theorem witness_VectorInstructions_4 (h : Obligations.VectorInstructions) :
    (∃ t, exec (.rowsum 0) st55 = .next t)
    ∧ (∃ t, exec (.rowmax 0) st56 = .next t)
    ∧ (∃ t, exec (.rowdot 0) st57 = .next t)
    ∧ (∃ t, exec (.smStat 0) st58 = .next t)
    ∧ (∃ t, exec (.vopAdd 0) st59 = .next t) :=
  ⟨Completes.runs ((h.2.2.1.1 st55 0 va14 {vq with vop:=40,rows:=1,reps:=2}) (by unfold RunsNext; decide +kernel) rfl rfl (by decide +kernel) (by decide +kernel) rfl (by decide +kernel)),
   Completes.runs ((h.2.2.1.2.1 st56 0 va15 {vq with vop:=41,rows:=1,reps:=2}) (by unfold RunsNext; decide +kernel) rfl rfl (by decide +kernel) (by decide +kernel) rfl (by decide +kernel)),
   Completes.runs ((h.2.2.1.2.2.1 st57 0 va16 {vq with vop:=42,rows:=1,reps:=2}) (by unfold RunsNext; decide +kernel) rfl rfl (by decide +kernel) (by decide +kernel) rfl (by decide +kernel)),
   Completes.runs ((h.2.2.1.2.2.2 st58 0 va17 {vq with vop:=44,rows:=1,reps:=2}) (by unfold RunsNext; decide +kernel) rfl rfl (by decide +kernel) (by decide +kernel) rfl (by decide +kernel)),
   Completes.runs ((h.2.2.2 st59 0 va18 va19) (by unfold RunsNext; decide +kernel) rfl rfl rfl rfl rfl rfl rfl rfl rfl rfl rfl (by decide +kernel))⟩

/-- The state of a witness below. -/
def st60 : State := {on with regs:=[(regKey (home .arr 3 0x100),some (2^63+77))]}

/-- No register. -/
def noReg : RegDef := ⟨0, 0, 0, false, 0, 0, 0, 0, 0⟩

/-- The RegDef of a witness below. -/
def va20 : RegDef := ((findDef (regDefs .arr) 0x100).getD noReg)

/-- The state of a witness below. -/
def st61 : State := {on with latch:=[(regKey (home .arr 3 0x100),99)]}

/-- The RegDef of a witness below. -/
def va96 : RegDef := ((findDef (regDefs .eth) 0x20).getD noReg)

/-- The state of a witness below. -/
def st251 : State := {on with regs:=[(regKey (home .bol 3 0x10),some (77)),(regKey (home .bol 3 0x14),some (99))]}

/-- The RegDef of a witness below. -/
def va100 : RegDef := ((findDef (regDefs .bol) 0x10).getD noReg)

/-- The List ℕ of a witness below. -/
def va101 : List ℕ := ((State.latchLead (home .bol 3 0x10)).getD (0,[])).2

/-- The state of a witness below. -/
def st252 : State := {on with cat:=(List.range 64).map (fun i => BitVec.ofNat 8 (i+1))}

/-- The state of a witness below. -/
def st253 : State := {on with latch:=[(regKey (home .cat 0 0x18),99)]}

/-- The hypotheses of `Obligations.RegisterAccesses` are met on these states and operands, clause by clause. -/
theorem witness_RegisterAccesses (h : Obligations.RegisterAccesses) :
    (∃ t, exec (.lowWordRead (home Kind.arr 3 256)) st60 = .next t)
    ∧ (∃ t, exec (.lowWordRead (home Kind.arr 3 260)) st61 = .next t)
    ∧ exec (.lowWordWrite (home .unit 9 64) 5) on = exec (.registerWrite (home .unit 9 64) 5) on
    ∧ (∃ t, exec (.lowWordWrite (home Kind.arr 3 256) 5) on = .next t)
    ∧ (∃ t, exec (.lowWordRead (home Kind.eth 1 32)) on = .next t)
    ∧ (∃ t, exec (.lowWordRead (home Kind.bol 3 16)) st251 = .next t)
    ∧ (∃ t, exec (.lowWordRead (home Kind.arr 3 0)) on = .next t)
    ∧ (∃ t, exec (.lowWordRead (home Kind.arr 3 8)) on = .next t)
    ∧ (∃ t, exec (.lowWordRead (home Kind.cat 0 24)) st252 = .next t)
    ∧ (∃ t, exec (.lowWordRead (home Kind.cat 0 28)) st253 = .next t) :=
  ⟨Completes.runs ((h.1.1 st60 (home .arr 3 0x100) va20 0x100) (by decide +kernel) (by decide +kernel) rfl rfl rfl rfl),
   Completes.runs ((h.1.2.1 st61 (home .arr 3 0x104) va20 0x100) (by decide +kernel) (by decide +kernel) rfl rfl (by decide +kernel) rfl),
   (h.2.1.1 on (home .unit 9 0x40) 5).1,
   Completes.runs ((h.2.1.2.1 on (home .arr 3 0x100) va20 0x100 5) rfl rfl rfl rfl),
   Completes.runs ((h.1.2.2.1 on (home .eth 1 0x20) va96 0x20) (by decide +kernel) (by decide +kernel) rfl rfl rfl),
   Completes.runs ((h.1.2.2.2.1 st251 (home .bol 3 0x10) va100 0x10 va101) (by decide +kernel) (by decide +kernel) rfl rfl rfl),
   Completes.runs ((h.1.2.2.2.2.1 on (home .arr 3 0)) (by decide +kernel) (by decide +kernel) rfl),
   Completes.runs ((h.1.2.2.2.2.2.1 on (home .arr 3 0x8)) (by decide +kernel) (by decide +kernel) rfl),
   Completes.runs ((h.1.2.2.2.2.2.2.1 st252 (home .cat 0 0x18)) rfl (by decide +kernel)),
   Completes.runs ((h.1.2.2.2.2.2.2.2 st253 (home .cat 0 0x1C)) rfl rfl)⟩

/-- The state of a witness below. -/
def st254 : State := {on with pkg:={on.pkg with domains:=0}}

/-- The RegDef of a witness below. -/
def va102 : RegDef := ((findDef (regDefs .unit) 0x40).getD noReg)

/-- The state of a witness below. -/
def st255 : State := {on with held:=[(regKey (home .prt 0 0x1060),some 5)]}

/-- The RegDef of a witness below. -/
def va103 : RegDef := (((findDef (regDefs .prt) 0x1060).getD noReg))

/-- The state of a witness below. -/
def st256 : State := {s0 with groups:=[(0,{group with halted:=true})],held:=[(regKey (home .unit 0 0x1408),some 0x1234)],regs:=[(regKey (home .unit 0 0x20),some (5*32))]}

/-- The RegDef of a witness below. -/
def va104 : RegDef := (((findDef (regDefs .unit) 0x1408).getD noReg))

/-- The RegDef of a witness below. -/
def va105 : RegDef := ((findDef (regDefs .eth) 0x14).getD noReg)

/-- The RegDef of a witness below. -/
def va106 : RegDef := ((findDef (regDefs .arr) 0x10).getD noReg)

/-- The state of a witness below. -/
def st257 : State := {on with pkg:={on.pkg with locked:=false}}

/-- The state of a witness below. -/
def st64 : State := {on with ctrs:=[(4099,{value:=6,floor:=2,lastAgent:=9})]}

/-- The state of a witness below. -/
def st65 : State := {on with fences:=[(1029,{value:=6,faulted:=true,code:=2,owed:=1})]}

/-- More clauses of the same statement. -/
theorem witness_RegisterAccesses_2 (h : Obligations.RegisterAccesses) :
    (∃ t, exec (.lowWordWrite (home Kind.unit 9 64) 4294967295) st254 = .next t)
    ∧ (∃ t, exec (.highWordWrite (home Kind.arr 3 260) 2147483648) st60 = .next t)
    ∧ (∃ t, exec (.highWordWrite { kind := (home Kind.prt (↑0) (4096 + 32 * ↑3 + 8 * ↑0)).kind, part := (home Kind.prt (↑0) (4096 + 32 * ↑3 + 8 * ↑0)).part, inst := (home Kind.prt (↑0) (4096 + 32 * ↑3 + 8 * ↑0)).inst, off := (home Kind.prt (↑0) (4096 + 32 * ↑3 + 8 * ↑0)).off + 4 } 9) st255 = .next t)
    ∧ (∃ t, exec (.highWordWrite { kind := (State.unitReg (↑0) 5128).kind, part := (State.unitReg (↑0) 5128).part, inst := (State.unitReg (↑0) 5128).inst, off := 5132 } 85) st256 = .next t)
    ∧ (∃ t, exec (.registerWrite (home Kind.eth 1 20) 1515852340) on = .next t)
    ∧ (∃ t, exec (.registerWrite (home Kind.arr 3 8) 5) on = .next t)
    ∧ (∃ t, exec (.registerWrite (home Kind.arr 3 16) 7) st254 = .next t)
    ∧ (∃ t, exec (.registerWrite (home Kind.prt (↑0) (4120 + 32 * ↑3)) 2147483653) st257 = .next t)
    ∧ (∃ t, exec (.registerWrite (home Kind.ctr (↑1) (65536 + 16 * ↑3 + 4 * ↑0)) 3) st64 = .next t)
    ∧ (∃ t, exec (.registerWrite (home Kind.fen (↑1) (65564 + 32 * ↑5)) 1) st65 = .next t) :=
  ⟨Completes.runs (((h.2.1.2.2.1 st254 (home .unit 9 0x40) va102 0x40 0xFFFFFFFF) rfl rfl).1),
   Completes.runs ((h.2.1.2.2.2.1 st60 (home .arr 3 0x104) va20 0x100 0x80000000) rfl rfl (by decide +kernel) rfl (by decide +kernel) (by decide +kernel)),
   Completes.runs ((h.2.1.2.2.2.2.1 st255 0 3 0 9 0x900000005 va103) rfl rfl),
   Completes.runs ((h.2.1.2.2.2.2.2 st256 0 0x55 va104) rfl rfl),
   Completes.runs ((h.2.2.1 on (home .eth 1 0x14) va105 0x14 0x5A5A1234) rfl rfl rfl rfl rfl),
   Completes.runs ((h.2.2.2.1 on (home .arr 3 0x8) 5) rfl),
   Completes.runs ((h.2.2.2.2.1 st254 (home .arr 3 0x10) va106 0x10 7) rfl rfl),
   Completes.runs (h.2.2.2.2.2.1 st257 0 3 0x80000005),
   Completes.runs ((h.2.2.2.2.2.2.1 st64 1 3 0 0x3).1),
   Completes.runs (((h.2.2.2.2.2.2.2.1 st65 1 5 1)).1 rfl)⟩

/-- The state of a witness below. -/
def st258 : State := {on with ctx:=[]}

/-- The state of a witness below. -/
def st259 : State := {s0 with groups:=[(0,{group with halted:=true}),(33,{group with halted:=true}),(64,group)],halts:=[(0,true)],slots:=[]}

/-- The state of a witness below. -/
def st260 : State := {s0 with groups:=[(0,{group with halted:=true})],regs:=[(regKey (home .unit 0 0x20),some (5*32))]}

/-- More clauses of the same statement. -/
theorem witness_RegisterAccesses_3 (h : Obligations.RegisterAccesses) :
    (∃ t, exec (.registerWrite (State.unitReg (↑5) 20) 268436483) st258 = .next t)
    ∧ (∃ t, exec (.registerWrite (State.unitReg (↑0) 24) 0) st259 = .next t)
    ∧ (∃ t, exec (.registerWrite (State.unitReg 0 (0x1000 + 4 * 7)) 0x55) st260 = .next t)
    ∧ (∃ t, exec (.registerWrite (pages Kind.xch 1 0 20) 0) on = .next t)
    ∧ (∃ t, exec (.registerWrite (home Kind.hbm 3 20) 0) on = .next t)
    ∧ (∃ t, exec (.registerWrite (home Kind.id (↑0) 20) 458752) on = .next t)
    ∧ (∃ t, exec (.registerWrite (home Kind.dom (↑0) 256) 458757) on = .next t)
    ∧ (∃ t, exec (.registerWrite (State.unitReg (↑5) 20) 268436483) on = .next t) :=
  ⟨Completes.runs (((h.2.2.2.2.2.2.2.2.1 st258 5 0x10000403).2) rfl),
   Completes.runs (((h.2.2.2.2.2.2.2.2.2.1 st259 0 0) (by decide +kernel)).1 (by decide +kernel)),
   Completes.runs ((Eq.mp (if_pos (by decide +kernel)) (h.2.2.2.2.2.2.2.2.2.2.1 st260 0 0x55 (by decide +kernel))).1 7 (by decide +kernel)),
   Completes.runs (h.2.2.2.2.2.2.2.2.2.2.2.1 on 1 0),
   Completes.runs (((h.2.2.2.2.2.2.2.2.2.2.2.2.1 on 3 0)).1 rfl),
   Completes.runs (((h.2.2.2.2.2.2.2.2.2.2.2.2.2.1 on 0 0x70000).2.2) rfl (by decide +kernel)),
   Completes.runs (((h.2.2.2.2.2.2.2.2.2.2.2.2.2.2 on 0 0x70005).2.2.1) rfl (by decide +kernel) (Or.inr (by decide +kernel))),
   Completes.runs (((h.2.2.2.2.2.2.2.2.1 on 5 0x10000403).1) rfl)⟩

/-- The state of a witness below. -/
def st62 : State := {on with regs:=[(regKey (home .prog 3 0),some 77),(regKey (home .prog 3 8),some 99)]}

/-- The state of a witness below. -/
def st63 : State := {on with regs:=[(regKey (home .bol 3 0x10),some 77),(regKey (home .bol 3 0x14),some 99)]}

/-- The hypotheses of `Obligations.RegisterSideEffects` are met on these states and operands, clause by clause. -/
theorem witness_RegisterSideEffects (h : Obligations.RegisterSideEffects) :
    (∃ t, exec (.progStateRead 3) st62 = .next t)
    ∧ (∃ t, exec (.bolReadSeqRead 3) st63 = .next t)
    ∧ (∃ t, exec (.ctrDbgSelWrite 1 4293918723) st64 = .next t)
    ∧ (∃ t, exec (.fenCtlReset 1 5) st65 = .next t) :=
  ⟨Completes.runs (h.1.1 st62 3),
   Completes.runs (h.1.2 st63 3),
   Completes.runs ((h.2.1 st64 1 0xFFF00003) rfl),
   Completes.runs ((h.2.2 st65 1 5 (by decide) |>.1) rfl)⟩

/-- The state of a witness below. -/
def st66 : State := {on with ctx:=[],extents:=on.extents ++ [(9,{base:=1,limit:=2,target:=3})]}

/-- The state of a witness below. -/
def st67 : State := {on with ctx:=[],extents:=on.extents ++ [(9,{base:=253755392,limit:=253755408,target:=256})]}

/-- The Extent of a witness below. -/
def va21 : Extent := { base := 0, limit := 0x8FFFFF, target := 0, perm := 63, valid := true }

/-- The state of a witness below. -/
def st68 : State := {on with ctx:=[],extents:=on.extents ++ [(9,{base:=253755408,limit:=253755392,target:=256})]}

/-- The state of a witness below. -/
def st69 : State := {on with ctx:=[],extents:=on.extents ++ [(9,{base:=234881280,limit:=253755392,target:=256})]}

/-- The state of a witness below. -/
def st70 : State := {on with ctx:=[],extents:=on.extents ++ [(9,{base:=253755392,limit:=253755408,target:=10485760})]}

/-- The state of a witness below. -/
def st71 : State := {on with ctx:=[],extents:=on.extents ++ [(9,{base:=253755392,limit:=253755408,target:=234881024})]}

/-- The state of a witness below. -/
def st72 : State := {on with ctrs:=[(4099,{value:=6,floor:=2,ceil:=20,waiters:=[⟨0,1,6,5,.command 0 3⟩,⟨0,2,9,5,.thread 0 2 3⟩,⟨2,2,16,5,.command 0 7⟩]})]}

/-- The hypotheses of `Obligations.ExtentAndCounterWrites` are met on these states and operands, clause by clause. -/
theorem witness_ExtentAndCounterWrites (h : Obligations.ExtentAndCounterWrites) :
    (∃ t, exec (.extentPermWrite 0 7 4294967295) on = .next t)
    ∧ (∃ t, exec (.extentPermWrite 0 8 4294967295) on = .next t)
    ∧ (∃ t, exec (.extentRangeWrite 0 9 0 18446744073709551615) st66 = .next t)
    ∧ (∃ t, exec (.extentPermWrite 0 9 2147483711) st67 = .next t)
    ∧ (∃ t, exec (.extentPermWrite 0 9 2147483711) st68 = .next t)
    ∧ (∃ t, exec (.extentPermWrite 0 9 2147483711) st69 = .next t)
    ∧ (∃ t, exec (.extentPermWrite 0 9 2147483711) st70 = .next t)
    ∧ (∃ t, exec (.extentPermWrite 0 9 63) st71 = .next t)
    ∧ ((∃ t, exec (.ctrEntryWrite 1 3 0 9) st72 = .next t) ∧ (∃ t, exec (.ctrEntryWrite 1 3 0 0) st72 = .next t))
    ∧ (∃ t, exec (.ctrEntryWrite 1 3 1 0) st72 = .next t) :=
  ⟨Completes.runs (((h.1.1 on 0 7 0xFFFFFFFF 2 9) (by decide +kernel)).1),
   Completes.runs (((h.1.2.1 on 0 8 0xFFFFFFFF 2 9) (by decide +kernel) rfl).1),
   Completes.runs ((h.1.2.2.1 st66 0 9 0 0xFFFFFFFFFFFFFFFF) (by decide +kernel) rfl),
   Completes.runs ((h.1.2.2.2.1 st67 0 9 0x8000003F va21) (by decide +kernel) rfl rfl (by decide +kernel) (by decide +kernel) rfl (by first | decide +kernel)),
   Completes.runs ((h.1.2.2.2.2.1 st68 0 9 0x8000003F) (by decide +kernel) rfl rfl (by decide +kernel)),
   Completes.runs ((h.1.2.2.2.2.2.1 st69 0 9 0x8000003F 1) (by decide +kernel) rfl rfl (by decide +kernel) (by decide +kernel) (by first | decide +kernel) rfl (by decide +kernel) (by decide +kernel)),
   Completes.runs ((h.1.2.2.2.2.2.2.1 st70 0 9 0x8000003F (by decide) (by decide) (by decide) (by decide) (by decide) |>.1) rfl),
   Completes.runs ((h.1.2.2.2.2.2.2.2 st71 0 9 0x3F) (by decide +kernel) rfl rfl),
   ⟨Completes.runs ((h.2.1 st72 1 3 9 (by decide)).1 (by decide +kernel) (by decide +kernel)), Completes.runs ((h.2.1 st72 1 3 0 (by decide)).2 (Or.inl (by decide +kernel)))⟩,
   Completes.runs ((h.2.2.1 st72 1 3 0 (by decide) |>.1) (by decide +kernel) (by decide +kernel))⟩

/-- More clauses of the same statement. -/
theorem witness_ExtentAndCounterWrites_2 (h : Obligations.ExtentAndCounterWrites) :
    (∃ t, exec (.ctrEntryWrite 1 3 2 9) st72 = .next t) ∧ (∃ t, exec (.ctrEntryWrite 1 3 2 0) st72 = .next t) :=
  ⟨Completes.runs ((h.2.2.2 st72 1 3 9 (by decide)).1 (by decide +kernel) (by decide +kernel)), Completes.runs ((h.2.2.2 st72 1 3 0 (by decide)).2 (Or.inl (by decide +kernel)))⟩

/-- The state of a witness below. -/
def st73 : State := {s0 with groups:=[(0,{group with halted:=true}),(5,{group with alloc:=9})]}

/-- The state of a witness below. -/
def st227 : State := {s0 with pkg:={s0.pkg with domains:=0}}

/-- The hypotheses of `Obligations.DebugCommands` are met on these states and operands, clause by clause. -/
theorem witness_DebugCommands (h : Obligations.DebugCommands) :
    (∃ t, exec (.dbgHalt 0) st1 = .next t)
    ∧ (∃ t, exec (.dbgResume 0) st73 = .next t)
    ∧ (∃ t, exec (.dbgStep 0 0) st73 = .next t)
    ∧ (∃ t, exec (.dbgHalt 9) st227 = .next t)
    ∧ (∃ t, exec (.dbgResume 9) st227 = .next t)
    ∧ (∃ t, exec (.dbgStep 9 1) st227 = .next t) :=
  ⟨Completes.runs ((h.1 st1 0) (by decide +kernel) rfl (by decide +kernel)),
   Completes.runs ((h.2.1 st73 0) (by decide +kernel)),
   Completes.runs ((h.2.2.1 st73 0 0) (by decide +kernel) rfl rfl),
   Completes.runs ((h.2.2.2 st227 9 1 (by decide +kernel) rfl).1),
   Completes.runs ((h.2.2.2 st227 9 1 (by decide +kernel) rfl).2.1),
   Completes.runs ((h.2.2.2 st227 9 1 (by decide +kernel) rfl).2.2)⟩

/-- The state of a witness below. -/
def st74 : State := {on with mgmt:=[(0,[(7,(slotN [(0,0x02),(8,3),(0x10,0x20000),(0x18,0x10000),(0x20,0x40000),(0x28,0x80),(0x30,0x100000),(0x38,0x200000),(0x40,0x200040),(0x48,0x200080),(0x50,0x2000C0),(0x58,5)]))])],qps:=[(7,{conn:=true,kind:=0}),(9,{conn:=true})],ctx:=[(0,{num:=4})],ctrs:=[(5,{value:=3})]}

/-- The state of a witness below. -/
def st75 : State := {on with mgmt:=[(0,[(7,(slotN [(0,0x02),(8,3),(0x10,0x20001),(0x18,0x10000),(0x20,0x40000),(0x28,0x80),(0x30,0x100000),(0x38,0x200000),(0x40,0x200040),(0x48,0x200080),(0x50,0x2000C0),(0x58,5)]))])],qps:=[(7,{conn:=true,kind:=0}),(9,{conn:=true})],ctx:=[(0,{num:=4})],ctrs:=[(5,{value:=3})]}

/-- The state of a witness below. -/
def st76 : State := {on with mgmt:=[(0,[(7,(slotN [(0,0x03),(4,1)]))])],qps:=[(7,{conn:=true,kind:=0}),(9,{conn:=true})],objs:=[(3,{live:=true,refs:=2})]}

/-- The state of a witness below. -/
def st77 : State := {on with mgmt:=[(0,[(7,(slotN [(0,0x01),(8,9+2^25),(0xC,77),(0x10,0x123456789),(0x18,6),(0x20,0x20008)]))])],qps:=[(7,{conn:=true,kind:=0}),(9,{conn:=true})],lines:=[(0x20000/128,full)],rings:=[(0,{next:=5,queue:=[⟨3,1,2,3,4,5,6,7,false⟩]})]}

/-- The state of a witness below. -/
def st78 : State := {on with mgmt:=[(0,[(7,(slotN [(0,0x04)]))])],qps:=[(7,{conn:=true,kind:=0}),(9,{conn:=true})]}

/-- The state of a witness below. -/
def st79 : State := {on with mgmt:=[(0,[(7,(slotN [(0,0x05),(8,0xF1000000104),(0x10,0x12345678)]))])],qps:=[(7,{conn:=true,kind:=0}),(9,{conn:=true})],blocks:=[⟨0xF1000000000,1,.dom,0,0⟩]}

/-- The hypotheses of `Obligations.ManagementRequests` are met on these states and operands, clause by clause. -/
theorem witness_ManagementRequests (h : Obligations.ManagementRequests) :
    (∃ t, exec (.contextCreate 0) st74 = .next t)
    ∧ (∃ t, exec (.contextCreate 0) st75 = .next t)
    ∧ (∃ t, exec (.contextDestroy 0) st76 = .next t)
    ∧ (∃ t, exec (.eventRingSet 0) st77 = .next t)
    ∧ (∃ t, exec (.query 0) st78 = .next t)
    ∧ (∃ t, exec (.regWrite 0) st79 = .next t) :=
  ⟨Completes.runs ((h.1.1 st74 0 7 (slotN [(0,0x02),(8,3),(0x10,0x20000),(0x18,0x10000),(0x20,0x40000),(0x28,0x80),(0x30,0x100000),(0x38,0x200000),(0x40,0x200040),(0x48,0x200080),(0x50,0x2000C0),(0x58,5)])) (by unfold OneRequest; decide +kernel) rfl),
   Completes.runs ((h.1.2.1 st75 0 7 (slotN [(0,0x02),(8,3),(0x10,0x20001),(0x18,0x10000),(0x20,0x40000),(0x28,0x80),(0x30,0x100000),(0x38,0x200000),(0x40,0x200040),(0x48,0x200080),(0x50,0x2000C0),(0x58,5)])) (by unfold OneRequest; decide +kernel) (by decide +kernel) rfl),
   Completes.runs ((h.1.2.2 st76 0 7 (slotN [(0,0x03),(4,1)])) (by unfold OneRequest; decide +kernel) rfl rfl),
   Completes.runs ((h.2.1 st77 0 7 (slotN [(0,0x01),(8,9+2^25),(0xC,77),(0x10,0x123456789),(0x18,6),(0x20,0x20008)]) 0x20008) (by unfold OneRequest; decide +kernel) rfl (by decide +kernel) (by decide +kernel) (by decide +kernel) rfl rfl rfl rfl rfl rfl rfl),
   Completes.runs ((h.2.2.1 st78 0 7 (slotN [(0,0x04)])) (by unfold OneRequest; decide +kernel)),
   Completes.runs ((h.2.2.2 st79 0 7 (slotN [(0,0x05),(8,0xF1000000104),(0x10,0x12345678)])) (by unfold OneRequest; decide +kernel) rfl rfl rfl (by decide +kernel) (by decide +kernel) rfl)⟩

/-- Helper of the witnesses. -/
def leM (a n x : Nat) : SMap Byte := ((leBytes n x).zipIdx.map (fun e => (a + e.2, e.1))).filter (fun e => e.2 != 0)

/-- The state of a witness below. -/
def st80 : State := {on with mem:=leM 0x20008 4 5,rings:=[(0,{set:=true,qp:=9,rkey:=4,va:=0x5000,log2:=6,consumedPa:=0x20008,consumed:=0,next:=60+1,queue:=[⟨60,1,2,3,4,5,6,7,true⟩]})]}

/-- Helper of the witnesses. -/
def cmd1 (idx pa slot : Nat) : Cmd :=
  { idx := idx, pa := pa, slot := BitVec.ofNat 512 slot, started := false, refs := [], flags := 0, done := none, engine := none, borrowed := [], errFence := false
    span := false, owes := false, issued := false, ledSkip := false, notes := [] }

/-- Helper of the witnesses. -/
def cmd0 (idx op : Nat) (l : List (Nat × Nat)) : Cmd := cmd1 idx 0x20080 (slotN ((0, op + 65536) :: l))

/-- The state of a witness below. -/
def st81 : State := {s0 with faultQ:=[(0,[(7,{kind:=4,unit:=6}),(7,{kind:=3,unit:=1}),(9,{kind:=4})])],strs:=[(1,{cmds:=[cmd0 3 0x06 []]})]}

/-- The state of a witness below. -/
def st293 : State := {on with mem:=leM 0x20008 4 50,rings:=[(0,{set:=true,qp:=9,rkey:=4,va:=0x5000,log2:=2,consumedPa:=0x20008,consumed:=0,next:=60+1,queue:=[⟨60,1,2,3,4,5,6,7,true⟩]})]}

/-- The hypotheses of `Obligations.KillAndEventRing` are met on these states and operands, clause by clause. -/
theorem witness_KillAndEventRing (h : Obligations.KillAndEventRing) :
    (∃ t, exec (.eventRingRecheck 0) st80 = .next t)
    ∧ (∃ t, exec (.contextKill 0) st81 = .next t)
    ∧ (∃ t, exec (.eventRingRecheck 1) on = .next t)
    ∧ (∃ t, exec (.eventRingRecheck 0) st293 = .next t) :=
  ⟨Completes.runs (((h.1.1 st80 0 ⟨60,1,2,3,4,5,6,7,true⟩ 0x20008 (by decide +kernel) (by decide +kernel) (by decide +kernel) (by first | decide +kernel) (by decide +kernel) (by decide +kernel) (by decide +kernel)).2.1) (by first | decide +kernel)),
   Completes.runs ((h.2 st81 0 {kind:=3,unit:=1}) rfl rfl (by decide +kernel)),
   Completes.runs ((h.1.2 on 1) (by decide +kernel)),
   Completes.runs (((h.1.1 st293 0 ⟨60,1,2,3,4,5,6,7,true⟩ 0x20008 (by decide +kernel) (by decide +kernel) (by decide +kernel) (by first | decide +kernel) (by decide +kernel) (by decide +kernel) (by decide +kernel)).2.2) (by first | decide +kernel))⟩

/-- The state of a witness below. -/
def st82 : State := {on with mem:=leM 0x20080 64 (slotN [(0,0x06+2^9),(2,1),(4,1),(8,55)]),strs:=[(1,{block:=some 0x20000,next:=2,last:=5,index:=7,errFence:=1})]}

/-- The List Byte of a witness below. -/
def va22 : List Byte := (leBytes 64 (slotN [(0,0x06+2^9),(2,1),(4,1),(8,55)]))

/-- The command of a witness below. -/
def va23 : Cmd := (cmd1 8 0x20080 (slotN [(0,0x06+2^9),(2,1),(4,1),(8,55)]))

/-- The state of a witness below. -/
def st83 : State := {on with mem:=leM 0x20080 64 (slotN [(0,0x30000),(8,9),(12,2),(13,4)]),strs:=[(1,{park:=0x20080,seq:=9,woken:=true})]}

/-- The List Byte of a witness below. -/
def va24 : List Byte := (leBytes 64 (slotN [(0,0x30000),(8,9),(12,2),(13,4)]))

/-- The state of a witness below. -/
def st84 : State := {on with mem:=leM 0x20080 64 (slotN [(0,0x30000),(8,10),(12,2),(13,4)]),strs:=[(1,{park:=0x20080,seq:=9,woken:=true})]}

/-- The List Byte of a witness below. -/
def va25 : List Byte := (leBytes 64 (slotN [(0,0x30000),(8,10),(12,2),(13,4)]))

/-- The state of a witness below. -/
def st225 : State := {on with mem:=leM 0x20080 64 (slotN [(0,0x06+2^9),(2,2),(4,1),(8,55)]),strs:=[(1,{block:=some 0x20000,next:=2,last:=5,index:=7,errFence:=1})]}

/-- The List Byte of a witness below. -/
def va92 : List Byte := (leBytes 64 (slotN [(0,0x06+2^9),(2,2),(4,1),(8,55)]))

/-- The command of a witness below. -/
def va93 : Cmd := (cmd1 8 0x20080 (slotN [(0,0x06+2^9),(2,2),(4,1),(8,55)]))

/-- The state of a witness below. -/
def st226 : State := {on with mem:=leM 0x20080 64 (slotN [(0,0x06+2^9),(2,1),(4,1),(8,55)]),strs:=[(1,{skipping:=true,block:=some 0x20000,next:=2,last:=5,index:=7,errFence:=1})]}

/-- The state of a witness below. -/
def st261 : State := {on with mem:=leM 0x20080 64 (slotN [(0,0x31),(2,1),(0x10,0x10005),(0x14,1)]),objs:=[(5,{live:=true,base:=0x20000,size:=4096,refs:=2,gen:=1})],strs:=[(1,{block:=some 0x20000,next:=2,last:=5,index:=7,errFence:=1})]}

/-- The List Byte of a witness below. -/
def va107 : List Byte := (leBytes 64 (slotN [(0,0x31),(2,1),(0x10,0x10005),(0x14,1)]))

/-- The command of a witness below. -/
def va108 : Cmd := (cmd1 8 0x20080 (slotN [(0,0x31),(2,1),(0x10,0x10005),(0x14,1)]))

/-- The state of a witness below. -/
def st262 : State := {on with lines:=[(0x20080/128,{present:=true,lock:=some 5})],strs:=[(1,{park:=0x20080,seq:=9,woken:=true})]}

/-- The hypotheses of `Obligations.CommandParsing` are met on these states and operands, clause by clause. -/
theorem witness_CommandParsing (h : Obligations.CommandParsing) :
    (∃ t, exec (.commandParse 0 1) st82 = .next t)
    ∧ (∃ t, exec (.linkSlotWake 0 1) st83 = .next t)
    ∧ (∃ t, exec (.linkSlotWake 0 1) st84 = .next t)
    ∧ (∃ t, exec (.commandParse 0 1) st225 = .next t)
    ∧ (∃ t, exec (.commandParse 0 1) st226 = .next t)
    ∧ (∃ t, exec (.commandParse 0 1) st261 = .next t)
    ∧ (∃ t, exec (.linkSlotWake 0 1) st262 = .next t) :=
  ⟨Completes.runs ((h.1.2.1 st82 0 1 va22 va23) (by decide +kernel) (by decide +kernel) rfl rfl rfl (by decide +kernel) rfl),
   Completes.runs ((h.2.1 st83 0 1 va24 0x30000 2 4) (by decide +kernel) rfl rfl rfl rfl),
   Completes.runs ((h.2.2.1 st84 0 1 va25) (by decide +kernel) (by decide +kernel)),
   Completes.runs ((h.1.2.2.2.1 st225 0 1 va92 va93) (by decide +kernel) (by decide +kernel) rfl),
   Completes.runs ((h.1.2.2.2.2 st226 0 1 va22 va23) (by decide +kernel) (by decide +kernel) rfl rfl rfl),
   Completes.runs ((h.1.2.2.1 st261 0 1 va107 va108) (by decide +kernel) (by decide +kernel) rfl rfl rfl (by decide +kernel) (by first | decide +kernel)),
   Completes.runs ((h.2.2.2 st262 0 1) rfl)⟩

/-- The state of a witness below. -/
def st85 : State := {on with strs:=[(1,{cmds:=[cmd0 8 0 [(8,77)]]})]}

/-- The state of a witness below. -/
def st86 : State := {on with strs:=[(1,{cmds:=[cmd0 8 6 [(8,77)]]})]}

/-- The state of a witness below. -/
def st87 : State := {on with strs:=[(1,{cmds:=[cmd0 8 8 [(8,77)]]})]}

/-- The state of a witness below. -/
def st88 : State := {on with strs:=[(1,{cmds:=[cmd0 8 18 [(8,77)]]})]}

/-- The state of a witness below. -/
def st89 : State := ({on with strs:=[(1,{cmds:=[cmd0 8 7 [(0x10,4099),(0x18,9)]]})],ctrs:=[(4099,{value:=5})]})

/-- The state of a witness below. -/
def st90 : State := ({on with strs:=[(1,{cmds:=[cmd0 8 7 [(0x10,0x4000+3),(0x18,9)]]})],fences:=[(3,{value:=5,faulted:=false})]})

/-- The state of a witness below. -/
def st91 : State := {on with strs:=[(1,{cmds:=[cmd0 8 9 [(0x10,0xF1000000104)]]})],extents:=on.extents ++ [(3,{base:=0xF100000,limit:=0xF10FFFF,target:=0xF100000,perm:=19,valid:=true})]}

/-- The state of a witness below. -/
def st92 : State := {on with strs:=[(1,{cmds:=[cmd0 8 10 [(0x10,0x123456789A),(0x18,0xFEDC),(0x20,0x10023)]]})],rings:=[(0,{next:=0xFFFFFFFF})]}

/-- The command of a witness below. -/
def va26 : Cmd := (cmd0 8 10 [(0x10,0x123456789A),(0x18,0xFEDC),(0x20,0x10023)])

/-- The hypotheses of `Obligations.SimpleCommands` are met on these states and operands, clause by clause. -/
theorem witness_SimpleCommands (h : Obligations.SimpleCommands) :
    (∃ t, exec (.nopCommand 0 1) st85 = .next t)
    ∧ (∃ t, exec (.signal 0 1) st86 = .next t)
    ∧ (∃ t, exec (.fence 0 1) st87 = .next t)
    ∧ (∃ t, exec (.redoEnd 0 1) st88 = .next t)
    ∧ (∃ t, exec (.wait 0 1) st89 = .next t)
    ∧ (∃ t, exec (.wait 0 1) st90 = .next t)
    ∧ (∃ t, exec (.regwrite 0 1) st91 = .next t)
    ∧ (∃ t, exec (.event 0 1) st92 = .next t) :=
  ⟨Completes.runs ((h.1.1 st85 0 1 (cmd0 8 0 [(8,77)])) (by unfold Starts; decide +kernel)),
   Completes.runs ((h.1.2.1 st86 0 1 (cmd0 8 6 [(8,77)])) (by unfold Starts; decide +kernel)),
   Completes.runs ((h.1.2.2.1 st87 0 1 (cmd0 8 8 [(8,77)])) (by unfold Starts; decide +kernel)),
   Completes.runs ((h.1.2.2.2.1 st88 0 1 (cmd0 8 18 [(8,77)])) (by unfold Starts; decide +kernel)),
   Completes.runs ((h.1.2.2.2.2.1 st89 0 1 (cmd0 8 7 [(0x10,4099),(0x18,9)]) (by unfold Starts; decide +kernel) (by decide +kernel) (by decide +kernel)).2 (by decide +kernel)),
   Completes.runs ((h.1.2.2.2.2.2 st90 0 1 (cmd0 8 7 [(0x10,0x4000+3),(0x18,9)]) (by unfold Starts; decide +kernel) (by decide +kernel)).2.2 (by decide +kernel) (by decide +kernel)),
   Completes.runs ((h.2.1 st91 0 1 (cmd0 8 9 [(0x10,0xF1000000104)])) (by unfold Starts; decide +kernel)),
   Completes.runs ((h.2.2 st92 0 1 va26) (by unfold Starts; decide +kernel) rfl rfl (by decide +kernel))⟩

/-- The state of a witness below. -/
def st93 : State := {on with strs:=[(1,{cmds:=[{cmd0 8 16 [] with span:=true}],span:=some {beginPa:=0x20000,beginIdx:=4,id:=1,slots:=3,formats:=0,staging:=0,stageCap:=0,attempt:=1,borrowed:=[(4099,0)],flags:=0,deferred:=[],staged:=[],parsedCommit:=false,commitIdx:=0,committed:=false,failed:=false,ended:=false,resume:=[]}})],ctrs:=[(4099,{value:=6})]}

/-- The Span of a witness below. -/
def va27 : Span := {beginPa:=0x20000,beginIdx:=4,id:=1,slots:=3,formats:=0,staging:=0,stageCap:=0,attempt:=1,borrowed:=[(4099,0)],flags:=0,deferred:=[],staged:=[],parsedCommit:=false,commitIdx:=0,committed:=false,failed:=false,ended:=false,resume:=[]}

/-- The state of a witness below. -/
def st94 : State := {on with strs:=[(1,{cmds:=[{cmd0 8 17 [] with span:=true}],span:=some {beginPa:=0x20000,beginIdx:=4,id:=1,slots:=3,formats:=0,staging:=0,stageCap:=0,attempt:=1,borrowed:=[(4099,0)],flags:=0,deferred:=[(3,9,5)],staged:=[],parsedCommit:=false,commitIdx:=0,committed:=false,failed:=false,ended:=false,resume:=[]}})],fences:=[(3,{value:=6,owed:=2})]}

/-- The Span of a witness below. -/
def va28 : Span := {beginPa:=0x20000,beginIdx:=4,id:=1,slots:=3,formats:=0,staging:=0,stageCap:=0,attempt:=1,borrowed:=[(4099,0)],flags:=0,deferred:=[(3,9,5)],staged:=[],parsedCommit:=false,commitIdx:=0,committed:=false,failed:=false,ended:=false,resume:=[]}

/-- The state of a witness below. -/
def st95 : State := {on with strs:=[(1,{cmds:=[{cmd0 8 17 [] with span:=true}],span:=some {beginPa:=0x20000,beginIdx:=4,id:=1,slots:=3,formats:=0,staging:=0,stageCap:=0,attempt:=1,borrowed:=[(4099,0)],flags:=0,deferred:=[],staged:=[],parsedCommit:=false,commitIdx:=0,committed:=false,failed:=true,ended:=false,resume:=[]}})]}

/-- The Span of a witness below. -/
def va29 : Span := {beginPa:=0x20000,beginIdx:=4,id:=1,slots:=3,formats:=0,staging:=0,stageCap:=0,attempt:=1,borrowed:=[(4099,0)],flags:=0,deferred:=[],staged:=[],parsedCommit:=false,commitIdx:=0,committed:=false,failed:=true,ended:=false,resume:=[]}

/-- The state of a witness below. -/
def st96 : State := {on with strs:=[(1,{cmds:=[{cmd0 8 17 [] with span:=true}],span:=some {beginPa:=0x20000,beginIdx:=4,id:=1,slots:=3,formats:=0,staging:=0,stageCap:=0,attempt:=2,borrowed:=[(4099,0)],flags:=1,deferred:=[(3,9,5)],staged:=[],parsedCommit:=false,commitIdx:=0,committed:=false,failed:=false,ended:=false,resume:=[]}})]}

/-- The Span of a witness below. -/
def va30 : Span := {beginPa:=0x20000,beginIdx:=4,id:=1,slots:=3,formats:=0,staging:=0,stageCap:=0,attempt:=2,borrowed:=[(4099,0)],flags:=1,deferred:=[(3,9,5)],staged:=[],parsedCommit:=false,commitIdx:=0,committed:=false,failed:=false,ended:=false,resume:=[]}

/-- The hypotheses of `Obligations.RedoSpans` are met on these states and operands, clause by clause. -/
theorem witness_RedoSpans (h : Obligations.RedoSpans) :
    (∃ t, exec (.redoBegin 0 1) st93 = .next t)
    ∧ (∃ t, exec (.redoCommit 0 1) st94 = .next t)
    ∧ (∃ t, exec (.redoCommit 0 1) st95 = .next t)
    ∧ (∃ t, exec (.redoCommit 0 1) st96 = .next t) :=
  ⟨Completes.runs ((h.1 st93 0 1 {cmd0 8 16 [] with span:=true} va27) (by unfold Starts; decide +kernel) rfl (by decide +kernel)),
   Completes.runs ((h.2.1 st94 0 1 {cmd0 8 17 [] with span:=true} va28 3 9 5) (by unfold Starts; decide +kernel) rfl (by decide +kernel) rfl rfl rfl rfl rfl rfl rfl),
   Completes.runs ((h.2.2.1 st95 0 1 {cmd0 8 17 [] with span:=true} va29) (by unfold Starts; decide +kernel) rfl (by decide +kernel) rfl),
   Completes.runs ((h.2.2.2 st96 0 1 {cmd0 8 17 [] with span:=true} va30) (by unfold Starts; decide +kernel) rfl (by decide +kernel) rfl rfl (by decide +kernel))⟩

/-- The state of a witness below. -/
def st97 : State := {on with strs:=[(1,{cmds:=[cmd0 8 48 [(0x10,0x10001),(0x18,0x20010)]]})],objs:=[(1,{live:=true,base:=0x100000,size:=1,refs:=2,gen:=3}),(2,{live:=true,base:=0x120000,size:=2,refs:=65535,gen:=0xFFFF})],ctx:=[(0,{num:=1,state:=1,heapBase:=0x100000,heapSize:=0x100000})],lines:=[(0x20000/128,full)],regs:=[(regKey (home .prt 0 0x18),some 100)]}

/-- The command of a witness below. -/
def va31 : Cmd := (cmd0 8 48 [(0x10,0x10001),(0x18,0x20010)])

/-- The state of a witness below. -/
def st98 : State := {on with strs:=[(1,{cmds:=[cmd0 8 48 [(0x10,0x100000),(0x18,0x20070)]]})],objs:=[(1,{live:=true,base:=0x100000,size:=1,refs:=2,gen:=3}),(2,{live:=true,base:=0x120000,size:=2,refs:=65535,gen:=0xFFFF})],ctx:=[(0,{num:=1,state:=1,heapBase:=0x100000,heapSize:=0x100000})],lines:=[(0x20000/128,full)],regs:=[(regKey (home .prt 0 0x18),some 100)]}

/-- The command of a witness below. -/
def va32 : Cmd := (cmd0 8 48 [(0x10,0x100000),(0x18,0x20070)])

/-- The state of a witness below. -/
def st99 : State := {on with strs:=[(1,{cmds:=[cmd0 8 49 [(0x10,1),(0x14,5)]]})],objs:=[(1,{live:=true,base:=0x100000,size:=1,refs:=2,gen:=3}),(2,{live:=true,base:=0x120000,size:=2,refs:=65535,gen:=0xFFFF})],ctx:=[(0,{num:=1,state:=1,heapBase:=0x100000,heapSize:=0x100000})],lines:=[(0x20000/128,full)],regs:=[(regKey (home .prt 0 0x18),some 100)]}

/-- The state of a witness below. -/
def st228 : State := {on with strs:=[(1,{cmds:=[cmd0 8 50 [(0x10,1),(0x14,1)]]})],objs:=[(1,{live:=true,base:=0x100000,size:=1,refs:=2,gen:=3}),(2,{live:=true,base:=0x120000,size:=2,refs:=65535,gen:=0xFFFF})],ctx:=[(0,{num:=1,state:=1,heapBase:=0x100000,heapSize:=0x100000})],lines:=[(0x20000/128,full)],regs:=[(regKey (home .prt 0 0x18),some 100)]}

/-- The state of a witness below. -/
def st231 : State := {on with strs:=[(1,{cmds:=[cmd0 8 49 [(0x10,1),(0x14,2)]]})],objs:=[(1,{live:=true,base:=0x100000,size:=1,refs:=0xFFFFFFFF,gen:=3})]}

/-- The hypotheses of `Obligations.ObjectCommands` are met on these states and operands, clause by clause. -/
theorem witness_ObjectCommands (h : Obligations.ObjectCommands) :
    (∃ t, exec (.objectCreate 0 1) st97 = .next t)
    ∧ (∃ t, exec (.objectCreate 0 1) st98 = .next t)
    ∧ (∃ t, exec (.objectHold 0 1) st99 = .next t)
    ∧ (∃ t, exec (.objectRelease 0 1) st228 = .next t)
    ∧ (∃ t, exec (.objectHold 0 1) st231 = .next t) :=
  ⟨Completes.runs ((h.1 st97 0 1 va31 3 0x14 0x20010) (by unfold Starts; decide +kernel) rfl rfl rfl (by decide +kernel) rfl rfl rfl (by decide +kernel) rfl rfl),
   Completes.runs ((h.2.1 st98 0 1 va32) (by unfold Starts; decide +kernel) rfl rfl),
   Completes.runs ((h.2.2.1 st99 0 1 (cmd0 8 49 [(0x10,1),(0x14,5)])) (by unfold Starts; decide +kernel) (by decide +kernel)),
   Completes.runs (((h.2.2.2.2 st228 0 1 (cmd0 8 50 [(0x10,1),(0x14,1)])) (by unfold Starts; decide +kernel) rfl).1 (by decide +kernel)),
   Completes.runs ((h.2.2.2.1 st231 0 1 (cmd0 8 49 [(0x10,1),(0x14,2)])) (by unfold Starts; decide +kernel) (by decide +kernel))⟩

/-- The state of a witness below. -/
def st100 : State := {on with strs:=[(1,{cmds:=[{cmd0 8 0 [(1,2),(4,3),(8,9)] with done:=some 0,owes:=true,started:=true,flags:=0x15,pa:=0x20040}, cmd0 9 0 []]})],fences:=[(3,{value:=5,owed:=2})],lines:=[(0x20000/128,full)]}

/-- The command of a witness below. -/
def va33 : Cmd := {cmd0 8 0 [(1,2),(4,3),(8,9)] with done:=some 0,owes:=true,started:=true,flags:=0x15,pa:=0x20040}

/-- The hypotheses of `Obligations.CommandCompletion` are met on these states and operands, clause by clause. -/
theorem witness_CommandCompletion (h : Obligations.CommandCompletion) :
    ∃ t, exec (.commandComplete 0 1 8) st100 = .next t :=
  Completes.runs (h st100 0 1 8 va33 0 0x20078 (by decide +kernel) (by decide +kernel) (by decide +kernel) (by first | decide +kernel) (by decide +kernel) (by decide +kernel) (by decide +kernel) (by first | decide +kernel) (by decide +kernel) (by decide +kernel) (by decide +kernel))

/-- The state of a witness below. -/
def st101 : State := {on with strs:=[(0,{cmds:=[cmd0 8 1 [(0x10,0x30000),(0x20,5),(0x24,40 + 2^8*33)]]})]}

/-- The command of a witness below. -/
def va34 : Cmd := (cmd0 8 1 [(0x10,0x30000),(0x20,5),(0x24,40 + 2^8*33)])

/-- The state of a witness below. -/
def st102 : State := {on with strs:=[(0,{cmds:=[cmd0 8 1 [(0x10,0x30000),(0x20,5),(0x24,40 + 2^8*33)]]})],pkg:={on.pkg with domains:=1}}

/-- The state of a witness below. -/
def st103 : State := {on with ctx:=[(0,{(on.ctx.get {} 0) with ready:=[(0,8)]})],strs:=[(0,{cmds:=[cmd0 8 1 [(0x10,0x30000),(0x20,5),(0x24,40 + 2^8*33)]]})],pkg:={on.pkg with domains:=0},mem:=cbytes [(0x100,5),(0x1000100,6)]}

/-- The state of a witness below. -/
def st263 : State := {on with strs:=[(0,{cmds:=[cmd0 8 1 [(0x10,0x30000),(0x20,5),(0x24,200 + 2^8*100)]]})]}

/-- The command of a witness below. -/
def va109 : Cmd := (cmd0 8 1 [(0x10,0x30000),(0x20,5),(0x24,200 + 2^8*100)])

/-- The hypotheses of `Obligations.LaunchesAndPower` are met on these states and operands, clause by clause. -/
theorem witness_LaunchesAndPower (h : Obligations.LaunchesAndPower) :
    (∃ t, exec (.launch 0 0) st101 = .next t)
    ∧ (∃ t, exec (.launch 0 0) st102 = .next t)
    ∧ (∃ t, exec (.clusterPowerUp 0) st103 = .next t)
    ∧ (∃ t, exec (.clusterPowerUp 1) on = .next t)
    ∧ (∃ t, exec (.launch 0 0) st263 = .next t) :=
  ⟨Completes.runs ((h.1.1 st101 0 0 va34 []) (by unfold Starts; decide +kernel) rfl rfl rfl rfl),
   Completes.runs ((h.1.2.1 st102 0 0 va34) (by unfold Starts; decide +kernel) rfl (by decide +kernel)),
   Completes.runs ((h.2.1 st103 0) rfl rfl rfl),
   Completes.runs ((h.2.2 on 1) (by decide +kernel)),
   Completes.runs ((h.1.2.2 st263 0 0 va109) (by unfold Starts; decide +kernel) (by decide +kernel))⟩

/-- The state of a witness below. -/
def st104 : State := {on with strs:=[(0,{cmds:=[cmd0 8 2 [(0x10,0x30000),(0x18,2)]]}),(1,{cmds:=[cmd0 6 2 [(0x10,0x30000),(0x18,2)]]})],mem:=leM 0x30000 16 (0x200 + 3*2^32 + (0x101+4*2^32)*2^64)}

/-- The List Byte of a witness below. -/
def va35 : List Byte := (leBytes 16 (0x200 + 3*2^32 + (0x101+4*2^32)*2^64))

/-- The state of a witness below. -/
def st105 : State := {on with strs:=[(0,{cmds:=[cmd0 8 2 [(0x10,0x30000),(0x18,2)]]}),(1,{cmds:=[cmd0 6 2 [(0x10,0x30008),(0x18,2)]]})],mem:=leM 0x30000 16 (2 + (2^8+3)*2^64)}

/-- The state of a witness below. -/
def st264 : State := {on with strs:=[(0,{cmds:=[cmd0 8 2 [(0x10,0x30000),(0x18,2)]]}),(1,{cmds:=[cmd0 6 2 [(0x10,0x30008),(0x18,2)]]})],ctx:=[(0,{(on.ctx.get {} 0) with ilvLost:=[(0,on.ilvNumber 0 1 (cmd0 6 2 [(0x10,0x30008),(0x18,2)]))]})]}

/-- The hypotheses of `Obligations.InterleaveTables` are met on these states and operands, clause by clause. -/
theorem witness_InterleaveTables (h : Obligations.InterleaveTables) :
    (∃ t, exec (.tileInterleave 0 1) st104 = .next t)
    ∧ (∃ t, exec (.tileInterleave 0 1) st105 = .next t)
    ∧ (∃ t, exec (.tileInterleave 0 1) st264 = .next t) :=
  ⟨Completes.runs ((h.1 st104 0 1 (cmd0 6 2 [(0x10,0x30000),(0x18,2)]) (cmd0 8 2 [(0x10,0x30000),(0x18,2)]) va35) (by unfold Starts; decide +kernel) rfl rfl rfl rfl rfl rfl),
   Completes.runs ((h.2.1 st105 0 1 (cmd0 6 2 [(0x10,0x30008),(0x18,2)]) (cmd0 8 2 [(0x10,0x30000),(0x18,2)])) (by unfold Starts; decide +kernel) (by decide +kernel)),
   Completes.runs ((h.2.2 st264 0 1 (cmd0 6 2 [(0x10,0x30008),(0x18,2)])) (by decide +kernel) (by unfold Starts; decide +kernel) (by decide +kernel))⟩

/-- The state of a witness below. -/
def st106 : State := {on with strs:=[(1,{cmds:=[cmd0 8 4 [(0x10,0x20010),(0x18,24),(0x20,0x0807060504030201)]]})]}

/-- The command of a witness below. -/
def va36 : Cmd := (cmd0 8 4 [(0x10,0x20010),(0x18,24),(0x20,0x0807060504030201)])

/-- The state of a witness below. -/
def st107 : State := {on with strs:=[(1,{cmds:=[cmd0 8 3 [(0x10,0x20010),(0x18,0x20100),(0x20,24)]]})]}

/-- The command of a witness below. -/
def va37 : Cmd := (cmd0 8 3 [(0x10,0x20010),(0x18,0x20100),(0x20,24)])

/-- The state of a witness below. -/
def st108 : State := {on with strs:=[(1,{cmds:=[cmd0 8 3 [(0x10,0x20010),(0x18,0x20100),(0x20,24),(0x24,1),(0x2C,0x0101)]]})]}

/-- The command of a witness below. -/
def va38 : Cmd := (cmd0 8 3 [(0x10,0x20010),(0x18,0x20100),(0x20,24),(0x24,1),(0x2C,0x0101)])

/-- The state of a witness below. -/
def st109 : State := {on with strs:=[(1,{cmds:=[{cmd0 8 4 [(0x10,0x20010),(0x18,24),(0x20,0x0807060504030201),(0x28,0)] with started:=true,engine:=some 3}]})],lines:=[(0x20000/128,full)]}

/-- The command of a witness below. -/
def va39 : Cmd := {cmd0 8 4 [(0x10,0x20010),(0x18,24),(0x20,0x0807060504030201),(0x28,0)] with started:=true,engine:=some 3}

/-- The state of a witness below. -/
def st110 : State := {on with strs:=[(1,{cmds:=[{cmd0 8 3 [(0x10,0x20010),(0x18,0x20100),(0x20,24)] with started:=true,engine:=some 3}]})],lines:=[(0x20000/128,full),(0x20100/128,full)]}

/-- The command of a witness below. -/
def va40 : Cmd := {cmd0 8 3 [(0x10,0x20010),(0x18,0x20100),(0x20,24)] with started:=true,engine:=some 3}

/-- The state of a witness below. -/
def st265 : State := {on with strs:=[(1,{cmds:=[cmd0 8 3 [(0x10,0x20010),(0x18,0x20100),(0x20,24),(0x24,1),(0x28,0x20100)]]})],lines:=[(0x20100/128,{present:=true,lock:=some 5})]}

/-- The command of a witness below. -/
def va110 : Cmd := (cmd0 8 3 [(0x10,0x20010),(0x18,0x20100),(0x20,24),(0x24,1),(0x28,0x20100)])

/-- The hypotheses of `Obligations.Transfers` are met on these states and operands, clause by clause. -/
theorem witness_Transfers (h : Obligations.Transfers) :
    (∃ t, exec (.fill 0 1) st106 = .next t)
    ∧ (∃ t, exec (.copy 0 1) st107 = .next t)
    ∧ (∃ t, exec (.copy 0 1) st108 = .next t)
    ∧ (∃ t, exec (.xfeComplete 3) st109 = .next t)
    ∧ (∃ t, exec (.xfeComplete 3) st110 = .next t)
    ∧ (∃ t, exec (.copy 0 1) st265 = .next t) :=
  ⟨Completes.runs ((h.1.2.1 st106 0 1 va36 (by unfold Starts; decide +kernel) (by decide +kernel) trivial (by decide +kernel)).2.1 0 (by decide +kernel)),
   Completes.runs ((h.1.1 st107 0 1 va37 (by unfold Starts; decide +kernel) (by decide +kernel) (by decide +kernel) (by decide +kernel)).2.1 0 (by first | decide +kernel)),
   Completes.runs ((h.1.2.2.1 st108 0 1 va38) (by unfold Starts; decide +kernel) rfl (by decide +kernel)),
   Completes.runs ((h.2.1 st109 3 0 1 0x20010 0x20010 va39) (by decide +kernel) rfl (by decide +kernel) (by decide +kernel) rfl rfl rfl rfl),
   Completes.runs ((h.2.2 st110 3 0 1 0x20010 0x20100 0x20010 0x20100 va40) (by decide +kernel) rfl rfl rfl (by decide +kernel) (by decide +kernel) (by first | decide +kernel) rfl rfl rfl rfl rfl rfl rfl rfl rfl),
   Completes.runs ((h.1.2.2.2 st265 0 1 va110) (by unfold Starts; decide +kernel) rfl)⟩

/-- The state of a witness below. -/
def st111 : State := {on with strs:=[(1,{cmds:=[cmd0 8 5 [(0x10,512),(0x14,0x100),(0x18,0x1000),(0x1C,16+2*65536),(0x20,256),(0x24,4096)]]})],mem:=cbytes [(0x100,5),(0x103,6),(0x10A,0x80),(0x200,7)]}

/-- The command of a witness below. -/
def va41 : Cmd := (cmd0 8 5 [(0x10,512),(0x14,0x100),(0x18,0x1000),(0x1C,16+2*65536),(0x20,256),(0x24,4096)])

/-- The state of a witness below. -/
def st112 : State := {on with strs:=[(1,{cmds:=[cmd0 8 5 [(0x10,512),(0x14,0x100),(0x18,0x1000),(0x1C,16+2*65536),(0x20,256),(0x24,8)]]})],mem:=cbytes [(0x100,5),(0x103,6),(0x10A,0x80),(0x200,7)]}

/-- The command of a witness below. -/
def va42 : Cmd := (cmd0 8 5 [(0x10,512),(0x14,0x100),(0x18,0x1000),(0x1C,16+2*65536),(0x20,256),(0x24,8)])

/-- The hypotheses of `Obligations.CompressOneTile` are met on these states and operands, clause by clause. -/
theorem witness_CompressOneTile (h : Obligations.CompressOneTile) :
    (∃ t, exec (.compress 0 1) st111 = .next t)
    ∧ (∃ t, exec (.compress 0 1) st112 = .next t) :=
  ⟨Completes.runs ((h.1 st111 0 1 va41) (by unfold Starts; decide +kernel) (by decide +kernel) (by decide +kernel)),
   Completes.runs ((h.2 st112 0 1 va42) (by unfold Starts; decide +kernel) (by decide +kernel))⟩

/-- The state of a witness below. -/
def st113 : State := {on with ports:=[(2,{state:=3,rxSeq:=7})]}

/-- The BitVec 2048 of a witness below. -/
def va43 : BitVec 2048 := (BitVec.ofNat 2048 (makeFlit 1 2 9 3 1 0 0 0 [] 15))

/-- The BitVec 2048 of a witness below. -/
def va44 : BitVec 2048 := (BitVec.ofNat 2048 (makeFlit 1 1 7 3 1 0 0 0 [(3 + 1*16 + 2^16*2 + 2^86*5 + 2^32*0x20000)] 0))

/-- The state of a witness below. -/
def st114 : State := {on with ports:=[(2,{state:=3,rxSeq:=7,unacked:=3,ctlOut:=[[5],[6]]})]}

/-- The state of a witness below. -/
def st115 : State := {on with ports:=[(2,{state:=3,rxSeq:=0,unacked:=3})]}

/-- The state of a witness below. -/
def st116 : State := {on with ports:=[(2,{state:=3,rxSeq:=0,unacked:=3,txSeq:=4095,credits:=[(6,4)],txq:=[(6,[{slots:=[6 + 2*16],begun:=false,fwd:=false,resp:=true,part:=0,held:=none}])]})]}

/-- The TxEntry of a witness below. -/
def va45 : TxEntry := {slots:=[6 + 2*16],begun:=false,fwd:=false,resp:=true,part:=0,held:=none}

/-- The state of a witness below. -/
def st117 : State := {on with ports:=[(2,{state:=3,rxSeq:=9,retry:=true})]}

/-- The state of a witness below. -/
def st118 : State := {on with ports:=[(2,{state:=3,rxSeq:=9,unacked:=5})]}

/-- The BitVec 2048 of a witness below. -/
def va94 : BitVec 2048 := (BitVec.ofNat 2048 (makeFlit 1 1 7 3 1 0 0 0 [(3 + 2*16 + 2^16*9 + 2^86*5 + 2^32*0x20000)] 0))

/-- The state of a witness below. -/
def st229 : State := {on with pkg:={on.pkg with sizes:=0x4444},ports:=[(0,{state:=3}),(2,{state:=3,rxSeq:=7})]}

/-- The BitVec 2048 of a witness below. -/
def va95 : BitVec 2048 := (BitVec.ofNat 2048 (makeFlit 0 0 0 2 1 0 0 0 [] 15))

/-- The state of a witness below. -/
def st230 : State := {on with ports:=[(2,{state:=3,rxSeq:=7,replay:=[⟨1,99,0⟩,⟨2,98,0⟩,⟨3,97,1⟩]})]}

/-- The hypotheses of `Obligations.FlitTraffic` are met on these states and operands, clause by clause. -/
theorem witness_FlitTraffic (h : Obligations.FlitTraffic) :
    (∃ t, exec (.flitReceive 2 5) st113 = .next t)
    ∧ (∃ t, exec (.flitReceive 2 va43) st113 = .next t)
    ∧ (∃ t, exec (.flitReceive 2 va44) st113 = .next t)
    ∧ (∃ t, exec (.flitSend 2) st114 = .next t)
    ∧ (∃ t, exec (.flitSend 2) st115 = .next t)
    ∧ (∃ t, exec (.flitSend 2) st116 = .next t)
    ∧ (∃ t, exec (.retryRepeat 2) st117 = .next t)
    ∧ (∃ t, exec (.ackTimer 2) st118 = .next t)
    ∧ (∃ t, exec (.flitReceive 2 va94) st229 = .next t)
    ∧ (∃ t, exec (.flitReceive 2 va95) st230 = .next t) :=
  ⟨Completes.runs ((h.1.1 st113 2 5) (by decide +kernel) rfl),
   Completes.runs ((h.1.2.1 st113 2 va43) rfl rfl rfl (by decide +kernel)),
   Completes.runs ((h.1.2.2.1 st113 2 va44 (3 + 1*16 + 2^16*2 + 2^86*5 + 2^32*0x20000)) (by decide +kernel) rfl),
   Completes.runs (h.2.1 st114 2 [5] [[6]] ⟨(by decide +kernel), fun _ => rfl⟩ (by decide +kernel)),
   Completes.runs (h.2.2.1 st115 2 ⟨(by decide +kernel), fun _ => rfl⟩ (by decide +kernel) (by decide +kernel) (by first | decide +kernel)),
   Completes.runs (h.2.2.2.1 st116 2 va45 (6+2*16) ⟨(by decide +kernel), fun _ => rfl⟩ (by decide +kernel) (by decide +kernel) (by first | decide +kernel) (by decide +kernel) (by decide +kernel) (by decide +kernel) (by first | decide +kernel) (by decide +kernel) (by decide +kernel) (by decide +kernel) (by first | decide +kernel)),
   Completes.runs ((h.2.2.2.2.1 st117 2) (by decide +kernel) rfl),
   Completes.runs ((h.2.2.2.2.2 st118 2) rfl),
   Completes.runs ((h.1.2.2.2.1 st229 2 va94 (3 + 2*16 + 2^16*9 + 2^86*5 + 2^32*0x20000) 0) (by decide +kernel) (by decide +kernel) rfl rfl),
   Completes.runs ((h.1.2.2.2.2 st230 2 va95) rfl rfl rfl rfl)⟩

/-- The state of a witness below. -/
def st119 : State := {on with pkg:={on.pkg with device:=none,fixedDev:=false,sizes:=0x4444},ports:=[(2,{state:=1,ctlIn:=[[4,0]],failed:=1})]}

/-- The state of a witness below. -/
def st120 : State := {on with pkg:={on.pkg with device:=none,fixedDev:=false,sizes:=0x4444},ports:=[(2,{state:=2,rxSeq:=4,ackOk:=true})]}

/-- The state of a witness below. -/
def st121 : State := {on with pkg:={on.pkg with device:=none,fixedDev:=false,sizes:=0x4444},ports:=[(2,{state:=1})]}

/-- The state of a witness below. -/
def st122 : State := {on with pkg:={on.pkg with device:=none,fixedDev:=false,sizes:=0x4444},ports:=[(2,{state:=3,rxSeq:=4})]}

/-- The state of a witness below. -/
def st123 : State := {on with pkg:={on.pkg with device:=none,fixedDev:=false,sizes:=0x4444},ports:=[(2,{state:=3})]}

/-- The state of a witness below. -/
def st124 : State := {on with pkg:={on.pkg with device:=none,fixedDev:=false,sizes:=0x4444},ports:=[(2,{state:=4,cause:=3})]}

/-- The state of a witness below. -/
def st232 : State := {on with pkg:={on.pkg with device:=none,fixedDev:=false,sizes:=0x4444},ports:=[(2,{state:=3,ctlIn:=[[(1 + 1*2^8 + 1*2^11 + 2^44 + 8*2^32 + 0x4444*2^48),77]]})]}

/-- The state of a witness below. -/
def st233 : State := {on with pkg:={on.pkg with device:=none,fixedDev:=false,sizes:=0x4444},ports:=[(2,{state:=2,ctlIn:=[[(1 + 1*2^8 + 1*2^11 + 2^44 + 8*2^32 + 0x4443*2^48),77]]})]}

/-- The state of a witness below. -/
def st234 : State := {on with pkg:={on.pkg with device:=none,fixedDev:=false,sizes:=0x4444},ports:=[(2,{state:=2,ctlIn:=[[(1 + 1*2^8 + 1*2^11 + 0*2^32 + 0x4444*2^48),77]]})]}

/-- The state of a witness below. -/
def st235 : State := {on with pkg:={on.pkg with device:=none,fixedDev:=false,sizes:=0x4444},ports:=[(2,{state:=2,ctlIn:=[[(1 + 1*2^8 + 1*2^11 + 2^44 + 8*2^32 + 0x4444*2^48),77]]})]}

/-- The hypotheses of `Obligations.LinkManagement` are met on these states and operands, clause by clause. -/
theorem witness_LinkManagement (h : Obligations.LinkManagement) :
    (∃ t, exec (.portTrainingEnd 2 4080) st119 = .next t)
    ∧ (∃ t, exec (.negotiateRecordSend 2) st120 = .next t)
    ∧ (∃ t, exec (.noPeer 2) st121 = .next t)
    ∧ (∃ t, exec (.lost 2) st122 = .next t)
    ∧ (∃ t, exec (.griwaldPortFault 2) st123 = .next t)
    ∧ (∃ t, exec (.retrain 2) st124 = .next t)
    ∧ (∃ t, exec (.record 2) st232 = .next t)
    ∧ (∃ t, exec (.record 2) st233 = .next t)
    ∧ (∃ t, exec (.record 2) st234 = .next t)
    ∧ (∃ t, exec (.record 2) st235 = .next t) :=
  ⟨Completes.runs (((h.2.1 st119 2 4080).1) rfl (by decide +kernel)),
   Completes.runs (((h.2.2.1 st120 2).1) rfl),
   Completes.runs (((h.2.2.2.1 st121 2).1) (by decide +kernel)),
   Completes.runs (((h.2.2.2.2.1 st122 2).1) rfl),
   Completes.runs (((h.2.2.2.2.2.1 st123 2).1) (by decide +kernel)),
   Completes.runs (((h.2.2.2.2.2.2.1 st124 2).1) (by decide +kernel)),
   Completes.runs (((h.1.1 st232 2 (1 + 1*2^8 + 1*2^11 + 2^44 + 8*2^32 + 0x4444*2^48) 77 [] (by decide +kernel)).1) (by decide +kernel)),
   Completes.runs (((h.1.1 st233 2 (1 + 1*2^8 + 1*2^11 + 2^44 + 8*2^32 + 0x4443*2^48) 77 [] (by decide +kernel)).2.1) rfl (by decide +kernel)),
   Completes.runs (((h.1.1 st234 2 (1 + 1*2^8 + 1*2^11 + 0*2^32 + 0x4444*2^48) 77 [] (by decide +kernel)).2.2.1) rfl rfl rfl),
   Completes.runs (((h.1.1 st235 2 (1 + 1*2^8 + 1*2^11 + 2^44 + 8*2^32 + 0x4444*2^48) 77 [] (by decide +kernel)).2.2.2.1) rfl rfl rfl (by decide +kernel))⟩

/-- The state of a witness below. -/
def st236 : State := {on with pkg:={on.pkg with device:=some 3,fixedDev:=false,sizes:=0x4444},ports:=[(2,{state:=2,ctlIn:=[[(1 + 1*2^8 + 1*2^11 + 2^44 + 8*2^32 + 0x4444*2^48),77]]})]}

/-- The state of a witness below. -/
def st237 : State := {on with pkg:={on.pkg with device:=none,fixedDev:=false,sizes:=0x4444},ports:=[(2,{state:=2,ctlIn:=[[(2+5*2^32),0]]})]}

/-- The state of a witness below. -/
def st238 : State := {on with pkg:={on.pkg with device:=none,fixedDev:=false,sizes:=0x4444},ports:=[(2,{state:=3,replay:=[⟨4,98,14⟩,⟨5,99,3⟩,⟨6,97,0⟩],ctlIn:=[[(2+5*2^32),0]]})]}

/-- The state of a witness below. -/
def st239 : State := {on with pkg:={on.pkg with device:=none,fixedDev:=false,sizes:=0x4444},ports:=[(2,{state:=3,replay:=[⟨5,99,15⟩],ctlIn:=[[(2+5*2^32),0]]})]}

/-- The state of a witness below. -/
def st240 : State := {on with pkg:={on.pkg with device:=none,fixedDev:=false,sizes:=0x4444},ports:=[(2,{state:=3,replay:=[⟨5,99,2⟩],tags:=[(4,.used (.copyRead 0 1 8 9) (parseTxn [5]))],ctlIn:=[[(3 + 9*2^32),0]]})]}

/-- The state of a witness below. -/
def st241 : State := {on with pkg:={on.pkg with device:=none,fixedDev:=false,sizes:=0x4444},ports:=[(2,{state:=1,ctlIn:=[[(3 + 5*2^32),0]]})]}

/-- The state of a witness below. -/
def st242 : State := {on with pkg:={on.pkg with device:=none,fixedDev:=false,sizes:=0x4444},ports:=[(2,{state:=3,lanes:=0xFFF,failed:=1,ctlIn:=[[(4+4095*2^32),0]]})]}

/-- The state of a witness below. -/
def st243 : State := {on with pkg:={on.pkg with device:=none,fixedDev:=false,sizes:=0x4444},ports:=[(2,{state:=3,lanes:=0xFFF,failed:=1,ctlIn:=[[(4+15*2^32),0]]})]}

/-- The state of a witness below. -/
def st244 : State := {on with pkg:={on.pkg with device:=none,fixedDev:=false,sizes:=0x4444},ports:=[(2,{state:=1,lanes:=0xFFF,failed:=1,ctlIn:=[[(4+2047*2^32),0]]})]}

/-- The state of a witness below. -/
def st245 : State := {on with pkg:={on.pkg with device:=none,fixedDev:=false,sizes:=0x4444},ports:=[(2,{state:=3,lanes:=0xFFF})]}

/-- More clauses of the same statement. -/
theorem witness_LinkManagement_2 (h : Obligations.LinkManagement) :
    (∃ t, exec (.record 2) st236 = .next t)
    ∧ (∃ t, exec (.retry 2) st237 = .next t)
    ∧ (∃ t, exec (.retry 2) st238 = .next t)
    ∧ (∃ t, exec (.retry 2) st239 = .next t)
    ∧ (∃ t, exec (.down 2) st240 = .next t)
    ∧ (∃ t, exec (.down 2) st241 = .next t)
    ∧ (∃ t, exec (.lanes 2) st242 = .next t)
    ∧ (∃ t, exec (.lanes 2) st243 = .next t)
    ∧ (∃ t, exec (.lanes 2) st244 = .next t)
    ∧ (∃ t, exec (.laneFailure 2 15) st245 = .next t) :=
  ⟨Completes.runs (((h.1.1 st236 2 (1 + 1*2^8 + 1*2^11 + 2^44 + 8*2^32 + 0x4444*2^48) 77 [] (by decide +kernel)).2.2.2.2 3) rfl rfl rfl rfl (by decide +kernel)),
   Completes.runs (((h.1.2.1 st237 2 (2+5*2^32) 0 [] (by decide +kernel)).1) (by decide +kernel)),
   Completes.runs (((h.1.2.1 st238 2 (2+5*2^32) 0 [] (by decide +kernel)).2.1) rfl (by decide +kernel)),
   Completes.runs (((h.1.2.1 st239 2 (2+5*2^32) 0 [] (by decide +kernel)).2.2) rfl (by decide +kernel)),
   Completes.runs (((h.1.2.2.1 st240 2 (3 + 9*2^32) 0 [] (by decide +kernel)).1) (by decide +kernel)),
   Completes.runs (((h.1.2.2.1 st241 2 (3 + 5*2^32) 0 [] (by decide +kernel)).2) (by decide +kernel)),
   Completes.runs (((h.1.2.2.2 st242 2 (4+4095*2^32) 0 [] (by decide +kernel)).1) (by decide +kernel) (by decide +kernel)),
   Completes.runs (((h.1.2.2.2 st243 2 (4+15*2^32) 0 [] (by decide +kernel)).2.1) (by decide +kernel) (by decide +kernel)),
   Completes.runs (((h.1.2.2.2 st244 2 (4+2047*2^32) 0 [] (by decide +kernel)).2.2) (by decide +kernel)),
   Completes.runs (((h.2.2.2.2.2.2.2 st245 2 15).1) (by decide +kernel) (by decide +kernel) (by decide +kernel))⟩

/-- The state of a witness below. -/
def st125 : State := {s0 with pkg:={on.pkg with sizes:=0x4444},ports:=[(0,{state:=3,tags:=[]}),(1,{state:=3})],inTxn:=[⟨0,{op:=1,dst:=1,src:=2,part:=0,tp3:=false,pa:=131089,bytes:=5,tag:=9,code:=0,data:=leBytes 5 0x0504030201},none⟩],lines:=[(0x20000/128,full)]}

/-- The transaction of a witness below. -/
def va46 : InTxn := ⟨0,{op:=1,dst:=1,src:=2,part:=0,tp3:=false,pa:=131089,bytes:=5,tag:=9,code:=0,data:=leBytes 5 0x0504030201},none⟩

/-- The state of a witness below. -/
def st126 : State := {s0 with pkg:={on.pkg with sizes:=0x4444},ports:=[(0,{state:=3,tags:=[]}),(1,{state:=3})],inTxn:=[⟨0,{op:=2,dst:=1,src:=2,part:=0,tp3:=false,pa:=131089,bytes:=5,tag:=9,code:=0,data:=leBytes 5 0x0504030201},none⟩],lines:=[(0x20000/128,full)]}

/-- The transaction of a witness below. -/
def va47 : InTxn := ⟨0,{op:=2,dst:=1,src:=2,part:=0,tp3:=false,pa:=131089,bytes:=5,tag:=9,code:=0,data:=leBytes 5 0x0504030201},none⟩

/-- The state of a witness below. -/
def st127 : State := {s0 with pkg:={on.pkg with sizes:=0x4444},ports:=[(0,{state:=3,tags:=[]}),(1,{state:=3})],inTxn:=[⟨0,{op:=3,dst:=1,src:=2,part:=0,tp3:=false,pa:=131089,bytes:=5,tag:=9,code:=0,data:=[]},none⟩],lines:=[(0x20000/128,full)]}

/-- The transaction of a witness below. -/
def va48 : InTxn := ⟨0,{op:=3,dst:=1,src:=2,part:=0,tp3:=false,pa:=131089,bytes:=5,tag:=9,code:=0,data:=[]},none⟩

/-- The state of a witness below. -/
def st128 : State := {s0 with pkg:={on.pkg with sizes:=0x4444},ports:=[(0,{state:=3,tags:=[]}),(1,{state:=3})],inTxn:=[⟨0,{op:=1,dst:=1,src:=2,part:=0,tp3:=false,pa:=10555311626649,bytes:=5,tag:=9,code:=0,data:=[]},none⟩],lines:=[(0x20000/128,full)]}

/-- The transaction of a witness below. -/
def va49 : InTxn := ⟨0,{op:=1,dst:=1,src:=2,part:=0,tp3:=false,pa:=10555311626649,bytes:=5,tag:=9,code:=0,data:=[]},none⟩

/-- The state of a witness below. -/
def st129 : State := {s0 with pkg:={on.pkg with sizes:=0x4444},ports:=[(0,{state:=3,tags:=[]}),(1,{state:=3})],inTxn:=[⟨0,{op:=2,dst:=1,src:=2,part:=0,tp3:=false,pa:=10555311626649,bytes:=5,tag:=9,code:=0,data:=[]},none⟩],lines:=[(0x20000/128,full)]}

/-- The transaction of a witness below. -/
def va50 : InTxn := ⟨0,{op:=2,dst:=1,src:=2,part:=0,tp3:=false,pa:=10555311626649,bytes:=5,tag:=9,code:=0,data:=[]},none⟩

/-- The state of a witness below. -/
def st130 : State := {s0 with pkg:={on.pkg with sizes:=0x4444},ports:=[(0,{state:=3,tags:=[]}),(1,{state:=3})],inTxn:=[⟨0,{op:=3,dst:=1,src:=2,part:=0,tp3:=false,pa:=10555311626649,bytes:=5,tag:=9,code:=0,data:=[]},none⟩],lines:=[(0x20000/128,full)]}

/-- The transaction of a witness below. -/
def va51 : InTxn := ⟨0,{op:=3,dst:=1,src:=2,part:=0,tp3:=false,pa:=10555311626649,bytes:=5,tag:=9,code:=0,data:=[]},none⟩

/-- The state of a witness below. -/
def st131 : State := ({s0 with pkg:={on.pkg with sizes:=0x4444},ports:=[(0,{state:=3,tags:=[(9,.used (.lane 10 4) {op:=3,dst:=1,src:=2,part:=0,tp3:=false,pa:=131080,bytes:=8,tag:=9,code:=0,data:=[]})]}),(1,{state:=3})],inTxn:=[⟨0,{op:=4,dst:=1,src:=2,part:=0,tp3:=false,pa:=131080,bytes:=8,tag:=9,code:=0,data:=leBytes 8 0x0807060504030201},none⟩],lines:=[(0x20000/128,full)],ops:=[(10,some {op0 .load [lo 4 0x20008 7 0] with remote:=some 2,bytes:=8})]})

/-- The transaction of a witness below. -/
def va52 : InTxn := ⟨0,{op:=4,dst:=1,src:=2,part:=0,tp3:=false,pa:=131080,bytes:=8,tag:=9,code:=0,data:=leBytes 8 0x0807060504030201},none⟩

/-- The MemOp of a witness below. -/
def va53 : MemOp := {op0 .load [lo 4 0x20008 7 0] with remote:=some 2,bytes:=8}

/-- The Txn of a witness below. -/
def va54 : Txn := {op:=3,dst:=1,src:=2,part:=0,tp3:=false,pa:=131080,bytes:=8,tag:=9,code:=0,data:=[]}

/-- The state of a witness below. -/
def st132 : State := ({s0 with pkg:={on.pkg with sizes:=0x4444},ports:=[(0,{state:=3,tags:=[(9,.used (.lane 10 4) {op:=1,dst:=1,src:=2,part:=0,tp3:=false,pa:=131080,bytes:=8,tag:=9,code:=0,data:=[]})]}),(1,{state:=3})],inTxn:=[⟨0,{op:=5,dst:=1,src:=2,part:=0,tp3:=false,pa:=131080,bytes:=8,tag:=9,code:=0,data:=[]},none⟩],lines:=[(0x20000/128,full)],ops:=[(10,some {op0 .store [lo 4 0x20008 7 0] with remote:=some 2,bytes:=8})]})

/-- The transaction of a witness below. -/
def va55 : InTxn := ⟨0,{op:=5,dst:=1,src:=2,part:=0,tp3:=false,pa:=131080,bytes:=8,tag:=9,code:=0,data:=[]},none⟩

/-- The MemOp of a witness below. -/
def va56 : MemOp := {op0 .store [lo 4 0x20008 7 0] with remote:=some 2,bytes:=8}

/-- The Txn of a witness below. -/
def va57 : Txn := {op:=1,dst:=1,src:=2,part:=0,tp3:=false,pa:=131080,bytes:=8,tag:=9,code:=0,data:=[]}

/-- The state of a witness below. -/
def st133 : State := ({s0 with pkg:={on.pkg with sizes:=0x4444},ports:=[(0,{state:=3,tags:=[(9,.used (.lane 10 4) {op:=1,dst:=1,src:=2,part:=0,tp3:=false,pa:=131080,bytes:=8,tag:=9,code:=0,data:=[]})]}),(1,{state:=3})],inTxn:=[⟨0,{op:=6,dst:=1,src:=2,part:=0,tp3:=false,pa:=131080,bytes:=8,tag:=9,code:=2050,data:=[]},none⟩],lines:=[(0x20000/128,full)],ops:=[(10,some {op0 .store [lo 4 0x20008 7 0] with remote:=some 2,bytes:=8})]})

/-- The transaction of a witness below. -/
def va58 : InTxn := ⟨0,{op:=6,dst:=1,src:=2,part:=0,tp3:=false,pa:=131080,bytes:=8,tag:=9,code:=2050,data:=[]},none⟩

/-- The state of a witness below. -/
def st134 : State := {s0 with pkg:={on.pkg with sizes:=0x4444},ports:=[(0,{state:=3,tags:=[(9,.used (.lane 10 4) {op:=1,dst:=1,src:=2,part:=0,tp3:=false,pa:=131080,bytes:=8,tag:=9,code:=0,data:=[]})]}),(1,{state:=3})],inTxn:=[⟨0,{op:=1,dst:=1,src:=2,part:=0,tp3:=false,pa:=131080,bytes:=8,tag:=9,code:=0,data:=[]},none⟩],lines:=[(0x20000/128,full)],ops:=[(10,some {op0 .store [lo 4 0x20008 7 0] with remote:=some 2,bytes:=8})]}

/-- The hypotheses of `Obligations.RemoteTransactions` are met on these states and operands, clause by clause. -/
theorem witness_RemoteTransactions (h : Obligations.RemoteTransactions) :
    (∃ t, exec (.txnWrite 0) st125 = .next t)
    ∧ (∃ t, exec (.writeFinal 0) st126 = .next t)
    ∧ (∃ t, exec (.txnRead 0) st127 = .next t)
    ∧ (∃ t, exec (.txnWrite 0) st128 = .next t)
    ∧ (∃ t, exec (.writeFinal 0) st129 = .next t)
    ∧ (∃ t, exec (.txnRead 0) st130 = .next t)
    ∧ (∃ t, exec (.readData 0) st131 = .next t)
    ∧ (∃ t, exec (.ack 0) st132 = .next t)
    ∧ (∃ t, exec (.nak 0) st133 = .next t)
    ∧ (∃ t, exec (.respTimeout 0 9) st134 = .next t) :=
  ⟨Completes.runs ((h.1.1 st125 0 0 0x20011 va46) (by decide +kernel) rfl rfl),
   Completes.runs ((h.1.2.1 st126 0 0 0x20011 va47) (by decide +kernel) rfl rfl),
   Completes.runs ((h.1.2.2.1 st127 0 0 0x20011 va48) (by decide +kernel)),
   Completes.runs ((h.1.2.2.2 Instr.txnWrite 1 (by simp) st128 0 0 va49) rfl (by decide +kernel) rfl rfl rfl),
   Completes.runs ((h.1.2.2.2 Instr.writeFinal 2 (by simp) st129 0 0 va50) rfl (by decide +kernel) rfl rfl rfl),
   Completes.runs ((h.1.2.2.2 Instr.txnRead 3 (by simp) st130 0 0 va51) rfl (by decide +kernel) rfl rfl rfl),
   Completes.runs ((h.2.1 st131 0 0 10 4 va52 va53 (lo 4 0x20008 7 0) va54) (by decide +kernel) rfl rfl rfl (by decide +kernel)),
   Completes.runs ((h.2.2.1 st132 0 0 10 4 va55 va56 (lo 4 0x20008 7 0) va57) (by decide +kernel) rfl),
   Completes.runs ((h.2.2.2.1 st133 0 0 10 4 va58 va56 (lo 4 0x20008 7 0) va57) (by decide +kernel) rfl (by decide +kernel) rfl),
   Completes.runs ((h.2.2.2.2.1 st134 0 9 10 4 va56 (lo 4 0x20008 7 0) va57) rfl rfl (by decide +kernel) rfl (by decide +kernel) rfl)⟩

/-- The state of a witness below. -/
def st135 : State := {s0 with ports:=[(2,{tags:=[(9,.withheld),(12,.withheld)]})]}

/-- More clauses of the same statement. -/
theorem witness_RemoteTransactions_2 (h : Obligations.RemoteTransactions) :
    ∃ t, exec (.tagWithholdEnd 2 9) st135 = .next t :=
  Completes.runs ((h.2.2.2.2.2 st135 2 9) rfl rfl)

/-- Helper of the witnesses. -/
def xon : State := { on with pkg := { on.pkg with sizes := 0x4444 }, ports := (List.range 8).map (fun g => (g, { state := 3, peerDev := 2 + g })) }

/-- Helper of the witnesses. -/
def erec : Nat := slotN [(0,0x100000),(8,0x110000),(16,0x120000),(0x18,16),(0x1C,8),(0x20,1),(0x24,7),(0x28,0x140000),(0x30,0x3F800000),(0x34,32)]

/-- The state of a witness below. -/
def st136 : State := {xon with strs:=[(3,{cmds:=[cmd0 8 32 [(0x10,0x30000),(0x18,77),(0x20,1)]]})],mem:=leM 0x30000 64 erec}

/-- The command of a witness below. -/
def va59 : Cmd := (cmd0 8 32 [(0x10,0x30000),(0x18,77),(0x20,1)])

/-- Helper of the witnesses. -/
def e0 (dims : List Nat) : Exch := { idx := 8, step := 77, dims := dims, src := 0x100000, dst := 0x110000, blocks := 16, bucket := 8, job := 7, record := some 0x140000
                                     gscale := 0x3F800000, batch := 32, marked := false, ready := [], next := 0, jobs := [], held := [], asq := [], fin := []
                                     nonfinite := 0, void := false, mism := [], closing := none, stg := 0x120000, stgSize := 65536 }

/-- The state of a witness below. -/
def st137 : State := {xon with strs:=[(3,{cmds:=[cmd0 8 32 [(0x10,0x30000),(0x18,77),(0x20,0)]]})],mem:=leM 0x30000 64 erec}

/-- The command of a witness below. -/
def va60 : Cmd := (cmd0 8 32 [(0x10,0x30000),(0x18,77),(0x20,0)])

/-- Helper of the witnesses. -/
def grec : Nat := slotN [(0,0x100000),(8,0x110000),(16,0x120000),(0x18,1024),(0x1C,1),(0x20,7),(0x24,5)]

/-- The state of a witness below. -/
def st138 : State := {xon with strs:=[(3,{cmds:=[cmd0 8 33 [(0x10,0x30000),(0x18,77),(0x20,0)]]})],mem:=leM 0x30000 64 grec ++ [(0x100000,5),(0x100200,7)] ++ leM 0x110000 16 (77 + 12*2^64+1024*2^96)}

/-- The command of a witness below. -/
def va61 : Cmd := (cmd0 8 33 [(0x10,0x30000),(0x18,77),(0x20,0)])

/-- Helper of the witnesses. -/
def g0 : Gath := { idx := 8, step := 77, dims := [0], shard := 0x100000, tag := 0x110000, dst := 0x120000, bytes := 1024, job := 7, layer := 5, look := 0
                   ready := [], stage := 0, sent := false, got := [] }

/-- The state of a witness below. -/
def st139 : State := {xon with strs:=[(3,{cmds:=[cmd0 8 33 [(0x10,0x30000),(0x18,77),(0x20,0)]]})],mem:=leM 0x30000 64 grec ++ [(0x100000,5),(0x100200,7)] ++ leM 0x110000 16 (78 + 12*2^64+1024*2^96)}

/-- The state of a witness below. -/
def st140 : State := {xon with strs:=[(3,{cmds:=[cmd0 8 34 [(0x10,0x30000),(0x18,0x400000),(0x20,3),(0x24,5)]]})],mem:=leM 0x30000 48 (slotN [(0,2+1*65536),(4,0x10080),(8,0x200000),(16,1+3*65536),(20,0x20000),(24,0x300000),(32,1+65536),(36,128),(40,0)])}

/-- The command of a witness below. -/
def va62 : Cmd := (cmd0 8 34 [(0x10,0x30000),(0x18,0x400000),(0x20,3),(0x24,5)])

/-- The List Byte of a witness below. -/
def va63 : List Byte := ((leBytes 48 (slotN [(0,2+1*65536),(4,0x10080),(8,0x200000),(16,1+3*65536),(20,0x20000),(24,0x300000),(32,1+65536),(36,128),(40,0)])))

/-- The List PermEntry of a witness below. -/
def va64 : List PermEntry := [⟨2,1,0x10080,0x200000⟩,⟨1,3,0x20000,0x300000⟩,⟨1,1,128,0⟩]

/-- The state of a witness below. -/
def st141 : State := {xon with strs:=[(3,{cmds:=[cmd0 8 34 [(0x10,0x30000),(0x18,0x400000),(0x20,1),(0x24,5)]]})],mem:=leM 0x30000 16 (slotN [(0,2+1*65536),(4,0x10081),(8,0x200000)])}

/-- The command of a witness below. -/
def va65 : Cmd := (cmd0 8 34 [(0x10,0x30000),(0x18,0x400000),(0x20,1),(0x24,5)])

/-- The List Byte of a witness below. -/
def va66 : List Byte := (leBytes 16 (slotN [(0,2+1*65536),(4,0x10081),(8,0x200000)]))

/-- The state of a witness below. -/
def st266 : State := {xon with strs:=[(3,{cmds:=[cmd0 8 32 [(0x10,0x30000),(0x18,77),(0x20,1)]]})],lines:=[(0x30000/128,{present:=true,lock:=some 5})]}

/-- The hypotheses of `Obligations.CollectivesStart` are met on these states and operands, clause by clause. -/
theorem witness_CollectivesStart (h : Obligations.CollectivesStart) :
    (∃ t, exec (.exchange 0) st136 = .next t)
    ∧ (∃ t, exec (.exchange 0) st137 = .next t)
    ∧ (∃ t, exec (.gather 0) st138 = .next t)
    ∧ (∃ t, exec (.gather 0) st139 = .next t)
    ∧ (∃ t, exec (.permute 0) st140 = .next t)
    ∧ (∃ t, exec (.permute 0) st141 = .next t)
    ∧ (∃ t, exec (.exchange 0) st266 = .next t) :=
  ⟨Completes.runs ((h.2.1 st136 0 va59 (e0 [0])) (by unfold Starts; decide +kernel) (by decide +kernel) rfl rfl (by decide +kernel)),
   Completes.runs ((h.2.2.1 st137 0 va60 0x102) (by unfold Starts; decide +kernel) (by decide +kernel) rfl rfl),
   Completes.runs ((h.2.2.2.1 st138 0 va61 g0) (by unfold Starts; decide +kernel) (by decide +kernel) (by decide +kernel) (by decide +kernel) (by first | decide +kernel) (by decide +kernel) (by decide +kernel) (by decide +kernel) (by first | decide +kernel) (by decide +kernel) (by decide +kernel) (by decide +kernel)),
   Completes.runs ((h.2.2.2.2.1 st139 0 va61 g0) (by unfold Starts; decide +kernel) (by decide +kernel) (by decide +kernel) (by decide +kernel) (by first | decide +kernel) (by decide +kernel) (by decide +kernel) (by decide +kernel) (by first | decide +kernel) (by decide +kernel)),
   Completes.runs (h.2.2.2.2.2.1 st140 0 va62 va63 va64 (by unfold Starts; decide +kernel) (by decide +kernel) (by decide +kernel) (by decide +kernel) (by first | decide +kernel) (by decide +kernel) (by decide +kernel) (by decide +kernel)),
   Completes.runs ((h.2.2.2.2.2.2.1 st141 0 va65 va66) (by unfold Starts; decide +kernel) (by decide +kernel) rfl rfl rfl),
   Completes.runs ((h.2.2.2.2.2.2.2 .exchange 0x20 (by decide) st266 0 va59) (by unfold Starts; decide +kernel) rfl)⟩

/-- Helper of the witnesses. -/
def exchE : Exch := { e0 [0] with ready := [0, 1], bucket := 1, stgSize := 1024 }

/-- Helper of the witnesses. -/
def exchSt : State := { xon with xch := [(0, { exch := some exchE })], mem := leM 0x100000 8 0xC12000003F800000 ++ [(0x1003FF, 0x80)] }

/-- Helper of the witnesses. -/
theorem stagePlace_exch : exchSt.stagePlace exchE exchE.bucket = 0x120000 := by
  unfold State.stagePlace
  rw [show exchE.stgSize + 1 - 1024 * exchE.bucket = 1 by decide, Nat.mod_one]
  decide

/-- Helper of the witnesses. -/
def j0 : XJob := {bucket:=0,stage:=0,first:=0,n:=8,vals:=(List.range 8).map (fun i => ({held:=none,vals:=(List.range 256).map (fun n => ((0x3F800000+n*1000*(i+1) : Nat) : Int))} : BlockVals)),exps:=[128,129,0,127,130,131,132,133],passed:=[],agreed:=[],q:=[],sums:=[],carried:=[],okHalf:=[],res:=[],clean:=[]}

/-- The state of a witness below. -/
def st143 : State := {xon with inTxn:=[⟨1,{op:=7,dst:=1,src:=0,part:=0,tp3:=false,pa:=1+0*16+0*64+0*256+0*2^20,bytes:=([BitVec.ofNat 8 131]).length,tag:=0,code:=0,data:=[BitVec.ofNat 8 131]},none⟩],xch:=[(0,{exch:=some {e0 [0] with ready:=[0,1],next:=1,jobs:=[j0]}})]}

/-- The transaction of a witness below. -/
def va67 : InTxn := ⟨1,{op:=7,dst:=1,src:=0,part:=0,tp3:=false,pa:=1+0*16+0*64+0*256+0*2^20,bytes:=([BitVec.ofNat 8 131]).length,tag:=0,code:=0,data:=[BitVec.ofNat 8 131]},none⟩

/-- The Exch of a witness below. -/
def va68 : Exch := {e0 [0] with ready:=[0,1],next:=1,jobs:=[j0]}

/-- Helper of the witnesses. -/
def j1 : XJob := {j0 with agreed:=(List.range 8).map (fun i => (i,some (130+i))),q:=(List.range 8).map (fun i => (i,(List.range 256).map (fun n => ((n*i*7 : Nat) : Int) - 300)))}

/-- The state of a witness below. -/
def st144 : State := {xon with inTxn:=[⟨1,{op:=7,dst:=1,src:=0,part:=0,tp3:=false,pa:=2+0*16+0*64+0*256+0*2^20,bytes:=((((List.range 256).map (fun n => leBytes 2 (n*200))).flatten)).length,tag:=0,code:=0,data:=(((List.range 256).map (fun n => leBytes 2 (n*200))).flatten)},none⟩],xch:=[(0,{exch:=some {e0 [0] with ready:=[0,1],next:=1,jobs:=[j1]}})]}

/-- The transaction of a witness below. -/
def va69 : InTxn := ⟨1,{op:=7,dst:=1,src:=0,part:=0,tp3:=false,pa:=2+0*16+0*64+0*256+0*2^20,bytes:=((((List.range 256).map (fun n => leBytes 2 (n*200))).flatten)).length,tag:=0,code:=0,data:=(((List.range 256).map (fun n => leBytes 2 (n*200))).flatten)},none⟩

/-- The Exch of a witness below. -/
def va70 : Exch := {e0 [0] with ready:=[0,1],next:=1,jobs:=[j1]}

/-- The state of a witness below. -/
def st145 : State := {xon with inTxn:=[⟨1,{op:=7,dst:=1,src:=0,part:=0,tp3:=false,pa:=3+0*16+0*64+0*256+0*2^20,bytes:=((leBytes 8 0x8234567812345678)).length,tag:=0,code:=0,data:=(leBytes 8 0x8234567812345678)},none⟩],xch:=[(0,{exch:=some {e0 [0] with ready:=[0,1],next:=1,jobs:=[j1]}})]}

/-- The transaction of a witness below. -/
def va71 : InTxn := ⟨1,{op:=7,dst:=1,src:=0,part:=0,tp3:=false,pa:=3+0*16+0*64+0*256+0*2^20,bytes:=((leBytes 8 0x8234567812345678)).length,tag:=0,code:=0,data:=(leBytes 8 0x8234567812345678)},none⟩

/-- The state of a witness below. -/
def st146 : State := {xon with inTxn:=[⟨1,{op:=7,dst:=1,src:=0,part:=0,tp3:=false,pa:=4+0*16+0*64+0*256+0*2^20,bytes:=((leBytes 16 0)).length,tag:=0,code:=0,data:=(leBytes 16 0)},none⟩],xch:=[(0,{exch:=some {e0 [0] with ready:=[0,1],next:=1,jobs:=[j1]}})]}

/-- The transaction of a witness below. -/
def va72 : InTxn := ⟨1,{op:=7,dst:=1,src:=0,part:=0,tp3:=false,pa:=4+0*16+0*64+0*256+0*2^20,bytes:=((leBytes 16 0)).length,tag:=0,code:=0,data:=(leBytes 16 0)},none⟩

/-- The state of a witness below. -/
def st267 : State := {xon with xch:=[(0,{exch:=some {e0 [0] with ready:=[0,1]}})],lines:=[(0x100400/128,{present:=true,lock:=some 5})]}

/-- The hypotheses of `Obligations.ExchangeStages` are met on these states and operands, clause by clause. -/
theorem witness_ExchangeStages (h : Obligations.ExchangeStages) :
    (∃ t, exec (.bucketStageStart 0 exchE.next) exchSt = .next t)
    ∧ (∃ t, exec (.exponent 0) st143 = .next t)
    ∧ (∃ t, exec (.data 0) st144 = .next t)
    ∧ (∃ t, exec (.checksum 0) st145 = .next t)
    ∧ (∃ t, exec (.verdict 0) st146 = .next t)
    ∧ (∃ t, exec (.bucketStageStart 0 ({ e0 [0] with ready := [0, 1] } : Exch).next) st267 = .next t) :=
  ⟨Completes.runs (h.1 exchSt 0 exchE 0 (by decide +kernel) (by decide +kernel) (by decide +kernel) (by first | decide +kernel) (by decide +kernel) (by decide +kernel) (by decide +kernel) (by first | decide +kernel) (by decide +kernel) (by decide +kernel) (fun _ => (by rw [stagePlace_exch]; decide +kernel)) (by decide +kernel)),
   Completes.runs (((h.2.2.1 st143 0 va67 va68 j0 0 0 0 0 0) (by unfold JobArrives ExchArrives; decide +kernel) rfl (by decide +kernel) (by decide +kernel) (by decide +kernel)).1 (by first | decide +kernel)),
   Completes.runs (((h.2.2.2.1 st144 0 va69 va70 j1 0 0 0 0 0) (by unfold JobArrives ExchArrives; decide +kernel) rfl (by decide +kernel) rfl rfl rfl rfl (by decide +kernel)).1 (by decide +kernel)),
   Completes.runs (((h.2.2.2.2.1 st145 0 va71 va70 j1 0 0 0 0 0) (by unfold JobArrives ExchArrives; decide +kernel) rfl rfl (by decide +kernel) rfl rfl rfl rfl (by decide +kernel)).1 (by decide +kernel)),
   Completes.runs (((h.2.2.2.2.2 st146 0 va72 va70 j1 0 0 0 0 0) (by unfold JobArrives ExchArrives; decide +kernel)).1 rfl rfl (by decide +kernel)),
   Completes.runs ((h.2.1 st267 0 {e0 [0] with ready:=[0,1]}) rfl (by decide +kernel) rfl rfl)⟩

/-- The state of a witness below. -/
def st147 : State := {xon with inTxn:=[⟨1,{op:=7,dst:=1,src:=0,part:=0,tp3:=false,pa:=0+0*16+0*64+0*256+0*2^20,bytes:=((leBytes 64 (State.exchReady (e0 [0])))).length,tag:=0,code:=0,data:=(leBytes 64 (State.exchReady (e0 [0])))},none⟩],xch:=[(0,{exch:=some {e0 [0] with ready:=[]}})],strs:=[(3,{cmds:=[{cmd0 8 0x20 [] with started:=true}]})]}

/-- The transaction of a witness below. -/
def va73 : InTxn := ⟨1,{op:=7,dst:=1,src:=0,part:=0,tp3:=false,pa:=0+0*16+0*64+0*256+0*2^20,bytes:=((leBytes 64 (State.exchReady (e0 [0])))).length,tag:=0,code:=0,data:=(leBytes 64 (State.exchReady (e0 [0])))},none⟩

/-- The state of a witness below. -/
def st148 : State := {xon with inTxn:=[⟨3,{op:=7,dst:=1,src:=0,part:=0,tp3:=false,pa:=0+0*16+0*64+0*256+0*2^20,bytes:=((leBytes 64 0x71)).length,tag:=0,code:=0,data:=(leBytes 64 0x71)},none⟩]}

/-- The transaction of a witness below. -/
def va74 : InTxn := ⟨3,{op:=7,dst:=1,src:=0,part:=0,tp3:=false,pa:=0+0*16+0*64+0*256+0*2^20,bytes:=((leBytes 64 0x71)).length,tag:=0,code:=0,data:=(leBytes 64 0x71)},none⟩

/-- The state of a witness below. -/
def st149 : State := {xon with inTxn:=[⟨1,{op:=7,dst:=1,src:=0,part:=0,tp3:=false,pa:=5+0*16+0*64+0*256+0*2^20,bytes:=((leBytes 16 (0x301+5*65536+2^28))).length,tag:=0,code:=0,data:=(leBytes 16 (0x301+5*65536+2^28))},none⟩],xch:=[(0,{exch:=some {e0 [0] with ready:=[]}})],strs:=[(3,{cmds:=[{cmd0 8 0x20 [] with started:=true}]})]}

/-- The transaction of a witness below. -/
def va75 : InTxn := ⟨1,{op:=7,dst:=1,src:=0,part:=0,tp3:=false,pa:=5+0*16+0*64+0*256+0*2^20,bytes:=((leBytes 16 (0x301+5*65536+2^28))).length,tag:=0,code:=0,data:=(leBytes 16 (0x301+5*65536+2^28))},none⟩

/-- The state of a witness below. -/
def st150 : State := {xon with xch:=[(0,{exch:=some {e0 [0] with ready:=[]}})],strs:=[(3,{cmds:=[{cmd0 8 0x20 [] with started:=true}]})]}

/-- The state of a witness below. -/
def st151 : State := {xon with inTxn:=[⟨1,{op:=7,dst:=1,src:=0,part:=0,tp3:=false,pa:=6+0*16+0*64+0*256+0*2^20,bytes:=((State.tupleBytes ⟨0x3FF0000000000000,0x4000000000000000,3,false⟩)).length,tag:=0,code:=0,data:=(State.tupleBytes ⟨0x3FF0000000000000,0x4000000000000000,3,false⟩)},none⟩],xch:=[(0,{exch:=some {e0 [0] with ready:=[0,1],record:=none,closing:=some ⟨0,⟨0x3FF0000000000000,0x4000000000000000,3,false⟩,[]⟩,fin:=[(0,some ⟨some 130,(List.range 256).map (fun n => (n:Int)-5)⟩),(1,some ⟨some 255,(List.range 256).map (fun n => (n:Int)-5)⟩),(2,some ⟨some 130,(List.range 256).map (fun n => 5)⟩),(3,some ⟨some 131,(List.range 256).map (fun n => 1)⟩)]}})],strs:=[(3,{cmds:=[{cmd0 8 0x20 [] with started:=true}]})]}

/-- The transaction of a witness below. -/
def va76 : InTxn := ⟨1,{op:=7,dst:=1,src:=0,part:=0,tp3:=false,pa:=6+0*16+0*64+0*256+0*2^20,bytes:=((State.tupleBytes ⟨0x3FF0000000000000,0x4000000000000000,3,false⟩)).length,tag:=0,code:=0,data:=(State.tupleBytes ⟨0x3FF0000000000000,0x4000000000000000,3,false⟩)},none⟩

/-- The Exch of a witness below. -/
def va77 : Exch := {e0 [0] with ready:=[0,1],record:=none,closing:=some ⟨0,⟨0x3FF0000000000000,0x4000000000000000,3,false⟩,[]⟩,fin:=[(0,some ⟨some 130,(List.range 256).map (fun n => (n:Int)-5)⟩),(1,some ⟨some 255,(List.range 256).map (fun n => (n:Int)-5)⟩),(2,some ⟨some 130,(List.range 256).map (fun n => 5)⟩),(3,some ⟨some 131,(List.range 256).map (fun n => 1)⟩)]}

/-- The XClose of a witness below. -/
def va78 : XClose := ⟨0,⟨0x3FF0000000000000,0x4000000000000000,3,false⟩,[]⟩

/-- The hypotheses of `Obligations.ExchangeEnds` are met on these states and operands, clause by clause. -/
theorem witness_ExchangeEnds (h : Obligations.ExchangeEnds) :
    (∃ t, exec (.ready 0) st147 = .next t)
    ∧ (∃ t, exec (.ready 0) st148 = .next t)
    ∧ (∃ t, exec (.abort 0) st149 = .next t)
    ∧ (∃ t, exec (.xchTimeout 0 8 1) st150 = .next t)
    ∧ (∃ t, exec (.close 0) st151 = .next t) :=
  ⟨Completes.runs (((h.1 st147 0 va73 {e0 [0] with ready:=[]}) (by unfold ExchArrives; decide +kernel) (by decide +kernel) (by decide +kernel) rfl).1 rfl (by decide +kernel)),
   Completes.runs ((h.2.1 st148 0 va74) rfl rfl (by decide +kernel) rfl (by decide +kernel)),
   Completes.runs ((h.2.2.1 st149 0 va75 {e0 [0] with ready:=[]}) (by unfold ExchArrives; decide +kernel) rfl (by decide +kernel) (by decide +kernel)),
   Completes.runs ((h.2.2.2.1 st150 0 8 1 {e0 [0] with ready:=[]}) rfl rfl (by decide +kernel) (by decide +kernel)),
   Completes.runs (((h.2.2.2.2 st151 0 va76 va77 va78) (by unfold ExchArrives; decide +kernel) rfl rfl (by decide +kernel)).1 (by decide +kernel) (by decide +kernel))⟩

/-- Helper of the witnesses. -/
def gathTxn : InTxn := ⟨0, { op := 7, dst := 1, src := 0, part := 0, tp3 := false, pa := 7 + 1 * 16 + 1 * 64 + 2 * 256 + 1 * 2 ^ 20, bytes := 512, tag := 0, code := 0
                             data := (List.range 512).map (BitVec.ofNat 8) }, none⟩

/-- Helper of the witnesses. -/
def gathSt : State := { xon with inTxn := [gathTxn], xch := [(0, { gathers := [{ g0 with ready := [1], dims := [0] }] })] }

/-- The state of a witness below. -/
def st153 : State := {xon with xch:=[(0,{perm:=some {idx:=8,scratch:=0x400000,table:=[⟨2,1,0x10080,0x200000⟩,⟨1,3,0x20000,0x300000⟩,⟨1,1,128,0⟩],issued:=[(1,1)],told:=[],committed:=[],done:=3}})],mem:=leM 0x400018 8 1}

/-- The Perm of a witness below. -/
def va80 : Perm := {idx:=8,scratch:=0x400000,table:=[⟨2,1,0x10080,0x200000⟩,⟨1,3,0x20000,0x300000⟩,⟨1,1,128,0⟩],issued:=[(1,1)],told:=[],committed:=[],done:=3}

/-- The state of a witness below. -/
def st154 : State := {xon with xch:=[(0,{perm:=some {idx:=8,scratch:=0x400000,table:=[⟨2,1,0x10080,0x200000⟩,⟨1,3,0x20000,0x300000⟩,⟨1,1,128,0⟩],issued:=[],told:=[],committed:=[],done:=3}})],mem:=[(0x400000,1),(0x410000,9),(0x41FFFF,8)]}

/-- The Perm of a witness below. -/
def va81 : Perm := {idx:=8,scratch:=0x400000,table:=[⟨2,1,0x10080,0x200000⟩,⟨1,3,0x20000,0x300000⟩,⟨1,1,128,0⟩],issued:=[],told:=[],committed:=[],done:=3}

/-- Helper of the witnesses. -/
theorem poisonedAt_clean {s : State} {lpa : Nat} (hl : s.lines = []) (hp : s.poison = []) (h : lpa < 0x9000000000) : s.poisonedAt lpa = false := by
  have hq : place lpa = .hbm := if_pos h
  unfold State.poisonedAt State.cxlDown State.line
  rw [hq, hl, hp]
  rfl

/-- Helper of the witnesses. -/
theorem or_low {r i : Nat} (hr : r < 0x900000) (hi : i < 65536) : r <<< 16 ||| i < 0x9000000000 := by
  rw [← Nat.shiftLeft_add_eq_or_of_lt (b := i) (by omega), Nat.shiftLeft_eq]
  omega

/-- Helper of the witnesses. -/
theorem page_low {s : State} {p q r i lpa : Nat} (ht : (s.coverOf p (q <<< 16)).map (fun x => x.target + q - x.base) = some r) (hr : r < 0x900000)
    (hi : i < 65536) (h : s.translate p (q <<< 16 + i) 0 = some lpa) : lpa < 0x9000000000 := by
  have hs : (q <<< 16 + i) >>> 16 = q := by simp only [Nat.shiftRight_eq_div_pow, Nat.shiftLeft_eq]; omega
  have hs0 : (q <<< 16) >>> 16 = q := by simp only [Nat.shiftRight_eq_div_pow, Nat.shiftLeft_eq]; omega
  have hm : (q <<< 16 + i) % 65536 = i := by simp only [Nat.shiftLeft_eq]; omega
  have hc : s.coverOf p (q <<< 16 + i) = s.coverOf p (q <<< 16) := by unfold State.coverOf; rw [hs, hs0]
  unfold State.translate at h
  rw [hs, hm, hc] at h
  split at h
  · cases h
  · cases hx : s.coverOf p (q <<< 16) with
    | none => rw [hx] at h; cases h
    | some x =>
      rw [hx] at h ht
      dsimp only at h
      split at h
      · rw [← Option.some.inj h, show x.target + q - x.base = r from Option.some.inj ht]
        exact or_low hr hi
      · cases h

/-- Helper of the witnesses. -/
theorem poisonedPa_clean {s : State} {p q r : Nat} (hl : s.lines = []) (hp : s.poison = [])
    (ht : (s.coverOf p (q <<< 16)).map (fun x => x.target + q - x.base) = some r) (hr : r < 0x900000) :
    s.poisonedPa p (q <<< 16) 65536 = false := by
  unfold State.poisonedPa
  rw [List.any_eq_false]
  intro i hi
  split
  · next lpa h =>
    rw [poisonedAt_clean hl hp (page_low ht hr (List.mem_range.1 hi) h)]
    decide
  · decide

/-- Helper of the witnesses. -/
theorem contested_perm (a : Nat) : contested va81 ⟨2, 1, 0x10080, 0x200000⟩ a = false := by
  have h1 : ∀ q : PermEntry → Bool, (va81.table.filter (fun y => y.dst == 1 && (y.src != y.dst && q y))).length ≤ 1 := by
    intro q
    calc _ ≤ (va81.table.filter (fun y => y.dst == 1 && y.src != y.dst)).length := by
          rw [← List.countP_eq_length_filter, ← List.countP_eq_length_filter]
          exact List.countP_mono_left fun y _ h => by simp only [Bool.and_eq_true] at h ⊢; exact ⟨h.1, h.2.1⟩
      _ = 1 := by decide +kernel
  have h2 : ∀ q : PermEntry → Bool, (va81.table.filter (fun y => y.src == 2 && q y)).length ≤ 1 := by
    intro q
    calc _ ≤ (va81.table.filter (fun y => y.src == 2)).length := by
          rw [← List.countP_eq_length_filter, ← List.countP_eq_length_filter]
          exact List.countP_mono_left fun y _ h => by simp only [Bool.and_eq_true] at h ⊢; exact h.1
      _ = 1 := by decide +kernel
  unfold contested
  simp only [Bool.or_eq_false_iff, decide_eq_false_iff_not, Nat.not_lt, Bool.and_assoc]
  exact ⟨h1 _, h2 _⟩

/-- The hypotheses of `Obligations.GatherAndPermuteMove` are met on these states and operands, clause by clause. -/
theorem witness_GatherAndPermuteMove (h : Obligations.GatherAndPermuteMove) :
    (∃ t, exec (.gatherData 0) gathSt = .next t)
    ∧ (∃ t, exec (.permuteChunkSend 0 1) st153 = .next t)
    ∧ (∃ t, exec (.permuteChunkCommit 0 0) st154 = .next t) :=
  ⟨Completes.runs (h.1 gathSt 0 1 1 2 1 0 gathTxn { g0 with ready := [1], dims := [0] } (by decide +kernel) (by decide +kernel) (by decide +kernel) (by first | decide +kernel) (by decide +kernel) (by decide +kernel) (by decide +kernel) (by first | decide +kernel) (by decide +kernel) (by decide +kernel) (by decide +kernel) (by first | decide +kernel) (by decide +kernel) (by decide +kernel)),
   Completes.runs (((h.2.1 st153 0 1 va80 ⟨1,3,0x20000,0x300000⟩) rfl rfl rfl (by decide +kernel) rfl).1 (by decide +kernel)),
   Completes.runs (h.2.2 st154 0 0 va81 ⟨2,1,0x10080,0x200000⟩ (by decide +kernel) (by decide +kernel) (by decide +kernel) (by first | decide +kernel) (by decide +kernel) (by decide +kernel) (by decide +kernel) (by first | decide +kernel) (by decide +kernel) (by decide +kernel) (by decide +kernel) (by first | decide +kernel) (by refine Eq.trans (congrArg₂ (State.poisonedPa st154 0) ?_ ?_) (poisonedPa_clean (q := 0x41) (r := 0x41) rfl rfl ?_ ?_) <;> decide +kernel) contested_perm)⟩

/-- Helper of the witnesses. -/
def cfgB : List Byte := leBytes 0xC00 (2 + 2^2*1 + 8*0 |> fun x => x * 2^64 + slotN ([(0x200,1+4*2),(0x280,1)] ++ (List.range 4).map (fun n => (0x100+64*n, 2^63+2^49)) ++ (List.range 4).map (fun n => (0x108+64*n, 3*256))))

/-- Helper of the witnesses. -/
def son : State := { on with dome := { on.dome with boot := { on.dome.boot with running := { cfg := cfgB } } }, regs := [(regKey (home .pcx 0 0x10), some (2 + 0xF*2^8 + 4)), (regKey (home .pcx 1 0x10), some (1 + 4 + 256))], pkg := { on.pkg with sizes := 0x4444 } }

/-- Helper of the witnesses. -/
def srec (kind layers img blob stage area x38 : Nat) : Nat := slotN [(0,kind+16+256),(4,7),(8,0x100000),(0x10,img),(0x18,0x200000),(0x20,blob),(0x28,stage),(0x30,area),(0x38,x38),(0x3C,1),(0x40,1000),(0x48,0),(0x4C,1),(0x50,2000),(0x58,1+65536*1)]

/-- The state of a witness below. -/
def st155 : State := {son with strs:=[(3,{cmds:=[(cmd0 8 0x23 [(0x10,0x30000),(0x18,77),(0x20,2)])]})],mem:=leM 0x30000 128 (srec 0 0 256 16 0 0x300000 0)}

/-- The command of a witness below. -/
def va82 : Cmd := (cmd0 8 0x23 [(0x10,0x30000),(0x18,77),(0x20,2)])

/-- Helper of the witnesses. -/
def rsnap (l : List Nat) : SnapRec := { layers := l, dims := 1, mask := 1, job := 7, src := 0x100000, img := 256, blob := 0x200000, blobBytes := 16, capture := none, stage := 0, area := 0x300000, port := 0, link := 0, fnsid := 1, flba := 1000, target := 0, snsid := 1, slba := 2000, source := 1, partner := 1 }

/-- Helper of the witnesses. -/
def v0 : Save := { idx := 6, step := 55, r := rsnap [1], far := [], running := false, stagePoison := false, captured := false, partner := 0, entry := 0, parts := [{ layer := 1 }] }

/-- The state of a witness below. -/
def st156 : State := {son with strs:=[(3,{cmds:=[(cmd0 8 0x23 [(0x10,0x30000),(0x18,77),(0x20,2)])]})],mem:=leM 0x30000 128 (srec 0 0 256 16 0 0x300000 0),snaps:=[(0,{saves:=[v0]})]}

/-- The state of a witness below. -/
def st157 : State := {son with strs:=[(3,{cmds:=[(cmd0 8 0x23 [(0x10,0x30000),(0x18,77),(0x20,0)])]})],mem:=leM 0x30000 128 (srec 0 0 256 16 0 0x300000 0)}

/-- The command of a witness below. -/
def va83 : Cmd := (cmd0 8 0x23 [(0x10,0x30000),(0x18,77),(0x20,0)])

/-- The state of a witness below. -/
def st158 : State := {son with snaps:=[(0,{saves:=[v0]})]}

/-- The state of a witness below. -/
def st159 : State := {son with snaps:=[(0,{saves:=[{v0 with running:=true,parts:=[{layer:=1,phase:=8,res:=some .completed}]}]})],strs:=[(3,{cmds:=[{cmd0 6 0x23 [] with started:=true}]})]}

/-- The Save of a witness below. -/
def va84 : Save := {v0 with running:=true,parts:=[{layer:=1,phase:=8,res:=some .completed}]}

/-- Helper of the witnesses. -/
def fillCmd : Cmd := cmd0 8 0x23 [(0x10, 0x30000), (0x18, 77), (0x20, 1)]

/-- Helper of the witnesses. -/
def fillSt : State := { son with strs := [(3, { cmds := [fillCmd] })]
                                 mem := leM 0x30000 128 (srec 1 0 256 16 0 0x300000 0 - slotN [(0x58, 1)]) ++ leM 0x300000 64 (slotHeader 2 0 7 77 256 16 (0x05040302 + 0x11))
                                   ++ leM 0x301000 8 0x05040302 ++ [(0x302010, 0x11)] }

/-- Helper of the witnesses. -/
def fillSt2 : State := { fillSt with mem := leM 0x30000 128 (srec 1 0 256 16 0 0x300000 0 - slotN [(0x58, 1)]) ++ leM 0x300000 64 (slotHeader 2 0 7 78 256 16 5) }

/-- Helper of the witnesses. -/
def fillRec : SnapRec := { rsnap [0] with source := 0 }

/-- The hypotheses of `Obligations.Snapshots` are met on these states and operands, clause by clause. -/
theorem witness_Snapshots (h : Obligations.Snapshots) :
    (∃ t, exec (.snapshotSave 0 []) st155 = .next t)
    ∧ (∃ t, exec (.snapshotSave 0 []) st156 = .next t)
    ∧ (∃ t, exec (.snapshotSave 0 []) st157 = .next t)
    ∧ (∃ t, exec (.snapshotQueuedStart 0) st158 = .next t)
    ∧ (∃ t, exec (.snapshotLayerEnd 0 6 1) st159 = .next t)
    ∧ ((∃ t, exec (.snapshotFill 0) fillSt = .next t) ∧ (∃ t, exec (.snapshotFill 0) fillSt2 = .next t)) :=
  ⟨Completes.runs ((h.2.1 st155 0 va82 {rsnap [1] with partner:=1} []) (by unfold Starts; decide +kernel) rfl rfl (by decide +kernel)),
   Completes.runs ((h.2.2.1 st156 0 va82 {rsnap [1] with partner:=1} [] v0) (by unfold Starts; decide +kernel) rfl rfl (by decide +kernel) rfl rfl rfl),
   Completes.runs (((h.2.2.2.1 st157 0 va83 [] 0x102) (by unfold Starts; decide +kernel) rfl).1),
   Completes.runs ((h.2.2.2.2.1 st158 0 v0) rfl rfl rfl rfl (by decide +kernel)),
   Completes.runs ((h.2.2.2.2.2.1 st159 0 6 1 va84 {layer:=1,phase:=8,res:=some .completed} {cmd0 6 0x23 [] with started:=true} .completed 0) rfl rfl rfl rfl rfl rfl rfl (by decide +kernel) rfl rfl rfl rfl),
   ⟨Completes.runs ((h.2.2.2.2.2.2 fillSt 0 fillCmd fillRec ⟨(by unfold Starts; decide +kernel), (by decide +kernel)⟩ (by decide +kernel) (by decide +kernel) (by first | decide +kernel) (by decide +kernel) (by decide +kernel) (by decide +kernel) (by first | decide +kernel) (by decide +kernel) (by decide +kernel) (by decide +kernel)).1 (by first | decide +kernel) (by decide +kernel) (by decide +kernel) (by decide +kernel) (by first | decide +kernel) (by decide +kernel) (by decide +kernel) (by decide +kernel)), Completes.runs ((h.2.2.2.2.2.2 fillSt2 0 fillCmd fillRec ⟨(by unfold Starts; decide +kernel), (by first | decide +kernel)⟩ (by decide +kernel) (by decide +kernel) (by decide +kernel) (by first | decide +kernel) (by decide +kernel) (by decide +kernel) (by decide +kernel) (by first | decide +kernel) (by decide +kernel) (by decide +kernel)).2 (by decide +kernel) (by first | decide +kernel))⟩⟩

/-- Helper of the witnesses. -/
def ethCfg : List Byte := leBytes 0xC00 (2 + 2^2*1 + 8*0 |> fun x => x * 2^64 + slotN ([(0x200,1+4*2),(0x280,1)] ++ (List.range 4).map (fun n => (0x100+64*n, 2^63+2^50+2^49+0x123*2^51+0x020000000009+n)) ++ (List.range 4).map (fun n => (0x108+64*n, 5*256+0x2E)) ++ (List.range 4).map (fun n => (0x110+64*n, 0x11223344)) ++ (List.range 4).map (fun n => (0x120+64*n, 5)) ++ (List.range 4).map (fun n => (0x128+64*n, 0x20010DB800000000))))

/-- Helper of the witnesses. -/
def eth1 : State := { son with
  dome := { son.dome with boot := { son.dome.boot with running := { cfg := ethCfg } } }
  eth := [(1,{up:=true})]
  qps := [(9,{conn:=true,port:=1,kind:=1}),(12,{conn:=true,port:=2,kind:=1}),(13,{wait:=true,kind:=3,port:=1,target:=0}),(14,{conn:=true,kind:=2,port:=1,target:=0})]
  regs := son.regs ++ [(regKey (pages .eth 0 0 0x14),some 0x1234)]
  lines := [(0x20000/128,full)] }

/-- The state of a witness below. -/
def st161 : State := (((State.allocQp eth1 0).getD (0,on)).2)

/-- The state of a witness below. -/
def st162 : State := {eth1 with stores:=[(0,{admin:=14,io:=13})]}

/-- The state of a witness below. -/
def st163 : State := {eth1 with qps:=[(9,{conn:=true,port:=1,kind:=0}),(12,{conn:=true,port:=2,kind:=1})]}

/-- The hypotheses of `Obligations.EthernetPorts` are met on these states and operands, clause by clause. -/
theorem witness_EthernetPorts (h : Obligations.EthernetPorts) :
    (∃ t, exec (.ethControlFrame 1 0 { vlan := some 291, asked := 287454020, data := [5, 6] }) eth1 = .next t)
    ∧ (∃ t, exec (.cmReq 1 5645627514366722064 { qp := 77, mtu := 1 }) eth1 = .next t)
    ∧ (∃ t, exec (.cmReq 1 5645627514366722080 { qp := 77, mtu := 0 }) eth1 = .next t)
    ∧ (∃ t, exec (.cmDreq 9) eth1 = .next t)
    ∧ (∃ t, exec (.cmRep 13 5) eth1 = .next t)
    ∧ (∃ t, exec (.cmRej 13) st162 = .next t)
    ∧ (∃ t, exec (.roceSend 9 (BitVec.ofNat 2048 (3 + 5 * 65536)) false) st163 = .next t)
    ∧ (∃ t, exec ((fun n rkey va l => .rdmaWrite n rkey va l false) 9 4660 131089 [5, 6, 7, 8]) eth1 = .next t)
    ∧ (∃ t, exec ((fun n rkey va l => .rdmaWriteWithImmediate n rkey va l 5 false) 9 4660 131089 [5, 6, 7, 8]) eth1 = .next t)
    ∧ (∃ t, exec (.rdmaRead 9 4660 131089 13 false) eth1 = .next t) :=
  ⟨Completes.runs ((h.1 eth1 1 0 (some 0x123) 0x11223344 [5,6]) rfl),
   Completes.runs ((h.2.1 eth1 st161 1 0x4E594C5000000010 77 1 0 1 (((State.allocQp eth1 0).getD (0,on)).1)) rfl rfl rfl (by decide +kernel) rfl (by decide +kernel) rfl),
   Completes.runs ((h.2.2.1 eth1 1 0x4E594C5000000020 77 0) rfl (Or.inl (by decide +kernel))),
   Completes.runs (((h.2.2.2.1 eth1 9) rfl).1),
   Completes.runs ((h.2.2.2.2.1 eth1 13 5) rfl rfl),
   Completes.runs ((h.2.2.2.2.2.1 st162 13) rfl rfl),
   Completes.runs (((h.2.2.2.2.2.2.1 st163 9 (BitVec.ofNat 2048 (3+5*65536))) (by decide +kernel)).1 rfl (by decide +kernel) (by decide +kernel) rfl),
   Completes.runs ((h.2.2.2.2.2.2.2.1.1 eth1 9 0x20011 0x1234 0x20011 [5,6,7,8]) (by decide +kernel) rfl),
   Completes.runs (((h.2.2.2.2.2.2.2.2.1 5).1 eth1 9 0x20011 0x1234 0x20011 [5,6,7,8]) (by decide +kernel) rfl),
   Completes.runs ((h.2.2.2.2.2.2.2.2.2.1 eth1 9 0x20011 0x1234 13 0x20011) (by decide +kernel) rfl rfl)⟩

/-- The state of a witness below. -/
def st164 : State := {eth1 with eth:=[(1,{up:=true,paused:=true,acc:=5,tx:=[⟨0,9,0,.roce 9 none⟩,⟨1,9,100,.roce 9 (some 1)⟩]})]}

/-- The state of a witness below. -/
def st268 : State := {eth1 with lines:=[(0x20000/128,{full with lock:=some 5})]}

/-- More clauses of the same statement. -/
theorem witness_EthernetPorts_2 (h : Obligations.EthernetPorts) :
    (∃ t, exec (.atomicVerb { qp := 9, ce := false }) eth1 = .next t)
    ∧ (∃ t, exec (.cnp 9) eth1 = .next t)
    ∧ (∃ t, exec (.cnpEpoch) eth1 = .next t)
    ∧ (∃ t, exec (.pfcPause 1 5 7) eth1 = .next t)
    ∧ (∃ t, exec (.pfcPauseEnd 1) st164 = .next t)
    ∧ (∃ t, exec (.ethLinkDown 1) eth1 = .next t)
    ∧ (∃ t, exec ((fun n rkey va l => .rdmaWrite n rkey va l false) 9 4660 131089 [5, 6, 7, 8]) st268 = .next t)
    ∧ (∃ t, exec ((fun n rkey va l => .rdmaWrite n rkey va l false) 9 4661 131089 [5, 6, 7, 8]) eth1 = .next t) :=
  ⟨Completes.runs (((h.2.2.2.2.2.2.2.2.2.2.1 eth1 9) (by decide +kernel)).1),
   Completes.runs (((h.2.2.2.2.2.2.2.2.2.2.2.1 eth1 9 0)).1 rfl),
   Completes.runs ((h.2.2.2.2.2.2.2.2.2.2.2.2.1 eth1) rfl),
   Completes.runs ((h.2.2.2.2.2.2.2.2.2.2.2.2.2.1 eth1 1 5 7) rfl rfl),
   Completes.runs (h.2.2.2.2.2.2.2.2.2.2.2.2.2.2.1 st164 1),
   Completes.runs (((h.2.2.2.2.2.2.2.2.2.2.2.2.2.2.2 eth1 1) rfl).1 rfl),
   Completes.runs ((h.2.2.2.2.2.2.2.1.2.1 st268 9 0x1234 0x20011 [5,6,7,8]) (by decide +kernel) rfl (by decide +kernel) (by decide +kernel) rfl),
   Completes.runs ((h.2.2.2.2.2.2.2.1.2.2 eth1 9 0x1235 0x20011 [5,6,7,8]) (by decide +kernel) (by decide +kernel) (by decide +kernel) (by first | decide +kernel))⟩

/-- The state of a witness below. -/
def st165 : State := {son with snaps:=[(0,{saves:=[{v0 with running:=true,r:=rsnap [1],parts:=[{layer:=1,phase:=6,busy:=true,sum:=0x1234}]}]})]}

/-- The Save of a witness below. -/
def va86 : Save := {v0 with running:=true,r:=rsnap [1],parts:=[{layer:=1,phase:=6,busy:=true,sum:=0x1234}]}

/-- The SaveLayer of a witness below. -/
def va87 : SaveLayer := {layer:=1,phase:=6,busy:=true,sum:=0x1234}

/-- The state of a witness below. -/
def st166 : State := {son with regs:=[(regKey (home .pcx 0 0x10), some (2 + 0xE*2^8 + 4))],dome:={son.dome with boot:={son.dome.boot with running:={cfg:=leBytes 0x10 (2^64*(2+2*2^8))}}}}

/-- The state of a witness below. -/
def st167 : State := {son with regs:=[(regKey (home .pcx 1 0x10), some (1 + 1*(4 + 256)))],lines:=[(0x20000/128,full),((0x10000000000+0x20000000000)/128,{full with dirty:=1}),((0x10000000000+0x20000000080)/128,full),(0x10000000000/128,{full with dirty:=1})]}

/-- The state of a witness below. -/
def st168 : State := {son with regs:=[(regKey (home .pcx 1 0x10), some (1 + 0*(4 + 256)))],lines:=[(0x20000/128,full),((0x10000000000+0x20000000000)/128,{full with dirty:=1}),((0x10000000000+0x20000000080)/128,full),(0x10000000000/128,{full with dirty:=1})]}

/-- The state of a witness below. -/
def st169 : State := {son with regs:=[(regKey (home .pcx 1 0x10), some (1 ))]}

/-- The state of a witness below. -/
def st269 : State := {son with snaps:=[(0,{saves:=[{v0 with running:=true,r:=rsnap [1],parts:=[{layer:=1,phase:=4,busy:=true,sum:=0x1234}]}]})],lines:=[(0x200000/128,{present:=true,lock:=some 5}),(0x100000/128,{present:=true,lock:=some 5})]}

/-- The state of a witness below. -/
def st270 : State := {son with snaps:=[(0,{saves:=[{v0 with running:=true,r:=rsnap [2],parts:=[{layer:=2,phase:=6,busy:=true,sum:=0x1234}]}]})],stores:=[(0,{io:=13})],eth:=[(1,{up:=true})],qps:=[(13,{conn:=true,kind:=3,port:=1,target:=0})]}

/-- The Save of a witness below. -/
def va111 : Save := {v0 with running:=true,r:=rsnap [2],parts:=[{layer:=2,phase:=6,busy:=true,sum:=0x1234}]}

/-- The SaveLayer of a witness below. -/
def va112 : SaveLayer := {layer:=2,phase:=6,busy:=true,sum:=0x1234}

/-- The hypotheses of `Obligations.DrivesAndMemoryLinks` are met on these states and operands, clause by clause. -/
theorem witness_DrivesAndMemoryLinks (h : Obligations.DrivesAndMemoryLinks) :
    (∃ t, exec (.nvmeCompletion 0 0 131 [5]) st165 = .next t)
    ∧ (∃ t, exec (.nvmeTimeout 0 0) st165 = .next t)
    ∧ (∃ t, exec (.pcieLinkDown 0 0) st165 = .next t)
    ∧ (∃ t, exec (.pcieLinkRetrain 0 0) st166 = .next t)
    ∧ (∃ t, exec (.cxlLinkDown 1) st167 = .next t)
    ∧ (∃ t, exec (.cxlRetrain 1 true) st168 = .next t)
    ∧ (∃ t, exec (.cxlRetrain 1 false) st169 = .next t)
    ∧ (∃ t, exec (.nvmeCompletion 0 0 0 [5]) st165 = .next t)
    ∧ (∃ t, exec (.nvmeCompletion 0 0 0 [5]) st269 = .next t)
    ∧ (∃ t, exec (.storeResponseCapsule 13 0 { data := [5], ce := false }) st270 = .next t) :=
  ⟨Completes.runs (((h.1.1 st165 0 0 va86 va87 (by decide +kernel)).2.1 0x83 [5]) (by decide +kernel)),
   Completes.runs ((h.1.1 st165 0 0 va86 va87 (by decide +kernel)).2.2.1),
   Completes.runs (((h.1.1 st165 0 0 va86 va87 (by decide +kernel)).2.2.2) rfl rfl),
   Completes.runs (h.2.1 st166 0 0 (by decide +kernel) (by decide +kernel) (by decide +kernel) (by first | decide +kernel)),
   Completes.runs ((h.2.2 st167 1 (by decide +kernel)).1 (by decide +kernel)),
   Completes.runs ((h.2.2 st168 1 (by decide +kernel)).2.1 (by decide +kernel) (by decide +kernel)),
   Completes.runs ((h.2.2 st169 1 rfl).2.2),
   Completes.runs ((h.1.1 st165 0 0 va86 va87 (by decide +kernel)).1 rfl rfl rfl [5]),
   Completes.runs ((h.1.2.1 st269 0 0 0 [5]) rfl),
   Completes.runs ((h.1.2.2.1 st270 13 va111 va112 rfl rfl rfl (by decide +kernel) (by decide +kernel)).1 rfl rfl rfl [5])⟩

/-- The state of a witness below. -/
def st271 : State := {son with snaps:=[(0,{saves:=[{v0 with running:=true,r:=rsnap [2],parts:=[{layer:=2,phase:=6,busy:=true,sum:=0x1234}]}]})]}

/-- More clauses of the same statement. -/
theorem witness_DrivesAndMemoryLinks_2 (h : Obligations.DrivesAndMemoryLinks) :
    (∃ t, exec (.storeResponseCapsule 13 131 { data := [5], ce := false }) st270 = .next t)
    ∧ (∃ t, exec (.storeTimeout 0 0) st271 = .next t) :=
  ⟨Completes.runs (((h.1.2.2.1 st270 13 va111 va112 rfl rfl rfl (by decide +kernel) (by decide +kernel)).2 0x83 [5]) (by decide +kernel)),
   Completes.runs ((h.1.2.2.2 st271 0 0 va111 va112) (by decide +kernel))⟩

/-- The state of a witness below. -/
def st170 : State := {son with regs:=(List.range 4).map (fun p => (regKey (State.shareReg p 0), some (10*(p+1) + 2^8*0)))}

/-- The state of a witness below. -/
def st171 : State := {son with poison:=[(0x20000/32,true),(0x20080/32+1,true),(0x20080/32+9,true)]}

/-- The state of a witness below. -/
def st272 : State := {son with pkg:={son.pkg with layout:=2},regs:=(List.range 4).map (fun p => (regKey (State.shareReg p 1), some (10*(p+1) + 2^8*0))),lines:=(List.range 20).map (fun i => (i*192*7+0x400,{full with owner:=i%2,born:=50-i}))}

/-- The state of a witness below. -/
def st273 : State := {son with slices:=(List.range 192).map (fun i => (i,{targets:=[0,0,0,0],shedding:=false}))}

/-- The state of a witness below. -/
def st294 : State := {son with regs:=(List.range 4).map (fun p => (regKey (State.shareReg p 0), some (10*(p+1) + 2^8*5))),dome:={son.dome with changes:=[{part:=1,res:=0,req:=⟨1,3,5,0,0,0⟩,value:=77,points:=[3]}]}}

/-- The state of a witness below. -/
def st295 : State := {son with regs:=(List.range 4).map (fun p => (regKey (State.shareReg p 1), some (10*(p+1) + 2^8*5))),slices:=[(3,{missed:=5})],dome:={son.dome with changes:=[{part:=1,res:=1,req:=⟨1,3,5,0,0,0⟩,value:=77,points:=[3]}]}}

/-- The hypotheses of `Obligations.SharesAndScrub` are met on these states and operands, clause by clause. -/
theorem witness_SharesAndScrub (h : Obligations.SharesAndScrub) :
    (∃ t, exec (.arbitrationRound 0 5 100 7 9 1000) st170 = .next t)
    ∧ (∃ t, exec (.arbitrationRound 1 5 1 2 3 4) son = .next t)
    ∧ (∃ t, exec (.patrolScrub 131264 { corr := 0, uncorr := 0 }) st171 = .next t)
    ∧ (∃ t, exec (.l2ShareRecompute (Fin.ofNat 192 (s0.sliceOf (1024 * 128)).1)) st272 = .next t)
    ∧ (∃ t, exec (.l2Shed 3) st273 = .next t)
    ∧ (∃ t, exec (.arbitrationRound 0 3 1 1 1 1) st294 = .next t)
    ∧ (∃ t, exec (.l2ShareRecompute 3) st295 = .next t)
    ∧ (∃ t, exec (.patrolScrub 618475290624 { corr := 1, uncorr := 2 }) son = .next t) :=
  ⟨Completes.runs (((h.1.1 st170 0 5 100 7 9 1000 (by decide +kernel)).2.1) (by decide +kernel)),
   Completes.runs ((h.1.2.1 son 1 5 1 2 3 4) (by decide +kernel)),
   Completes.runs (((h.2 st171 0x200C0 ⟨0,0⟩).2) rfl rfl),
   Completes.runs (((h.1.2.2.1 st272 (Fin.ofNat _ (s0.sliceOf (0x400*128)).1)).2.1) (by decide +kernel)),
   Completes.runs ((h.1.2.2.2 st273 3 |>.1) rfl),
   Completes.runs (((h.1.1 st294 0 3 1 1 1 1 (by decide +kernel)).2.2 {part:=1,res:=0,req:=⟨1,3,5,0,0,0⟩,value:=77,points:=[3]}) rfl rfl rfl),
   Completes.runs (((h.1.2.2.1 st295 3).2.2 {part:=1,res:=1,req:=⟨1,3,5,0,0,0⟩,value:=77,points:=[3]}) rfl rfl rfl),
   Completes.runs (((h.2 son 0x9000000000 ⟨1,2⟩).1) (by decide +kernel))⟩

/-- The state of a witness below. -/
def st172 : State := {s0 with dome:={s0.dome with acts:=[(0,{kind:=.disable,scrubbing:=false,answer:=[],aborted:=0,began:=5,thenDisable:=[]})]},regs:=[(regKey (home .prt 0 0x14),some 3)],pkg:={s0.pkg with time:=1000000000},strs:=[(1,{cmds:=[cmd0 6 7 [], cmd0 5 6 []]})],mem:=[(0x100,5),(0x8FFFFFFFFF,7),(0xE0000000005,6)],lines:=[(2,full)]}

/-- The PartAct of a witness below. -/
def va88 : PartAct := {kind:=.disable,scrubbing:=false,answer:=[],aborted:=0,began:=5,thenDisable:=[]}

/-- The state of a witness below. -/
def st173 : State := {s0 with dome:={s0.dome with acts:=[(0,{kind:=.disable,scrubbing:=false,answer:=[],aborted:=0,began:=5,thenDisable:=[]})]},regs:=[(regKey (home .prt 0 0x14),some 3)],pkg:={s0.pkg with time:=7},strs:=[(1,{cmds:=[cmd0 6 7 [], cmd0 5 6 []]})],mem:=[(0x100,5),(0x8FFFFFFFFF,7),(0xE0000000005,6)],lines:=[(2,full)]}

/-- The state of a witness below. -/
def st174 : State := {s0 with dome:={s0.dome with acts:=[(0,{kind:=.disable,scrubbing:=true,answer:=[],aborted:=0,began:=5,thenDisable:=[]})]},regs:=[(regKey (home .prt 0 0x14),some 3)],pkg:={s0.pkg with time:=1000000000},strs:=[(1,{cmds:=[cmd0 6 7 [], cmd0 5 6 []]})],mem:=[(0x100,5),(0x8FFFFFFFFF,7),(0xE0000000005,6)],lines:=[(2,full)]}

/-- The PartAct of a witness below. -/
def va89 : PartAct := {kind:=.disable,scrubbing:=true,answer:=[],aborted:=0,began:=5,thenDisable:=[]}

/-- The state of a witness below. -/
def st175 : State := {s0 with dome:={s0.dome with acts:=[(0,{kind:=.reset,scrubbing:=true,answer:=[],aborted:=0,began:=5,thenDisable:=[]})]},regs:=[(regKey (home .prt 0 0x14),some 3)],pkg:={s0.pkg with time:=1000000000},strs:=[(1,{cmds:=[cmd0 6 7 [], cmd0 5 6 []]})],mem:=[(0x100,5),(0x8FFFFFFFFF,7),(0xE0000000005,6)],lines:=[(2,full)]}

/-- The PartAct of a witness below. -/
def va90 : PartAct := {kind:=.reset,scrubbing:=true,answer:=[],aborted:=0,began:=5,thenDisable:=[]}

/-- The hypotheses of `Obligations.PartitionActions` are met on these states and operands, clause by clause. -/
theorem witness_PartitionActions (h : Obligations.PartitionActions) :
    (∃ t, exec (.partitionDrainEnd 0) st172 = .next t)
    ∧ (∃ t, exec (.partitionDrainEnd 0) st173 = .next t)
    ∧ (∃ t, exec (.partitionScrubEnd 0) st174 = .next t)
    ∧ (∃ t, exec (.partitionScrubEnd 0) st175 = .next t)
    ∧ (∃ t, exec (.regionUncorrectableError 0) s0 = .next t)
    ∧ (∃ t, exec (.hubUncorrectableError) s0 = .next t) :=
  ⟨Completes.runs ((h.1 st172 0 va88) rfl rfl (by decide +kernel)),
   Completes.runs ((h.2.1 st173 0 va88) rfl rfl (by decide +kernel) (by decide +kernel)),
   Completes.runs ((h.2.2.1 st174 0 va89) rfl rfl rfl (by decide +kernel)),
   Completes.runs ((h.2.2.2.1 st175 0 va90) rfl rfl rfl rfl (by decide +kernel)),
   Completes.runs ((h.2.2.2.2.1 s0 0) rfl rfl),
   Completes.runs (((h.2.2.2.2.2 s0).2) (by decide +kernel))⟩

/-- The state of a witness below. -/
def st176 : State := {s0 with mem:=[(5,6),(0x20000000005,7)],poison:=[(4,true)],qps:=[(3,{conn:=true})],regs:=[(regKey (home .dom 0 0x10),some 5)]}

/-- Firmware's places of the register blocks of a package of one partition, 2 MiB apart. -/
def placedBlocks : List Block := State.reset.blockList.zipIdx.map (fun b =>
  { base := (if b.1.2.2.1 = 0xFF then 0xF0000100000 else 0xF1000000000) + b.2 * 0x200000, pages := b.1.2.2.2, kind := b.1.1
    part := b.1.2.2.1, inst := b.1.2.1 })

/-- Helper of the witnesses. -/
def w0 : StartWork := { flashBytes := some 0x100000, hku := [0x10000,0x20000,0x30000,0x40000], records := 7, mismatch := none, fails := [], capacity := [0x4000000,0,0x8000000,0], links := [1,1,1,1], width := [4,4,4,4]
                        slow := [], nvme := [], eth := 15, blocks := placedBlocks }

/-- The state of a witness below. -/
def st177 : State := {st 1 with flash:=[]}

/-- The state of a witness below. -/
def st178 : State := {st 8 with regs:=[(regKey (home .dom 0 0x10),some 5)]}

/-- The state of a witness below. -/
def st179 : State := {st 2 with pkg:={(st 2).pkg with time:=100000007},units:=[(131,{kickAt:=7})]}

/-- The state of a witness below. -/
def st180 : State := {s0 with mem:=[(5,6)],ports:=[(2,{state:=3}),(3,{state:=2}),(4,{state:=4,cause:=5}),(5,{state:=1})],eth:=[(1,{up:=true})]}

/-- The hypotheses of `Obligations.StartUp` are met on these states and operands, clause by clause. -/
theorem witness_StartUp (h : Obligations.StartUp) :
    (∃ t, exec (.coldRstNLow) st176 = .next t)
    ∧ (∃ t, exec (.startUp) State.reset = .next t)
    ∧ (∃ t, exec (.startUpStageEnd w0) st177 = .next t)
    ∧ (∃ t, exec (.startUpStageEnd w0) (st 2) = .next t)
    ∧ (∃ t, exec (.startUpStageEnd w0) (st 3) = .next t)
    ∧ (∃ t, exec (.startUpStageEnd w0) (st 7) = .next t)
    ∧ (∃ t, exec (.startUpStageEnd w0) st178 = .next t)
    ∧ (∃ t, exec (.railRegulationTimeout 5) (st 2) = .next t)
    ∧ (∃ t, exec (.hkuWatchdogExpiry 3) st179 = .next t)
    ∧ (∃ t, exec (.refclkLoss) st180 = .next t) :=
  ⟨Completes.runs ((h.1.1 st176)),
   Completes.runs (((h.1.2.1 State.reset)) rfl rfl rfl),
   Completes.runs (((h.1.2.2.2.1 st177 w0 1 0)) (by decide +kernel) rfl rfl rfl),
   Completes.runs (((h.1.2.2.2.2.1 (st 2) w0)) (by decide +kernel)),
   Completes.runs ((h.1.2.2.2.2.2.1 (st 3) w0 (by decide +kernel)).1 (by decide +kernel)),
   Completes.runs (((h.1.2.2.2.2.2.2.2.2.1 (st 7) w0)) (by decide +kernel) rfl),
   Completes.runs ((h.1.2.2.2.2.2.2.2.2.2.1 st178 w0) (by decide +kernel) rfl (by decide +kernel)),
   Completes.runs (((h.1.2.2.2.2.2.2.2.2.2.2.1 (st 2) 5)) (by decide +kernel)),
   Completes.runs (((h.1.2.2.2.2.2.2.2.2.2.2.2.1 st179 3).2.1) (by decide +kernel) (by decide +kernel)),
   Completes.runs (((h.2.1 st180)) rfl)⟩

/-- The state of a witness below. -/
def st181 : State := {s0 with dome:={s0.dome with boot:={s0.dome.boot with refclk:=false}}}

/-- The state of a witness below. -/
def st182 : State := {s0 with dome:={s0.dome with uncalibrated:=true}}

/-- The state of a witness below. -/
def st274 : State := {s0 with dome:={s0.dome with rails:=[0x45,0x46,0x49],vrOff:=false}}

/-- More clauses of the same statement. -/
theorem witness_StartUp_2 (h : Obligations.StartUp) :
    (∃ t, exec (.refclkLoss) st181 = .next t)
    ∧ (∃ t, exec (.refclkReturn) st181 = .next t)
    ∧ (∃ t, exec (.domOscCalibration) st182 = .next t)
    ∧ (∃ t, exec (.railFault) st274 = .next t) :=
  ⟨Completes.runs (((h.2.2.1 st181)) rfl),
   Completes.runs ((h.2.2.2.1 st181)),
   Completes.runs (((h.2.2.2.2 st182)) rfl),
   Completes.runs (((h.1.2.2.2.2.2.2.2.2.2.2.2.2 st274).2.1) (by decide +kernel) (by decide +kernel))⟩

/-- Stage 1 with a flash whose image passes: the vendor key that signed it is open, so that it passes is taken. -/
theorem witness_StartUp_image (h : Obligations.StartUp) (f : SMap Byte) (r : Running)
    (hr : imageCheck f (some 0x100000) (st 1).dome.fuses false = .ok r) :
    ∃ t, exec (.startUpStageEnd w0) { st 1 with flash := f } = .next t :=
  Completes.runs (h.1.2.2.1 { st 1 with flash := f } w0 r ⟨rfl, rfl⟩ rfl rfl hr)

/-- Helper of the witnesses. -/
def imgSag : State := { s0 with dome := { s0.dome with sag := true } }

/-- Helper of the witnesses. -/
def imgBusy : State := { s0 with dome := { s0.dome with boot := { s0.dome.boot with update := some ⟨.pldm, 5, [5]⟩ } } }

/-- The state of a witness below. -/
def st183 : State := {s0 with dome:={s0.dome with fuses:={states:=[1,0,0,0]},boot:={s0.dome.boot with state:=2,cause:=5,detail:=7}}}

/-- The state of a witness below. -/
def st184 : State := {s0 with flash:=[(5,7),(0x2000,3)],dome:={s0.dome with fuses:={states:=[1,0,0,0]},boot:={s0.dome.boot with state:=2,cause:=5,detail:=7}}}

/-- The state of a witness below. -/
def st185 : State := {s0 with flash:=[(5,7)],dome:={s0.dome with fuses:={states:=[1,0,0,0]},boot:={s0.dome.boot with state:=2,update:=some ⟨.recovery,100,[1,2,3]⟩}}}

/-- The state of a witness below. -/
def st186 : State := {s0 with dome:={s0.dome with fuses:={states:=[1,0,0,0]},boot:={s0.dome.boot with state:=2,replies:=[(7,[1]),(9,[4])]}}}

/-- The hypotheses of `Obligations.ImageUpdates` are met on these states and operands, clause by clause. -/
theorem witness_ImageUpdates (h : Obligations.ImageUpdates) :
    (∃ t, exec (.pldmFirmwareUpdate [1, 2, 3]) s0 = .next t)
    ∧ (∃ t, exec (.pldmFirmwareUpdate [1, 2, 3]) imgSag = .next t)
    ∧ (∃ t, exec (.pldmFirmwareUpdate [1, 2, 3]) imgBusy = .next t)
    ∧ (∃ t, exec (.imageWriteEnd) imgBusy = .next t)
    ∧ (∃ t, exec (.recoveryHello 9) st183 = .next t)
    ∧ (∃ t, exec (.recoveryProgress 9) st183 = .next t)
    ∧ (∃ t, exec (.recoveryBegin 9 77) st184 = .next t)
    ∧ (∃ t, exec (.recoveryData 9 3 [4, 5]) st185 = .next t)
    ∧ (∃ t, exec (.recoveryData 9 4 [4, 5]) st185 = .next t)
    ∧ (∃ t, exec (.recoveryHello 9) st186 = .next t) :=
  ⟨Completes.runs ((h.1 s0 [1, 2, 3] (by decide +kernel) (by decide +kernel)).1 (by decide +kernel)),
   Completes.runs ((h.1 imgSag [1, 2, 3] (by decide +kernel) (by decide +kernel)).2 (by decide +kernel)),
   Completes.runs (h.2.1 imgBusy [1, 2, 3] (by decide +kernel) (by decide +kernel)),
   Completes.runs ((h.2.2.1 imgBusy ⟨.pldm, 5, [5]⟩ (by decide +kernel) (by decide +kernel) (by decide +kernel) (by first | decide +kernel)).2 (by decide +kernel)),
   Completes.runs ((h.2.2.2.1 st183 9 (by decide +kernel)).1),
   Completes.runs ((h.2.2.2.1 st183 9 (by decide +kernel)).2.1),
   Completes.runs (((h.2.2.2.1 st184 9 (by decide +kernel)).2.2 77) rfl rfl),
   Completes.runs (((h.2.2.2.2.1 st185 9 3 [4,5] ⟨.recovery,100,[1,2,3]⟩ (by decide +kernel) rfl rfl).1) rfl (by decide +kernel) (by decide +kernel) (by first | decide +kernel)),
   Completes.runs (((h.2.2.2.2.1 st185 9 4 [4,5] ⟨.recovery,100,[1,2,3]⟩ (by decide +kernel) rfl rfl).2.1) (by decide +kernel)),
   Completes.runs (((h.2.2.2.2.2 .recoveryHello (Or.inl rfl) st186 9 [4])) (by decide +kernel) rfl)⟩

/-- More clauses of the same statement. -/
theorem witness_ImageUpdates_2 (h : Obligations.ImageUpdates) :
    (∃ t, exec (.recoveryBegin 9 5) st186 = .next t)
    ∧ (∃ t, exec (.recoveryData 9 5 [3]) st186 = .next t)
    ∧ (∃ t, exec (.recoveryEnd 9) st186 = .next t)
    ∧ (∃ t, exec (.recoveryProgress 9) st186 = .next t) :=
  ⟨Completes.runs (((h.2.2.2.2.2 (fun q => .recoveryBegin q 5) (Or.inr (Or.inl ⟨5,rfl⟩)) st186 9 [4])) (by decide +kernel) rfl),
   Completes.runs (((h.2.2.2.2.2 (fun q => .recoveryData q 5 [3]) (Or.inr (Or.inr (Or.inl ⟨5,[3],rfl⟩))) st186 9 [4])) (by decide +kernel) rfl),
   Completes.runs (((h.2.2.2.2.2 .recoveryEnd (Or.inr (Or.inr (Or.inr (Or.inl rfl)))) st186 9 [4])) (by decide +kernel) rfl),
   Completes.runs (((h.2.2.2.2.2 .recoveryProgress (Or.inr (Or.inr (Or.inr (Or.inr rfl)))) st186 9 [4])) (by decide +kernel) rfl)⟩

/-- An update that holds the bytes `l` whole, over the flash `f`. -/
def updSt (w : Writer) (n : Nat) (l : List Byte) (f : SMap Byte) : State :=
  { s0 with flash := f, dome := { s0.dome with boot := { s0.dome.boot with state := n, update := some ⟨w, l.length, l⟩ } } }

/-- The end of an update whose image passes: the vendor key that signed it is open, so that it passes is taken. -/
theorem witness_ImageUpdates_image (h : Obligations.ImageUpdates) (l : List Byte) (f : SMap Byte)
    (hl : layoutOk (State.imageMap l []) l.length = true) (hr : ∃ r, imageSections (State.imageMap l []) s0.dome.fuses = .ok r)
    (hf : ∀ i b, 0x1000 ≤ i → l[i]? = some b → flashByte f i = b) :
    (∃ t, exec .imageWriteEnd (updSt .pldm 1 l f) = .next t) ∧ (∃ t, exec (.recoveryEnd 9) (updSt .recovery 2 l f) = .next t) :=
  ⟨Completes.runs ((h.2.2.1 (updSt .pldm 1 l f) ⟨.pldm, l.length, l⟩ rfl rfl ⟨rfl, rfl⟩ (show 1 ≠ 2 by decide)).1 ⟨hl, hr⟩),
   Completes.runs ((h.2.2.2.2.1 (updSt .recovery 2 l f) 9 0 [] ⟨.recovery, l.length, l⟩
      ⟨⟨rfl, (show s0.domOn 56 = true by decide +kernel)⟩, rfl⟩ rfl rfl).2.2 ⟨hl, hr⟩ ⟨rfl, rfl⟩ hf)⟩

/-- Helper of the witnesses. -/
def dm : State := { s0 with dome := { s0.dome with boot := { s0.dome.boot with running := { cfg := cfgBody } } }, pkg := { s0.pkg with layout := 2, time := 77, cycles := [(3, 9), (40, 8)] }, regs := (List.range 4).flatMap (fun p => (List.range 5).map (fun r => (regKey (State.shareReg p r), some (25 + 20 * 256)))) }

/-- The state of a witness below. -/
def st187 : State := {dm with dome:={dm.dome with reqs:=[⟨1,1,9,0,0,0⟩],open_:=[1]}}

/-- The state of a witness below. -/
def st188 : State := {dm with dome:={dm.dome with reqs:=[⟨1,2,9,0,0,0⟩],open_:=[1]}}

/-- The state of a witness below. -/
def st189 : State := {dm with dome:={dm.dome with reqs:=[⟨1,3,9,0,0,0⟩],open_:=[1]}}

/-- The state of a witness below. -/
def st190 : State := {dm with dome:={dm.dome with reqs:=[⟨1,4,9,0,0,0⟩],open_:=[1]}}

/-- The state of a witness below. -/
def st191 : State := {dm with dome:={dm.dome with reqs:=[⟨1,5,9,0,0,0⟩],open_:=[1]}}

/-- The hypotheses of `Obligations.MailboxRequests` are met on these states and operands, clause by clause. -/
theorem witness_MailboxRequests (h : Obligations.MailboxRequests) :
    (∃ t, exec (.setMode (some { seq := 9, a0 := 4278190080, a1 := 4294901760, a2 := 1 })) dm = .next t)
    ∧ (∃ t, exec (.setMode none) st187 = .next t)
    ∧ (∃ t, exec (.setCap (some { seq := 9, a0 := 4278190080, a1 := 4294901760, a2 := 1 })) dm = .next t)
    ∧ (∃ t, exec (.setCap none) st188 = .next t)
    ∧ (∃ t, exec (.setShare (some { seq := 9, a0 := 4278190080, a1 := 4294901760, a2 := 1 })) dm = .next t)
    ∧ (∃ t, exec (.setShare none) st189 = .next t)
    ∧ (∃ t, exec (.setQuota (some { seq := 9, a0 := 4278190080, a1 := 4294901760, a2 := 1 })) dm = .next t)
    ∧ (∃ t, exec (.setQuota none) st190 = .next t)
    ∧ (∃ t, exec (.partitionReset (some { seq := 9, a0 := 4278190080, a1 := 4294901760, a2 := 1 })) dm = .next t)
    ∧ (∃ t, exec (.partitionReset none) st191 = .next t) :=
  ⟨Completes.runs (h.1 Instr.setMode 1 (by simp) dm (some ⟨9,0xFF000000,0xFFFF0000,1⟩) ⟨4,1,9,0xFF000000,0xFFFF0000,1⟩ 3 (by decide +kernel) (by unfold Asked; decide +kernel)),
   Completes.runs (h.1 Instr.setMode 1 (by simp) st187 none ⟨1,1,9,0,0,0⟩ 1 (by decide +kernel) (by unfold Asked; decide +kernel)),
   Completes.runs (h.1 Instr.setCap 2 (by simp) dm (some ⟨9,0xFF000000,0xFFFF0000,1⟩) ⟨4,2,9,0xFF000000,0xFFFF0000,1⟩ 3 (by decide +kernel) (by unfold Asked; decide +kernel)),
   Completes.runs (h.1 Instr.setCap 2 (by simp) st188 none ⟨1,2,9,0,0,0⟩ 1 (by decide +kernel) (by unfold Asked; decide +kernel)),
   Completes.runs (h.1 Instr.setShare 3 (by simp) dm (some ⟨9,0xFF000000,0xFFFF0000,1⟩) ⟨4,3,9,0xFF000000,0xFFFF0000,1⟩ 3 (by decide +kernel) (by unfold Asked; decide +kernel)),
   Completes.runs (h.1 Instr.setShare 3 (by simp) st189 none ⟨1,3,9,0,0,0⟩ 1 (by decide +kernel) (by unfold Asked; decide +kernel)),
   Completes.runs (h.1 Instr.setQuota 4 (by simp) dm (some ⟨9,0xFF000000,0xFFFF0000,1⟩) ⟨4,4,9,0xFF000000,0xFFFF0000,1⟩ 3 (by decide +kernel) (by unfold Asked; decide +kernel)),
   Completes.runs (h.1 Instr.setQuota 4 (by simp) st190 none ⟨1,4,9,0,0,0⟩ 1 (by decide +kernel) (by unfold Asked; decide +kernel)),
   Completes.runs (h.1 Instr.partitionReset 5 (by simp) dm (some ⟨9,0xFF000000,0xFFFF0000,1⟩) ⟨4,5,9,0xFF000000,0xFFFF0000,1⟩ 3 (by decide +kernel) (by unfold Asked; decide +kernel)),
   Completes.runs (h.1 Instr.partitionReset 5 (by simp) st191 none ⟨1,5,9,0,0,0⟩ 1 (by decide +kernel) (by unfold Asked; decide +kernel))⟩

/-- The state of a witness below. -/
def st192 : State := {dm with dome:={dm.dome with reqs:=[⟨1,6,9,0,0,0⟩],open_:=[1]}}

/-- The state of a witness below. -/
def st193 : State := {dm with dome:={dm.dome with reqs:=[⟨1,7,9,0,0,0⟩],open_:=[1]}}

/-- The state of a witness below. -/
def st194 : State := {dm with dome:={dm.dome with reqs:=[⟨1,8,9,0,0,0⟩],open_:=[1]}}

/-- The state of a witness below. -/
def st195 : State := {dm with dome:={dm.dome with reqs:=[⟨1,9,9,0,0,0⟩],open_:=[1]}}

/-- More clauses of the same statement. -/
theorem witness_MailboxRequests_2 (h : Obligations.MailboxRequests) :
    (∃ t, exec (.partitionDisable (some { seq := 9, a0 := 4278190080, a1 := 4294901760, a2 := 1 })) dm = .next t)
    ∧ (∃ t, exec (.partitionDisable none) st192 = .next t)
    ∧ (∃ t, exec (.partitionEnable (some { seq := 9, a0 := 4278190080, a1 := 4294901760, a2 := 1 })) dm = .next t)
    ∧ (∃ t, exec (.partitionEnable none) st193 = .next t)
    ∧ (∃ t, exec (.warmReset (some { seq := 9, a0 := 4278190080, a1 := 4294901760, a2 := 1 })) dm = .next t)
    ∧ (∃ t, exec (.warmReset none) st194 = .next t)
    ∧ (∃ t, exec (.coldReset (some { seq := 9, a0 := 4278190080, a1 := 4294901760, a2 := 1 })) dm = .next t)
    ∧ (∃ t, exec (.coldReset none) st195 = .next t)
    ∧ (∃ t, exec (.correlate (some { seq := 9, a0 := 4278190080, a1 := 4294901760, a2 := 1 })) dm = .next t)
    ∧ (∃ t, exec (.setCal (some { seq := 9, a0 := 4278190080, a1 := 4294901760, a2 := 1 })) dm = .next t) :=
  ⟨Completes.runs (h.1 Instr.partitionDisable 6 (by simp) dm (some ⟨9,0xFF000000,0xFFFF0000,1⟩) ⟨4,6,9,0xFF000000,0xFFFF0000,1⟩ 3 (by decide +kernel) (by unfold Asked; decide +kernel)),
   Completes.runs (h.1 Instr.partitionDisable 6 (by simp) st192 none ⟨1,6,9,0,0,0⟩ 1 (by decide +kernel) (by unfold Asked; decide +kernel)),
   Completes.runs (h.1 Instr.partitionEnable 7 (by simp) dm (some ⟨9,0xFF000000,0xFFFF0000,1⟩) ⟨4,7,9,0xFF000000,0xFFFF0000,1⟩ 3 (by decide +kernel) (by unfold Asked; decide +kernel)),
   Completes.runs (h.1 Instr.partitionEnable 7 (by simp) st193 none ⟨1,7,9,0,0,0⟩ 1 (by decide +kernel) (by unfold Asked; decide +kernel)),
   Completes.runs (h.1 Instr.warmReset 8 (by simp) dm (some ⟨9,0xFF000000,0xFFFF0000,1⟩) ⟨4,8,9,0xFF000000,0xFFFF0000,1⟩ 3 (by decide +kernel) (by unfold Asked; decide +kernel)),
   Completes.runs (h.1 Instr.warmReset 8 (by simp) st194 none ⟨1,8,9,0,0,0⟩ 1 (by decide +kernel) (by unfold Asked; decide +kernel)),
   Completes.runs (h.1 Instr.coldReset 9 (by simp) dm (some ⟨9,0xFF000000,0xFFFF0000,1⟩) ⟨4,9,9,0xFF000000,0xFFFF0000,1⟩ 3 (by decide +kernel) (by unfold Asked; decide +kernel)),
   Completes.runs (h.1 Instr.coldReset 9 (by simp) st195 none ⟨1,9,9,0,0,0⟩ 1 (by decide +kernel) (by unfold Asked; decide +kernel)),
   Completes.runs (h.1 Instr.correlate 10 (by simp) dm (some ⟨9,0xFF000000,0xFFFF0000,1⟩) ⟨4,10,9,0xFF000000,0xFFFF0000,1⟩ 3 (by decide +kernel) (by unfold Asked; decide +kernel)),
   Completes.runs (h.1 Instr.setCal 11 (by simp) dm (some ⟨9,0xFF000000,0xFFFF0000,1⟩) ⟨4,11,9,0xFF000000,0xFFFF0000,1⟩ 3 (by decide +kernel) (by unfold Asked; decide +kernel))⟩

/-- The state of a witness below. -/
def st197 : State := {dm with dome:={dm.dome with reqs:=[⟨1,11,9,0,0,0⟩],open_:=[1]}}

/-- The state of a witness below. -/
def st198 : State := {dm with dome:={dm.dome with reqs:=[⟨1,12,9,0,0,0⟩],open_:=[1]}}

/-- The state of a witness below. -/
def st199 : State := {dm with dome:={dm.dome with newMode:=some (2,⟨4,1,9,2,0,0⟩)}}

/-- More clauses of the same statement. -/
theorem witness_MailboxRequests_3 (h : Obligations.MailboxRequests) :
    (∃ t, exec (.setCal none) st197 = .next t)
    ∧ (∃ t, exec (.clearCal (some { seq := 9, a0 := 4278190080, a1 := 4294901760, a2 := 1 })) dm = .next t)
    ∧ (∃ t, exec (.clearCal none) st198 = .next t)
    ∧ (∃ t, exec (.setMode (some { seq := 9, a0 := 1, a1 := 0, a2 := 0 })) dm = .next t)
    ∧ (∃ t, exec (.setMode (some { seq := 9, a0 := 3, a1 := 0, a2 := 0 })) dm = .next t)
    ∧ (∃ t, exec (.modeChangeEnd) st199 = .next t)
    ∧ (∃ t, exec (.setCap (some { seq := 9, a0 := 0, a1 := 0, a2 := 0 })) dm = .next t)
    ∧ (∃ t, exec (.setCap (some { seq := 9, a0 := 500, a1 := 0, a2 := 0 })) dm = .next t)
    ∧ (∃ t, exec (.setShare (some { seq := 9, a0 := 18, a1 := 6430, a2 := 0 })) dm = .next t)
    ∧ (∃ t, exec (.setShare (some { seq := 9, a0 := 52, a1 := 10270, a2 := 0 })) dm = .next t) :=
  ⟨Completes.runs (h.1 Instr.setCal 11 (by simp) st197 none ⟨1,11,9,0,0,0⟩ 1 (by decide +kernel) (by unfold Asked; decide +kernel)),
   Completes.runs (h.1 Instr.clearCal 12 (by simp) dm (some ⟨9,0xFF000000,0xFFFF0000,1⟩) ⟨4,12,9,0xFF000000,0xFFFF0000,1⟩ 3 (by decide +kernel) (by unfold Asked; decide +kernel)),
   Completes.runs (h.1 Instr.clearCal 12 (by simp) st198 none ⟨1,12,9,0,0,0⟩ 1 (by decide +kernel) (by unfold Asked; decide +kernel)),
   Completes.runs (((h.2.1 dm (some ⟨9,1,0,0⟩) ⟨4,1,9,1,0,0⟩)) (by unfold Asked; decide +kernel) (by decide +kernel)),
   Completes.runs (((h.2.2.1 dm (some ⟨9,3,0,0⟩) ⟨4,1,9,3,0,0⟩)) (by unfold Asked; decide +kernel) (by decide +kernel)),
   Completes.runs (((h.2.2.2.1 st199 2 ⟨4,1,9,2,0,0⟩)) rfl rfl),
   Completes.runs (((h.2.2.2.2.1 dm (some ⟨9,0,0,0⟩) ⟨4,2,9,0,0,0⟩)) (by unfold Asked; decide +kernel) (by decide +kernel)),
   Completes.runs (((h.2.2.2.2.2.1 dm (some ⟨9,500,0,0⟩) ⟨4,2,9,500,0,0⟩)) (by unfold Asked; decide +kernel) (by decide +kernel)),
   Completes.runs (((h.2.2.2.2.2.2.1 dm (some ⟨9,18,6430,0⟩) ⟨4,3,9,18,6430,0⟩)) (by unfold Asked; decide +kernel) (by decide +kernel)),
   Completes.runs (((h.2.2.2.2.2.2.2.1 dm (some ⟨9,52,10270,0⟩) ⟨4,3,9,52,10270,0⟩)) (by unfold Asked; decide +kernel) (by decide +kernel))⟩

/-- The state of a witness below. -/
def st200 : State := {dm with dome:={dm.dome with boot:={dm.dome.boot with state:=2}}}

/-- The state of a witness below. -/
def st201 : State := {dm with dome:={dm.dome with boot:={dm.dome.boot with update:=some ⟨.pldm,5,[5]⟩}}}

/-- More clauses of the same statement. -/
theorem witness_MailboxRequests_4 (h : Obligations.MailboxRequests) :
    (∃ t, exec (.setShare (some { seq := 9, a0 := 18, a1 := 0, a2 := 0 })) dm = .next t)
    ∧ (∃ t, exec (.setQuota (some { seq := 9, a0 := 1, a1 := 256, a2 := 0 })) dm = .next t)
    ∧ (∃ t, exec (.setQuota (some { seq := 9, a0 := 1, a1 := 268435455, a2 := 0 })) dm = .next t)
    ∧ (∃ t, exec (.partitionReset (some { seq := 9, a0 := 2, a1 := 0, a2 := 0 })) dm = .next t)
    ∧ (∃ t, exec (.partitionDisable (some { seq := 9, a0 := 2, a1 := 0, a2 := 0 })) dm = .next t)
    ∧ (∃ t, exec (.partitionEnable (some { seq := 9, a0 := 2, a1 := 0, a2 := 0 })) dm = .next t)
    ∧ (∃ t, exec (.warmReset (some { seq := 9, a0 := 0, a1 := 0, a2 := 0 })) dm = .next t)
    ∧ (∃ t, exec (.warmReset (some { seq := 9, a0 := 0, a1 := 0, a2 := 0 })) st200 = .next t)
    ∧ (∃ t, exec (.coldReset (some { seq := 9, a0 := 0, a1 := 0, a2 := 0 })) st201 = .next t)
    ∧ (∃ t, exec (.coldReset (some { seq := 9, a0 := 0, a1 := 0, a2 := 0 })) dm = .next t) :=
  ⟨Completes.runs (((h.2.2.2.2.2.2.2.2.1 dm (some ⟨9,18,0,0⟩) ⟨4,3,9,18,0,0⟩)) (by unfold Asked; decide +kernel) (by decide +kernel)),
   Completes.runs (((h.2.2.2.2.2.2.2.2.2.1 dm (some ⟨9,1,256,0⟩) ⟨4,4,9,1,256,0⟩)) (by unfold Asked; decide +kernel) (by decide +kernel)),
   Completes.runs (((h.2.2.2.2.2.2.2.2.2.2.1 dm (some ⟨9,1,268435455,0⟩) ⟨4,4,9,1,268435455,0⟩)) (by unfold Asked; decide +kernel) (by decide +kernel)),
   Completes.runs (((h.2.2.2.2.2.2.2.2.2.2.2.1 dm (some ⟨9,2,0,0⟩) ⟨4,5,9,2,0,0⟩)) (by unfold Asked; decide +kernel) (by decide +kernel)),
   Completes.runs (((h.2.2.2.2.2.2.2.2.2.2.2.2.1 dm (some ⟨9,2,0,0⟩) ⟨4,6,9,2,0,0⟩)) (by unfold Asked; decide +kernel) (by decide +kernel)),
   Completes.runs (((h.2.2.2.2.2.2.2.2.2.2.2.2.2.2.2.1 dm (some ⟨9,2,0,0⟩) ⟨4,7,9,2,0,0⟩)) (by unfold Asked; decide +kernel) (by decide +kernel)),
   Completes.runs (((h.2.2.2.2.2.2.2.2.2.2.2.2.2.2.2.2.1 dm (some ⟨9,0,0,0⟩) ⟨4,8,9,0,0,0⟩)) (by unfold Asked; decide +kernel) (by decide +kernel)),
   Completes.runs (((h.2.2.2.2.2.2.2.2.2.2.2.2.2.2.2.2.2.1 st200 (some ⟨9,0,0,0⟩) ⟨4,8,9,0,0,0⟩)) (by unfold Asked; decide +kernel) (by decide +kernel)),
   Completes.runs (((h.2.2.2.2.2.2.2.2.2.2.2.2.2.2.2.2.2.2.1 st201 (some ⟨9,0,0,0⟩) ⟨4,9,9,0,0,0⟩)) (by unfold Asked; decide +kernel) (by decide +kernel)),
   Completes.runs (((h.2.2.2.2.2.2.2.2.2.2.2.2.2.2.2.2.2.2.2.1 dm (some ⟨9,0,0,0⟩) ⟨4,9,9,0,0,0⟩)) (by unfold Asked; decide +kernel) rfl)⟩

/-- The state of a witness below. -/
def st275 : State := {dm with regs:=[(regKey (home .prt 2 0x10),some 3)],dome:={dm.dome with disabled:=[1,2]}}

/-- More clauses of the same statement. -/
theorem witness_MailboxRequests_5 (h : Obligations.MailboxRequests) :
    (∃ t, exec (.correlate (some { seq := 9, a0 := 0, a1 := 0, a2 := 0 })) dm = .next t)
    ∧ (∃ t, exec (.partitionEnable (some { seq := 9, a0 := 2, a1 := 0, a2 := 0 })) st275 = .next t)
    ∧ (∃ t, exec (.partitionReset (some { seq := 9, a0 := 2, a1 := 0, a2 := 0 })) st275 = .next t)
    ∧ (∃ t, exec (.partitionDisable (some { seq := 9, a0 := 2, a1 := 0, a2 := 0 })) st275 = .next t)
    ∧ (∃ t, exec (.setCal (some { seq := 9, a0 := 2, a1 := 65280, a2 := 4294963200 })) dm = .next t)
    ∧ (∃ t, exec (.setCal (some { seq := 9, a0 := 2, a1 := 32512, a2 := 4294963200 })) dm = .next t)
    ∧ (∃ t, exec (.clearCal (some { seq := 9, a0 := 3, a1 := 0, a2 := 0 })) dm = .next t) :=
  ⟨Completes.runs (((h.2.2.2.2.2.2.2.2.2.2.2.2.2.2.2.2.2.2.2.2.1 dm (some ⟨9,0,0,0⟩) ⟨4,10,9,0,0,0⟩)) (by unfold Asked; decide +kernel) (by decide +kernel)),
   Completes.runs (((h.2.2.2.2.2.2.2.2.2.2.2.2.2.1 st275 (some ⟨9,2,0,0⟩) ⟨4,7,9,2,0,0⟩)) (by unfold Asked; decide +kernel) rfl),
   Completes.runs ((h.2.2.2.2.2.2.2.2.2.2.2.2.2.2.1 Instr.partitionReset 5 (by simp) st275 (some ⟨9,2,0,0⟩) ⟨4,5,9,2,0,0⟩) (by unfold Asked; decide +kernel) rfl),
   Completes.runs ((h.2.2.2.2.2.2.2.2.2.2.2.2.2.2.1 Instr.partitionDisable 6 (by simp) st275 (some ⟨9,2,0,0⟩) ⟨4,6,9,2,0,0⟩) (by unfold Asked; decide +kernel) rfl),
   Completes.runs (((h.2.2.2.2.2.2.2.2.2.2.2.2.2.2.2.2.2.2.2.2.2.1 dm (some ⟨9,2,0xFF00,0xFFFFF000⟩) ⟨4,11,9,2,0xFF00,0xFFFFF000⟩)) (by unfold Asked; decide +kernel) (by decide +kernel)),
   Completes.runs (((h.2.2.2.2.2.2.2.2.2.2.2.2.2.2.2.2.2.2.2.2.2.2.1 dm (some ⟨9,2,0x7F00,0xFFFFF000⟩) ⟨4,11,9,2,0x7F00,0xFFFFF000⟩)) (by unfold Asked; decide +kernel) (by decide +kernel)),
   Completes.runs (((h.2.2.2.2.2.2.2.2.2.2.2.2.2.2.2.2.2.2.2.2.2.2.2 dm (some ⟨9,3,0,0⟩) ⟨4,12,9,3,0,0⟩)) (by unfold Asked; decide +kernel) trivial)⟩

/-- The state of a witness below. -/
def st202 : State := {dm with dome:={dm.dome with boot:={dm.dome.boot with stage:=0,state:=0,cooling:=false}}}

/-- Helper of the witnesses. -/
def coolReadings : List (BitVec 16) := List.replicate 10 300 ++ [1650] ++ List.replicate 51 400 ++ [1520] ++ List.replicate 10 (-5)

/-- Helper of the witnesses. -/
theorem coolReadings_below (k : Nat) (x : BitVec 16) (h : coolReadings[k]? = some x) : x.toInt < if hbmDie (dieOf k) then 105 * 16 else 115 * 16 := by
  have hl : coolReadings.length = 73 := by decide +kernel
  have hk : k < 73 := hl ▸ (List.getElem?_eq_some_iff.1 h).1
  have ha : ∀ k < 73, (coolReadings[k]?.all fun x => decide (x.toInt < if hbmDie (dieOf k) then 105 * 16 else 115 * 16)) = true := by decide +kernel
  have hx := ha k hk
  rw [h] at hx
  exact of_decide_eq_true hx

/-- The state of a witness below. -/
def st203 : State := {dm with dome:={dm.dome with temps:=List.replicate 73 300,boot:={dm.dome.boot with cooling:=true,stage:=0,state:=0}}}

/-- The state of a witness below. -/
def st204 : State := {dm with regs:=[(regKey (home .dom 0 0x1C),some (420*65536))]}

/-- The state of a witness below. -/
def st205 : State := {dm with dome:={dm.dome with pfw:=true}}

/-- The state of a witness below. -/
def st206 : State := {dm with dome:={dm.dome with droop:=[5,3,5]}}

/-- The List (BitVec 16) of a witness below. -/
def va113 : List (BitVec 16) := (List.replicate 10 (300:BitVec 16) ++ [1650] ++ List.replicate 51 400 ++ [1520] ++ List.replicate 10 (-5))

/-- The state of a witness below. -/
def st276 : State := {dm with dome:={dm.dome with boot:={dm.dome.boot with cooling:=true,stage:=0,state:=0}}}

/-- The List (BitVec 16) of a witness below. -/
def va114 : List (BitVec 16) := (List.replicate 10 (300:BitVec 16) ++ [1850] ++ List.replicate 51 400 ++ [5] ++ List.replicate 10 (-5))

/-- The hypotheses of `Obligations.PowerAndSensors` are met on these states and operands, clause by clause. -/
theorem witness_PowerAndSensors (h : Obligations.PowerAndSensors) :
    (∃ t, exec (.powerEvaluation 900 300 [100, 200, 300, 400] [1000, 2000, 300, 0]) dm = .next t)
    ∧ (∃ t, exec (.powerEvaluation 900 300 [1, 2, 3, 4] [1, 2, 3, 4]) st202 = .next t)
    ∧ (∃ t, exec (.thermalReading coolReadings) { dm with dome := { dm.dome with hot := [6] } } = .next t)
    ∧ (∃ t, exec (.tripCooldownEnd) st203 = .next t)
    ∧ (∃ t, exec (.supplySag 40000 42000 41999) st204 = .next t)
    ∧ (∃ t, exec (.pfwNDeassert) st205 = .next t)
    ∧ (∃ t, exec (.supplyDroop 5) st206 = .next t)
    ∧ (∃ t, exec (.thermalReading va113) st202 = .next t)
    ∧ (∃ t, exec (.thermalReading va113) st276 = .next t)
    ∧ (∃ t, exec (.thermalReading va114) dm = .next t) :=
  ⟨Completes.runs (((h.1 dm 900 300 [100,200,300,400] [1000,2000,300,0])) rfl (by decide +kernel) (by decide +kernel)),
   Completes.runs (((h.2.1 st202 900 300 [1,2,3,4] [1,2,3,4])) rfl),
   Completes.runs ((h.2.2.1 { dm with dome := { dm.dome with hot := [6] } } coolReadings).2.2.1 (by decide +kernel) (by decide +kernel) fun k x _ hx => coolReadings_below k x hx),
   Completes.runs (((h.2.2.2.1 st203).2.1) rfl rfl (by decide +kernel)),
   Completes.runs ((h.2.2.2.2.1 st204 40000 42000 41999).1 (by decide +kernel)),
   Completes.runs ((h.2.2.2.2.2.2.1 st205)),
   Completes.runs ((h.2.2.2.2.2.2.2 st206 5).1),
   Completes.runs ((h.2.2.1 st202 va113).1 rfl),
   Completes.runs ((h.2.2.1 st276 va113).2.1 rfl),
   Completes.runs ((h.2.2.1 dm va114).2.2.2 10 1850 (by decide +kernel) rfl (by decide +kernel) rfl rfl)⟩

/-- The List (BitVec 16) of a witness below. -/
def va115 : List (BitVec 16) := (List.replicate 10 (300:BitVec 16) ++ [180] ++ List.replicate 51 400 ++ [1680] ++ List.replicate 10 (-5))

/-- The state of a witness below. -/
def st277 : State := {dm with regs:=[(regKey (home .dom 0 0x1C),some (420*65536))],dome:={dm.dome with boot:={dm.dome.boot with update:=some ⟨.pldm,5,[]⟩}}}

/-- The state of a witness below. -/
def st278 : State := {dm with snaps:=[(1,{saves:=[{idx:=5,step:=5,r:={layers:=[1],dims:=0,mask:=0,job:=0,src:=0,img:=128,blob:=0,blobBytes:=0,capture:=none,stage:=0,area:=0,port:=0,link:=0,fnsid:=0,flba:=0,target:=0,snsid:=0,slba:=0,source:=0,partner:=0},far:=[],running:=true,stagePoison:=false,captured:=false,partner:=0,entry:=0,parts:=[{layer:=1,phase:=6,busy:=true}]}]})]}

/-- The state of a witness below. -/
def st216 : State := {dm with dome:={dm.dome with sag:=true}}

/-- The state of a witness below. -/
def st279 : State := {dm with dome:={dm.dome with sag:=true,pfw:=true}}

/-- More clauses of the same statement. -/
theorem witness_PowerAndSensors_2 (h : Obligations.PowerAndSensors) :
    (∃ t, exec (.thermalReading va115) dm = .next t)
    ∧ (∃ t, exec (.supplySag 40000 41000 41999) st277 = .next t)
    ∧ (∃ t, exec (.pfwNAssert 40000) st278 = .next t)
    ∧ (∃ t, exec (.supplyRestored 42600) st216 = .next t)
    ∧ (∃ t, exec (.supplyRestored 42600) st279 = .next t) :=
  ⟨Completes.runs ((h.2.2.1 dm va115).2.2.2 62 1680 (by decide +kernel) rfl (by decide +kernel) rfl rfl),
   Completes.runs ((h.2.2.2.2.1 st277 40000 41000 41999).2 (by decide +kernel) rfl rfl),
   Completes.runs ((h.2.2.2.2.2.1 st278 40000).1 rfl),
   Completes.runs ((h.2.2.2.2.2.1 st216 42600).2.1 rfl rfl (by decide +kernel)),
   Completes.runs ((h.2.2.2.2.2.1 st279 42600).2.2 (by decide +kernel))⟩

/-- The state of a witness below. -/
def st207 : State := {dm with bol:={aux:=true,shunt:=100000000,sealed_:=true,now:={energy:=55,rest:=7,commit:=3,nextSeq:=4,log:=[⟨3,1,0,5,6,7⟩],reverse:=2}}}

/-- The state of a witness below. -/
def st208 : State := {dm with bol:={aux:=false}}

/-- The state of a witness below. -/
def st209 : State := {dm with bol:={now:={energy:=55,rest:=7,commit:=3,nextSeq:=4,log:=[⟨3,1,0,5,6,7⟩],reverse:=2}}}

/-- The state of a witness below. -/
def st210 : State := {dm with bol:={sag:=true}}

/-- The state of a witness below. -/
def st211 : State := {dm with bol:={samples:=7},dome:={dm.dome with sag:=true}}

/-- The state of a witness below. -/
def st212 : State := {dm with bol:={now:={energy:=55,rest:=7,commit:=3,nextSeq:=4,log:=[⟨3,1,0,5,6,7⟩],reverse:=2},sag:=true,samples:=70000,dropped:=3,sagSince:=5}}

/-- The state of a witness below. -/
def st280 : State := {dm with bol:={sealed_:=true,rx:=[5]}}

/-- The state of a witness below. -/
def st281 : State := {dm with bol:={aux:=false,sealed_:=true,shunt:=7,saved:={energy:=55,rest:=7,commit:=3,nextSeq:=4,log:=[⟨3,1,0,5,6,7⟩],reverse:=2},now:={energy:=77},op:=7}}

/-- The hypotheses of `Obligations.BolometerEnergy` are met on these states and operands, clause by clause. -/
theorem witness_BolometerEnergy (h : Obligations.BolometerEnergy) :
    (∃ t, exec (.bolSample 100 200 30) st207 = .next t)
    ∧ (∃ t, exec (.bolSample 1 2 3) st208 = .next t)
    ∧ (∃ t, exec (.bolCommit) st209 = .next t)
    ∧ (∃ t, exec (.bolCommit) st210 = .next t)
    ∧ (∃ t, exec (.bolSagAssert) st211 = .next t)
    ∧ (∃ t, exec (.bolSagClear) st212 = .next t)
    ∧ (∃ t, exec (.bolSagClear) dm = .next t)
    ∧ (∃ t, exec (.bolAuxLoss) st280 = .next t)
    ∧ (∃ t, exec (.auxRestore) dm = .next t)
    ∧ (∃ t, exec (.auxRestore) st281 = .next t) :=
  ⟨Completes.runs (((h.1 st207 100 200 30)) rfl),
   Completes.runs (((h.2.1 st208 1 2 3)) rfl),
   Completes.runs (((h.2.2.1 st209)) rfl rfl rfl),
   Completes.runs (((h.2.2.2.1 st210)) (by decide +kernel)),
   Completes.runs ((h.2.2.2.2.1 st211)),
   Completes.runs (((h.2.2.2.2.2.1 st212)) rfl rfl rfl),
   Completes.runs (((h.2.2.2.2.2.2.1 dm)) (by decide +kernel)),
   Completes.runs ((h.2.2.2.2.2.2.2.1 st280)),
   Completes.runs (((h.2.2.2.2.2.2.2.2.1 dm)) rfl),
   Completes.runs (((h.2.2.2.2.2.2.2.2.2 st281)) rfl)⟩

/-- The state of a witness below. -/
def st213 : State := {dm with regs:=[(regKey (home .bol 2 0x14),some 0x1F)]}

/-- The state of a witness below. -/
def st282 : State := {dm with bol:={now:={energy:=55,rest:=7,commit:=3,nextSeq:=4,log:=[⟨3,1,0,5,6,7⟩],reverse:=2},sealed_:=true,clip:=false,back:=false,fault:=false}}

/-- Helper of the witnesses. -/
def ufr (cmd : Nat) (l : List Byte) : List Byte :=
  let b := leBytes 2 (l.length + 1) ++ leBytes 1 cmd ++ l
  leBytes 1 0x7E ++ b ++ leBytes 4 (crc32 b)

/-- The state of a witness below. -/
def st283 : State := {dm with bol:={rx:=[0x7E]}}

/-- The state of a witness below. -/
def st284 : State := {dm with bol:={rx:=[0x7E,5]}}

/-- The state of a witness below. -/
def st285 : State := {dm with bol:={rx:=[0x7E,2,0,1,7,0,0]}}

/-- The hypotheses of `Obligations.BolometerEventsAndUart` are met on these states and operands, clause by clause. -/
theorem witness_BolometerEventsAndUart (h : Obligations.BolometerEventsAndUart) :
    (∃ t, exec (.bolSilenceTimeout) st213 = .next t)
    ∧ (∃ t, exec (.overRange true) st282 = .next t)
    ∧ (∃ t, exec (.reverse true) st282 = .next t)
    ∧ (∃ t, exec (.chainFault true) st282 = .next t)
    ∧ State.uartFrame (ufr 3 [1, 2, 3, 4, 5] ++ [9, 0x7E]) = some (some (3, [1, 2, 3, 4, 5]), [9, 0x7E])
    ∧ (∃ t, exec (.uartFrameTimeout [5]) st283 = .next t)
    ∧ (∃ t, exec (.read [1, 2, 3]) st208 = .next t)
    ∧ (∃ t, exec (.log [1, 2, 3]) st284 = .next t)
    ∧ (∃ t, exec (.identity [0, 0, 5, 6]) st285 = .next t)
    ∧ (∃ t, exec (.shuntSet (List.drop 1 (ufr 4 [1, 2, 3]) ++ [8])) st283 = .next t) :=
  ⟨Completes.runs ((h.2.2.1 st213)),
   Completes.runs (((h.2.1 st282 true (by decide +kernel)).1) (by decide +kernel)),
   Completes.runs (((h.2.1 st282 true (by decide +kernel)).2.1) (by decide +kernel)),
   Completes.runs (((h.2.1 st282 true (by decide +kernel)).2.2) (by decide +kernel)),
   h.1 3 [1, 2, 3, 4, 5] [9, 0x7E] (by decide +kernel) (by decide +kernel),
   Completes.runs ((h.2.2.2.1 st283 [5])),
   Completes.runs ((h.2.2.2.2.1 Instr.read 1 8 (by simp) st208 [1,2,3]).1 rfl),
   Completes.runs ((h.2.2.2.2.1 Instr.log 2 5 (by simp) st284 [1,2,3]).2.1 rfl rfl),
   Completes.runs ((h.2.2.2.2.1 Instr.identity 3 0 (by simp) st285 [0,0,5,6]).2.2.1 [5,6] rfl rfl),
   Completes.runs ((h.2.2.2.2.1 Instr.shuntSet 4 4 (by simp) st283 ((ufr 4 [1,2,3]).drop 1 ++ [8])).2.2.2.1 ({dm with bol:={rx:=[8]}}) [1,2,3] rfl (⟨_, rfl, by decide +kernel⟩) (by decide +kernel))⟩

/-- The state of a witness below. -/
def st286 : State := {dm with bol:={rx:=[]}}

/-- The state of a witness below. -/
def st287 : State := {dm with bol:={readSeq:=7}}

/-- The state of a witness below. -/
def st288 : State := {dm with bol:={saved:={energy:=55,rest:=7,commit:=3,nextSeq:=4,log:=[⟨3,1,0,5,6,7⟩],reverse:=2}}}

/-- The state of a witness below. -/
def st289 : State := {dm with bol:={}}

/-- The state of a witness below. -/
def st290 : State := {dm with bol:={now:={energy:=55,rest:=7,commit:=3,nextSeq:=4,log:=[⟨3,1,0,5,6,7⟩],reverse:=2},sealed_:=true,shunt:=5}}

/-- The state of a witness below. -/
def st291 : State := {dm with bol:={now:={energy:=55,rest:=7,commit:=3,nextSeq:=4,log:=[⟨3,1,0,5,6,7⟩],reverse:=2},shunt:=100000000}}

/-- More clauses of the same statement. -/
theorem witness_BolometerEventsAndUart_2 (h : Obligations.BolometerEventsAndUart) :
    (∃ t, exec (.shuntSeal (ufr 9 [1, 2, 3])) st286 = .next t)
    ∧ (∃ t, exec (.calSet (ufr 0 [])) st286 = .next t)
    ∧ (∃ t, exec (.read (ufr 1 (leBytes 8 4660))) st287 = .next t)
    ∧ (∃ t, exec (.log (ufr 2 (leBytes 5 (2 + 2 * 2 ^ 32)))) st288 = .next t)
    ∧ (∃ t, exec (.log (ufr 2 (leBytes 5 (2 + 17 * 2 ^ 32)))) st289 = .next t)
    ∧ (∃ t, exec (.identity (ufr 3 [])) st289 = .next t)
    ∧ (∃ t, exec (.shuntSet (ufr 4 (leBytes 4 100000000))) st209 = .next t)
    ∧ (∃ t, exec (.shuntSet (ufr 4 (leBytes 4 10))) st209 = .next t)
    ∧ (∃ t, exec (.shuntSet (ufr 4 (leBytes 4 100000000))) st290 = .next t)
    ∧ (∃ t, exec (.shuntSeal (ufr 5 (leBytes 4 100000000))) st291 = .next t) :=
  ⟨Completes.runs ((h.2.2.2.2.1 Instr.shuntSeal 5 4 (by simp) st286 (ufr 9 [1,2,3])).2.2.2.2 ({dm with bol:={rx:=[]}}) 9 [1,2,3] rfl (⟨_, rfl, by decide +kernel⟩) (by decide +kernel)),
   Completes.runs ((h.2.2.2.2.1 Instr.calSet 6 8 (by simp) st286 (ufr 0 [])).2.2.2.2 ({dm with bol:={rx:=[]}}) 0 [] rfl (⟨_, rfl, by decide +kernel⟩) (by decide +kernel)),
   Completes.runs ((h.2.2.2.2.2 st287 st287 (ufr 1 (leBytes 8 0x1234)) (leBytes 8 0x1234) (by decide +kernel)).1 (⟨_, rfl, by decide +kernel⟩) rfl),
   Completes.runs ((h.2.2.2.2.2 st288 st288 (ufr 2 (leBytes 5 (2+2*2^32))) (leBytes 5 (2+2*2^32)) (by decide +kernel)).2.1 (⟨_, rfl, by decide +kernel⟩) rfl (by decide +kernel) (by decide +kernel) (by first | decide +kernel)),
   Completes.runs ((h.2.2.2.2.2 st289 st289 (ufr 2 (leBytes 5 (2+17*2^32))) (leBytes 5 (2+17*2^32)) (by decide +kernel)).2.2.1 (⟨_, rfl, by decide +kernel⟩) rfl (by decide +kernel)),
   Completes.runs ((h.2.2.2.2.2 st289 st289 (ufr 3 []) [] (by decide +kernel)).2.2.2.1 (⟨_, rfl, by decide +kernel⟩)),
   Completes.runs ((h.2.2.2.2.2 st209 st209 (ufr 4 (leBytes 4 100000000)) (leBytes 4 100000000) (by decide +kernel)).2.2.2.2.1 (⟨_, rfl, by decide +kernel⟩) rfl rfl (by decide +kernel) (by decide +kernel)),
   Completes.runs ((h.2.2.2.2.2 st209 st209 (ufr 4 (leBytes 4 10)) (leBytes 4 10) (by decide +kernel)).2.2.2.2.2.1 (⟨_, rfl, by decide +kernel⟩) rfl rfl (by decide +kernel)),
   Completes.runs ((h.2.2.2.2.2 st290 st290 (ufr 4 (leBytes 4 100000000)) (leBytes 4 100000000) (by decide +kernel)).2.2.2.2.2.2.1 (⟨_, rfl, by decide +kernel⟩) rfl rfl),
   Completes.runs ((h.2.2.2.2.2 st291 st291 (ufr 5 (leBytes 4 100000000)) (leBytes 4 100000000) (by decide +kernel)).2.2.2.2.2.2.2.1 (⟨_, rfl, by decide +kernel⟩) rfl rfl rfl (by decide +kernel) rfl rfl)⟩

/-- The state of a witness below. -/
def st292 : State := {dm with bol:={shunt:=100000001}}

/-- More clauses of the same statement. -/
theorem witness_BolometerEventsAndUart_3 (h : Obligations.BolometerEventsAndUart) :
    (∃ t, exec (.shuntSeal (ufr 5 (leBytes 4 100000000))) st292 = .next t)
    ∧ (∃ t, exec (.calSet (ufr 6 (leBytes 8 (4294967040 + 77 * 2 ^ 32)))) st209 = .next t)
    ∧ (∃ t, exec (.calSet (ufr 6 (leBytes 8 (2147483392 + 77 * 2 ^ 32)))) st209 = .next t) :=
  ⟨Completes.runs ((h.2.2.2.2.2 st292 st292 (ufr 5 (leBytes 4 100000000)) (leBytes 4 100000000) (by decide +kernel)).2.2.2.2.2.2.2.2.1 (⟨_, rfl, by decide +kernel⟩) rfl (by decide +kernel)),
   Completes.runs (((h.2.2.2.2.2 st209 st209 (ufr 6 (leBytes 8 (0xFFFFFF00+77*2^32))) (leBytes 8 (0xFFFFFF00+77*2^32)) (by decide +kernel)).2.2.2.2.2.2.2.2.2 (⟨[], by decide +kernel, by decide +kernel⟩) (by decide +kernel) |>.1) (by decide +kernel) (by first | decide +kernel)),
   Completes.runs (((h.2.2.2.2.2 st209 st209 (ufr 6 (leBytes 8 (0x7FFFFF00+77*2^32))) (leBytes 8 (0x7FFFFF00+77*2^32)) (by decide +kernel)).2.2.2.2.2.2.2.2.2 (⟨[], by decide +kernel, by decide +kernel⟩) (by decide +kernel) |>.2) (by decide +kernel))⟩

/-- The state of a witness below. -/
def st214 : State := {dm with dome:={dm.dome with fuses:={states:=[0,0,0,0]}}}

/-- The state of a witness below. -/
def st215 : State := {dm with dome:={dm.dome with fuses:={states:=[2,1,0,0]}}}

/-- The BitVec 512 of a witness below. -/
def va91 : BitVec 512 := (BitVec.ofNat 512 (ofLeBytes (leBytes 32 (edEncode edBase) ++ leBytes 32 1)))

/-- Helper of the witnesses. -/
def chal (p : Nat) : Challenge := ⟨p, 5, [1, 2, 3], 70⟩

/-- Helper of the witnesses. -/
def chalSt (p : Nat) : State := { dm with dome := { dm.dome with challenge := some (chal p), fuses := { keys := [5, 0, 7, 8], states := [2, 1, 0, 0], svnMin := 2 }
                                                                 boot := { dm.dome.boot with running := { svn := 9 } } } }

/-- The hypotheses of `Obligations.OwnerSlotsAndReports` are met on these states and operands, clause by clause. -/
theorem witness_OwnerSlotsAndReports (h : Obligations.OwnerSlotsAndReports) :
    (∃ t, exec (.enrol 4660) st214 = .next t)
    ∧ (∃ t, exec (.enrol 4660) st215 = .next t)
    ∧ (∃ t, exec (.enrol 5) st216 = .next t)
    ∧ (∃ t, exec (.transfer 7) st216 = .next t)
    ∧ (∃ t, exec (.svnCommit 7) st216 = .next t)
    ∧ (∃ t, exec (.challenge false 1 85) dm = .next t)
    ∧ (∃ t, exec (.challenge true 3 85) dm = .next t)
    ∧ (∃ t, exec (.challenge false 0 85) dm = .next t)
    ∧ (∃ t, exec (.transfer va91) (chalSt 1) = .next t)
    ∧ (∃ t, exec (.svnCommit va91) (chalSt 2) = .next t) :=
  ⟨Completes.runs (((h.1.1 st214 0x1234 (by decide +kernel)).1) rfl),
   Completes.runs (((h.1.1 st215 0x1234 (by decide +kernel)).2) (by decide +kernel)),
   Completes.runs (h.1.2.1 st216 5 7 rfl rfl (Instr.enrol 5) 1 (by simp)),
   Completes.runs (h.1.2.1 st216 5 7 rfl rfl (Instr.transfer 7) 3 (by simp)),
   Completes.runs (h.1.2.1 st216 5 7 rfl rfl (Instr.svnCommit 7) 4 (by simp)),
   Completes.runs (((h.1.2.2.1 dm 1 0x55 rfl).1) (by decide +kernel) (by decide +kernel)),
   Completes.runs (((h.1.2.2.1 dm 3 0x55 rfl).2.1) (by decide +kernel)),
   Completes.runs (((h.1.2.2.1 dm 0 0x55 rfl).2.2) (by decide +kernel)),
   Completes.runs ((h.1.2.2.2.1 (chalSt 1) va91 (chal 1) (by decide +kernel) ⟨(by decide +kernel), (by decide +kernel)⟩).1 1 2 (by first | decide +kernel) (by decide +kernel) (by decide +kernel) (by decide +kernel)),
   Completes.runs ((h.1.2.2.2.1 (chalSt 2) va91 (chal 2) (by decide +kernel) ⟨(by decide +kernel), (by decide +kernel)⟩).2.1 (by first | decide +kernel) (by decide +kernel) (by decide +kernel) (by decide +kernel))⟩

/-- The state of a witness below. -/
def st221 : State := {dm with pkg:={dm.pkg with time:=60000000070},dome:={dm.dome with challenge:=some ⟨1,119,challengeBody 1 5 119,70⟩}}

/-- The state of a witness below. -/
def st222 : State := {dm with regs:=[(regKey (home .id 2 0x10),some 1)]}

/-- More clauses of the same statement. -/
theorem witness_OwnerSlotsAndReports_2 (h : Obligations.OwnerSlotsAndReports) :
    (∃ t, exec (.transfer 5) (chalSt 1) = .next t)
    ∧ (∃ t, exec (.svnCommit 5) (chalSt 2) = .next t)
    ∧ (∃ t, exec (.jtagResponse va91) (chalSt 3) = .next t)
    ∧ (∃ t, exec (.jtagResponse 5) (chalSt 3) = .next t)
    ∧ (∃ t, exec (.challengeExpiry) (chalSt 3) = .next t)
    ∧ (∃ t, exec (.challengeExpiry) st221 = .next t)
    ∧ (∃ t, exec (.trstN) dm = .next t)
    ∧ (∃ t, exec (.attest 4660) dm = .next t)
    ∧ (∃ t, exec (.idReqWrite 2 5) dm = .next t)
    ∧ (∃ t, exec (.idReqWrite 2 5) st222 = .next t) :=
  ⟨Completes.runs ((h.1.2.2.2.1 (chalSt 1) 5 (chal 1) (by decide +kernel) ⟨(by decide +kernel), (by decide +kernel)⟩).2.2.1 (Or.inr (by first | decide +kernel))),
   Completes.runs ((h.1.2.2.2.1 (chalSt 2) 5 (chal 2) (by decide +kernel) ⟨(by decide +kernel), (by decide +kernel)⟩).2.2.2 (Or.inr (by first | decide +kernel))),
   Completes.runs ((h.1.2.2.2.2.1 (chalSt 3) va91 (chal 3) (by decide +kernel) ⟨(by decide +kernel), (by decide +kernel)⟩).1 (by first | decide +kernel) (by decide +kernel)),
   Completes.runs ((h.1.2.2.2.2.1 (chalSt 3) 5 (chal 3) (by decide +kernel) ⟨(by decide +kernel), (by decide +kernel)⟩).2.1 (by first | decide +kernel)),
   Completes.runs ((h.1.2.2.2.2.1 (chalSt 3) 5 (chal 3) (by decide +kernel) ⟨(by decide +kernel), (by decide +kernel)⟩).2.2),
   Completes.runs (((h.1.2.2.2.2.2.1 st221 ⟨1,119,challengeBody 1 5 119,70⟩)) rfl (by decide +kernel)),
   Completes.runs ((h.1.2.2.2.2.2.2 dm)),
   Completes.runs (((h.2.1 dm 0x1234)) rfl),
   Completes.runs (((h.2.2.1 dm 2 5)) rfl (by decide +kernel) rfl (by decide +kernel)),
   Completes.runs (h.2.2.2.1 st222 2 5 (by decide +kernel))⟩

/-- The state of a witness below. -/
def st223 : State := {dm with dome:={dm.dome with reports:=[⟨2,5,leBytes 32 0x1234⟩,⟨4,0,[]⟩],fuses:={states:=[2,1,0,0]}}}

/-- The state of a witness below. -/
def st224 : State := {dm with dome:={dm.dome with reports:=[⟨4,5,leBytes 32 0x1234⟩,⟨4,0,[]⟩]}}

/-- More clauses of the same statement. -/
theorem witness_OwnerSlotsAndReports_3 (h : Obligations.OwnerSlotsAndReports) :
    (∃ t, exec (.idReportReady) st223 = .next t)
    ∧ (∃ t, exec (.idReportReady) st224 = .next t) :=
  ⟨Completes.runs (((h.2.2.2.2.1 st223 ⟨2,5,leBytes 32 0x1234⟩ [⟨4,0,[]⟩])) (by decide +kernel) (by decide +kernel)),
   Completes.runs (((h.2.2.2.2.2 st224 ⟨4,5,leBytes 32 0x1234⟩ [⟨4,0,[]⟩])) (by decide +kernel) rfl)⟩

/-- The hypothesis of `Obligations.StepRunsFront` is met. -/
theorem witness_StepRunsFront (h : Obligations.StepRunsFront) :
    step { s0 with pending := [.add m0, .sub m0] } = exec (.add m0) { s0 with pending := [.sub m0] } :=
  h { s0 with pending := [.add m0, .sub m0] } (.add m0) [.sub m0] rfl

/-- The hypotheses of `Obligations.IdleStep` are met on these states and operands, clause by clause. -/
theorem witness_IdleStep (h : Obligations.IdleStep) :
    (∃ t, step dm = .next t)
    ∧ step State.reset = .next State.reset :=
  ⟨((h.1 dm (by decide +kernel) (by decide +kernel) (by decide +kernel)).imp fun _ => And.left),
   (h.2 State.reset (by decide +kernel) (by decide +kernel))⟩

/-- `Obligations.ResetState` at the last unit it speaks of. -/
theorem witness_ResetState (h : Obligations.ResetState) : bits (State.reset.reg (State.unitReg 131 0x14)) 0 5 = 26 :=
  (h.2.2.2.2.2.2.2.2.2.2.2.2.2.2.1 131 (by omega)).1

/-- An outcome that is a next state, by evaluation. -/
theorem next_of {o : Host.Outcome State Fault Refusal} (h : (match o with | .next _ => true | _ => false) = true) : ∃ t, o = .next t := by
  cases o <;> first | exact ⟨_, rfl⟩ | cases h

/-- The hypotheses of `Obligations.MemoryStaysCanonical` are met by a step that stores. -/
theorem witness_MemoryStaysCanonical (h : Obligations.MemoryStaysCanonical) :
    ∃ t, step { st13 with pending := [.cmemBankAccess (.op 10) ⟨0, 0⟩] } = .next t ∧ Memory.wf t.mem = true :=
  (next_of (by decide +kernel)).imp fun t ht => ⟨ht, h _ t (by decide +kernel) ht⟩

/-- The hypotheses of `Obligations.ClusterMemoryStride` are met on these states and operands, clause by clause. -/
theorem witness_ClusterMemoryStride (h : Obligations.ClusterMemoryStride) :
    s0.peek (State.cmemLpa 3 12582912) = 0
    ∧ (∀ a, (s0.pokeLine 0 (State.cmemLpa 3 12582929) [5, 6]).peek a = s0.peek a)
    ∧ (s0.pokeLine 0 (State.cmemLpa 3 12582896) [5, 6]).peek (State.cmemLpa 3 12582896 + 1) = 6 :=
  ⟨(h.1 s0 3 0xC00000 (by decide +kernel) (by decide +kernel) (by decide +kernel)),
   (h.2.1 s0 0 3 0xC00011 [5,6] (by decide +kernel) (by decide +kernel) (by decide +kernel) (by first | decide +kernel)),
   ((h.2.2 s0 0 3 0xBFFFF0 [5,6] (by decide +kernel) (by decide +kernel) (by decide +kernel) (by first | decide +kernel)).1 1 6 rfl)⟩

/-- `Obligations.FenceValueOrder` at the edges of its range. -/
theorem witness_FenceValueOrder (h : Obligations.FenceValueOrder) :
    serialAfter 64 (0x8000000000000000 : BitVec 64).toNat (0 : BitVec 64).toNat = false
      ∧ serialAfter 64 (1 : BitVec 64).toNat (0 : BitVec 64).toNat = true :=
  ⟨(h 0x8000000000000000 0).2 (Or.inr (by decide +kernel)), (h 1 0).1.2 (by decide +kernel)⟩

theorem test_wf_start : (Instr.startUpStageEnd { w0 with hku := [] }).wellFormed = false := by decide +kernel

end Sys2Proof.Tests
end

section
namespace Sys2Proof.Machine
open Sys2Proof.Machine.State

/-! ### Registers behind a leading register (R13, R521) -/

theorem copyKey_inj {a : RegAddr} {o o' : Nat} (h : copyKey a o = copyKey a o') : o = o' := by
  simp only [copyKey, regKey] at h
  omega

theorem latchBehind_eq (s : State) (a : RegAddr) (l : List Nat) : s.latchBehind a l = { s with latch := (s.latchBehind a l).latch } :=
  State.foldl_keeps (fun t => t = { s with latch := t.latch }) _ (fun t o h => by rw [h]) l s rfl

/-- Registers are read as they stood before the latching: it changes none. -/
theorem latch_latchBehind (s : State) (a : RegAddr) (l : List Nat) (k : Nat) :
    (∀ o ∈ l, k = copyKey a o → (s.latchBehind a l).latch.get 0 k = s.reg { a with off := o })
      ∧ ((∀ o ∈ l, k ≠ copyKey a o) → (s.latchBehind a l).latch.get 0 k = s.latch.get 0 k) := by
  induction l generalizing s with
  | nil => exact ⟨fun o ho => absurd ho List.not_mem_nil, fun _ => rfl⟩
  | cons o l ih =>
    obtain ⟨hin, hout⟩ := ih { s with latch := s.latch.set 0 (copyKey a o) (s.reg { a with off := o }) }
    refine ⟨fun o' ho' hk => ?_, fun hk => ?_⟩
    · by_cases hl : o' ∈ l
      · exact hin o' hl hk
      · have ho : o' = o := (List.mem_cons.1 ho').resolve_right hl
        subst ho; subst hk
        exact (hout fun x hx e => hl (copyKey_inj e ▸ hx)).trans (SMap.get_set_same ..)
    · exact (hout fun x hx => hk x (List.mem_cons_of_mem _ hx)).trans (SMap.get_set_ne _ _ _ _ (hk o List.mem_cons_self).symm)

/-- A register that no block computes, outside the switched domains and without write-only bits, shows what is stored. -/
theorem regValue_stored {s : State} {a : RegAddr} {d : RegDef} {base : Nat} (hd : regDomain { a with off := base } = none)
    (hv : s.viewReg { a with off := base } base = none) (hw : d.wo = 0) :
    s.regValue a d base % 2 ^ 32 = s.reg { a with off := base } % 2 ^ 32 := by
  unfold regValue asleep
  simp only [hd, hv, hw, Bool.false_and, Bool.false_eq_true, if_false, Nat.xor_zero, Nat.and_two_pow_sub_one_eq_mod]
  omega

/-- The read of a leading register: its word as it stands, and the registers behind it latched. -/
theorem readOut_lead {s : State} {a : RegAddr} {d : RegDef} {l : List Nat} (hk : a.kind = .prog ∨ a.kind = .bol)
    (hh : homed a = a) (ho : a.kind = .prog ∨ a.off ≠ 0) (hb : regBase a = some (d, a.off)) (hd : d.wide = false) (hw : d.wo = 0)
    (hl : latchLead a = some (a.off, l)) (hn : l.contains a.off = false) :
    s.readOut a = (s.latchBehind a l).emit (.value a.kind.code a.inst a.off (s.reg a % 2 ^ 32)) := by
  have hcat : (a.kind == .cat) = false := by rcases hk with h | h <;> rw [h] <;> rfl
  have hid : (decide (a.off = 0) && a.kind != .prog) = false := by rcases ho with h | h <;> simp [h]
  have hval : (s.latchBehind a l).regValue a d a.off % 2 ^ 32 = s.reg a % 2 ^ 32 := by
    rw [regValue_stored (by rcases hk with h | h <;> simp [regDomain, h]) (by rcases hk with h | h <;> simp [viewReg, h]) hw, latchBehind_eq]
    rfl
  unfold readOut regRead readValue
  simp only [hh, hcat, hid, hb, hl, hn, hd, if_true, Bool.false_eq_true, if_false, Bool.not_false, hval]

theorem completes_readOut_lead {s : State} {c : Instr} {a : RegAddr} {d : RegDef} {l : List Nat} {P : State → Prop}
    (hc : exec c s = .next (s.readOut a)) (hk : a.kind = .prog ∨ a.kind = .bol)
    (hh : homed a = a) (ho : a.kind = .prog ∨ a.off ≠ 0) (hb : regBase a = some (d, a.off)) (hd : d.wide = false) (hw : d.wo = 0)
    (hl : latchLead a = some (a.off, l)) (hn : l.contains a.off = false)
    (hP : ∀ t : State, t.out = s.out ++ [.value a.kind.code a.inst a.off (s.reg a % 2 ^ 32)] →
      (∀ o ∈ l, t.latch.get 0 (copyKey a o) = s.reg { a with off := o }) → t = { s with out := t.out, latch := t.latch } → P t) :
    Completes c s P := by
  refine ⟨_, hc, ?_⟩
  rw [readOut_lead hk hh ho hb hd hw hl hn]
  refine hP _ ?_ (fun o ho => (latch_latchBehind s a l _).1 o ho rfl) ?_
  · rw [latchBehind_eq]; rfl
  · rw [latchBehind_eq]; rfl

/-! ### The debug select of the counters and the reset of a fence -/

theorem asleep_region_on {s : State} {a : RegAddr} {r : Nat} (h : regDomain a = some (32 + r)) (hon : s.domOn (32 + r) = true) (d : RegDef) (base : Nat) :
    s.asleep a d base = false := by
  unfold asleep; rw [h]; simp [hon]

/-- FEN_CTL of fence `f` of region `r` (R288). -/
theorem regBase_fenCtl (r f : Nat) (hf : f < 1024) :
    regBase (home .fen r (0x1001C + 32 * f)) = some (⟨0x1001C, 32, 1024, false, 0, 0, 0, 1, 0⟩, 0x1001C + 32 * f) := by
  have hdef : findDef (regDefs .fen) (0x1001C + 32 * f) = some ⟨0x1001C, 32, 1024, false, 0, 0, 0, 1, 0⟩ := by
    refine List.find?_eq_some_iff_append.2 ⟨by simp; omega, regDefsFen.dropLast, [], rfl, ?_⟩
    simp [regDefsFen, ro, perf]
    omega
  simp only [regBase, home, hdef, Option.map_some, Option.some.injEq, Prod.mk.injEq, true_and]
  rw [if_neg (by decide)]
  omega

/-- A write of a 32-bit register whose domain is on takes effect in full. -/
theorem regWrite_narrow {s : State} {a : RegAddr} {d : RegDef} {base : Nat} (hb : regBase a = some (d, base)) (hd : d.wide = false)
    (ha : s.asleep a d base = false) (v idx : Nat) : s.regWrite a v idx = s.regWriteFull a d base (v % 2 ^ 32) idx := by
  unfold regWrite
  simp [hb, hd, ha]

/-- CTR_DBG_SEL_WRITE in a region whose fabric is on. -/
theorem exec_ctrDbgSelWrite {s : State} {r : Fin 4} (w : W32) (hon : s.domOn (32 + r.val) = true) :
    exec (.ctrDbgSelWrite r w) s = .next (s.ctrSelect r.val w.toNat) := by
  have hb : regBase (home .ctr r.val 0x10) = some (⟨0x10, 0, 1, false, 0xFFF, 0, 0, 0, 0⟩, 0x10) := rfl
  have ha := asleep_region_on (s := s) (a := home .ctr r.val 0x10) rfl hon ⟨0x10, 0, 1, false, 0xFFF, 0, 0, 0, 0⟩ 0x10
  have hw : w.toNat % 2 ^ 32 = w.toNat := Nat.mod_eq_of_lt w.isLt
  show execCtrDbgSelWrite r w s = _
  rw [execCtrDbgSelWrite, regWrite_narrow hb rfl ha, hw, regWriteFull]
  simp only [home] at ha ⊢
  simp [ha]

/-- RESET written to FEN_CTL (R287). -/
theorem regWriteFull_fenCtl {s : State} {a : RegAddr} {d : RegDef} {base : Nat} (hk : a.kind = .fen) (ha : s.asleep { a with off := base } d base = false)
    (hlo : 0x10000 ≤ base) (hctl : base % 32 = 28) {v : Nat} (hv : bit v 0 = true) (idx : Nat) :
    s.regWriteFull a d base v idx = s.fenceReset (a.inst * 1024 + (base - 0x10000) / 32) := by
  unfold regWriteFull
  simp only [ha, Bool.false_eq_true, if_false]
  simp only [hk, hctl, hv, if_neg (Nat.not_lt.2 hlo), decide_true, Bool.and_self, if_true]

/-- FEN_CTL_RESET in a region whose fabric is on. -/
theorem exec_fenCtlReset {s : State} {r : Fin 4} (f : Fin 1024) (hon : s.domOn (32 + r.val) = true) :
    exec (.fenCtlReset r f) s = .next (s.fenceReset (r.val * 1024 + f.val)) := by
  have ha := asleep_region_on (s := s) (a := home .fen r.val (0x1001C + 32 * f.val)) rfl hon ⟨0x1001C, 32, 1024, false, 0, 0, 0, 1, 0⟩
    (0x1001C + 32 * f.val)
  have hf : (0x1001C + 32 * f.val - 0x10000) / 32 = f.val := by omega
  show Host.Outcome.next (s.regWrite _ _ _) = _
  rw [regWrite_narrow (regBase_fenCtl r.val f.val f.isLt) rfl ha,
    regWriteFull_fenCtl (a := home .fen r.val (0x1001C + 32 * f.val)) rfl ha (by omega) (by omega) rfl, hf]
  rfl

theorem setFence_fence (s : State) (k j : Nat) (f : Fence) : (s.setFence k f).fence j = if k = j then f else s.fence j :=
  SMap.get_set ({} : Fence) s.fences k f j

/-- Settles O20: a read of a leading register latches those behind it; the counters' debug select takes its snapshot; a RESET clears the error of a
FAULTED fence alone. -/
theorem registerSideEffects : Obligations.RegisterSideEffects := by
  unfold Obligations.RegisterSideEffects
  refine ⟨⟨fun s n => ?_, fun s p => ?_⟩, fun s r w hon => ?_, fun s r f hon => ⟨fun hf => ?_, fun hf => ?_⟩⟩
  · refine completes_readOut_lead (a := home .prog n 0) (l := [0x08, 0x10, 0x18]) rfl (.inl rfl) rfl (.inl rfl) rfl rfl rfl rfl rfl
      fun t hout hlatch ht => ⟨hout, fun o ho => hlatch o ?_, ht⟩
    rcases ho with rfl | rfl | rfl <;> decide
  · refine completes_readOut_lead (a := home .bol p.val 0x10) rfl (.inr rfl) rfl (.inr (Nat.succ_ne_zero _)) rfl rfl rfl rfl rfl
      fun t hout hlatch ht => ⟨hout, fun o ho => hlatch o ?_, ht⟩
    rcases ho with rfl | rfl | rfl | rfl <;> decide
  · refine ⟨_, exec_ctrDbgSelWrite w hon, ?_, ?_, rfl⟩
    · simp [ctrSelect]
    · exact setReg_reg_same s _ _
  · refine ⟨_, exec_fenCtlReset f hon, ?_⟩
    rw [fenceReset, if_pos hf]
    exact ⟨by simp [setFence_fence], fun j hj => by simp [setFence_fence, hj.symm], rfl⟩
  · refine ⟨_, exec_fenCtlReset f hon, ?_⟩
    have hr : (r.val * 1024 + f.val) / 1024 = r.val := by omega
    have hm : (r.val * 1024 + f.val) % 1024 = f.val := by omega
    rw [fenceReset, if_neg (by simp [hf]), hr, hm]
    exact ⟨rfl, setReg_reg_same s _ _, rfl⟩

end Sys2Proof.Machine
end

section
namespace Sys2Proof.Machine

/-- PRT_EXT_BASE of entry 8 of partition 0. -/
def extBase8 : RegAddr := home .prt 0 0x1100

/-- The state after a cold reset, but for a held low word of PRT_EXT_BASE of entry 8 that does not fit in 32 bits. No command leaves such a word:
`State.regWrite` holds a word modulo 2^32. -/
def overlongHeld : State := { State.reset with held := [(regKey extBase8, some (2 ^ 32))] }

/-- Refutes O19: its clause on the range registers of an extent takes the held low word modulo 2^32, while HIGH_WORD_WRITE adds the held word as it
stands. -/
theorem not_registerAccesses : ¬ Obligations.RegisterAccesses := by
  unfold Obligations.RegisterAccesses
  rintro ⟨-, ⟨-, -, -, -, hrange, -⟩, -⟩
  obtain ⟨t, hhigh, hrow⟩ :=
    hrange overlongHeld 0 8 0 0 0 ⟨0x1000, 32, 64, true, 0xFFFFFFF0000, 0, 0, 0, 0⟩ rfl (by decide)
  have hb : (t.extent 0 8).base = 0x10000 := by
    rw [← Host.Outcome.next.inj hhigh]; decide
  have hb' : (t.extent 0 8).base = 0 := by
    rw [← Host.Outcome.next.inj hrow]; decide
  omega

end Sys2Proof.Machine
end

section
/-! ### Operations in flight: their map, and how issuing changes it -/

namespace Sys2Proof.SMap

variable {α β : Type}

theorem get_map (d : α) (d' : β) (f : α → β) (hd : f d = d') (m : SMap α) (k : Nat) :
    get d' (m.map (fun e => (e.1, f e.2))) k = f (get d m k) := by
  induction m with
  | nil => exact hd.symm
  | cons e m ih =>
    rw [List.map_cons, get_cons, get_cons, ih]
    split <;> rfl

theorem mem_of_get {d v : α} {m : SMap α} {k : Nat} (h : get d m k = v) (hv : v ≠ d) : (k, v) ∈ m := by
  induction m with
  | nil => exact absurd h.symm hv
  | cons e m ih =>
    rw [get_cons] at h
    split at h
    · next hk => subst hk; subst h; exact List.mem_cons_self
    · exact List.mem_cons_of_mem _ (ih h)

/-- A write lists its entry once among those of the other keys. -/
theorem set_split [DecidableEq α] {d v : α} (m : SMap α) (k : Nat) (hv : v ≠ d) :
    ∃ l r, set d m k v = l ++ (k, v) :: r ∧ ∀ e ∈ l ++ r, e ∈ m := by
  have hput : ∀ m : SMap α, (∀ e ∈ m, e.1 ≠ k) → ∃ l r, put m k v = l ++ (k, v) :: r ∧ m = l ++ r := by
    intro m hm
    induction m with
    | nil => exact ⟨[], [], rfl, rfl⟩
    | cons e m ih =>
      rw [put, if_neg (hm e List.mem_cons_self)]
      split
      · exact ⟨[], e :: m, rfl, rfl⟩
      · obtain ⟨l, r, hl, hm⟩ := ih fun x hx => hm x (List.mem_cons_of_mem _ hx)
        exact ⟨e :: l, r, by rw [hl]; rfl, by rw [hm]; rfl⟩
  obtain ⟨l, r, hl, hm⟩ := hput (m.dropIf (fun x => x == k)) fun e he => by simpa using (List.mem_filter.1 he).2
  exact ⟨l, r, by rw [set, if_neg hv, hl], fun e he => List.mem_of_mem_filter (hm ▸ he)⟩

end Sys2Proof.SMap

namespace Sys2Proof.Machine
open Sys2Proof.Machine.State

theorem op_addOp (s : State) (o : MemOp) (id : Nat) : (s.addOp o).op id = if s.nextOp = id then some o else s.op id :=
  SMap.get_set none s.ops s.nextOp (some o) id

theorem mem_opList {s : State} {id : Nat} {o : MemOp} (h : s.op id = some o) : (id, o) ∈ s.opList :=
  List.mem_filterMap.2 ⟨(id, some o), SMap.mem_of_get h (Option.some_ne_none o), rfl⟩

/-- The operations in flight after one more: that one, once, among some of those before. -/
theorem opList_addOp (s : State) (o : MemOp) :
    ∃ l r, (s.addOp o).opList = l ++ (s.nextOp, o) :: r ∧ ∀ e ∈ l ++ r, e ∈ s.opList := by
  obtain ⟨l, r, hs, hm⟩ := SMap.set_split (d := none) (v := some o) s.ops s.nextOp (Option.some_ne_none o)
  refine ⟨l.filterMap fun e => e.2.map fun o => (e.1, o), r.filterMap fun e => e.2.map fun o => (e.1, o), ?_, fun e he => ?_⟩
  · show List.filterMap _ (SMap.set none s.ops s.nextOp (some o)) = _
    rw [hs]
    simp
  · rw [← List.filterMap_append, List.mem_filterMap] at he
    obtain ⟨x, hx, he⟩ := he
    exact List.mem_filterMap.2 ⟨x, hm x hx, he⟩

end Sys2Proof.Machine

namespace Sys2Proof.Machine

/-- An operation without the mark that its line may enter the L1 (R187), which later writes of its unit change. -/
def MemOp.unmarked (o : MemOp) : MemOp := { o with keepL1 := true }

/-- From `s` to `t` operations have been issued: under the numbers before nothing has changed but those marks, and the caches of the units hold no
line more. -/
structure Issued (s t : State) : Prop where
  frame : t = { s with regs := t.regs, units := t.units, ops := t.ops, nextOp := t.nextOp }
  next : s.nextOp ≤ t.nextOp
  op : ∀ id, id < s.nextOp → (t.op id).map MemOp.unmarked = (s.op id).map MemOp.unmarked
  caches : ∀ u c, c ∈ (t.unit u).l1 ++ (t.unit u).cc → c ∈ (s.unit u).l1 ++ (s.unit u).cc

theorem Issued.refl (s : State) : Issued s s := ⟨rfl, le_rfl, fun _ _ => rfl, fun _ _ h => h⟩

theorem Issued.trans {s t u : State} (h : Issued s t) (h' : Issued t u) : Issued s u where
  frame := by
    have hf := h'.frame
    rw [h.frame] at hf
    exact hf
  next := h.next.trans h'.next
  op id hid := (h'.op id (hid.trans_le h.next)).trans (h.op id hid)
  caches u c hc := h.caches u c (h'.caches u c hc)

theorem issued_addOp (s : State) (o : MemOp) : Issued s (s.addOp o) where
  frame := rfl
  next := Nat.le_succ _
  op id hid := by rw [op_addOp, if_neg (Nat.ne_of_gt hid)]
  caches _ _ h := h

theorem issued_bumpUnit (s : State) (u off n : Nat) : Issued s (s.bumpUnit u off n) where
  frame := by unfold State.bumpUnit State.bump; split <;> rfl
  next := by simp
  op id _ := by simp [State.op]
  caches u c h := by simpa [State.unit] using h

theorem issued_ownWrite (s : State) (u line : Nat) : Issued s (s.ownWrite u line) where
  frame := rfl
  next := le_rfl
  op id _ := by
    have hget := SMap.get_map none none (Option.map fun o : MemOp =>
      if o.unit = u && o.line = line && o.remote.isNone then { o with keepL1 := false } else o) rfl s.ops id
    refine (congrArg _ hget).trans ?_
    rw [Option.map_map]
    refine Option.map_congr fun o _ => ?_
    rw [Function.comp_apply]
    split <;> rfl
  caches v c h := by
    by_cases hv : u = v
    · subst hv
      simp only [State.ownWrite, State.unit, State.setUnit, SMap.get_set_same, List.mem_append, List.mem_filter] at h ⊢
      exact h.imp_left And.left
    · simpa [State.ownWrite, State.unit, State.setUnit, SMap.get_set, hv] using h

/-- The operation `o` has been issued between `s` and `t`. -/
def IssuedOp (s t : State) (o : MemOp) : Prop :=
  ∃ id, s.nextOp ≤ id ∧ id < t.nextOp ∧ (t.op id).map MemOp.unmarked = some o.unmarked

theorem issuedOp_addOp (s : State) (o : MemOp) : IssuedOp s (s.addOp o) o :=
  ⟨s.nextOp, le_rfl, Nat.lt_succ_self _, by rw [op_addOp, if_pos rfl]; rfl⟩

theorem IssuedOp.mono {s s' t t' : State} {o : MemOp} (h : IssuedOp s' t o) (hs : Issued s s') (ht : Issued t t') : IssuedOp s t' o := by
  obtain ⟨id, hlo, hhi, hop⟩ := h
  exact ⟨id, hs.next.trans hlo, hhi.trans_le ht.next, (ht.op id hhi).trans hop⟩

/-- A fold of steps that issue operations: each element's step stands somewhere in it. -/
theorem Issued.foldl {α : Type} {f : State → α → State} {s₀ : State} (hf : ∀ s a, Issued s₀ s → Issued s (f s a)) (l : List α) {s : State}
    (hs : Issued s₀ s) : Issued s (l.foldl f s) ∧ ∀ a ∈ l, ∃ s', Issued s s' ∧ Issued (f s' a) (l.foldl f s) := by
  induction l generalizing s with
  | nil => exact ⟨.refl s, fun a ha => absurd ha List.not_mem_nil⟩
  | cons b l ih =>
    obtain ⟨hall, heach⟩ := ih (hs.trans (hf s b hs))
    refine ⟨(hf s b hs).trans hall, fun a ha => ?_⟩
    rcases List.mem_cons.1 ha with rfl | ha
    · exact ⟨s, .refl s, hall⟩
    · obtain ⟨s', h, h'⟩ := heach a ha
      exact ⟨s', (hf s b hs).trans h, h'⟩

/-- So a step that issues an operation for an element issues it in the fold. -/
theorem IssuedOp.foldl {α : Type} {f : State → α → State} {s₀ : State} (hf : ∀ s a, Issued s₀ s → Issued s (f s a)) {l : List α} {a : α}
    (ha : a ∈ l) {o : MemOp} (ho : ∀ s, Issued s₀ s → IssuedOp s (f s a) o) : IssuedOp s₀ (l.foldl f s₀) o := by
  obtain ⟨s', h, h'⟩ := (Issued.foldl hf l (.refl s₀)).2 a ha
  exact (ho s' h).mono h h'

/-! ### One operation for each access (R186, R187, R188, R224) -/

theorem accessAt_line (lpa : Nat) : accessAt lpa / 128 * 128 = lpa / 128 * 128 := by
  unfold accessAt
  split <;> omega

theorem place_line_hbm (lpa : Nat) : place (lpa / 128 * 128) = .hbm ↔ place lpa = .hbm := by
  have h : ∀ a, place a = .hbm ↔ a < 0x9000000000 := by
    intro a
    unfold place
    repeat' split
    all_goals simp; try omega
  rw [h, h]
  omega

theorem mem_accessesOf {l : List LaneOp} {y : LaneOp} (h : y ∈ l) : accessAt y.lpa ∈ accessesOf l :=
  List.mem_eraseDups.2 (List.mem_map_of_mem h)

theorem issued_loadLine (u : Nat) (o : MemOp) (s : State) : Issued s (State.loadLine u o s) := by
  unfold State.loadLine
  dsimp only
  split
  · exact issued_addOp ..
  · split
    · exact (issued_bumpUnit ..).trans (issued_addOp ..)
    · exact (issued_bumpUnit ..).trans (issued_addOp ..)

theorem issued_constLine (u : Nat) (o : MemOp) (s : State) : Issued s (State.constLine u o s) := by
  unfold State.constLine
  split
  · exact issued_loadLine ..
  · split
    · exact issued_addOp ..
    · exact (issued_bumpUnit ..).trans (issued_addOp ..)

theorem issuedOp_bump_addOp (s : State) (u off n : Nat) {o o' : MemOp} (h : o.unmarked = o'.unmarked) : IssuedOp s ((s.bumpUnit u off n).addOp o) o' := by
  obtain ⟨id, hlo, hhi, hop⟩ := (issuedOp_addOp (s.bumpUnit u off n) o).mono (issued_bumpUnit s u off n) (.refl _)
  exact ⟨id, hlo, hhi, h ▸ hop⟩

theorem issuedOp_loadLine {u : Nat} {o : MemOp} {s : State} (h : ∀ c ∈ (s.unit u).l1, c.1 ≠ o.line) : IssuedOp s (State.loadLine u o s) o := by
  have hfind : (s.unit u).l1.find? (fun c => c.1 == o.line) = none := List.find?_eq_none.2 fun c hc => by simpa using h c hc
  unfold State.loadLine
  simp only [hfind, ite_self]
  split
  · exact issuedOp_addOp s o
  · exact issuedOp_bump_addOp s u _ _ rfl

/-- What `constLine` sends for a line: through the constant path in HBM, else a plain load. -/
def MemOp.constAt (o : MemOp) : MemOp := if place o.line = .hbm then o else { o with kind := .load }

theorem issuedOp_constLine {u : Nat} {o : MemOp} {s : State} (h : ∀ c ∈ (s.unit u).l1 ++ (s.unit u).cc, c.1 ≠ o.line) :
    IssuedOp s (State.constLine u o s) o.constAt := by
  have hfind : (s.unit u).cc.find? (fun c => c.1 == o.line) = none :=
    List.find?_eq_none.2 fun c hc => by simpa using h c (List.mem_append_right _ hc)
  unfold State.constLine MemOp.constAt
  by_cases hp : place o.line = .hbm
  · simp only [hp, hfind, bne_self_eq_false, Bool.false_eq_true, if_false, if_true]
    exact issuedOp_bump_addOp s u _ _ rfl
  · simp only [bne_iff_ne, ne_eq, hp, not_false_eq_true, if_true, if_false]
    exact issuedOp_loadLine fun c hc => h c (List.mem_append_left _ hc)

/-- The operation that `sendOp` issues for the access at `a`. -/
def State.pieceOp (s : State) (u : Nat) (o : MemOp) (here : List LaneOp) (low a : Nat) : MemOp :=
  let o := { o with line := a / 128 * 128, lanes := here.filter (fun x => accessAt x.lpa == a), part := s.memPart u a }
  if o.udst && !(o.lanes.any (fun x => x.lane == low)) then { o with udst := false, dst := 255 } else o

theorem sendOp_here (s : State) (u : Nat) (o : MemOp) (here : List LaneOp) (low : Nat) (one : MemOp → State → State) :
    s.sendOp u o here [] low one = (accessesOf here).foldl (fun s a => one (s.pieceOp u o here low a) s) s := rfl

theorem pieceOp_eq (s : State) (u : Nat) (o : MemOp) (here : List LaneOp) (low a : Nat) :
    ∃ p ud d, s.pieceOp u o here low a
      = { o with line := a / 128 * 128, lanes := here.filter (fun x => accessAt x.lpa == a), part := p, udst := ud, dst := d } := by
  unfold State.pieceOp
  dsimp only
  split
  · exact ⟨_, _, _, rfl⟩
  · exact ⟨_, _, _, rfl⟩

theorem Issued.memPart {s t : State} (h : Issued s t) (u a : Nat) : t.memPart u a = s.memPart u a := by rw [h.frame]; rfl

theorem Issued.pieceOp {s t : State} (h : Issued s t) (u : Nat) (o : MemOp) (here : List LaneOp) (low a : Nat) :
    t.pieceOp u o here low a = s.pieceOp u o here low a := by unfold State.pieceOp; rw [h.memPart]

theorem issued_sendOp {one : MemOp → State → State} (hone : ∀ o s, Issued s (one o s)) (s : State) (u : Nat) (o : MemOp) (here : List LaneOp)
    (low : Nat) : Issued s (s.sendOp u o here [] low one) :=
  (Issued.foldl (fun s _ _ => hone _ s) _ (.refl s)).1

/-- Between `s` and `t` an operation of a kind with lane `y` among its lanes has been issued, with unit, slot, bytes and instruction as in `o`. -/
def LaneIssued (s t : State) (o : MemOp) (kind : OpKind) (y : LaneOp) : Prop :=
  ∃ ln ls p ud d, y ∈ ls ∧ IssuedOp s t { o with kind := kind, line := ln, lanes := ls, part := p, udst := ud, dst := d }

/-- Each lane here is in an operation issued, of the kind that its access is sent as. -/
theorem sendOp_laneIssued {one : MemOp → State → State} (hone : ∀ o s, Issued s (one o s)) {s : State} {u : Nat} {o : MemOp} {here : List LaneOp}
    {low : Nat} {y : LaneOp} (hy : y ∈ here) {kind : OpKind}
    (hstep : ∀ s' o', Issued s s' → o'.kind = o.kind → o'.line = y.lpa / 128 * 128 → IssuedOp s' (one o' s') { o' with kind := kind }) :
    LaneIssued s (s.sendOp u o here [] low one) o kind y := by
  obtain ⟨p, ud, d, he⟩ := pieceOp_eq s u o here low (accessAt y.lpa)
  refine ⟨accessAt y.lpa / 128 * 128, here.filter (fun x => accessAt x.lpa == accessAt y.lpa), p, ud, d,
    List.mem_filter.2 ⟨hy, beq_self_eq_true _⟩, ?_⟩
  rw [sendOp_here]
  refine IssuedOp.foldl (fun s _ _ => hone _ s) (mem_accessesOf hy) fun s' hs' => ?_
  rw [hs'.pieceOp, he]
  exact hstep s' _ hs' rfl (accessAt_line y.lpa)

theorem sendOp_laneIssued_same {one : MemOp → State → State} (hone : ∀ o s, Issued s (one o s)) (hstep : ∀ o s, IssuedOp s (one o s) o) (s : State)
    (u : Nat) (o : MemOp) {here : List LaneOp} (low : Nat) {y : LaneOp} (hy : y ∈ here) :
    LaneIssued s (s.sendOp u o here [] low one) o o.kind y :=
  sendOp_laneIssued hone hy fun s' o' _ hk _ => by
    rw [← hk]
    exact hstep o' s'

end Sys2Proof.Machine
end

section
/-! ### The state in which a memory instruction takes effect -/

namespace Sys2Proof.Machine
open Sys2Proof.Machine.State

/-- Whom a group works for: whether it is resident, its partition, stream and command. -/
def Grp.owner (g : Grp) : Bool × Nat × Nat × Nat := (g.live, g.part, g.stream, g.cmd)

theorem bookIssue_owner (s : State) (i : Iss) (ready : Nat) (forced : Bool) :
    ((s.bookIssue i ready forced).grp i.u i.k).owner = (s.grp i.u i.k).owner ∧ (s.bookIssue i ready forced).strs = s.strs := by
  unfold State.bookIssue
  extract_lets g g' s1 s2 s3
  have hg : g'.owner = g.owner := by
    refine List.foldlRecOn (motive := fun x : Grp => x.owner = g.owner) _ _ rfl fun x hx l _ => ?_
    split
    · exact hx
    · split <;> exact hx
  have hgroups : (if forced then s3.bumpUnit i.u 0x140 1 else s3).groups = s1.groups := by split <;> simp [s3, s2]
  refine ⟨?_, by split <;> simp [s3, s2, s1]⟩
  rw [grp_congr hgroups]
  exact (congrArg Grp.owner (setGrp_grp_same s i.u i.k { g' with pass := false })).trans hg

theorem delivery_owner (s : State) (sh : Shape) (mi : Mi) (i : Iss) :
    ((s.delivery sh mi i).grp i.u i.k).owner = (s.grp i.u i.k).owner ∧ (s.delivery sh mi i).strs = s.strs := by
  unfold State.delivery
  extract_lets srcs rc g hit missed s1 s2 s3 place
  split
  · exact ⟨by rw [grp_congr (s := s) (by simp)], by simp⟩
  · refine ⟨?_, by simp [s3, s2, s1]⟩
    rw [setGrp_grp_same]
    exact List.foldlRecOn (motive := fun x : Grp => x.owner = g.owner) _ _ rfl fun x hx _ _ => hx

/-- What an issued instruction finds when it takes effect: the state but for the bookkeeping of the issue and the register caches. -/
structure Prepared (s s' : State) (i : Iss) : Prop where
  keeps : Keeps s s'
  strs : s'.strs = s.strs
  regs : SameRegs (s.grp i.u i.k) (s'.grp i.u i.k)
  owner : (s'.grp i.u i.k).owner = (s.grp i.u i.k).owner

theorem prepared_atIssue (s : State) (sh : Shape) (mi : Mi) {i : Iss} (forced : Bool) (hu : i.u < 132) : Prepared s (s.atIssue sh mi i forced) i := by
  obtain ⟨hk, hr, -, -⟩ := atIssue_spec s sh mi i forced hu
  obtain ⟨hb, hbs⟩ := bookIssue_owner s i (s.readyLanes i.u i.k mi.stall.toNat) forced
  obtain ⟨hd, hds⟩ := delivery_owner (s.bookIssue i (s.readyLanes i.u i.k mi.stall.toNat) forced) sh mi i
  exact ⟨hk, hds.trans hbs, hr, hd.trans hb⟩

/-! ### What an issue tells -/

section
variable {s : State} {sh : Shape} {mi : Mi} {i : Iss} (h : Issues s sh mi i)
include h

theorem Issues.unit_eq : i.u = mi.unit.val := h.1

theorem Issues.unit_lt : i.u < 132 := h.1 ▸ mi.unit.isLt

theorem Issues.live : (s.grp i.u i.k).live = true := by
  obtain ⟨-, -, hmay, -⟩ := h
  simp only [State.mayIssue, Bool.and_eq_true] at hmay
  exact hmay.1.1.1.1

theorem Issues.exec_eq : i.exec = (s.grp i.u i.k).guarded i.chosen mi.pred.toNat mi.pneg ∧ i.exec ≠ 0 := by
  obtain ⟨-, -, -, -, -, -, -, -, hexec, hne, -⟩ := h
  exact ⟨hexec, hne⟩

end

/-- Distinct powers of two of lanes below 32 stay below 2^32. -/
theorem guarded_lt (g : Grp) (mask pred : Nat) (pneg : Bool) : g.guarded mask pred pneg < 2 ^ 32 := by
  have key : ∀ n, ((List.range n).filter (fun l => mask.testBit l)).foldl
      (fun a l => if guardOf pred pneg (g.thr l) then a + 2 ^ l else a) 0 < 2 ^ n := by
    intro n
    induction n with
    | zero => exact Nat.one_pos
    | succ n ih =>
      rw [List.range_succ, List.filter_append, List.foldl_append, pow_succ]
      by_cases hm : mask.testBit n = true
      · rw [List.filter_singleton, hm]
        simp only [cond_true, List.foldl_cons, List.foldl_nil]
        split <;> omega
      · rw [List.filter_singleton, Bool.eq_false_iff.2 hm]
        simp only [cond_false, List.foldl_nil]
        omega
  exact key 32

/-- Some lane executes. -/
theorem Issues.lanes_ne {s : State} {sh : Shape} {mi : Mi} {i : Iss} (h : Issues s sh mi i) : lanesOf i.exec ≠ [] := by
  obtain ⟨hexec, hne⟩ := h.exec_eq
  obtain ⟨l, hl⟩ := Nat.exists_testBit_of_ne_zero hne
  have hlt : l < 32 := by
    by_contra hge
    have := Nat.testBit_lt_two_pow (lt_of_lt_of_le (hexec ▸ guarded_lt ..) (Nat.pow_le_pow_right two_pos (Nat.le_of_not_lt hge)))
    rw [hl] at this
    cases this
  exact List.ne_nil_of_mem ((mem_lanesOf _ _).2 ⟨hlt, hl⟩)

theorem Access.lanes_ne (x : Access) {exec : Nat} (h : lanesOf exec ≠ []) : x.lanes exec ≠ [] := by
  unfold Access.lanes
  split
  · cases hl : lanesOf exec with
    | nil => exact absurd hl h
    | cons a l => exact List.cons_ne_nil a _
  · exact h

/-! ### The lanes of a memory instruction that accesses this device only -/

theorem Keeps.destOf {s t : State} (h : Keeps s t) (p : Option Nat) (x : Access) (a : Nat) : t.destOf p x a = s.destOf p x a := by
  rw [h.1]; rfl

theorem Keeps.lanesFault {s t : State} (h : Keeps s t) (p : Option Nat) (x : Access) (l : List (Nat × Nat)) : t.lanesFault p x l = s.lanesFault p x l := by
  rw [h.1]; rfl

theorem Keeps.partOfUnit {s t : State} (h : Keeps s t) (u : Nat) : t.partOfUnit u = s.partOfUnit u := by rw [h.1]; rfl

theorem laneAddr_same {g g' : Grp} (h : SameRegs g g') (sh : Shape) (mi : Mi) (l : Nat) : laneAddr sh mi g' l = laneAddr sh mi g l := by
  unfold laneAddr; rw [opA_same h]

/-- Lane `l` of a memory instruction as it is sent to this device, with its operands. -/
def State.hereLane (s : State) (sh : Shape) (mi : Mi) (i : Iss) (x : Access) (data : Grp → Nat → Nat × Nat) (l : Nat) : LaneOp :=
  let g := s.grp i.u i.k
  { lane := l, lpa := match s.destOf (s.partOfUnit i.u) x (laneAddr sh mi g l) with
      | some (.here a) => a
      | _ => 0
    pa := laneAddr sh mi g l % 2 ^ 44, data := (data g l).1, data2 := (data g l).2 }

/-- The instruction passes its checks, and each accessing lane's address lies on this device. -/
structure AllHere (s : State) (sh : Shape) (mi : Mi) (i : Iss) (x : Access) (release : Bool) : Prop where
  ready : s.memReady x release sh mi i = true
  nofault : s.lanesFault (s.partOfUnit i.u) x ((x.lanes i.exec).map (fun n => (n, laneAddr sh mi (s.grp i.u i.k) n))) = none
  dest : ∀ l ∈ x.lanes i.exec, ∃ lpa, s.destOf (s.partOfUnit i.u) x (laneAddr sh mi (s.grp i.u i.k) l) = some (.here lpa)

theorem MemOk.allHere {s : State} {sh : Shape} {mi : Mi} {i : Iss} {x : Access} {release : Bool} (h : MemOk s mi i sh x release) :
    AllHere s sh mi i x release := by
  obtain ⟨hr, hf, hd⟩ := h
  exact ⟨hr, hf, fun l hl => (hd l hl).imp fun _ => And.left⟩

theorem splitLanes_here {s : State} {p : Option Nat} {x : Access} {data : Nat → Nat × Nat} {f : Nat → LaneOp} {addr : Nat → Nat} (ls : List Nat)
    (h : ∀ l ∈ ls, ∃ a, s.destOf p x (addr l) = some (.here a)
      ∧ f l = { lane := l, lpa := a, pa := addr l % 2 ^ 44, data := (data l).1, data2 := (data l).2 }) :
    s.splitLanes p x (ls.map (fun l => (l, addr l))) data = (ls.map f, []) := by
  have key : ∀ acc : List LaneOp × List (Nat × LaneOp), ((ls.map (fun l => (l, addr l))).foldl (fun acc e =>
      let d := data e.1
      match s.destOf p x e.2 with
      | some (.here lpa) => (acc.1 ++ [{ lane := e.1, lpa := lpa, pa := e.2 % 2 ^ 44, data := d.1, data2 := d.2 }], acc.2)
      | some (.there dev pa) => (acc.1, acc.2 ++ [(dev, { lane := e.1, lpa := pa, pa := pa, data := d.1, data2 := d.2 })])
      | none => acc) acc) = (acc.1 ++ ls.map f, acc.2) := by
    induction ls with
    | nil => intro acc; simp
    | cons l ls ih =>
      intro acc
      obtain ⟨a, hd, hf⟩ := h l List.mem_cons_self
      rw [List.map_cons, List.foldl_cons, ih fun m hm => h m (List.mem_cons_of_mem _ hm)]
      simp only [hd, List.map_cons, hf, List.append_assoc, List.singleton_append]
  exact (key ([], [])).trans (by simp)

/-- The lane sent here for lane `l`. -/
theorem hereLane_eq {s : State} {sh : Shape} {mi : Mi} {i : Iss} {x : Access} {l a : Nat}
    (h : s.destOf (s.partOfUnit i.u) x (laneAddr sh mi (s.grp i.u i.k) l) = some (.here a)) (data : Grp → Nat → Nat × Nat) :
    s.hereLane sh mi i x data l = { lane := l, lpa := a, pa := laneAddr sh mi (s.grp i.u i.k) l % 2 ^ 44, data := (data (s.grp i.u i.k) l).1,
                                    data2 := (data (s.grp i.u i.k) l).2 } := by
  unfold State.hereLane
  simp only [h]

/-- A memory instruction that passes its checks on this device has its effect on the lanes here. -/
theorem memIssue_here {s : State} {sh : Shape} {mi : Mi} {i : Iss} {bad : Bool} {x : Access} {release : Bool} {data : Grp → Nat → Nat × Nat}
    {f : Iss → List LaneOp → List (Nat × LaneOp) → State → State} (h : Issues s sh mi i) (hb : bad = false) (hm : AllHere s sh mi i x release)
    (hdata : ∀ g', SameRegs (s.grp i.u i.k) g' → data g' = data (s.grp i.u i.k)) :
    ∃ s', Prepared s s' i ∧ s.memIssue sh mi bad x release data f
      = (f i ((x.lanes i.exec).map (s.hereLane sh mi i x data)) [] s').afterStep i.u i.k (s.grp i.u i.k).step := by
  unfold State.memIssue
  obtain ⟨forced, he⟩ := issue_eq h hb hm.ready (f := fun i s =>
    let g := s.grp i.u i.k
    let p := s.partOfUnit i.u
    let l := (x.lanes i.exec).map (fun n => (n, laneAddr sh mi g n))
    match s.lanesFault p x l with
    | some (kind, mask) => s.threadFault i.u i.k kind mask i.pc (((l.find? (fun e => e.1 == lowLane mask)).map Prod.snd).getD 0)
    | none =>
      let (here, there) := s.splitLanes p x l (data g)
      f i here there s)
  have hp := prepared_atIssue s sh mi forced h.unit_lt
  refine ⟨_, hp, he.trans ?_⟩
  have haddr : (fun n => (n, laneAddr sh mi ((s.atIssue sh mi i forced).grp i.u i.k) n)) = fun n => (n, laneAddr sh mi (s.grp i.u i.k) n) :=
    funext fun n => by rw [laneAddr_same hp.regs]
  have hsplit := splitLanes_here (s := s.atIssue sh mi i forced) (p := s.partOfUnit i.u) (x := x) (data := data (s.grp i.u i.k))
    (f := s.hereLane sh mi i x data) (addr := laneAddr sh mi (s.grp i.u i.k)) (x.lanes i.exec) fun l hl => by
      obtain ⟨a, ha⟩ := hm.dest l hl
      exact ⟨a, by rw [hp.keeps.destOf]; exact ha, hereLane_eq ha data⟩
  simp only [hp.keeps.partOfUnit, hp.keeps.lanesFault, haddr, hm.nofault, hdata _ hp.regs, hsplit]

end Sys2Proof.Machine
end

section
/-! ### Loads and stores sent to memory -/

namespace Sys2Proof.Machine
open Sys2Proof.Machine.State

theorem Issued.peek {s t : State} (h : Issued s t) (a : Nat) : t.peek a = s.peek a := by rw [h.frame]; rfl

theorem Issued.grp {s t : State} (h : Issued s t) (u k : Nat) : t.grp u k = s.grp u k := by rw [h.frame]; rfl

theorem Keeps.nextOp {s t : State} (h : Keeps s t) : t.nextOp = s.nextOp := by rw [h.1]

theorem Keeps.op {s t : State} (h : Keeps s t) (id : Nat) : t.op id = s.op id := by rw [h.1]; rfl

theorem Keeps.unit {s t : State} (h : Keeps s t) (u : Nat) : t.unit u = s.unit u := by rw [h.1]; rfl

/-- An operation issued is in flight, but for the mark on its line. -/
theorem IssuedOp.get {s t : State} {o : MemOp} (h : IssuedOp s t o) :
    ∃ id b, s.nextOp ≤ id ∧ t.op id = some { o with keepL1 := b } := by
  obtain ⟨id, hlo, -, hop⟩ := h
  obtain ⟨o', ho', he⟩ := Option.map_eq_some_iff.1 hop
  refine ⟨id, o'.keepL1, hlo, ho'.trans (congrArg some ?_)⟩
  obtain ⟨⟩ := o'
  obtain ⟨⟩ := o
  simpa [MemOp.unmarked] using he

/-- An instruction one of whose operations has not been performed goes on (R190). -/
theorem endInstr_waits {s t : State} {o : MemOp} (h : IssuedOp s t o) (hr : o.hasResult = true) (ha : o.answered = false) :
    t.endInstr o.instr = t := by
  obtain ⟨id, b, -, hop⟩ := h.get
  have hmem := mem_opList hop
  have hr' : ({ o with keepL1 := b } : MemOp).hasResult = true := hr
  unfold State.endInstr
  rw [if_pos]
  exact List.any_eq_true.2 ⟨_, List.mem_filter.2 ⟨hmem, by simp [hr']⟩, by simp [ha]⟩

/-- An operation that a memory instruction issues for a lane is in flight once the instruction has ended its step. -/
theorem LaneIssued.sent {s s₁ u t : State} {i : Iss} {o : MemOp} {kind : OpKind} {y : LaneOp} (h : LaneIssued s₁ u o kind y) (hp : Prepared s s₁ i)
    (ht : Keeps u t) (hu : o.unit = i.u) (hk : o.slot = i.k) (hr : o.remote = none) : Sent s t i kind o.bytes y.lane y.lpa y.data := by
  obtain ⟨ln, ls, p, ud, d, hy, hop⟩ := h
  obtain ⟨id, b, hlo, hop⟩ := hop.get
  exact ⟨id, _, y, hp.keeps.nextOp ▸ hlo, (ht.op id).trans hop, rfl, hu, hk, hr, rfl, hy, rfl, rfl, rfl⟩

/-- A memory instruction whose effect issues operations only: memory reads as before, the group's registers stand, and the operations are in flight. -/
theorem issued_afterStep {s s₁ u : State} {i : Iss} (hp : Prepared s s₁ i) (hu : Issued s₁ u) (hlt : i.u < 132) (b : Bool) :
    (∀ a, (u.afterStep i.u i.k b).peek a = s.peek a) ∧ SameRegs (s.grp i.u i.k) ((u.afterStep i.u i.k b).grp i.u i.k)
      ∧ Keeps u (u.afterStep i.u i.k b) := by
  obtain ⟨hk, hr⟩ := afterStep_spec u i.u i.k b hlt
  refine ⟨fun a => (hk.peek a).trans ((hu.peek a).trans (hp.keeps.peek a)), ?_, hk⟩
  exact hp.regs.trans (hu.grp i.u i.k ▸ (hr i.u i.k).1)

theorem partition_memory {l : List LaneOp} (h : ∀ y ∈ l, outsideMemory y.lpa = false) : l.partition (fun y => outsideMemory y.lpa) = ([], l) := by
  rw [List.partition_eq_filter_filter, List.filter_eq_nil_iff.2 fun y hy => by simp [h y hy], List.filter_eq_self.2 fun y hy => by simp [h y hy]]

theorem MemOk.inMemory {s : State} {sh : Shape} {mi : Mi} {i : Iss} {x : Access} {release : Bool} (h : MemOk s mi i sh x release)
    (data : Grp → Nat → Nat × Nat) : ∀ y ∈ (x.lanes i.exec).map (s.hereLane sh mi i x data), outsideMemory y.lpa = false := by
  intro y hy
  obtain ⟨l, hl, rfl⟩ := List.mem_map.1 hy
  obtain ⟨a, ha, hc, hr⟩ := h.2.2 l hl
  rw [hereLane_eq ha]
  unfold outsideMemory
  cases hpl : place a <;> simp_all

/-- The operation of a load instruction, without its places. -/
def loadOp (s : State) (i : Iss) (mi : Mi) : MemOp :=
  { baseOp s i mi .load (memBytes mi) with signed := bit mi.mod.toNat 3, scope := memScope mi, ord := memOrd mi }

/-- How a load instruction sends each of its accesses: by the constant path (`via`) or plainly. -/
def loadOne (via : Bool) (u : Nat) : MemOp → State → State :=
  if via then fun o s => constLine u { o with kind := .const } s else loadLine u

theorem issued_loadOne (via : Bool) (u : Nat) (o : MemOp) (s : State) : Issued s (loadOne via u o s) := by
  unfold loadOne
  split
  · exact issued_constLine ..
  · exact issued_loadLine ..

/-- What a load instruction sends for a byte: through the constant path a constant load in HBM (R188), else a plain load. -/
def loadKind (via : Bool) (a : Nat) : OpKind := if via = true ∧ place a = .hbm then .const else .load

theorem loadKind_line (via : Bool) (a : Nat) : loadKind via (a / 128 * 128) = loadKind via a := by
  simp only [loadKind, place_line_hbm]

theorem loadKind_const_or_load (via : Bool) (a : Nat) : loadKind via a = .const ∨ loadKind via a = .load := by
  unfold loadKind
  split
  · exact .inl rfl
  · exact .inr rfl

theorem issuedOp_loadOne {via : Bool} {u : Nat} {o : MemOp} {s : State} (hk : o.kind = .load)
    (h : ∀ c ∈ (s.unit u).l1 ++ (s.unit u).cc, c.1 ≠ o.line) :
    IssuedOp s (loadOne via u o s) { o with kind := loadKind via o.line } := by
  unfold loadOne
  cases via with
  | true =>
    have hsent := issuedOp_constLine (o := { o with kind := .const }) h
    by_cases hp : place o.line = .hbm
    · simpa [MemOp.constAt, loadKind, hp] using hsent
    · simpa [MemOp.constAt, loadKind, hp] using hsent
  | false =>
    have hsent := issuedOp_loadLine (o := o) fun c hc => h c (List.mem_append_left _ hc)
    have ho : { o with kind := .load } = o := by rw [← hk]
    simpa [loadKind, ho] using hsent

/-- The effect of a load instruction on its lanes here and on other devices (R222). -/
def loadEffect (mi : Mi) (const : Bool) (i : Iss) (here : List LaneOp) (there : List (Nat × LaneOp)) (s : State) : State :=
  let p := here.partition (fun y => outsideMemory y.lpa)
  let c := s.ctlLoad (memBytes mi) p.1
  let s' := if c.1.isEmpty then c.2 else c.2.addOp { loadOp s i mi with lanes := c.1, answered := true }
  (s'.sendOp i.u (loadOp s i mi) p.2 there (lowLane i.exec) (loadOne (const && !memGlobal mi) i.u)).endInstr s.nextOp

theorem loadInstr_eq (s : State) (sh : Shape) (mi : Mi) (const lpa : Bool) : s.loadInstr sh mi const lpa
    = s.memIssue sh mi (memBad mi || (lpa && memGlobal mi)) (loadAccess mi lpa) false (fun _ _ => (0, 0)) (loadEffect mi const) := rfl

/-- In memory a load sends its lanes. -/
theorem loadEffect_memory {here : List LaneOp} (h : ∀ y ∈ here, outsideMemory y.lpa = false) (mi : Mi) (const : Bool) (i : Iss)
    (there : List (Nat × LaneOp)) (s : State) : loadEffect mi const i here there s
      = (s.sendOp i.u (loadOp s i mi) here there (lowLane i.exec) (loadOne (const && !memGlobal mi) i.u)).endInstr s.nextOp := by
  unfold loadEffect
  rw [partition_memory h]
  rfl

theorem Access.lanes_of_not_alone {x : Access} (h : x.alone = false) (exec : Nat) : x.lanes exec = lanesOf exec := by
  unfold Access.lanes; simp [h]

theorem uncached_line {s : State} {sh : Shape} {mi : Mi} {i : Iss} {x : Access} (h : uncached s mi i sh x = true) {l a : Nat}
    (hl : l ∈ x.lanes i.exec) (ha : s.destOf (s.partOfUnit i.u) x (laneAddr sh mi (s.grp i.u i.k) l) = some (.here a)) {c : CLine}
    (hc : c ∈ (s.unit i.u).l1 ++ (s.unit i.u).cc) : c.1 ≠ a / 128 * 128 := by
  have hlane := List.all_eq_true.1 h l hl
  simp only [ha, Bool.not_eq_true', List.any_eq_false, beq_iff_eq] at hlane
  exact hlane c hc

/-- What a load instruction sends for a lane whose line no cache of its unit holds. -/
theorem sendOp_load {s s₁ : State} {sh : Shape} {mi : Mi} {i : Iss} {x : Access} (hp : Prepared s s₁ i) (hcached : uncached s mi i sh x = true) (via : Bool)
    {l a : Nat} (hl : l ∈ x.lanes i.exec) (ha : s.destOf (s.partOfUnit i.u) x (laneAddr sh mi (s.grp i.u i.k) l) = some (.here a))
    (data : Grp → Nat → Nat × Nat) :
    LaneIssued s₁ (s₁.sendOp i.u (loadOp s₁ i mi) ((x.lanes i.exec).map (s.hereLane sh mi i x data)) [] (lowLane i.exec) (loadOne via i.u))
      (loadOp s₁ i mi) (loadKind via a) (s.hereLane sh mi i x data l) := by
  refine sendOp_laneIssued (issued_loadOne via i.u) (List.mem_map_of_mem hl) fun s' o' hs' hk hline => ?_
  rw [hereLane_eq ha] at hline
  have hcl : ∀ c ∈ (s'.unit i.u).l1 ++ (s'.unit i.u).cc, c.1 ≠ o'.line := fun c hc =>
    hline ▸ uncached_line hcached hl ha (hp.keeps.unit i.u ▸ hs'.caches i.u c hc)
  have hkind : loadKind via a = loadKind via o'.line := by rw [hline, loadKind_line]
  rw [hkind]
  exact issuedOp_loadOne hk hcl

/-- A load instruction of lines that no cache of its unit holds (R187, R188, R222). -/
theorem loadInstr_sent {s : State} {sh : Shape} {mi : Mi} {i : Iss} {const lpa : Bool} (h : Issues s sh mi i)
    (hb : (memBad mi || (lpa && memGlobal mi)) = false) (hcached : uncached s mi i sh (loadAccess mi lpa) = true)
    (hm : MemOk s mi i sh (loadAccess mi lpa) false) :
    (∀ a, (s.loadInstr sh mi const lpa).peek a = s.peek a)
      ∧ SameRegs (s.grp i.u i.k) ((s.loadInstr sh mi const lpa).grp i.u i.k)
      ∧ ∀ l ∈ (loadAccess mi lpa).lanes i.exec, ∀ a,
          s.destOf (s.partOfUnit i.u) (loadAccess mi lpa) (laneAddr sh mi (s.grp i.u i.k) l) = some (.here a) →
          Sent s (s.loadInstr sh mi const lpa) i (loadKind (const && !memGlobal mi) a) (memBytes mi) l a 0 := by
  obtain ⟨s₁, hp, he⟩ := memIssue_here h hb hm.allHere (data := fun _ _ => (0, 0)) (fun _ _ => rfl) (f := loadEffect mi const)
  rw [← loadInstr_eq, loadEffect_memory (hm.inMemory _)] at he
  set via := const && !memGlobal mi
  set u := s₁.sendOp i.u (loadOp s₁ i mi) (((loadAccess mi lpa).lanes i.exec).map (s.hereLane sh mi i (loadAccess mi lpa) fun _ _ => (0, 0))) []
    (lowLane i.exec) (loadOne via i.u) with hu
  have hop : ∀ l ∈ (loadAccess mi lpa).lanes i.exec, ∀ a,
      s.destOf (s.partOfUnit i.u) (loadAccess mi lpa) (laneAddr sh mi (s.grp i.u i.k) l) = some (.here a) →
      LaneIssued s₁ u (loadOp s₁ i mi) (loadKind via a) _ := fun l hl a ha => sendOp_load hp hcached via hl ha _
  have hend : u.endInstr s₁.nextOp = u := by
    obtain ⟨l, hl⟩ := List.exists_mem_of_ne_nil _ ((loadAccess mi lpa).lanes_ne h.lanes_ne)
    obtain ⟨a, ha⟩ := hm.allHere.dest l hl
    obtain ⟨ln, ls, p, ud, d, -, hsent⟩ := hop l hl a ha
    exact endInstr_waits hsent (by rcases loadKind_const_or_load via a with e | e <;> simp [MemOp.hasResult, e]) rfl
  obtain ⟨hpeek, hregs, hkeeps⟩ := issued_afterStep hp (issued_sendOp (issued_loadOne via i.u) ..) h.unit_lt (s.grp i.u i.k).step
  rw [he, hend]
  refine ⟨hpeek, hregs, fun l hl a ha => ?_⟩
  have hsent := (hop l hl a ha).sent hp hkeeps rfl rfl rfl
  rwa [hereLane_eq ha] at hsent

/-! ### Stores and atomics -/

/-- How a store or an atomic sends each of its accesses: the unit's L1 gives up the line (R187). -/
def writeOne (u : Nat) : MemOp → State → State := fun o s => (s.ownWrite u o.line).addOp o

theorem issued_writeOne (u : Nat) (o : MemOp) (s : State) : Issued s (writeOne u o s) := (issued_ownWrite ..).trans (issued_addOp ..)

theorem issuedOp_writeOne (u : Nat) (o : MemOp) (s : State) : IssuedOp s (writeOne u o s) o :=
  (issuedOp_addOp (s.ownWrite u o.line) o).mono (issued_ownWrite ..) (.refl _)

/-- How an atomic sends each of its accesses: one of more than one lane is counted (R186). -/
def atomOne (u : Nat) : MemOp → State → State := fun o s => writeOne u o (if 1 < o.lanes.length then s.bumpUnit u 0x138 1 else s)

theorem issued_atomOne (u : Nat) (o : MemOp) (s : State) : Issued s (atomOne u o s) := by
  unfold atomOne
  split
  · exact (issued_bumpUnit ..).trans (issued_writeOne ..)
  · exact issued_writeOne ..

theorem issuedOp_atomOne (u : Nat) (o : MemOp) (s : State) : IssuedOp s (atomOne u o s) o := by
  unfold atomOne
  split
  · exact (issuedOp_writeOne ..).mono (issued_bumpUnit ..) (.refl _)
  · exact issuedOp_writeOne ..

/-- A memory instruction whose effect is to issue operations: what it leaves alone, and the lanes that are in flight after it. -/
theorem memIssue_sent {s : State} {sh : Shape} {mi : Mi} {i : Iss} {bad : Bool} {x : Access} {release : Bool} {data : Grp → Nat → Nat × Nat}
    {f : Iss → List LaneOp → List (Nat × LaneOp) → State → State} (h : Issues s sh mi i) (hb : bad = false) (hm : MemOk s mi i sh x release)
    (hx : x.alone = false) (hdata : ∀ g', SameRegs (s.grp i.u i.k) g' → data g' = data (s.grp i.u i.k))
    (hf : ∀ s₁, Prepared s s₁ i → Issued s₁ (f i ((lanesOf i.exec).map (s.hereLane sh mi i x data)) [] s₁)) :
    let t := s.memIssue sh mi bad x release data f
    (∀ a, t.peek a = s.peek a) ∧ SameRegs (s.grp i.u i.k) (t.grp i.u i.k) ∧ ∀ kind n y,
      (∀ s₁, Prepared s s₁ i → ∃ o, LaneIssued s₁ (f i ((lanesOf i.exec).map (s.hereLane sh mi i x data)) [] s₁) o kind y
        ∧ o.unit = i.u ∧ o.slot = i.k ∧ o.remote = none ∧ o.bytes = n) → Sent s t i kind n y.lane y.lpa y.data := by
  obtain ⟨s₁, hp, he⟩ := memIssue_here h hb hm.allHere hdata (f := f)
  rw [Access.lanes_of_not_alone hx] at he
  obtain ⟨hpeek, hregs, hkeeps⟩ := issued_afterStep hp (hf s₁ hp) h.unit_lt (s.grp i.u i.k).step
  rw [he]
  refine ⟨hpeek, hregs, fun kind n y hy => ?_⟩
  obtain ⟨o, hlane, hu, hk, hr, rfl⟩ := hy s₁ hp
  exact hlane.sent hp hkeeps hu hk hr

/-- The operand of a store or an accumulate. -/
def dataB (sh : Shape) (mi : Mi) (g : Grp) (l : Nat) : Nat × Nat := (opB sh mi g (g.thr l), 0)

theorem dataB_same {g g' : Grp} (h : SameRegs g g') (sh : Shape) (mi : Mi) : dataB sh mi g' = dataB sh mi g :=
  funext fun l => by rw [dataB, dataB, opB_same h]

/-- The operation of a store instruction, without its places. -/
def storeOp (s : State) (i : Iss) (mi : Mi) : MemOp :=
  { baseOp s i mi .store (memBytes mi) with scope := memScope mi, ord := memOrd mi, final := memFinal mi }

/-- The effect of a store instruction on its lanes here and on other devices (R222). -/
def storeEffect (mi : Mi) (i : Iss) (here : List LaneOp) (there : List (Nat × LaneOp)) (s : State) : State :=
  let p := here.partition (fun y => outsideMemory y.lpa)
  (s.ctlStore (memBytes mi) p.1).sendOp i.u (storeOp s i mi) p.2 there (lowLane i.exec) (writeOne i.u)

theorem storeInstr_eq (s : State) (sh : Shape) (mi : Mi) (lpa : Bool) : s.storeInstr sh mi lpa
    = s.memIssue sh mi (memBad mi || (lpa && memGlobal mi)) (plainAccess mi 2 lpa) (memOrd mi) (dataB sh mi) (storeEffect mi) := rfl

/-- In memory a store sends its lanes. -/
theorem storeEffect_memory {here : List LaneOp} (h : ∀ y ∈ here, outsideMemory y.lpa = false) (mi : Mi) (i : Iss) (there : List (Nat × LaneOp))
    (s : State) : storeEffect mi i here there s = s.sendOp i.u (storeOp s i mi) here there (lowLane i.exec) (writeOne i.u) := by
  unfold storeEffect
  rw [partition_memory h]
  rfl

/-- A store instruction to memory (R222, R224). -/
theorem storeInstr_sent {s : State} {sh : Shape} {mi : Mi} {i : Iss} {lpa : Bool} (h : Issues s sh mi i)
    (hb : (memBad mi || (lpa && memGlobal mi)) = false) (hm : MemOk s mi i sh (plainAccess mi 2 lpa) (memOrd mi)) :
    (∀ a, (s.storeInstr sh mi lpa).peek a = s.peek a) ∧ SameRegs (s.grp i.u i.k) ((s.storeInstr sh mi lpa).grp i.u i.k)
      ∧ ∀ l a, l < 32 → i.exec.testBit l = true →
        s.destOf (s.partOfUnit i.u) (plainAccess mi 2 lpa) (laneAddr sh mi (s.grp i.u i.k) l) = some (.here a) →
        Sent s (s.storeInstr sh mi lpa) i .store (memBytes mi) l a (opB sh mi (s.grp i.u i.k) ((s.grp i.u i.k).thr l)) := by
  rw [storeInstr_eq]
  have hmem := fun s₁ => storeEffect_memory (hm.inMemory (dataB sh mi)) mi i [] s₁
  obtain ⟨hpeek, hregs, hsent⟩ := memIssue_sent h hb hm rfl (fun g' hg => dataB_same hg sh mi) (f := storeEffect mi) fun s₁ _ =>
    (hmem s₁).symm ▸ issued_sendOp (issued_writeOne i.u) ..
  refine ⟨hpeek, hregs, fun l a hl hx ha => ?_⟩
  have := hsent .store (memBytes mi) (s.hereLane sh mi i (plainAccess mi 2 lpa) (dataB sh mi) l) fun s₁ _ =>
    ⟨storeOp s₁ i mi, (hmem s₁).symm ▸ sendOp_laneIssued_same (issued_writeOne i.u) (issuedOp_writeOne i.u) s₁ i.u (storeOp s₁ i mi)
      (lowLane i.exec)
      (List.mem_map_of_mem ((mem_lanesOf _ _).2 ⟨hl, hx⟩)), rfl, rfl, rfl, rfl⟩
  rwa [hereLane_eq ha] at this

end Sys2Proof.Machine
end

section
/-! ### Atomics, hints and accumulates -/

namespace Sys2Proof.Machine
open Sys2Proof.Machine.State

/-! #### Checks -/

/-- No lane of an instruction that passes its checks fails one (R221). -/
theorem accessFault_none {s : State} {p : Option Nat} {x : Access} {l : List (Nat × Nat)} (h : s.lanesFault p x l = none) {e : Nat × Nat} (he : e ∈ l) :
    s.accessFault p x e.2 = none := by
  cases hf : s.accessFault p x e.2 with
  | none => rfl
  | some v =>
    obtain ⟨stage, kind⟩ := v
    have hstage : stage ∈ List.range 5 := by
      rw [List.mem_range]
      unfold State.accessFault at hf
      repeat' split at hf
      all_goals simp_all
      all_goals omega
    have hbad := List.findSome?_eq_none_iff.1 h stage hstage
    dsimp only at hbad
    split at hbad
    · next hnil =>
      have := List.filterMap_eq_nil_iff.1 hnil e he
      simp [hf] at this
    · cases hbad

theorem align_of_accessFault_none {s : State} {p : Option Nat} {x : Access} {a : Nat} (h : s.accessFault p x a = none) : a % x.align = 0 := by
  by_contra hne
  simp only [State.accessFault, ne_eq, hne, not_false_eq_true, if_true] at h
  split_ifs at h

theorem translate_mod {s : State} {p pa perm a : Nat} (h : s.translate p pa perm = some a) : a % 2 ^ 16 = pa % 2 ^ 16 := by
  unfold State.translate at h
  split at h
  · cases h
  · split at h
    · cases h
    · split at h
      · rw [← Option.some.inj h, Nat.or_mod_two_pow, Nat.shiftLeft_eq, Nat.mul_mod_left, Nat.zero_or]
        omega
      · cases h

/-- An access by PA keeps its place within a line. -/
theorem destOf_mod {s : State} {p : Option Nat} {x : Access} {addr a : Nat} (hx : x.lpa = false) (h : s.destOf p x addr = some (.here a)) :
    a % 128 = addr % 128 := by
  unfold State.destOf at h
  rw [hx] at h
  cases p with
  | none => cases h
  | some p =>
    simp only [Bool.false_eq_true, if_false] at h
    split at h
    · split at h <;> cases h
    · obtain ⟨b, hb, he⟩ := Option.map_eq_some_iff.1 h
      cases he
      have := translate_mod hb
      omega

/-- The line of a lane of an instruction whose accesses are lines. -/
theorem MemOk.line_aligned {s : State} {sh : Shape} {mi : Mi} {i : Iss} {x : Access} {release : Bool} (h : MemOk s mi i sh x release)
    (hx : x.lpa = false) (halign : x.align = 128) {l a : Nat} (hl : l ∈ x.lanes i.exec)
    (ha : s.destOf (s.partOfUnit i.u) x (laneAddr sh mi (s.grp i.u i.k) l) = some (.here a)) : a / 128 * 128 = a := by
  have hal := align_of_accessFault_none (accessFault_none h.2.1 (List.mem_map_of_mem (f := fun n => (n, laneAddr sh mi (s.grp i.u i.k) n)) hl))
  have := destOf_mod hx ha
  simp only [halign] at hal
  omega

/-! #### Atomics (R225) -/

/-- The operands of an atomic. -/
def dataBC (sh : Shape) (mi : Mi) (g : Grp) (l : Nat) : Nat × Nat := (opB sh mi g (g.thr l), opC sh mi g (g.thr l))

theorem dataBC_same {g g' : Grp} (h : SameRegs g g') (sh : Shape) (mi : Mi) : dataBC sh mi g' = dataBC sh mi g :=
  funext fun l => by rw [dataBC, dataBC, opB_same h, opC_same h]

/-- What an atomic asks of its accesses. -/
def atomAccess (mi : Mi) : Access :=
  { align := 4 * atomRegs mi, perm := 8, glob := bit mi.mod.toNat 9, atomic := true, scope := modf mi 58 3, lpa := false, bytes := 4 * atomRegs mi }

/-- The operation of an atomic, without its places. -/
def atomOp (s : State) (i : Iss) (mi : Mi) : MemOp :=
  { baseOp s i mi .atomic (4 * atomRegs mi) with aop := modf mi 52 3, aty := modf mi 55 3, scope := modf mi 58 3, ord := bit mi.mod.toNat 10 }

/-- The effect of an atomic on its lanes. -/
def atomEffect (mi : Mi) (i : Iss) (here : List LaneOp) (_ : List (Nat × LaneOp)) (s : State) : State :=
  s.sendOp i.u (atomOp s i mi) here [] (lowLane i.exec) (atomOne i.u)

theorem exec_atom (s : State) (mi : Mi) : exec (.atom mi) s = .next (s.memIssue (shapeAtom mi) mi
    (decide (4 < modf mi 55 3) || decide (5 < modf mi 58 3) || !atomicAllowed (modf mi 52 3) (modf mi 55 3)) (atomAccess mi) (bit mi.mod.toNat 10)
    (dataBC (shapeAtom mi) mi) (atomEffect mi)) := rfl

theorem atom_sent {s : State} {mi : Mi} {i : Iss} (h : Issues s (shapeAtom mi) mi i) (hty : modf mi 55 3 ≤ 4) (hsc : modf mi 58 3 ≤ 5)
    (hop : atomicAllowed (modf mi 52 3) (modf mi 55 3) = true) (hm : MemOk s mi i (shapeAtom mi) (atomAccess mi) (bit mi.mod.toNat 10)) :
    Completes (.atom mi) s (fun t => (∀ a, t.peek a = s.peek a) ∧ ∀ l a, l < 32 → i.exec.testBit l = true →
      s.destOf (s.partOfUnit i.u) (atomAccess mi) (laneAddr (shapeAtom mi) mi (s.grp i.u i.k) l) = some (.here a) →
      Sent s t i .atomic (4 * atomRegs mi) l a (opB (shapeAtom mi) mi (s.grp i.u i.k) ((s.grp i.u i.k).thr l))) := by
  have hb : (decide (4 < modf mi 55 3) || decide (5 < modf mi 58 3) || !atomicAllowed (modf mi 52 3) (modf mi 55 3)) = false := by
    simp [hop]; omega
  obtain ⟨hpeek, -, hsent⟩ := memIssue_sent h hb hm rfl (fun g' hg => dataBC_same hg _ mi) (f := atomEffect mi) fun s₁ _ =>
    issued_sendOp (issued_atomOne i.u) ..
  refine ⟨_, exec_atom s mi, hpeek, fun l a hl hx ha => ?_⟩
  have := hsent .atomic (4 * atomRegs mi) (s.hereLane (shapeAtom mi) mi i (atomAccess mi) (dataBC (shapeAtom mi) mi) l) fun s₁ _ =>
    ⟨atomOp s₁ i mi, sendOp_laneIssued_same (issued_atomOne i.u) (issuedOp_atomOne i.u) s₁ i.u (atomOp s₁ i mi) (lowLane i.exec)
      (List.mem_map_of_mem ((mem_lanesOf _ _).2 ⟨hl, hx⟩)), rfl, rfl, rfl, rfl⟩
  rwa [hereLane_eq ha] at this

/-! #### Hints (R222, R242, R243) -/

/-- Operations on whole lines, one for each line of the lanes, each with the lanes that begin its line. -/
def sendLines (o : State → MemOp) (l : List LaneOp) (s : State) : State :=
  (linesOf l).foldl (fun s ln => s.addOp { o s with line := ln, lanes := l.filter (fun y => y.lpa == ln) }) s

theorem issued_sendLines (o : State → MemOp) (l : List LaneOp) (s : State) : Issued s (sendLines o l s) :=
  (Issued.foldl (fun _ _ _ => issued_addOp ..) _ (.refl s)).1

theorem mem_linesOf {l : List LaneOp} {y : LaneOp} (h : y ∈ l) (hy : y.lpa / 128 * 128 = y.lpa) : y.lpa ∈ linesOf l :=
  List.mem_eraseDups.2 (List.mem_map.2 ⟨y, h, hy⟩)

theorem sendLines_laneIssued (o : State → MemOp) {l : List LaneOp} (s : State) {y : LaneOp} (h : y ∈ l) (hy : y.lpa / 128 * 128 = y.lpa) :
    ∃ s', LaneIssued s (sendLines o l s) (o s') (o s').kind y := by
  obtain ⟨s', h₁, h₂⟩ := (Issued.foldl (f := fun s ln => s.addOp { o s with line := ln, lanes := l.filter (fun y => y.lpa == ln) })
    (fun _ _ _ => issued_addOp ..) (linesOf l) (.refl s)).2 _ (mem_linesOf h hy)
  exact ⟨s', y.lpa, l.filter (fun z => z.lpa == y.lpa), (o s').part, (o s').udst, (o s').dst, List.mem_filter.2 ⟨h, beq_self_eq_true _⟩,
    (issuedOp_addOp s' _).mono h₁ h₂⟩

/-- What a dead hint asks of its accesses. -/
def deadAccess (mi : Mi) : Access := { plainAccess mi 2 false with align := 128 }

/-- Whether a lane's line lies behind the slices. -/
def LaneOp.behindSlices (y : LaneOp) : Bool := match place y.lpa with
  | .hbm | .cxl _ => true
  | _ => false

/-- The effect of a dead hint on its lanes. -/
def deadEffect (mi : Mi) (i : Iss) (here : List LaneOp) (_ : List (Nat × LaneOp)) (s : State) : State :=
  sendLines (fun s => { baseOp s i mi .dead 128 with dst := 255, udst := false }) (here.filter LaneOp.behindSlices) s

theorem exec_dead (s : State) (mi : Mi) : exec (.dead mi) s
    = .next (s.memIssue shapeHint mi (memBad mi) (deadAccess mi) false (fun _ _ => (0, 0)) (deadEffect mi)) := rfl

theorem dead_sent {s : State} {mi : Mi} {i : Iss} (h : Issues s shapeHint mi i) (hb : memBad mi = false)
    (hm : MemOk s mi i shapeHint (deadAccess mi) false) :
    Completes (.dead mi) s (fun t => (∀ a, t.peek a = s.peek a) ∧ ∀ l a, l < 32 → i.exec.testBit l = true →
      s.destOf (s.partOfUnit i.u) (deadAccess mi) (laneAddr shapeHint mi (s.grp i.u i.k) l) = some (.here a) → place a = .hbm →
      Sent s t i .dead 128 l a 0) := by
  obtain ⟨hpeek, -, hsent⟩ := memIssue_sent h hb hm rfl (data := fun _ _ => (0, 0)) (fun _ _ => rfl) (f := deadEffect mi) fun s₁ _ => issued_sendLines ..
  refine ⟨_, exec_dead s mi, hpeek, fun l a hl hx ha hplace => ?_⟩
  have hlane := (mem_lanesOf _ _).2 ⟨hl, hx⟩
  have hy := hereLane_eq ha (fun _ _ => (0, 0))
  have hmem : s.hereLane shapeHint mi i (deadAccess mi) (fun _ _ => (0, 0)) l
      ∈ ((lanesOf i.exec).map (s.hereLane shapeHint mi i (deadAccess mi) fun _ _ => (0, 0))).filter LaneOp.behindSlices :=
    List.mem_filter.2 ⟨List.mem_map_of_mem hlane, by rw [hy]; simp [LaneOp.behindSlices, hplace]⟩
  have := hsent .dead 128 _ fun s₁ _ => by
    obtain ⟨s', hs'⟩ := sendLines_laneIssued (fun s => { baseOp s i mi .dead 128 with dst := 255, udst := false }) s₁ hmem
      (by rw [hy]; exact hm.line_aligned rfl rfl hlane ha)
    exact ⟨_, hs', rfl, rfl, rfl, rfl⟩
  rwa [hy] at this

/-- What a prefetch asks of its accesses. -/
def pfAccess (mi : Mi) : Access := { plainAccess mi 1 false with align := 1 }

/-- The lane that a prefetch sends for lane `n`: none where its address is untranslated, remote or not behind the slices. -/
def pfLane (s : State) (mi : Mi) (i : Iss) (n : Nat) : Option LaneOp :=
  let addr := laneAddr shapeHint mi (s.grp i.u i.k) n
  match s.destOf (s.partOfUnit i.u) (pfAccess mi) addr with
  | some (.here lpa) => (match place lpa with
    | .hbm | .cxl _ => some { lane := n, lpa := lpa / 128 * 128, pa := addr % 2 ^ 44, data := 0, data2 := 0 }
    | _ => none)
  | _ => none

/-- The lanes whose address has a form that R221 forbids. -/
def pfBad (s : State) (mi : Mi) (i : Iss) : List Nat :=
  (lanesOf i.exec).filter (fun n => decide ((if memGlobal mi then 2 ^ 56 else 2 ^ 44) ≤ laneAddr shapeHint mi (s.grp i.u i.k) n))

/-- The effect of a prefetch. -/
def pfEffect (mi : Mi) (i : Iss) (s : State) : State :=
  if !(pfBad s mi i).isEmpty then
    s.threadFault i.u i.k 1 ((pfBad s mi i).foldl (fun a n => a ||| 2 ^ n) 0) i.pc (laneAddr shapeHint mi (s.grp i.u i.k) ((pfBad s mi i).headD 0))
  else sendLines (fun s => { baseOp s i mi .prefetch 1 with dst := 255, udst := false }) ((lanesOf i.exec).filterMap (pfLane s mi i)) s

theorem exec_pf (s : State) (mi : Mi) : exec (.pf mi) s = .next (s.issue shapeHint mi (memBad mi) (fun _ => true) (pfEffect mi)) := rfl

theorem pf_sent {s : State} {mi : Mi} {i : Iss} (h : Issues s shapeHint mi i) (hb : memBad mi = false)
    (haddr : ∀ l, l < 32 → i.exec.testBit l = true → laneAddr shapeHint mi (s.grp i.u i.k) l < (if memGlobal mi then 2 ^ 56 else 2 ^ 44)) :
    Completes (.pf mi) s (fun t => (∀ a, t.peek a = s.peek a) ∧ ∀ l a, l < 32 → i.exec.testBit l = true →
      s.destOf (s.partOfUnit i.u) (pfAccess mi) (laneAddr shapeHint mi (s.grp i.u i.k) l) = some (.here a) → place a = .hbm →
      Sent s t i .prefetch 1 l (a / 128 * 128) 0) := by
  obtain ⟨forced, he⟩ := issue_eq h hb (ready := fun _ => true) rfl (f := pfEffect mi)
  have hp := prepared_atIssue s shapeHint mi forced h.unit_lt
  set s₁ := s.atIssue shapeHint mi i forced
  have hbad : pfBad s₁ mi i = [] := List.filter_eq_nil_iff.2 fun n hn => by
    obtain ⟨hl, hx⟩ := (mem_lanesOf _ _).1 hn
    simpa only [laneAddr_same hp.regs, decide_eq_true_eq, not_le] using haddr n hl hx
  rw [pfEffect, hbad, if_neg (by decide)] at he
  obtain ⟨hpeek, -, hkeeps⟩ := issued_afterStep hp (issued_sendLines (fun s => { baseOp s i mi .prefetch 1 with dst := 255, udst := false })
    ((lanesOf i.exec).filterMap (pfLane s₁ mi i)) s₁) h.unit_lt (s.grp i.u i.k).step
  refine ⟨_, exec_pf s mi, ?_⟩
  rw [he]
  refine ⟨hpeek, fun l a hl hx ha hplace => ?_⟩
  have hlane : pfLane s₁ mi i l
      = some { lane := l, lpa := a / 128 * 128, pa := laneAddr shapeHint mi (s.grp i.u i.k) l % 2 ^ 44, data := 0, data2 := 0 } := by
    unfold pfLane
    simp only [laneAddr_same hp.regs, hp.keeps.partOfUnit, hp.keeps.destOf, ha, hplace]
  obtain ⟨s', hs'⟩ := sendLines_laneIssued (fun s => { baseOp s i mi .prefetch 1 with dst := 255, udst := false }) s₁
    (List.mem_filterMap.2 ⟨l, (mem_lanesOf _ _).2 ⟨hl, hx⟩, hlane⟩) (by dsimp only; omega)
  exact hs'.sent hp hkeeps rfl rfl rfl

/-! #### Accumulates (R241) -/

/-- What an accumulate asks of its accesses. -/
def acclAccess (mi : Mi) : Access := { plainAccess mi 8 false with align := 128 }

/-- A lane of an accumulate to the line at `ln`: word `n` for lane `n`. -/
def acclLane (ln : Nat) (y : LaneOp) : LaneOp := { y with lpa := ln + 4 * y.lane }

/-- The accumulate of the lanes here to the line at `ln`. -/
def acclOp (o : MemOp) (here : List LaneOp) (ln : Nat) : MemOp :=
  { o with line := ln, lanes := (here.filter (fun y => y.lpa == ln)).map (acclLane ln) }

/-- The effect of an accumulate on the line at `ln`. -/
def acclLine (o : MemOp) (here : List LaneOp) (s : State) (ln : Nat) : State := (s.ownWrite o.unit ln).sendAccum (acclOp o here ln)

/-- The effect of an accumulate: on another device there is none. -/
def acclEffect (mi : Mi) (i : Iss) (here : List LaneOp) (there : List (Nat × LaneOp)) (s : State) : State :=
  if !there.isEmpty then
    s.threadFault i.u i.k 1 (there.foldl (fun a e => a ||| 2 ^ e.2.lane) 0) i.pc ((there.head?.map (fun e => e.2.pa)).getD 0)
  else (linesOf here).foldl (acclLine { baseOp s i mi .accum 4 with dst := 255, udst := false } here) s

theorem exec_accl (s : State) (mi : Mi) : exec (.accl mi) s
    = .next (s.memIssue shapeAccl mi (memBad mi) (acclAccess mi) false (dataB shapeAccl mi) (acclEffect mi)) := rfl

/-- Outside a span and an evaluation launch an accumulate goes to its point, one operation for each access. -/
theorem sendAccum_plain {s : State} {o : MemOp} (he : s.isEval o.part o.stream o.cmd = false) (hs : s.spanOf o.part o.stream o.cmd = none) :
    s.sendAccum o = o.accesses.foldl State.addOp s := by
  unfold State.sendAccum
  simp only [he, hs, Bool.false_eq_true, if_false]

theorem issued_accesses (o : MemOp) (s : State) : Issued s (o.accesses.foldl State.addOp s) :=
  (Issued.foldl (fun _ _ _ => issued_addOp ..) _ (.refl s)).1

theorem accesses_laneIssued (o : MemOp) (s : State) {y : LaneOp} (hy : y ∈ o.lanes) : LaneIssued s (o.accesses.foldl State.addOp s) o o.kind y :=
  ⟨o.line, o.lanes.filter (fun x => accessAt x.lpa == accessAt y.lpa), o.part, o.udst, o.dst, List.mem_filter.2 ⟨hy, beq_self_eq_true _⟩,
    IssuedOp.foldl (a := { o with lanes := o.lanes.filter (fun x => accessAt x.lpa == accessAt y.lpa) }) (fun _ _ _ => issued_addOp ..)
      (List.mem_map.2 ⟨accessAt y.lpa, mem_accessesOf hy, rfl⟩) fun s' _ => issuedOp_addOp s' _⟩

theorem Issued.strs {s t : State} (h : Issued s t) : t.strs = s.strs := by rw [h.frame]

theorem isEval_congr {s t : State} (h : t.strs = s.strs) (p st idx : Nat) : t.isEval p st idx = s.isEval p st idx := by
  simp only [State.isEval, State.cmdOf, State.str, h]

theorem spanOf_congr {s t : State} (h : t.strs = s.strs) (p st idx : Nat) : t.spanOf p st idx = s.spanOf p st idx := by
  simp only [State.spanOf, State.cmdOf, State.str, h]

/-- Outside a span and an evaluation launch the line at `ln` is sent. -/
theorem acclLine_plain {s : State} {o : MemOp} (he : s.isEval o.part o.stream o.cmd = false) (hs : s.spanOf o.part o.stream o.cmd = none)
    (here : List LaneOp) (ln : Nat) : acclLine o here s ln = (acclOp o here ln).accesses.foldl State.addOp (s.ownWrite o.unit ln) :=
  sendAccum_plain he hs

/-- The lines of an accumulate are sent, word `n` of its line for lane `n`. -/
theorem acclLines_issued {s : State} {o : MemOp} (he : s.isEval o.part o.stream o.cmd = false) (hs : s.spanOf o.part o.stream o.cmd = none)
    (here : List LaneOp) : Issued s ((linesOf here).foldl (acclLine o here) s) ∧ ∀ y ∈ here, y.lpa / 128 * 128 = y.lpa →
      LaneIssued s ((linesOf here).foldl (acclLine o here) s) o o.kind (acclLane y.lpa y) := by
  have hline : ∀ s' ln, Issued s s' → acclLine o here s' ln = _ := fun s' ln h' =>
    acclLine_plain ((isEval_congr h'.strs ..).trans he) ((spanOf_congr h'.strs ..).trans hs) here ln
  have hstep : ∀ s' ln, Issued s s' → Issued s' (acclLine o here s' ln) := fun s' ln h' => by
    rw [hline s' ln h']
    exact (issued_ownWrite ..).trans (issued_accesses ..)
  refine ⟨(Issued.foldl hstep _ (.refl s)).1, fun y hy hal => ?_⟩
  obtain ⟨s', h', hrest⟩ := (Issued.foldl hstep (linesOf here) (.refl s)).2 _ (mem_linesOf hy hal)
  rw [hline s' _ h'] at hrest
  obtain ⟨ln, ls, p, ud, d, hmem, hop⟩ := accesses_laneIssued (acclOp o here y.lpa) (s'.ownWrite o.unit y.lpa)
    (List.mem_map_of_mem (List.mem_filter.2 ⟨hy, beq_self_eq_true _⟩))
  exact ⟨ln, ls, p, ud, d, hmem, hop.mono (h'.trans (issued_ownWrite ..)) hrest⟩

theorem accl_sent {s : State} {mi : Mi} {i : Iss} (h : Issues s shapeAccl mi i) (hb : memBad mi = false)
    (hm : MemOk s mi i shapeAccl (acclAccess mi) false)
    (he : s.isEval (s.grp i.u i.k).part (s.grp i.u i.k).stream (s.grp i.u i.k).cmd = false)
    (hs : s.spanOf (s.grp i.u i.k).part (s.grp i.u i.k).stream (s.grp i.u i.k).cmd = none) :
    Completes (.accl mi) s (fun t => (∀ a, t.peek a = s.peek a) ∧ ∀ l a, l < 32 → i.exec.testBit l = true →
      s.destOf (s.partOfUnit i.u) (acclAccess mi) (laneAddr shapeAccl mi (s.grp i.u i.k) l) = some (.here a) →
      Sent s t i .accum 4 l (a + 4 * l) (opB shapeAccl mi (s.grp i.u i.k) ((s.grp i.u i.k).thr l))) := by
  have hlines : ∀ s₁, Prepared s s₁ i → _ := fun s₁ hp => by
    have howner := hp.owner
    simp only [Grp.owner, Prod.mk.injEq] at howner
    obtain ⟨-, hpart, hstream, hcmd⟩ := howner
    exact acclLines_issued (s := s₁) (o := { baseOp s₁ i mi .accum 4 with dst := 255, udst := false })
      (by rw [isEval_congr hp.strs]; simpa [baseOp, hpart, hstream, hcmd] using he)
      (by rw [spanOf_congr hp.strs]; simpa [baseOp, hpart, hstream, hcmd] using hs)
      ((lanesOf i.exec).map (s.hereLane shapeAccl mi i (acclAccess mi) (dataB shapeAccl mi)))
  obtain ⟨hpeek, -, hsent⟩ := memIssue_sent h hb hm rfl (fun g' hg => dataB_same hg shapeAccl mi) (f := acclEffect mi) fun s₁ hp => (hlines s₁ hp).1
  refine ⟨_, exec_accl s mi, hpeek, fun l a hl hx ha => ?_⟩
  have hlane := (mem_lanesOf _ _).2 ⟨hl, hx⟩
  have hy := hereLane_eq ha (dataB shapeAccl mi)
  have := hsent .accum 4 _ fun s₁ hp => ⟨_, (hlines s₁ hp).2 _ (List.mem_map_of_mem hlane) (by
    rw [hy]; exact hm.line_aligned rfl rfl hlane ha), rfl, rfl, rfl, rfl⟩
  rwa [hy] at this

end Sys2Proof.Machine
end

section
/-! ### Loads that end as they issue -/

namespace Sys2Proof.Machine
open Sys2Proof.Machine.State

/-! #### The registers of a result (R190, R200) -/

theorem Thr.getG_setG_ne (t : Thr) {n q : Nat} (h : n ≠ q) (v : Nat) : (t.setG n v).getG q = t.getG q := by
  unfold Thr.setG
  split
  · rfl
  · simp only [Thr.getG, SMap.get_set_ne _ _ _ _ h]

/-- Any other register, whatever its number, reads as before. -/
theorem Thr.getG_setRegs_out (t : Thr) {d n q : Nat} (h : q < d ∨ d + n ≤ q) (v : Nat) : (t.setRegs d n v).getG q = t.getG q := by
  unfold Thr.setRegs
  split
  · rfl
  · refine List.foldlRecOn (motive := fun x : Thr => x.getG q = t.getG q) _ _ rfl fun x hx j hj => ?_
    have := List.mem_range.1 hj
    rw [Thr.getG_setG_ne _ (by omega), hx]

/-- One lane changed by one step after another. -/
theorem Grp.thr_foldl_lane {α : Type} (f : α → Thr → Thr) (l : Nat) (as : List α) (g : Grp) (m : Nat) :
    (as.foldl (fun g a => g.modThr l (f a)) g).thr m = if l = m then as.foldl (fun t a => f a t) (g.thr m) else g.thr m := by
  induction as generalizing g with
  | nil => simp
  | cons a as ih =>
    rw [List.foldl_cons, ih, Grp.thr_modThr]
    split <;> rfl

/-- From `s` to `t` the lanes of `ls` in group `k` of unit `u` have got their data in `n` registers from `d` upward; beyond that no register is
written, and nothing has changed but operations and units' caches. -/
structure Delivered (s t : State) (u k d n : Nat) (ls : List LaneOp) : Prop where
  frame : t = { s with nextOp := t.nextOp, groups := t.groups, ops := t.ops, units := t.units }
  live : (t.grp u k).live = (s.grp u k).live
  lane : ∀ y ∈ ls, (t.grp u k).thr y.lane = ((s.grp u k).thr y.lane).setRegs d n y.data
  other : ∀ l, (∀ y ∈ ls, y.lane ≠ l) → (t.grp u k).thr l = (s.grp u k).thr l
  uni : ∀ q, (t.grp u k).getU q = (s.grp u k).getU q

theorem Delivered.nil {s t : State} {u k d n : Nat} (frame : t = { s with nextOp := t.nextOp, groups := t.groups, ops := t.ops, units := t.units })
    (groups : t.groups = s.groups) : Delivered s t u k d n [] :=
  ⟨frame, by rw [grp_congr groups], fun y hy => absurd hy List.not_mem_nil, fun _ _ => by rw [grp_congr groups], fun _ => by rw [grp_congr groups]⟩

theorem Delivered.append {s t v : State} {u k d n : Nat} {ls ls' : List LaneOp} (h : Delivered s t u k d n ls) (h' : Delivered t v u k d n ls')
    (hne : ∀ y ∈ ls, ∀ z ∈ ls', y.lane ≠ z.lane) : Delivered s v u k d n (ls ++ ls') where
  frame := by
    have hf := h'.frame
    rw [h.frame] at hf
    exact hf
  live := h'.live.trans h.live
  lane y hy := by
    rcases List.mem_append.1 hy with hy | hy
    · exact (h'.other _ fun z hz => (hne y hy z hz).symm).trans (h.lane y hy)
    · rw [h'.lane y hy, h.other y.lane fun z hz => hne z hz y hy]
  other l hl := (h'.other l fun z hz => hl z (List.mem_append_right _ hz)).trans (h.other l fun z hz => hl z (List.mem_append_left _ hz))
  uni q := (h'.uni q).trans (h.uni q)

theorem deliver_one {s : State} {u k d : Nat} (hlive : (s.grp u k).live = true) (hd : d ≠ 255) (bytes : Nat) (y : LaneOp) :
    Delivered s (s.deliver u k false d bytes y.lane y.data) u k d ((bytes + 3) / 4) [y] := by
  have hput : s.deliver u k false d bytes y.lane y.data = s.setGrp u k ((List.range ((bytes + 3) / 4)).foldl
      (fun g i => g.modThr y.lane (fun t => if d = 255 then t else t.setG (d + i) (bits y.data (32 * i) 32))) (s.grp u k)) := by
    unfold State.deliver
    simp [hlive]
  have hthr := fun m => Grp.thr_foldl_lane (fun i (t : Thr) => if d = 255 then t else t.setG (d + i) (bits y.data (32 * i) 32)) y.lane
    (List.range ((bytes + 3) / 4)) (s.grp u k) m
  rw [hput]
  refine ⟨rfl, ?_, fun z hz => ?_, fun l hl => ?_, fun q => ?_⟩
  · rw [setGrp_grp_same]
    exact List.foldlRecOn (motive := fun x : Grp => x.live = (s.grp u k).live) _ _ rfl fun _ hx _ _ => hx
  · obtain rfl := List.mem_singleton.1 hz
    rw [setGrp_grp_same, hthr, if_pos rfl, Thr.setRegs, if_neg hd]
    simp only [if_neg hd]
  · rw [setGrp_grp_same, hthr, if_neg (hl y (List.mem_singleton_self y))]
  · rw [setGrp_grp_same]
    exact List.foldlRecOn (motive := fun x : Grp => x.getU q = (s.grp u k).getU q) _ _ rfl fun _ hx _ _ => hx

/-- An operation's lanes, all different, get their data. -/
theorem deliverOp_delivered {o : MemOp} (hud : o.udst = false) (hd : o.dst ≠ 255) (hn : (o.lanes.map LaneOp.lane).Nodup) {s : State}
    (hlive : (s.grp o.unit o.slot).live = true) : Delivered s (s.deliverOp o) o.unit o.slot o.dst ((o.bytes + 3) / 4) o.lanes := by
  unfold State.deliverOp
  rw [hud, if_neg Bool.false_ne_true]
  generalize o.lanes = ls at hn
  induction ls generalizing s with
  | nil => exact .nil rfl rfl
  | cons y ls ih =>
    obtain ⟨hy, hn⟩ := List.nodup_cons.1 hn
    have h₁ := deliver_one hlive hd o.bytes y
    exact h₁.append (ih (h₁.live.trans hlive) hn) fun x hx z hz e => hy (List.mem_singleton.1 hx ▸ e ▸ List.mem_map_of_mem hz)

/-! #### The end of an instruction with one operation -/

/-- An instruction whose one operation is answered as it is issued ends at once: its lanes get their data (R190). -/
theorem endInstr_addOp {s : State} {o : MemOp} (hr : o.hasResult = true) (ha : o.answered = true) (hf : o.faults = []) (hi : o.instr = s.nextOp)
    (hnew : ∀ e ∈ s.opList, e.2.instr ≠ s.nextOp) : (s.addOp o).endInstr s.nextOp =
      let t := ((s.addOp o).delOp s.nextOp).deliverOp o
      if o.acquires then t.acquire o.unit o.scope else t := by
  obtain ⟨l, r, hl, hrest⟩ := opList_addOp s o
  have hother : ∀ e ∈ l ++ r, ¬ (e.2.instr == s.nextOp && e.2.hasResult) = true := fun e he => by simp [hnew e (hrest e he)]
  have hmine : (s.addOp o).opList.filter (fun e => e.2.instr == s.nextOp && e.2.hasResult) = [(s.nextOp, o)] := by
    rw [hl, List.filter_append, List.filter_cons_of_pos (by simp [hi, hr]),
      List.filter_eq_nil_iff.2 fun e he => hother e (List.mem_append_left _ he),
      List.filter_eq_nil_iff.2 fun e he => hother e (List.mem_append_right _ he)]
    rfl
  unfold State.endInstr
  simp [hmine, ha, hf, faultOf]

theorem delivered_acquire (s : State) (u scope : Nat) (u' k d n : Nat) : Delivered s (s.acquire u scope) u' k d n [] := by
  unfold State.acquire
  split
  · exact .nil rfl rfl
  · exact .nil rfl rfl

/-- So its registers are written, and of memory nothing. -/
theorem endInstr_delivered {s : State} {o : MemOp} (hr : o.hasResult = true) (ha : o.answered = true) (hf : o.faults = []) (hi : o.instr = s.nextOp)
    (hnew : ∀ e ∈ s.opList, e.2.instr ≠ s.nextOp) (hud : o.udst = false) (hd : o.dst ≠ 255) (hn : (o.lanes.map LaneOp.lane).Nodup)
    (hlive : (s.grp o.unit o.slot).live = true) :
    Delivered s ((s.addOp o).endInstr s.nextOp) o.unit o.slot o.dst ((o.bytes + 3) / 4) o.lanes := by
  have hops : Delivered s ((s.addOp o).delOp s.nextOp) o.unit o.slot o.dst ((o.bytes + 3) / 4) [] := .nil rfl rfl
  have h := hops.append (deliverOp_delivered hud hd hn (hops.live.trans hlive)) fun y hy => absurd hy List.not_mem_nil
  rw [endInstr_addOp hr ha hf hi hnew]
  dsimp only
  split
  · simpa using h.append (delivered_acquire _ o.unit o.scope ..) fun y _ z hz => absurd hz List.not_mem_nil
  · exact h

end Sys2Proof.Machine
end

section
/-! ### Loads from the L1 and accesses of block registers -/

namespace Sys2Proof.Machine
open Sys2Proof.Machine.State

/-- Lanes `ls` of the issuing group have got their data in `n` registers from `d` upward; no other register is written, and memory reads as before. -/
structure Returned (s t : State) (i : Iss) (d n : Nat) (ls : List LaneOp) : Prop where
  peek : ∀ a, t.peek a = s.peek a
  lane : ∀ y ∈ ls, ∀ j, j < n → ((t.grp i.u i.k).thr y.lane).getG (d + j) = bits y.data (32 * j) 32
  other : ∀ l q, (∀ y ∈ ls, y.lane ≠ l) ∨ q < d ∨ d + n ≤ q → ((t.grp i.u i.k).thr l).getG q = ((s.grp i.u i.k).thr l).getG q
  uni : ∀ q, (t.grp i.u i.k).getU q = (s.grp i.u i.k).getU q
  pred : ∀ l q, ((t.grp i.u i.k).thr l).getP q = ((s.grp i.u i.k).thr l).getP q

theorem Delivered.returned {s s₁ t : State} {i : Iss} {d n : Nat} {ls : List LaneOp} (h : Delivered s₁ t i.u i.k d n ls)
    (hpeek : ∀ a, s₁.peek a = s.peek a) (hregs : SameRegs (s.grp i.u i.k) (s₁.grp i.u i.k)) (hu : i.u < 132) (hd : d + n ≤ 255) (b : Bool) :
    Returned s (t.afterStep i.u i.k b) i d n ls := by
  obtain ⟨hk, hr⟩ := afterStep_spec t i.u i.k b hu
  obtain ⟨hG, hP, hU⟩ := (hr i.u i.k).1
  obtain ⟨hG₁, hP₁, hU₁⟩ := hregs
  -- a lane that is delivered to, or not, is a thread of before with at most the result written
  have hthr : ∀ l, (t.grp i.u i.k).thr l = (s₁.grp i.u i.k).thr l
      ∨ ∃ y ∈ ls, y.lane = l ∧ (t.grp i.u i.k).thr l = ((s₁.grp i.u i.k).thr l).setRegs d n y.data := fun l => by
    by_cases hl : ∃ y ∈ ls, y.lane = l
    · obtain ⟨y, hy, rfl⟩ := hl
      exact .inr ⟨y, hy, rfl, h.lane y hy⟩
    · exact .inl (h.other l fun y hy e => hl ⟨y, hy, e⟩)
  refine ⟨fun a => ?_, fun y hy j hj => ?_, fun l q hq => ?_, fun q => ?_, fun l q => ?_⟩
  · rw [hk.peek, h.frame]
    exact hpeek a
  · rw [hG, h.lane y hy, Thr.getG_setRegs _ _ _ _ _ (by omega), if_pos ⟨by omega, by omega⟩, Nat.add_sub_cancel_left]
  · rw [hG, ← hG₁]
    rcases hthr l with e | ⟨y, hy, hl, e⟩
    · rw [e]
    · rw [e]
      exact Thr.getG_setRegs_out _ (hq.resolve_left fun hne => hne y hy hl) _
  · rw [hU, h.uni, hU₁]
  · rw [hP, ← hP₁]
    rcases hthr l with e | ⟨y, -, -, e⟩
    · rw [e]
    · rw [e]
      exact (Thr.setRegs_keeps ..).1 q

/-- What an instruction that ends with one answered operation leaves, where beyond the issue it changed performance counters and latches alone. -/
theorem endInstr_returned {s s₁ s₂ : State} {sh : Shape} {mi : Mi} {i : Iss} {o : MemOp} (hp : Prepared s s₁ i) (h : Issues s sh mi i)
    (h₂ : s₂ = { s₁ with regs := s₂.regs, latch := s₂.latch }) (hr : o.hasResult = true) (ha : o.answered = true) (hf : o.faults = [])
    (hi : o.instr = s₁.nextOp) (hnew : ∀ e ∈ s.opList, e.2.instr ≠ s.nextOp) (hud : o.udst = false) (hu : o.unit = i.u) (hk : o.slot = i.k)
    (hn : (o.lanes.map LaneOp.lane).Nodup) (hb : 0 < o.bytes) (hd : o.dst + (o.bytes + 3) / 4 ≤ 255) (b : Bool) :
    Returned s (((s₂.addOp o).endInstr s₁.nextOp).afterStep i.u i.k b) i o.dst ((o.bytes + 3) / 4) o.lanes := by
  have hgrp : ∀ u k, s₂.grp u k = s₁.grp u k := fun u k => by rw [h₂]; rfl
  have hnext : s₂.nextOp = s₁.nextOp := by rw [h₂]
  have hlist : s₂.opList = s.opList := by rw [h₂, hp.keeps.1]; rfl
  have hlive : (s₂.grp o.unit o.slot).live = true := by
    rw [hgrp, hu, hk]
    exact (congrArg Prod.fst hp.owner).trans h.live
  have hdel := endInstr_delivered hr ha hf (hi.trans hnext.symm) (hlist ▸ hnext ▸ hp.keeps.nextOp ▸ hnew) hud (by omega) hn hlive
  rw [hu, hk, hnext] at hdel
  refine hdel.returned (fun a => ?_) (hgrp i.u i.k ▸ hp.regs) h.unit_lt hd b
  rw [h₂]
  exact hp.keeps.peek a

/-! #### A load that the L1 answers (R187, R222) -/

theorem accessesOf_line {l : List LaneOp} {line : Nat} (hne : l ≠ []) (h : ∀ y ∈ l, accessAt y.lpa = line) : accessesOf l = [line] := by
  obtain ⟨y, l, rfl⟩ := List.exists_cons_of_ne_nil hne
  rw [accessesOf, List.map_cons, List.eraseDups_cons, h y List.mem_cons_self, List.filter_eq_nil_iff.2]
  · rfl
  · intro a ha
    obtain ⟨z, hz, rfl⟩ := List.mem_map.1 ha
    simp [h z (List.mem_cons_of_mem _ hz)]

theorem accessAt_hbm {a line : Nat} (hl : a / 128 * 128 = line) (hp : place line = .hbm) : accessAt a = line := by
  have : place a = .hbm := (place_line_hbm a).1 (hl ▸ hp)
  rw [accessAt, this, hl]

/-- Lanes of one line are one operation. -/
theorem sendOp_line {s : State} {u : Nat} {o : MemOp} {here : List LaneOp} {low line : Nat} {one : MemOp → State → State} (hud : o.udst = false)
    (hne : here ≠ []) (h : ∀ y ∈ here, accessAt y.lpa = line) (hl : line / 128 * 128 = line) :
    s.sendOp u o here [] low one = one { o with line := line, lanes := here, part := s.memPart u line } s := by
  rw [sendOp_here, accessesOf_line hne h]
  show one (s.pieceOp u o here low line) s = _
  unfold State.pieceOp
  simp only [hl, hud, Bool.false_and, Bool.false_eq_true, if_false, List.filter_eq_self.2 fun y hy => beq_iff_eq.2 (h y hy)]

theorem loadLine_hit {u : Nat} {o : MemOp} {s : State} {data : List Byte} (hp : place o.line = .hbm) (hacq : o.ord = true → o.scope = 0)
    (hfind : (s.unit u).l1.find? (fun c => c.1 == o.line) = some (o.line, data)) :
    State.loadLine u o s = (s.bumpUnit u 0x120 1).addOp (o.fromCopy data) := by
  have hskip : (o.acquires && o.scope != 0) = false := by
    cases ho : o.ord with
    | false => simp [MemOp.acquires, ho]
    | true => simp [hacq ho]
  unfold State.loadLine
  simp only [hp, hskip, hfind, bne_self_eq_false, Bool.false_eq_true, if_false]

theorem bumpUnit_frame (s : State) (u off n : Nat) :
    s.bumpUnit u off n = { s with regs := (s.bumpUnit u off n).regs, latch := (s.bumpUnit u off n).latch } := by
  unfold State.bumpUnit State.bump
  split <;> rfl

theorem fromCopy_lanes (o : MemOp) (data : List Byte) : (o.fromCopy data).lanes.map LaneOp.lane = o.lanes.map LaneOp.lane := by
  rw [MemOp.fromCopy, List.map_map]
  rfl

theorem hereLane_lanes (s : State) (sh : Shape) (mi : Mi) (i : Iss) (x : Access) (data : Grp → Nat → Nat × Nat) (ls : List Nat) :
    (ls.map (s.hereLane sh mi i x data)).map LaneOp.lane = ls := by
  rw [List.map_map]
  exact List.map_id ls

theorem memBytes_pos (mi : Mi) : 0 < memBytes mi := Nat.two_pow_pos _

section
variable {s : State} {mi : Mi} {i : Iss} {line : Nat} {data : List Byte} (h : Issues s (shapeLd mi) mi i) (hb : memBad mi = false)
  (hud : mi.udst = false) (hm : MemOk s mi i (shapeLd mi) (loadAccess mi false) false) (hacq : memOrd mi = true → memScope mi = 0)
  (hp : place line = .hbm)
  (hline : ∀ l ∈ (loadAccess mi false).lanes i.exec, ∃ a, s.destOf (s.partOfUnit i.u) (loadAccess mi false)
    (laneAddr (shapeLd mi) mi (s.grp i.u i.k) l) = some (.here a) ∧ a / 128 * 128 = line)
  (hfind : (s.unit i.u).l1.find? (fun c => c.1 == line) = some (line, data))
include h hb hud hm hacq hp hline hfind

/-- A load of lanes within one line that the L1 holds is one operation, answered from it, and ends. -/
theorem loadInstr_hit : ∃ s₁ o, Prepared s s₁ i
    ∧ o = { loadOp s₁ i mi with line := line, part := s₁.memPart i.u line
                                lanes := (lanesOf i.exec).map (s.hereLane (shapeLd mi) mi i (loadAccess mi false) fun _ _ => (0, 0)) }
    ∧ s.loadInstr (shapeLd mi) mi false false
      = (((s₁.bumpUnit i.u 0x120 1).addOp (o.fromCopy data)).endInstr s₁.nextOp).afterStep i.u i.k (s.grp i.u i.k).step := by
  obtain ⟨s₁, hprep, he⟩ := memIssue_here h (by simp [hb] : (memBad mi || (false && memGlobal mi)) = false) hm.allHere
    (data := fun _ _ => (0, 0)) (fun _ _ => rfl) (f := loadEffect mi false)
  rw [← loadInstr_eq, loadEffect_memory (hm.inMemory _)] at he
  have hlanes : (loadAccess mi false).lanes i.exec = lanesOf i.exec := Access.lanes_of_not_alone hud _
  rw [hlanes] at he hline
  have hat : ∀ y ∈ (lanesOf i.exec).map (s.hereLane (shapeLd mi) mi i (loadAccess mi false) fun _ _ => (0, 0)), accessAt y.lpa = line :=
    List.forall_mem_map.2 fun l hl => by
      obtain ⟨a, ha, hal⟩ := hline l hl
      rw [hereLane_eq ha, accessAt_hbm hal hp]
  have haligned : line / 128 * 128 = line := by
    obtain ⟨l, hl⟩ := List.exists_mem_of_ne_nil _ h.lanes_ne
    obtain ⟨a, -, hal⟩ := hline l hl
    omega
  rw [sendOp_line (o := loadOp s₁ i mi) hud (List.map_eq_nil_iff.not.2 h.lanes_ne) hat haligned,
    show loadOne (false && !memGlobal mi) i.u = State.loadLine i.u from rfl, loadLine_hit hp hacq (hprep.keeps.unit i.u ▸ hfind)] at he
  exact ⟨s₁, _, hprep, rfl, he⟩

theorem ld_hit (hd : mi.dst.toNat + (memBytes mi + 3) / 4 ≤ 255) (hnew : ∀ e ∈ s.opList, e.2.instr ≠ s.nextOp) :
    Completes (.ld mi) s fun t => (∀ a, t.peek a = s.peek a)
      ∧ (∀ l a j, l < 32 → i.exec.testBit l = true → j < (memBytes mi + 3) / 4 →
          s.destOf (s.partOfUnit i.u) (loadAccess mi false) (laneAddr (shapeLd mi) mi (s.grp i.u i.k) l) = some (.here a) →
          ((t.grp i.u i.k).thr l).getG (mi.dst.toNat + j)
            = bits (extendLoad (memBytes mi) (bit mi.mod.toNat 3) (ofLeBytes ((data.drop (a % 128)).take (memBytes mi)))) (32 * j) 32)
      ∧ (∀ l q, (i.exec.testBit l = false ∨ q < mi.dst.toNat ∨ mi.dst.toNat + (memBytes mi + 3) / 4 ≤ q) →
          ((t.grp i.u i.k).thr l).getG q = ((s.grp i.u i.k).thr l).getG q)
      ∧ (∀ q, (t.grp i.u i.k).getU q = (s.grp i.u i.k).getU q)
      ∧ ∀ l q, ((t.grp i.u i.k).thr l).getP q = ((s.grp i.u i.k).thr l).getP q := by
  obtain ⟨s₁, o, hprep, rfl, he⟩ := loadInstr_hit h hb hud hm hacq hp hline hfind
  have hls := (fromCopy_lanes { loadOp s₁ i mi with
      line := line, part := s₁.memPart i.u line
      lanes := (lanesOf i.exec).map (s.hereLane (shapeLd mi) mi i (loadAccess mi false) fun _ _ => (0, 0)) } data).trans (hereLane_lanes ..)
  have hret := endInstr_returned hprep h (bumpUnit_frame s₁ i.u 0x120 1) rfl rfl rfl rfl hnew hud rfl rfl
    (hls ▸ nodup_lanesOf _) (memBytes_pos mi) hd (s.grp i.u i.k).step
  rw [← he] at hret
  refine ⟨_, rfl, hret.peek, fun l a j hl hx hj ha => ?_, fun l q hq => hret.other l q (hq.imp_left fun hx y hy e => ?_), hret.uni, hret.pred⟩
  · have := hret.lane _ (List.mem_map_of_mem (List.mem_map_of_mem ((mem_lanesOf _ _).2 ⟨hl, hx⟩))) j hj
    simp only [hereLane_eq ha] at this
    exact this
  · have hy' := List.mem_map_of_mem (f := LaneOp.lane) hy
    rw [hls, mem_lanesOf, e, hx] at hy'
    exact absurd hy'.2 Bool.false_ne_true

end

end Sys2Proof.Machine
end

section
/-! ### Loads and stores of one thread at a block register (R9, R51) -/

namespace Sys2Proof.Machine
open Sys2Proof.Machine.State

/-- `t` is `s` but for what register reads have latched. -/
def LatchedOnly (s t : State) : Prop := t = { s with latch := t.latch }

theorem LatchedOnly.trans {s t u : State} (h : LatchedOnly s t) (h' : LatchedOnly t u) : LatchedOnly s u := by
  unfold LatchedOnly at *
  rw [h] at h'
  exact h'

theorem LatchedOnly.regs_latch {s t : State} (h : LatchedOnly s t) : t = { s with regs := t.regs, latch := t.latch } := by
  rw [h]

theorem latchedOnly_regRead (s : State) (a : RegAddr) : LatchedOnly s (s.regRead a).2 := by
  unfold regRead catRead
  split
  · dsimp only
    split_ifs <;> rfl
  · split
    · rfl
    · split
      · rfl
      · next d base _ =>
        extract_lets s' k v
        have hlead : LatchedOnly s s' := by
          simp only [s']
          split
          · split
            · exact latchBehind_eq ..
            · rfl
          · rfl
        split_ifs
        · exact hlead
        · exact hlead.trans rfl
        · exact hlead

/-- Both halves of a 64-bit read. -/
theorem regRead64_eq (s : State) (a : RegAddr) : s.regRead64 a
    = let hi := (s.regRead a).2.regRead { a with off := a.off + 4 }
      ((s.regRead a).1 + hi.1 * 2 ^ 32, hi.2) := by
  rw [regRead64]

theorem latchedOnly_regRead64 (s : State) (a : RegAddr) : LatchedOnly s (s.regRead64 a).2 := by
  rw [regRead64_eq]
  exact (latchedOnly_regRead s a).trans (latchedOnly_regRead ..)

/-- What a load of `n` bytes reads at a register. -/
def State.regLoad (s : State) (n : Nat) (a : RegAddr) : Nat × State := if n = 8 then s.regRead64 a else s.regRead a

theorem latchedOnly_regLoad (s : State) (n : Nat) (a : RegAddr) : LatchedOnly s (s.regLoad n a).2 := by
  unfold regLoad
  split
  · exact latchedOnly_regRead64 s a
  · exact latchedOnly_regRead s a

/-- What a store of `n` bytes writes at a register. -/
def State.regStore (s : State) (n : Nat) (a : RegAddr) (v : Nat) : State := if n = 8 then s.regWrite64 a v 0 else s.regWrite a v 0

/-- One thread executes the access, and its address is that of a block register. -/
structure Reaches (s : State) (sh : Shape) (mi : Mi) (i : Iss) (x : Access) (release : Bool) (l : Nat) (reg : RegAddr) : Prop where
  exec : i.exec = 2 ^ l
  lane : l < 32
  ready : s.memReady x release sh mi i = true
  nofault : s.lanesFault (s.partOfUnit i.u) x [(l, laneAddr sh mi (s.grp i.u i.k) l)] = none
  dest : ∃ a, s.destOf (s.partOfUnit i.u) x (laneAddr sh mi (s.grp i.u i.k) l) = some (.here a) ∧ place a = .control ∧ s.regAt a = some reg

theorem lanesOf_two_pow {l : Nat} (h : l < 32) : lanesOf (2 ^ l) = [l] := by
  have key : ∀ l : Fin 32, lanesOf (2 ^ l.val) = [l.val] := by decide
  exact key ⟨l, h⟩

section
variable {s : State} {sh : Shape} {mi : Mi} {i : Iss} {x : Access} {release : Bool} {l : Nat} {reg : RegAddr} (h : Reaches s sh mi i x release l reg)
include h

theorem Reaches.lanes : x.lanes i.exec = [l] := by
  unfold Access.lanes
  rw [h.exec, lanesOf_two_pow h.lane]
  split <;> rfl

theorem Reaches.allHere : AllHere s sh mi i x release where
  ready := h.ready
  nofault := by rw [h.lanes]; exact h.nofault
  dest m hm := by
    rw [h.lanes] at hm
    obtain rfl := List.mem_singleton.1 hm
    exact h.dest.imp fun _ => And.left

/-- Its one lane, at a register of the control window. -/
theorem Reaches.hereLane (data : Grp → Nat → Nat × Nat) : ∃ y, s.hereLane sh mi i x data l = y ∧ y.lane = l ∧ y.data = (data (s.grp i.u i.k) l).1
    ∧ place y.lpa = .control ∧ s.regAt y.lpa = some reg := by
  obtain ⟨a, ha, hp, hr⟩ := h.dest
  exact ⟨_, hereLane_eq ha data, rfl, rfl, hp, hr⟩

end

theorem partition_control {y : LaneOp} (h : place y.lpa = .control) : [y].partition (fun y => outsideMemory y.lpa) = ([y], []) := by
  have : outsideMemory y.lpa = true := by unfold outsideMemory; rw [h]
  simp [List.partition_eq_filter_filter, this]

/-- A load's operation at a register, answered as it is issued. -/
def regLoadOp (s : State) (i : Iss) (mi : Mi) (reg : RegAddr) (y : LaneOp) : MemOp :=
  { loadOp s i mi with lanes := [{ y with data := (s.regLoad (memBytes mi) reg).1 % 2 ^ (8 * memBytes mi) }], answered := true }

/-- At a register a load reads it and ends. -/
theorem loadEffect_control {s : State} {y : LaneOp} {reg : RegAddr} (hp : place y.lpa = .control) (hr : s.regAt y.lpa = some reg) (mi : Mi)
    (const : Bool) (i : Iss) : loadEffect mi const i [y] [] s
      = ((s.regLoad (memBytes mi) reg).2.addOp (regLoadOp s i mi reg y)).endInstr s.nextOp := by
  have hctl : s.ctlLoad (memBytes mi) [y]
      = ([{ y with data := (s.regLoad (memBytes mi) reg).1 % 2 ^ (8 * memBytes mi) }], (s.regLoad (memBytes mi) reg).2) := by
    unfold ctlLoad regLoad
    simp [hp, hr]
  unfold loadEffect
  rw [partition_control hp]
  dsimp only
  rw [hctl]
  rfl

/-- At a register a store writes it. -/
theorem storeEffect_control {s : State} {y : LaneOp} {reg : RegAddr} (hp : place y.lpa = .control) (hr : s.regAt y.lpa = some reg) (mi : Mi) (i : Iss) :
    storeEffect mi i [y] [] s = s.regStore (memBytes mi) reg y.data := by
  have hctl : s.ctlStore (memBytes mi) [y] = s.regStore (memBytes mi) reg y.data := by
    unfold ctlStore regStore
    simp [hp, hr]
  unfold storeEffect
  rw [partition_control hp]
  dsimp only
  rw [hctl]
  rfl

theorem Keeps.regAt {s t : State} (h : Keeps s t) (a : Nat) : t.regAt a = s.regAt a := by rw [h.1]; rfl

/-- A load of one thread at a block register (R9, R51). -/
theorem loadInstr_register {s : State} {sh : Shape} {mi : Mi} {i : Iss} {const lpa : Bool} {l : Nat} {reg : RegAddr} (h : Issues s sh mi i)
    (hb : (memBad mi || (lpa && memGlobal mi)) = false) (hud : mi.udst = false) (hd : mi.dst.toNat + (memBytes mi + 3) / 4 ≤ 255)
    (hr : Reaches s sh mi i (loadAccess mi lpa) false l reg) (hnew : ∀ e ∈ s.opList, e.2.instr ≠ s.nextOp) :
    ∃ s', Keeps s s' ∧ ∀ j, j < memBytes mi / 4 → (((s.loadInstr sh mi const lpa).grp i.u i.k).thr l).getG (mi.dst.toNat + j)
      = bits ((s'.regLoad (memBytes mi) reg).1 % 2 ^ (8 * memBytes mi)) (32 * j) 32 := by
  obtain ⟨s₁, hp, he⟩ := memIssue_here h hb hr.allHere (data := fun _ _ => (0, 0)) (fun _ _ => rfl) (f := loadEffect mi const)
  obtain ⟨y, hy, rfl, -, hplace, hreg⟩ := hr.hereLane fun _ _ => (0, 0)
  rw [← loadInstr_eq, hr.lanes, List.map_singleton, hy, loadEffect_control hplace ((hp.keeps.regAt _).trans hreg)] at he
  have hret := endInstr_returned (o := regLoadOp s₁ i mi reg y) hp h (latchedOnly_regLoad s₁ (memBytes mi) reg).regs_latch
    rfl rfl rfl rfl hnew hud rfl rfl (List.nodup_singleton _) (memBytes_pos mi) hd
    (s.grp i.u i.k).step
  rw [← he] at hret
  exact ⟨s₁, hp.keeps, fun j hj => hret.lane _ (List.mem_singleton_self _) j (hj.trans_le (Nat.div_le_div_right (Nat.le_add_right _ 3)))⟩

/-- A store of one thread at a block register (R9, R51). -/
theorem storeInstr_register {s : State} {sh : Shape} {mi : Mi} {i : Iss} {lpa : Bool} {l : Nat} {reg : RegAddr} (h : Issues s sh mi i)
    (hb : (memBad mi || (lpa && memGlobal mi)) = false) (hr : Reaches s sh mi i (plainAccess mi 2 lpa) (memOrd mi) l reg) :
    ∃ s', Keeps s s' ∧ s.storeInstr sh mi lpa
      = (s'.regStore (memBytes mi) reg (opB sh mi (s.grp i.u i.k) ((s.grp i.u i.k).thr l))).afterStep i.u i.k (s.grp i.u i.k).step := by
  obtain ⟨s₁, hp, he⟩ := memIssue_here h hb hr.allHere (fun g' hg => dataB_same hg sh mi) (f := storeEffect mi)
  obtain ⟨y, hy, -, hdata, hplace, hreg⟩ := hr.hereLane (dataB sh mi)
  rw [← storeInstr_eq, hr.lanes, List.map_singleton, hy, storeEffect_control hplace ((hp.keeps.regAt _).trans hreg), hdata] at he
  exact ⟨s₁, hp.keeps, he⟩

end Sys2Proof.Machine
end

section
/-! ### The instructions of the MEMORY and ATOMIC families -/

namespace Sys2Proof.Machine
open Sys2Proof.Machine.State

/-- On a housekeeping unit `ldp` is a load (R233). -/
theorem exec_ldp {s : State} {mi : Mi} {i : Iss} {sh : Shape} (h : Issues s sh mi i) (hu : 128 ≤ i.u) :
    exec (.ldp mi) s = .next (s.loadInstr (shapeLdp mi) mi false true) := by
  have : ¬ mi.unit.val < 128 := h.unit_eq ▸ Nat.not_lt.2 hu
  show execLdp mi s = _
  rw [execLdp, if_neg this]

/-- On a housekeeping unit `stp` is a store (R233). -/
theorem exec_stp {s : State} {mi : Mi} {i : Iss} {sh : Shape} (h : Issues s sh mi i) (hu : 128 ≤ i.u) :
    exec (.stp mi) s = .next (s.storeInstr (shapeStp mi) mi true) := by
  have : ¬ mi.unit.val < 128 := h.unit_eq ▸ Nat.not_lt.2 hu
  show execStp mi s = _
  rw [execStp, if_neg this]

/-- A load or store by LPA takes no global address. -/
theorem fields_ok {mi : Mi} {lpa : Bool} (hb : memBad mi = false) (hg : lpa = true → memGlobal mi = false) :
    (memBad mi || (lpa && memGlobal mi)) = false := by
  cases lpa <;> simp_all

theorem loadKind_ldc (mi : Mi) (a : Nat) :
    loadKind (true && !memGlobal mi) a = if place a = .hbm ∧ memGlobal mi = false then .const else .load := by
  simp [loadKind, and_comm]

/-- Settles O8: an instruction that passes its checks has its effect on the lanes here (`memIssue_here`), which issues their operations, and ends where
those are answered as they are issued. -/
theorem memoryInstructionsSent : Obligations.MemoryInstructionsSent := by
  unfold Obligations.MemoryInstructionsSent
  refine ⟨⟨?_, ?_, ?_, ?_, ?_⟩, ?_, ⟨?_, ?_, ?_, ?_, ?_⟩, ?_, ?_, ?_, ?_⟩
  · intro s mi i h _ hb hg hc hm
    exact ⟨_, rfl, loadInstr_sent h (fields_ok hb hg) hc hm⟩
  · intro s mi i h _ hb hg hc hm
    simp only [← loadKind_ldc]
    exact ⟨_, rfl, loadInstr_sent h (fields_ok hb hg) hc hm⟩
  · intro s mi i h hu hb hg hc hm
    exact ⟨_, exec_ldp h (hu rfl), loadInstr_sent h (fields_ok hb hg) hc hm⟩
  · intro s mi i h _ hb hg hm
    exact ⟨_, rfl, storeInstr_sent h (fields_ok hb hg) hm⟩
  · intro s mi i h hu hb hg hm
    exact ⟨_, exec_stp h (hu rfl), storeInstr_sent h (fields_ok hb hg) hm⟩
  · intro s mi i line data h hb hud n r x g hd hm hacq hp hline hfind hnew
    exact ld_hit h hb hud hm hacq hp hline hfind hd hnew
  · rintro s mi i l reg h - hb hg hud hn hd ⟨hx, hl, hr, hf, hdest⟩ hnew
    exact ⟨_, rfl, loadInstr_register h (fields_ok hb hg) hud hd ⟨hx, hl, hr, hf, hdest⟩ hnew⟩
  · rintro s mi i l reg h - hb hg hud hn hd ⟨hx, hl, hr, hf, hdest⟩ hnew
    exact ⟨_, rfl, loadInstr_register h (fields_ok hb hg) hud hd ⟨hx, hl, hr, hf, hdest⟩ hnew⟩
  · rintro s mi i l reg h hu hb hg hud hn hd ⟨hx, hl, hr, hf, hdest⟩ hnew
    exact ⟨_, exec_ldp h (hu rfl), loadInstr_register h (fields_ok hb hg) hud hd ⟨hx, hl, hr, hf, hdest⟩ hnew⟩
  · rintro s mi i l reg h - hb hg ⟨hx, hl, hr, hf, hdest⟩
    exact ⟨_, rfl, storeInstr_register h (fields_ok hb hg) ⟨hx, hl, hr, hf, hdest⟩⟩
  · rintro s mi i l reg h hu hb hg ⟨hx, hl, hr, hf, hdest⟩
    exact ⟨_, exec_stp h (hu rfl), storeInstr_register h (fields_ok hb hg) ⟨hx, hl, hr, hf, hdest⟩⟩
  · intro s mi i op ty n sh x h hty hsc hop hm
    exact atom_sent h hty hsc hop hm
  · intro s mi i sh x h hb hm
    exact dead_sent h hb hm
  · intro s mi i sh x h hb ha
    exact pf_sent h hb ha
  · intro s mi i sh x g h hb hm he hs
    exact accl_sent h hb hm he hs

end Sys2Proof.Machine
end

section
/-! ### The state after a cold reset -/

namespace Sys2Proof.Machine

/-- Settles O56: every family of the state is empty at reset, so that each of its members reads as its default, and a register as its table says. -/
theorem resetState : Obligations.ResetState := by
  unfold Obligations.ResetState
  intro s
  refine ⟨rfl, ?_, rfl, rfl, rfl, rfl, ?_, ?_, ?_, ?_, ?_, ?_, ?_, ?_, ?_, ?_, ?_, ?_⟩
  · exact fun d => Nat.zero_testBit d
  · exact fun p => ⟨rfl, rfl, rfl⟩
  · exact fun p e => rfl
  · exact fun p i => ⟨rfl, rfl⟩
  · exact fun r n => ⟨rfl, rfl, rfl, rfl⟩
  · exact fun n => ⟨rfl, rfl, rfl⟩
  · exact fun g => rfl
  · exact fun n => rfl
  · exact fun u k => rfl
  · decide
  · exact fun k => rfl
  · exact fun p => rfl
  · intro p
    have hfeed : s.reg (home .dom p 0x1C) = 0x1A40000 := rfl
    rw [hfeed]
    decide

end Sys2Proof.Machine
end

section
/-! ### Operations at a bank of cluster memory -/

namespace Sys2Proof.SMap

variable {α : Type}

theorem dropIf_dropIf (f : Nat → Bool) (m : SMap α) : dropIf f (dropIf f m) = dropIf f m := by simp [dropIf]

/-- A write lists its entry once, and no other entry of its key. -/
theorem set_split_ne [DecidableEq α] {d v : α} (m : SMap α) (k : Nat) (hv : v ≠ d) :
    ∃ l r, set d m k v = l ++ (k, v) :: r ∧ ∀ e ∈ l ++ r, e ∈ m ∧ e.1 ≠ k := by
  obtain ⟨l, r, hs, hm⟩ := set_split (d := d) (m.dropIf (fun x => x == k)) k hv
  refine ⟨l, r, ?_, fun e he => ?_⟩
  · rw [← hs, set, set, dropIf_dropIf]
  · obtain ⟨hin, hne⟩ := List.mem_filter.1 (hm e he)
    exact ⟨hin, by simpa using hne⟩

end Sys2Proof.SMap

namespace Sys2Proof.Machine
open Sys2Proof.Machine.State

/-- The operations in flight after operation `id` has been set: that one, once, among those of other numbers. -/
theorem opList_setOp (s : State) (id : Nat) (o : MemOp) :
    ∃ l r, (s.setOp id o).opList = l ++ (id, o) :: r ∧ ∀ e ∈ l ++ r, e ∈ s.opList ∧ e.1 ≠ id := by
  obtain ⟨l, r, hs, hm⟩ := SMap.set_split_ne (d := none) (v := some o) s.ops id (Option.some_ne_none o)
  refine ⟨l.filterMap fun e => e.2.map fun o => (e.1, o), r.filterMap fun e => e.2.map fun o => (e.1, o), ?_, fun e he => ?_⟩
  · show List.filterMap _ (SMap.set none s.ops id (some o)) = _
    rw [hs]
    simp
  · rw [← List.filterMap_append, List.mem_filterMap] at he
    obtain ⟨x, hx, he⟩ := he
    obtain ⟨hin, hne⟩ := hm x hx
    obtain ⟨y, -, rfl⟩ := Option.map_eq_some_iff.1 he
    exact ⟨List.mem_filterMap.2 ⟨x, hin, he⟩, hne⟩

/-- An instruction whose one operation is answered ends: its lanes get their data (R190). -/
theorem endInstr_setOp {s : State} {id : Nat} {o : MemOp} (hr : o.hasResult = true) (ha : o.answered = true) (hf : o.faults = [])
    (honly : ∀ e ∈ s.opList, e.2.instr = o.instr → e.1 = id) : (s.setOp id o).endInstr o.instr =
      let t := ((s.setOp id o).delOp id).deliverOp o
      if o.acquires then t.acquire o.unit o.scope else t := by
  obtain ⟨l, r, hl, hrest⟩ := opList_setOp s id o
  have hother : ∀ e ∈ l ++ r, ¬ (e.2.instr == o.instr && e.2.hasResult) = true := fun e he => by
    obtain ⟨hin, hne⟩ := hrest e he
    simp [mt (honly e hin) hne]
  have hmine : (s.setOp id o).opList.filter (fun e => e.2.instr == o.instr && e.2.hasResult) = [(id, o)] := by
    rw [hl, List.filter_append, List.filter_cons_of_pos (by simp [hr]),
      List.filter_eq_nil_iff.2 fun e he => hother e (List.mem_append_left _ he),
      List.filter_eq_nil_iff.2 fun e he => hother e (List.mem_append_right _ he)]
    rfl
  unfold State.endInstr
  simp [hmine, ha, hf, faultOf]

theorem deliver_frame (s : State) (u k : Nat) (udst : Bool) (dst bytes lane v : Nat) :
    s.deliver u k udst dst bytes lane v = { s with groups := (s.deliver u k udst dst bytes lane v).groups } := by
  unfold State.deliver
  dsimp only
  split
  · rfl
  · split <;> rfl

theorem deliverOp_frame (s : State) (o : MemOp) : s.deliverOp o = { s with groups := (s.deliverOp o).groups } := by
  refine State.foldl_keeps (fun t => t = { s with groups := t.groups }) _ (fun t x h => ?_) _ s rfl
  have hf := deliver_frame t o.unit o.slot o.udst o.dst o.bytes x.lane x.data
  generalize t.deliver o.unit o.slot o.udst o.dst o.bytes x.lane x.data = v at hf ⊢
  rw [h] at hf
  exact hf

/-- What the end of a load leaves: its operation is gone, and beyond groups, operations and units nothing has changed. -/
structure LoadEnded (s t : State) (id : Nat) : Prop where
  frame : t = { s with groups := t.groups, ops := t.ops, units := t.units }
  op : t.op id = none

theorem op_delOp (s : State) (id : Nat) : (s.delOp id).op id = none := SMap.get_set_same none s.ops id none

/-- Operations changed one by one are still the same operations. -/
theorem op_mapOps (s : State) (f : MemOp → MemOp) (id : Nat) :
    ({ s with ops := s.ops.map (fun e => (e.1, e.2.map f)) } : State).op id = (s.op id).map f :=
  SMap.get_map none none (Option.map f) rfl s.ops id

theorem op_acquire {s : State} {id : Nat} (h : s.op id = none) (u scope : Nat) : (s.acquire u scope).op id = none := by
  unfold State.acquire
  split
  · exact h
  · exact (op_mapOps (s.setUnit u { s.unit u with l1 := [] }) _ id).trans (congrArg _ h)

theorem op_ownWrite {s : State} {id : Nat} (h : s.op id = none) (u line : Nat) : (s.ownWrite u line).op id = none :=
  (op_mapOps (s.setUnit u { s.unit u with l1 := (s.unit u).l1.filter (fun c => c.1 != line) }) _ id).trans (congrArg _ h)

theorem endInstr_setOp_ended {s : State} {id : Nat} {o : MemOp} (hr : o.hasResult = true) (ha : o.answered = true) (hf : o.faults = [])
    (honly : ∀ e ∈ s.opList, e.2.instr = o.instr → e.1 = id) : LoadEnded s ((s.setOp id o).endInstr o.instr) id := by
  have hframe := deliverOp_frame ((s.setOp id o).delOp id) o
  have hop : (((s.setOp id o).delOp id).deliverOp o).op id = none := by
    rw [hframe]
    exact op_delOp (s.setOp id o) id
  rw [endInstr_setOp hr ha hf honly]
  dsimp only
  split
  · refine ⟨?_, op_acquire hop _ _⟩
    unfold State.acquire
    split
    · rw [hframe]; rfl
    · rw [State.dropL1, hframe]; rfl
  · exact ⟨by rw [hframe]; rfl, hop⟩

/-- So its lanes have their data. -/
theorem endInstr_setOp_delivered {s : State} {id : Nat} {o : MemOp} (hr : o.hasResult = true) (ha : o.answered = true) (hf : o.faults = [])
    (honly : ∀ e ∈ s.opList, e.2.instr = o.instr → e.1 = id) (hud : o.udst = false) (hd : o.dst ≠ 255) (hn : (o.lanes.map LaneOp.lane).Nodup)
    (hlive : (s.grp o.unit o.slot).live = true) :
    Delivered s ((s.setOp id o).endInstr o.instr) o.unit o.slot o.dst ((o.bytes + 3) / 4) o.lanes := by
  have hops : Delivered s ((s.setOp id o).delOp id) o.unit o.slot o.dst ((o.bytes + 3) / 4) [] := .nil rfl rfl
  have h := hops.append (deliverOp_delivered hud hd hn (hops.live.trans hlive)) fun y hy => absurd hy List.not_mem_nil
  rw [endInstr_setOp hr ha hf honly]
  dsimp only
  split
  · simpa using h.append (delivered_acquire _ o.unit o.scope ..) fun y _ z hz => absurd hz List.not_mem_nil
  · exact h

/-- A load of cluster memory without poison is answered from its bytes and ends (R236). -/
theorem answerLoad_cmem {s : State} {id : Nat} {o : MemOp} {c off : Nat} (h : Answerable s id o) (hk : o.kind = .load) (hp : place o.line = .cmem c off) :
    LoadEnded s (s.answerLoad id o) id ∧ Loaded s (s.answerLoad id o) o := by
  obtain ⟨-, honly, hfaults, hlive, hud, hd, hn, hclean⟩ := h
  have hbad : s.poisonedLanes o = [] := List.filter_eq_nil_iff.2 fun x hx => by simp [hclean x hx]
  let o' : MemOp := { o with lanes := o.lanes.map (fun x => { x with data := extendLoad o.bytes o.signed (s.peekNat x.lpa o.bytes) })
                             answered := true, filling := false, queued := false }
  have he : s.answerLoad id o = (s.setOp id o').endInstr o'.instr := by
    unfold State.answerLoad State.performed
    simp only [hbad, hp, List.map_nil, List.append_nil]
    rfl
  have hr : o'.hasResult = true := by simp [MemOp.hasResult, o', hk]
  have hend := endInstr_setOp_ended (s := s) (id := id) (o := o') hr rfl hfaults honly
  rw [he]
  refine ⟨hend, fun x hx j hj => ?_, fun a => by rw [hend.frame]; rfl⟩
  have hdel := endInstr_setOp_delivered (s := s) (id := id) (o := o') hr rfl hfaults honly hud (by show o.dst ≠ 255; omega)
    (by simpa [o', List.map_map, Function.comp_def] using hn) hlive
  have hlane := hdel.lane _ (List.mem_map_of_mem hx)
  rw [show o.unit = o'.unit from rfl, show o.slot = o'.slot from rfl, hlane, Thr.getG_setRegs _ _ _ _ _ (by show o.dst + j < 255; omega),
    if_pos (by show o.dst ≤ o.dst + j ∧ o.dst + j < o.dst + (o.bytes + 3) / 4; omega), show o'.dst = o.dst from rfl, Nat.add_sub_cancel_left]

/-! #### Stores at a bank -/

theorem length_leBytes (n x : Nat) : (leBytes n x).length = n := by
  induction n generalizing x with
  | zero => rfl
  | succ n ih => rw [leBytes, List.length_cons, ih]

theorem getElem?_leBytes {n j : Nat} (h : j < n) (x : Nat) : (leBytes n x)[j]? = some (BitVec.ofNat 8 (x >>> (8 * j))) := by
  induction n generalizing x j with
  | zero => exact absurd h (Nat.not_lt_zero j)
  | succ n ih =>
    cases j with
    | zero => rfl
    | succ j =>
      rw [leBytes, List.getElem?_cons_succ, ih (Nat.lt_of_succ_lt_succ h), ← Nat.shiftRight_add, show 8 + 8 * j = 8 * (j + 1) by omega]

theorem place_cmem_iff (a c off : Nat) : place a = .cmem c off ↔
    0xE0000000000 ≤ a ∧ a < 0xE0020000000 ∧ (a - 0xE0000000000) / 0x1000000 = c ∧ (a - 0xE0000000000) % 0x1000000 = off := by
  unfold place
  split_ifs <;> simp <;> omega

/-- The addresses behind one of cluster memory, within its stride. -/
theorem place_cmem_add {a c off j : Nat} (h : place a = .cmem c off) (hj : off + j < 0x1000000) : place (a + j) = .cmem c (off + j) := by
  rw [place_cmem_iff] at h ⊢
  omega

/-- Bytes written in cluster memory from `a` to `a + n` hold the number `x`, least significant first; beyond that none is written, and nothing
else has changed but poison, parked sequencers and the drawn values. -/
structure Wrote (s t : State) (ls : List LaneOp) (n : Nat) : Prop where
  frame : t = { s with free := t.free, strs := t.strs, mem := t.mem, cpoison := t.cpoison }
  byte : ∀ x ∈ ls, ∀ j, j < n → t.memByte (x.lpa + j) = BitVec.ofNat 8 (x.data >>> (8 * j))
  other : ∀ a, (∀ x ∈ ls, a < x.lpa ∨ x.lpa + n ≤ a) → t.memByte a = s.memByte a

theorem pokeLine_cmem {s : State} {p a c off : Nat} (hp : place a = .cmem c off) (hon : s.domOn c = true) (hoff : off < 0xC00000) (l : List Byte) :
    ∃ m, s.pokeLine p a l = { (s.wake a).setMemBytes a l with cpoison := m } := by
  have hon' : (s.wake a).domOn c = true := hon
  unfold State.pokeLine
  simp only [hp, hon', Bool.not_true, Bool.or_false, decide_eq_true_eq, if_neg (Nat.not_le.2 hoff)]
  refine State.foldl_keeps (fun t => ∃ m, t = { (s.wake a).setMemBytes a l with cpoison := m }) _ (fun t i h => ?_) _ _ ⟨_, rfl⟩
  split
  · obtain ⟨m, hm⟩ := h
    exact ⟨_, by rw [hm]⟩
  · exact h

/-- The upper part of the stride takes no byte (R44). -/
theorem pokeLine_upper {s : State} {p a c off : Nat} (hp : place a = .cmem c off) (hoff : 0xC00000 ≤ off) (l : List Byte) :
    s.pokeLine p a l = s.wake a := by
  unfold State.pokeLine
  simp [hp, hoff]

theorem setMemBytes_frame (s : State) (a : Nat) (l : List Byte) : s.setMemBytes a l = { s with mem := (s.setMemBytes a l).mem } :=
  State.foldl_keeps (fun t => t = { s with mem := t.mem }) _ (fun t x h => by rw [h]; rfl) _ s rfl

/-- One lane's bytes. -/
theorem wrote_putPoint {s : State} {p c off n : Nat} {x : LaneOp} (hp : place x.lpa = .cmem c off) (hon : s.domOn c = true)
    (hoff : off + n ≤ 0xC00000) : Wrote s (s.putPoint p x.lpa (leBytes n x.data)) [x] n := by
  by_cases hlow : 0xC00000 ≤ off
  · rw [State.putPoint, pokeLine_upper hp hlow]
    exact ⟨rfl, fun _ _ j hj => by omega, fun _ _ => rfl⟩
  replace hlow := Nat.lt_of_not_le hlow
  obtain ⟨m, hm⟩ := pokeLine_cmem (p := p) hp hon hlow (leBytes n x.data)
  have hbyte : ∀ a, (s.putPoint p x.lpa (leBytes n x.data)).memByte a
      = if x.lpa ≤ a ∧ a < x.lpa + n then ((leBytes n x.data)[a - x.lpa]?).getD 0 else s.memByte a := fun a => by
    rw [State.putPoint, hm]
    exact (memByte_setMemBytes (s.wake x.lpa) x.lpa (leBytes n x.data) a).trans (by rw [length_leBytes]; rfl)
  refine ⟨?_, fun y hy j hj => ?_, fun a ha => ?_⟩
  · rw [State.putPoint, hm, setMemBytes_frame]; rfl
  · obtain rfl := List.mem_singleton.1 hy
    rw [hbyte, if_pos (by omega), Nat.add_sub_cancel_left, getElem?_leBytes hj]
    rfl
  · have := ha x (List.mem_singleton_self x)
    rw [hbyte, if_neg (by omega)]

theorem Wrote.domOn {s t : State} {ls : List LaneOp} {n : Nat} (h : Wrote s t ls n) (d : Nat) : t.domOn d = s.domOn d := by rw [h.frame]; rfl

theorem Wrote.append {s t v : State} {ls ls' : List LaneOp} {n : Nat} (h : Wrote s t ls n) (h' : Wrote t v ls' n)
    (hne : ∀ x ∈ ls, ∀ y ∈ ls', x.lpa + n ≤ y.lpa ∨ y.lpa + n ≤ x.lpa) : Wrote s v (ls ++ ls') n where
  frame := by
    have hf := h'.frame
    rw [h.frame] at hf
    exact hf
  byte x hx j hj := by
    rcases List.mem_append.1 hx with hx | hx
    · refine (h'.other _ fun y hy => ?_).trans (h.byte x hx j hj)
      have := hne x hx y hy
      omega
    · exact h'.byte x hx j hj
  other a ha := (h'.other a fun x hx => ha x (List.mem_append_right _ hx)).trans (h.other a fun x hx => ha x (List.mem_append_left _ hx))

/-- The lanes of a store to cluster memory, none of which meet, in any order. -/
theorem wrote_lanes {c n : Nat} (p : Nat) {ls : List LaneOp} (hcm : ∀ x ∈ ls, ∃ off, place x.lpa = .cmem c off ∧ off + n ≤ 0xC00000)
    (hd : ls.Pairwise fun x y => x.lpa + n ≤ y.lpa ∨ y.lpa + n ≤ x.lpa) {s : State} (hon : s.domOn c = true) :
    Wrote s (ls.foldl (fun s x => s.putPoint p x.lpa (leBytes n x.data)) s) ls n := by
  induction ls generalizing s with
  | nil => exact ⟨rfl, fun x hx => absurd hx List.not_mem_nil, fun _ _ => rfl⟩
  | cons x ls ih =>
    obtain ⟨hx, hd⟩ := List.pairwise_cons.1 hd
    obtain ⟨off, hp, hoff⟩ := hcm x List.mem_cons_self
    have h₁ := wrote_putPoint (p := p) (n := n) hp hon hoff
    exact h₁.append (ih (fun y hy => hcm y (List.mem_cons_of_mem _ hy)) hd ((h₁.domOn c).trans hon)) fun y hy z hz =>
      List.mem_singleton.1 hy ▸ hx z hz

theorem rotateLeft_perm {α : Type} (l : List α) (n : Nat) : (l.rotateLeft n).Perm l := by
  unfold List.rotateLeft
  extract_lets
  split
  · exact .refl l
  · exact List.perm_append_comm.trans (List.take_append_drop _ l ▸ .refl l)

/-- The lanes of a store in the order in which they are written. -/
theorem storeLanes_perm (s : State) (o : MemOp) : (s.storeLanes o).1.Perm o.lanes ∧ (s.storeLanes o).2 = { s with free := (s.storeLanes o).2.free } := by
  unfold State.storeLanes
  dsimp only
  split
  · exact ⟨rotateLeft_perm .., rfl⟩
  · exact ⟨.refl _, rfl⟩

/-- What a store leaves: its operation is gone, its lanes are written, and beyond that only the units' L1 and operations have changed. -/
structure StoreEnded (s t : State) (id : Nat) (o : MemOp) : Prop where
  frame : t = { s with free := t.free, strs := t.strs, mem := t.mem, cpoison := t.cpoison, ops := t.ops, units := t.units }
  op : t.op id = none
  byte : ∀ x ∈ o.lanes, ∀ j, j < o.bytes → t.memByte (x.lpa + j) = BitVec.ofNat 8 (x.data >>> (8 * j))
  other : ∀ a, (∀ x ∈ o.lanes, a < x.lpa ∨ x.lpa + o.bytes ≤ a) → t.memByte a = s.memByte a

/-- A store whose lanes lie apart in a cluster memory that is on (R236, R244). -/
theorem doStore_cmem {s : State} {o : MemOp} {c : Nat} (id : Nat) (hd : DisjointLanes o) (hon : s.domOn c = true)
    (hcm : ∀ x ∈ o.lanes, ∃ off, place x.lpa = .cmem c off ∧ off + o.bytes ≤ 0xC00000) : StoreEnded s (s.doStore id o) id o := by
  obtain ⟨hperm, hframe⟩ := storeLanes_perm (s.delOp id) o
  have hon' : ((s.delOp id).storeLanes o).2.domOn c = true := by rw [hframe]; exact hon
  obtain ⟨hf, hbyte, hother⟩ := wrote_lanes (n := o.bytes) o.part (fun x hx => hcm x (hperm.mem_iff.1 hx))
    (hperm.symm.pairwise hd.2 Or.symm) hon'
  show StoreEnded s ((((s.delOp id).storeLanes o).1.foldl (fun s x => s.putPoint o.part x.lpa (leBytes o.bytes x.data))
    ((s.delOp id).storeLanes o).2).ownWrite o.unit o.line) id o
  generalize ((s.delOp id).storeLanes o).1.foldl (fun s x => s.putPoint o.part x.lpa (leBytes o.bytes x.data)) ((s.delOp id).storeLanes o).2 = t
    at hf hbyte hother
  rw [hframe] at hf hother
  refine ⟨?_, op_ownWrite ?_ _ _, fun x hx => hbyte x (hperm.mem_iff.2 hx), fun a ha => hother a fun x hx => ha x (hperm.mem_iff.1 hx)⟩
  · rw [hf]; rfl
  · rw [hf]
    exact op_delOp s id

/-- Its bytes read as written, and every other byte as before. -/
theorem StoreEnded.stored {s t : State} {id : Nat} {o : MemOp} {c : Nat} (h : StoreEnded s t id o)
    (hcm : ∀ x ∈ o.lanes, ∃ off, place x.lpa = .cmem c off ∧ off + o.bytes ≤ 0xC00000) : Stored s t o := by
  refine ⟨fun x hx j hj => ?_, fun a ha => ?_⟩
  · obtain ⟨off, hp, hoff⟩ := hcm x hx
    unfold State.peek
    rw [place_cmem_add hp (by omega)]
    exact (if_neg (by omega)).trans (h.byte x hx j hj)
  · have hline : ∀ b, t.line b = s.line b := fun b => by rw [h.frame]; rfl
    unfold State.peek
    simp only [hline, h.other a ha]

/-! #### The turn of a bank (R40, R235) -/

/-- An operation of a thread of this device that has its turn at a bank of a cluster that is on. -/
structure Arrives (s : State) (id : Nat) (o : MemOp) (c b : Nat) : Prop where
  op : s.op id = some o
  here : o.remote = none
  waits : o.answered = false
  may : s.mayPerform id o = true
  line : ∃ off, place o.line = .cmem c off
  on : s.domOn c = true
  bank : o.bank = some (c, b)
  turn : s.bankTurn c b (bankPort c o) = true

theorem bankAccess_store {s : State} {id : Nat} {o : MemOp} {c b : Nat} (h : Arrives s id o c b) (hk : o.kind = .store) (e : Ecc) :
    s.bankAccess id o e = (s.bankServed c b (bankPort c o)).doStore id o := by
  obtain ⟨off, hline⟩ := h.line
  unfold State.bankAccess
  simp [hline, h.bank, h.here, h.waits, h.may, h.turn, h.on, hk]

/-- An ECC that finds nothing changes nothing. -/
theorem bankEcc_clean (s : State) (c line b : Nat) : s.bankEcc c line b ⟨0, 0⟩ = s := by
  have hclean : s.cmemEcc c line ⟨0, 0⟩ = s := by
    unfold State.cmemEcc
    simp [popcount, State.bump]
  unfold State.bankEcc
  simp only [Nat.zero_and, hclean, ite_self]
  split <;> rfl

theorem bankAccess_load {s : State} {id : Nat} {o : MemOp} {c b : Nat} (h : Arrives s id o c b) (hk : o.kind = .load) :
    s.bankAccess id o ⟨0, 0⟩ = (s.bankServed c b (bankPort c o)).answerLoad id o := by
  obtain ⟨off, hline⟩ := h.line
  have hon : (s.bankServed c b (bankPort c o)).domOn c = true := h.on
  unfold State.bankAccess
  simp [hline, h.bank, h.here, h.waits, h.may, h.turn, h.on, hk, hon, bankEcc_clean]

theorem exec_cmemBankAccess {s : State} {id : Nat} {o : MemOp} (h : s.op id = some o) (e : Ecc) :
    exec (.cmemBankAccess (.op id) e) s = .next (s.bankAccess id o e) := by
  show execCmemBankAccess (.op id) e s = _
  rw [execCmemBankAccess, h]

theorem banks_bankServed (s : State) (c b port : Nat) : (s.bankServed c b port).banks.get 7 (64 * c + b) = port := SMap.get_set_same ..

/-- Settles O10: the bank has served the port, and the operation is performed on the bytes of its lanes (`doStore_cmem`, `answerLoad_cmem`). -/
theorem clusterMemoryAccess : Obligations.ClusterMemoryAccess := by
  unfold Obligations.ClusterMemoryAccess
  refine ⟨?_, ?_⟩
  · rintro s id e o c b ⟨hop, hr, ha, hm, hl, hon, hb, ht⟩ hk hd hcm
    refine ⟨_, exec_cmemBankAccess hop e, ?_⟩
    rw [bankAccess_store ⟨hop, hr, ha, hm, hl, hon, hb, ht⟩ hk]
    have hend := doStore_cmem (s := s.bankServed c b (bankPort c o)) id hd hon hcm
    refine ⟨hend.stored hcm, hend.op, ?_⟩
    rw [hend.frame]
    exact banks_bankServed ..
  · rintro s id o c b ⟨hop, hr, ha, hm, hl, hon, hb, ht⟩ hk hans
    refine ⟨_, exec_cmemBankAccess hop _, ?_⟩
    rw [bankAccess_load ⟨hop, hr, ha, hm, hl, hon, hb, ht⟩ hk]
    obtain ⟨off, hl⟩ := hl
    obtain ⟨⟨hf, hgone⟩, hloaded⟩ := answerLoad_cmem (s := s.bankServed c b (bankPort c o)) hans hk hl
    refine ⟨hloaded, hgone, ?_⟩
    rw [hf]
    exact banks_bankServed ..

end Sys2Proof.Machine
end

section
/-! ### Debug commands (R195, R197) -/

namespace Sys2Proof.Machine
open Sys2Proof.Machine.State

/-- A pass over slots of unit `u` that changes by `f` each group that meets `P`. -/
structure SlotsDone (s t : State) (u : Nat) (ks : List Nat) (P : Grp → Bool) (f : Grp → Grp) : Prop where
  frame : t = { s with groups := t.groups }
  grp : ∀ u' k, k < 32 → t.grp u' k = if u' = u ∧ k ∈ ks ∧ P (s.grp u k) = true then f (s.grp u k) else s.grp u' k

theorem slotsDone_foldl {s : State} {u : Nat} {ks : List Nat} {P : Grp → Bool} {f : Grp → Grp} {step : State → Nat → State} (hn : ks.Nodup)
    (hk : ∀ k ∈ ks, k < 32)
    (hstep : ∀ t k, t = { s with groups := t.groups } → step t k = if P (t.grp u k) = true then t.setGrp u k (f (t.grp u k)) else t) :
    SlotsDone s (ks.foldl step s) u ks P f := by
  induction ks using List.reverseRecOn with
  | nil => exact ⟨rfl, fun u' k _ => by simp⟩
  | append_singleton ks j ih =>
    obtain ⟨hn, -, hdis⟩ := List.nodup_append.1 hn
    have hj : j ∉ ks := fun h => hdis j h j (List.mem_singleton_self j) rfl
    obtain ⟨hf, hg⟩ := ih hn fun k h => hk k (List.mem_append_left _ h)
    have hj32 := hk j (List.mem_append_right _ (List.mem_singleton_self j))
    have hgj : (ks.foldl step s).grp u j = s.grp u j := by rw [hg u j hj32, if_neg fun h => hj h.2.1]
    rw [List.foldl_append, List.foldl_cons, List.foldl_nil, hstep _ j hf, hgj]
    generalize ks.foldl step s = t at hf hg
    by_cases hP : P (s.grp u j) = true
    · rw [if_pos hP]
      refine ⟨by rw [State.setGrp, hf], fun u' k h32 => ?_⟩
      by_cases he : u' = u ∧ k = j
      · obtain ⟨rfl, rfl⟩ := he
        rw [setGrp_grp_same, if_pos ⟨rfl, by simp, hP⟩]
      · rw [setGrp_grp_ne _ _ _ _ _ _ (by omega), hg u' k h32]
        exact if_congr (by grind) rfl rfl
    · rw [if_neg hP]
      exact ⟨hf, fun u' k h32 => (hg u' k h32).trans (if_congr (by grind) rfl rfl)⟩

/-- A halted group, which may not issue. -/
def Grp.halt (g : Grp) : Grp := { g with halted := true, step := false }

/-- A group released from a halt, which passes the breakpoint at its PC once. -/
def Grp.resume (g : Grp) : Grp := { g with halted := false, step := false, pass := true }

/-- A halt of one unit: every resident group of it halts. -/
theorem debugHalt_unit {s : State} {u : Nat} (hs : bits (s.reg (unitReg u 0x18)) 1 2 ≠ 2) :
    (∀ u' k, k < 32 → (s.debugHalt u none 0 0).grp u' k = if u' = u ∧ (s.grp u k).live = true then (s.grp u k).halt else s.grp u' k)
      ∧ (s.debugHalt u none 0 0).reg (unitReg u 0x1C) = 0 ∧ (s.debugHalt u none 0 0).mem = s.mem := by
  unfold State.debugHalt
  extract_lets scope us halts s₁ s₂
  have hus : us = [u] := if_neg hs
  have hhalts : ∀ k, halts u k = true := fun k => by simp only [halts]; split <;> simp
  obtain ⟨hf, hg⟩ : SlotsDone s s₁ u (List.range 32) Grp.live Grp.halt := by
    simp only [s₁, hus, List.foldl_cons, List.foldl_nil]
    exact slotsDone_foldl List.nodup_range (fun k h => List.mem_range.1 h) fun t k _ => by simp only [hhalts, Bool.and_true]; rfl
  have h₂ : s₂ = { s₁ with halts := s₂.halts } := by simp only [s₂]; split <;> rfl
  rw [hus, List.foldl_cons, List.foldl_nil]
  refine ⟨fun u' k h32 => ?_, setReg_reg_same .., by rw [setReg_mem, h₂, hf]⟩
  rw [grp_congr (s := s₁) (by rw [setReg_groups, h₂]), hg u' k h32]
  exact if_congr (by simp [List.mem_range.2 h32]) rfl rfl

/-! #### UNIT_DBG_CTL and HKU_DBG_CTL -/

theorem unitReg_unit {u : Nat} (h : u < 128) (off : Nat) : unitReg u off = home .unit u off := if_pos h

theorem unitReg_hku {u : Nat} (h : ¬ u < 128) (off : Nat) : unitReg u off = home .hku (u - 128) off := if_neg h

/-- The line of the register tables for the debug control registers. -/
def dbgCtlDef : RegDef := ⟨0x18, 0, 1, false, 0x7C7, 0, 0, 0x38, 0⟩

theorem regBase_dbgCtl (u : Nat) : regBase (unitReg u 0x18) = some (dbgCtlDef, 0x18) := by
  unfold unitReg
  split <;> rfl

/-- The debug control register is not kept while its cluster is off (R28). -/
theorem asleep_dbgCtl (s : State) (u : Nat) : s.asleep (unitReg u 0x18) dbgCtlDef 0x18 = (decide (u < 128) && !s.domOn (u / 4)) := by
  unfold State.asleep
  by_cases h : u < 128
  · simp [unitReg_unit h, regDomain, retained, home, h, dbgCtlDef]
  · simp [unitReg_hku h, regDomain, home, h]

theorem regWrite_dbgCtl_on {s : State} {u : Nat} (hon : u < 128 → s.domOn (u / 4) = true) (v idx : Nat) :
    s.regWrite (unitReg u 0x18) v idx = s.dbgCtl u (v % 2 ^ 32) := by
  have ha : s.asleep (unitReg u 0x18) dbgCtlDef 0x18 = false := by
    rw [asleep_dbgCtl]
    by_cases h : u < 128 <;> simp [h, hon]
  rw [regWrite_narrow (regBase_dbgCtl u) rfl ha]
  unfold State.regWriteFull
  by_cases h : u < 128
  · rw [unitReg_unit h] at ha ⊢
    exact if_neg (Bool.eq_false_iff.1 ha)
  · rw [unitReg_hku h] at ha ⊢
    refine (if_neg (Bool.eq_false_iff.1 ha)).trans ?_
    show s.dbgCtl (128 + (u - 128)) _ = _
    rw [Nat.add_sub_cancel' (Nat.le_of_not_lt h)]

theorem regWrite_dbgCtl_off {s : State} {u : Nat} (hu : u < 128) (hoff : s.domOn (u / 4) = false) (v idx : Nat) :
    s.regWrite (unitReg u 0x18) v idx = s := by
  unfold State.regWrite
  simp [regBase_dbgCtl, asleep_dbgCtl, hu, hoff]

/-- A write of the debug control register: ENABLE as in the settings `x`, whose command bits 3 to 5 read zero, and the command bit `n`, of value `c`,
alone. -/
theorem bit_dbgCtl {x n c : Nat} (hx : x &&& 0x38 = 0) (hc : c = 2 ^ n) (hn : 3 ≤ n ∧ n ≤ 5) :
    bit ((x + c) % 2 ^ 32) 0 = bit x 0 ∧ ∀ i, 3 ≤ i → i ≤ 5 → bit ((x + c) % 2 ^ 32) i = decide (i = n) := by
  subst hc
  have hclear : ∀ j, 3 ≤ j → j ≤ 5 → x.testBit j = false := fun j h3 h5 => by
    have h := congrArg (fun y => Nat.testBit y j) hx
    have hm : Nat.testBit 0x38 j = true := by interval_cases j <;> rfl
    simpa [hm] using h
  have hx3 := hclear 3 (by omega) (by omega)
  have hx4 := hclear 4 (by omega) (by omega)
  have hx5 := hclear 5 (by omega) (by omega)
  unfold bit
  simp only [Nat.testBit_eq_decide_div_mod_eq, decide_eq_false_iff_not] at hx3 hx4 hx5 ⊢
  obtain ⟨h3, h5⟩ := hn
  refine ⟨decide_eq_decide.2 ?_, fun i hi3 hi5 => decide_eq_decide.2 ?_⟩
  · interval_cases n <;> omega
  · interval_cases n <;> interval_cases i <;> omega

/-- HALT while debug halting is enabled. -/
theorem dbgCtl_halt {s : State} {u v : Nat} (h0 : bit v 0 = true) (h3 : bit v 3 = true) (h4 : bit v 4 = false) (h5 : bit v 5 = false) :
    s.dbgCtl u v = (s.setReg (unitReg u 0x18) (v &&& 0x7C7)).debugHalt u none 0 0 := by
  unfold State.dbgCtl
  simp [h0, h3, h4, h5]

/-- A unit's groups released from a halt, one slot after another, and then the unit. -/
def State.resumeUnit (s : State) (u : Nat) : State :=
  let t := (List.range 32).foldl (fun s k => if (s.grp u k).live && s.groupHalted u k then s.setGrp u k (s.grp u k).resume else s) s
  { t with halts := t.halts.set false u false }

theorem dbgCtl_resume {s : State} {u v : Nat} (h3 : bit v 3 = false) (h4 : bit v 4 = true) (h5 : bit v 5 = false) :
    s.dbgCtl u v = (s.setReg (unitReg u 0x18) (v &&& 0x7C7)).resumeUnit u := by
  unfold State.dbgCtl State.resumeUnit Grp.resume
  simp [h3, h4, h5]

theorem dbgCtl_step {s : State} {u v : Nat} (h3 : bit v 3 = false) (h4 : bit v 4 = false) (h5 : bit v 5 = true)
    (hlive : (s.grp u (bits v 6 5)).live = true) (hh : s.groupHalted u (bits v 6 5) = true) :
    s.dbgCtl u v = (s.setReg (unitReg u 0x18) (v &&& 0x7C7)).setGrp u (bits v 6 5) { s.grp u (bits v 6 5) with step := true } := by
  have hh' : (s.setReg (unitReg u 0x18) (v &&& 0x7C7)).groupHalted u (bits v 6 5) = true := hh
  have hg : (s.setReg (unitReg u 0x18) (v &&& 0x7C7)).grp u (bits v 6 5) = s.grp u (bits v 6 5) := grp_congr rfl u _
  unfold State.dbgCtl
  simp [h3, h4, h5, hg, hlive, hh']

/-- What a release leaves. -/
theorem resumeUnit_spec (s : State) (u : Nat) :
    (∀ u' k, k < 32 → (s.resumeUnit u).grp u' k = if u' = u ∧ (s.grp u k).live = true ∧ s.groupHalted u k = true then (s.grp u k).resume else s.grp u' k)
      ∧ (s.resumeUnit u).halts.get false u = false ∧ (s.resumeUnit u).mem = s.mem := by
  unfold State.resumeUnit
  extract_lets t
  obtain ⟨hf, hg⟩ : SlotsDone s t u (List.range 32) (fun g => g.live && (g.halted || s.halts.get false u)) Grp.resume :=
    slotsDone_foldl List.nodup_range (fun k h => List.mem_range.1 h) fun t' k h => by
      have hh : t'.halts = s.halts := by rw [h]
      simp only [State.groupHalted, hh]
  clear_value t
  refine ⟨fun u' k h32 => ?_, SMap.get_set_same false t.halts u false, show t.mem = s.mem by rw [hf]⟩
  refine (hg u' k h32).trans (if_congr ?_ rfl rfl)
  simp [List.mem_range.2 h32, State.groupHalted]

theorem groupHalted_eq (s : State) (u k : Nat) : s.groupHalted u k = ((s.grp u k).halted || s.halts.get false u) := rfl

/-- HALT leaves SCOPE in the control register. -/
theorem scope_dbgCtl (x : Nat) : bits ((x + 8) % 2 ^ 32 &&& 0x7C7) 1 2 = bits x 1 2 := by
  have hlow : ((x + 8) % 2 ^ 32 &&& 0x7C7) % 2 ^ 3 = (x + 8) % 2 ^ 32 % 2 ^ 3 := by
    rw [Nat.and_mod_two_pow]
    exact (Nat.and_two_pow_sub_one_eq_mod _ 3).trans (Nat.mod_mod ..)
  simp only [bits, Nat.shiftRight_eq_div_pow] at hlow ⊢
  omega

/-- STEP of slot `k` with the settings `x`. -/
theorem bits_step {k : Nat} (hk : k < 32) (x : Nat) (v : Nat) (hv : v = (bits x 0 3 + 32 + k * 64) % 2 ^ 32) :
    bit v 3 = false ∧ bit v 4 = false ∧ bit v 5 = true ∧ bits v 6 5 = k := by
  have hlow : bits x 0 3 < 8 := Nat.mod_lt _ (by decide)
  generalize bits x 0 3 = y at hv hlow
  simp only [bit, bits, Nat.testBit_eq_decide_div_mod_eq, Nat.shiftRight_eq_div_pow, decide_eq_false_iff_not, decide_eq_true_eq]
  omega

/-- Settles O22: the write sets one command bit beside the settings, and its command passes over the slots of the unit. -/
theorem debugCommands : Obligations.DebugCommands := by
  unfold Obligations.DebugCommands
  refine ⟨?_, ?_, ?_, ?_⟩
  · rintro s u ⟨hidle, hon⟩ hen hscope
    obtain ⟨h0, hbit⟩ := bit_dbgCtl hidle (n := 3) (c := 8) rfl (by omega)
    have hset : s.dbgCtl u.val _ = _ := dbgCtl_halt (h0.trans hen) (hbit 3 (by omega) (by omega)) (hbit 4 (by omega) (by omega))
      (hbit 5 (by omega) (by omega))
    refine ⟨_, congrArg Host.Outcome.next ((regWrite_dbgCtl_on hon _ 0).trans hset), ?_⟩
    obtain ⟨hg, hstatus, hmem⟩ := debugHalt_unit (s := s.setReg (unitReg u.val 0x18) ((s.reg (unitReg u.val 0x18) + 8) % 2 ^ 32 &&& 0x7C7)) (u := u.val)
      (by rwa [setReg_reg_same, scope_dbgCtl])
    refine ⟨fun k h32 hlive => ?_, fun u' k h32 hne => (hg u' k h32).trans (if_neg fun h => hne h.1), hstatus, hmem⟩
    have hk := (hg u.val k h32).trans (if_pos ⟨rfl, hlive⟩)
    refine ⟨hk, ?_, ?_⟩
    · rw [groupHalted_eq, hk]; rfl
    · unfold State.mayIssue
      rw [groupHalted_eq, hk]
      simp [Grp.halt]
  · rintro s u ⟨hidle, hon⟩
    obtain ⟨-, hbit⟩ := bit_dbgCtl hidle (n := 4) (c := 16) rfl (by omega)
    have hset : s.dbgCtl u.val _ = _ := dbgCtl_resume (hbit 3 (by omega) (by omega)) (hbit 4 (by omega) (by omega)) (hbit 5 (by omega) (by omega))
    refine ⟨_, congrArg Host.Outcome.next ((regWrite_dbgCtl_on hon _ 0).trans hset), ?_⟩
    obtain ⟨hg, hhalts, hmem⟩ := resumeUnit_spec (s.setReg (unitReg u.val 0x18) ((s.reg (unitReg u.val 0x18) + 16) % 2 ^ 32 &&& 0x7C7)) u.val
    refine ⟨fun k h32 hlive hh => ?_, fun u' k h32 hne => (hg u' k h32).trans (if_neg fun h => hne h.1), hmem⟩
    have hk := (hg u.val k h32).trans (if_pos ⟨rfl, hlive, hh⟩)
    refine ⟨hk, ?_⟩
    rw [groupHalted_eq, hk, hhalts]
    rfl
  · rintro s u k ⟨hidle, hon⟩ hlive hh
    refine ⟨_, congrArg Host.Outcome.next (regWrite_dbgCtl_on hon _ 0), ?_⟩
    obtain ⟨h3, h4, h5, hk⟩ := bits_step k.isLt (s.reg (unitReg u.val 0x18)) _ rfl
    rw [dbgCtl_step h3 h4 h5 (by rwa [hk]) (by rwa [hk]), hk]
    refine ⟨setGrp_grp_same .., fun u' k' h32 hne => ?_, rfl⟩
    have hkey : u.val * 32 + k.val ≠ u' * 32 + k' := fun e => hne (by ext <;> simp only <;> omega)
    exact setGrp_grp_ne _ _ _ _ _ _ hkey
  · intro s u k hu hoff
    exact ⟨⟨_, rfl, regWrite_dbgCtl_off hu hoff ..⟩, ⟨_, rfl, regWrite_dbgCtl_off hu hoff ..⟩, ⟨_, rfl, regWrite_dbgCtl_off hu hoff ..⟩⟩

end Sys2Proof.Machine
end

section
/-! ### Privileged instructions (R233) -/

namespace Sys2Proof.Machine
open Sys2Proof.Machine.State

/-! #### What an issue leaves of groups and unit registers -/

/-- Whether a group is resident, halted by itself, and waits for an event. -/
def Grp.status (g : Grp) : Bool × Bool × Bool := (g.live, g.halted, g.wfe)

theorem setGrp_status {s : State} {u k : Nat} {g : Grp} (h : g.status = (s.grp u k).status) (u' k' : Nat) :
    ((s.setGrp u k g).grp u' k').status = (s.grp u' k').status := by
  by_cases he : u * 32 + k = u' * 32 + k'
  · have hg : s.grp u' k' = s.grp u k := by simp only [State.grp, he]
    rw [hg, ← h]
    exact congrArg Grp.status (by simp only [State.grp, State.setGrp, he, SMap.get_set_same])
  · rw [setGrp_grp_ne _ _ _ _ _ _ he]

theorem regKey_unitReg_ne {u u' off off' : Nat} (ho : off < 0x1000000) (ho' : off' < 0x1000000) (h : off ≠ off') :
    regKey (unitReg u off) ≠ regKey (unitReg u' off') := by
  have key : ∀ u off, regKey (unitReg u off) % 0x1000000 = off % 0x1000000 := fun u off => by
    unfold unitReg regKey home
    split <;> simp only [] <;> omega
  intro e
  have := congrArg (· % 0x1000000) e
  simp only [key] at this
  omega

theorem bumpUnit_reg (s : State) {u u' off off' : Nat} (n : Nat) (ho : off < 0x100) (ho' : 0x100 ≤ off' ∧ off' < 0x1000000) :
    (s.bumpUnit u' off' n).reg (unitReg u off) = s.reg (unitReg u off) := by
  unfold State.bumpUnit State.bump
  split
  · rfl
  · exact congrArg (Option.getD · _) (SMap.get_set_ne _ _ _ _ (regKey_unitReg_ne (u := u') (by omega) (by omega) (by omega)))

/-- From `s` to `t` groups have kept their status, units their halts, and thread units their registers below the performance counters. -/
structure SameStatus (s t : State) : Prop where
  status : ∀ u k, (t.grp u k).status = (s.grp u k).status
  halts : t.halts = s.halts
  reg : ∀ u off, off < 0x100 → t.reg (unitReg u off) = s.reg (unitReg u off)

theorem SameStatus.trans {s t v : State} (h : SameStatus s t) (h' : SameStatus t v) : SameStatus s v where
  status u k := (h'.status u k).trans (h.status u k)
  halts := h'.halts.trans h.halts
  reg u off ho := (h'.reg u off ho).trans (h.reg u off ho)

theorem sameStatus_setGrp {s : State} {u k : Nat} {g : Grp} (h : g.status = (s.grp u k).status) : SameStatus s (s.setGrp u k g) :=
  ⟨setGrp_status h, rfl, fun _ _ _ => rfl⟩

theorem sameStatus_bumpUnit (s : State) (u n : Nat) {off : Nat} (ho : 0x100 ≤ off ∧ off < 0x1000000) : SameStatus s (s.bumpUnit u off n) :=
  ⟨fun u' k' => congrArg Grp.status (grp_congr (bumpUnit_groups ..) u' k'), by unfold State.bumpUnit State.bump; split <;> rfl,
    fun _ _ h => bumpUnit_reg s n h ho⟩

theorem sameStatus_bookIssue (s : State) (i : Iss) (ready : Nat) (forced : Bool) : SameStatus s (s.bookIssue i ready forced) := by
  unfold State.bookIssue
  extract_lets g g' s1 s2 s3
  have hg : g'.status = g.status := by
    refine List.foldlRecOn (motive := fun x : Grp => x.status = g.status) _ _ rfl fun x hx l _ => ?_
    split
    · exact hx
    · split <;> exact hx
  have h₁ : SameStatus s s1 := sameStatus_setGrp (g := { g' with pass := false }) hg
  have h₃ : SameStatus s s3 := SameStatus.trans (t := s2) ⟨h₁.status, h₁.halts, h₁.reg⟩ (sameStatus_bumpUnit s2 i.u 1 (by omega))
  split
  · exact h₃.trans (sameStatus_bumpUnit s3 i.u 1 (by omega))
  · exact h₃

theorem sameStatus_delivery (s : State) (sh : Shape) (mi : Mi) (i : Iss) : SameStatus s (s.delivery sh mi i) := by
  unfold State.delivery
  extract_lets srcs rc g hit missed s1 s2 s3 place
  split
  · exact sameStatus_bumpUnit s i.u _ (by omega)
  · have h₃ : SameStatus s s3 :=
      ((sameStatus_bumpUnit s i.u _ (by omega)).trans (sameStatus_bumpUnit s1 i.u _ (by omega))).trans (sameStatus_bumpUnit s2 i.u _ (by omega))
    refine h₃.trans (sameStatus_setGrp (.trans ?_ (h₃.status i.u i.k).symm))
    exact List.foldlRecOn (motive := fun x : Grp => x.status = g.status) _ _ rfl fun x hx _ _ => hx

theorem sameStatus_atIssue (s : State) (sh : Shape) (mi : Mi) (i : Iss) (forced : Bool) : SameStatus s (s.atIssue sh mi i forced) :=
  (sameStatus_bookIssue ..).trans (sameStatus_delivery ..)

/-! #### What a halt behind a step leaves -/

/-- What a halt changes of a group and of unit registers: the group's halt and the status register. -/
structure OnlyHalts (s t : State) : Prop where
  wfe : ∀ u k, (t.grp u k).wfe = (s.grp u k).wfe
  reg : ∀ u off, off < 0x100 → off ≠ 0x1C → t.reg (unitReg u off) = s.reg (unitReg u off)

theorem OnlyHalts.trans {s t v : State} (h : OnlyHalts s t) (h' : OnlyHalts t v) : OnlyHalts s v where
  wfe u k := (h'.wfe u k).trans (h.wfe u k)
  reg u off ho hne := (h'.reg u off ho hne).trans (h.reg u off ho hne)

theorem onlyHalts_setGrp {s : State} {u k : Nat} {g : Grp} (h : g.wfe = (s.grp u k).wfe) : OnlyHalts s (s.setGrp u k g) where
  wfe u' k' := by
    by_cases he : u * 32 + k = u' * 32 + k'
    · have hg : s.grp u' k' = s.grp u k := by simp only [State.grp, he]
      rw [hg, ← h]
      exact congrArg Grp.wfe (by simp only [State.grp, State.setGrp, he, SMap.get_set_same])
    · rw [setGrp_grp_ne _ _ _ _ _ _ he]
  reg _ _ _ _ := rfl

theorem onlyHalts_debugHalt (s : State) (u : Nat) (k : Option Nat) (c b : Nat) : OnlyHalts s (s.debugHalt u k c b) := by
  unfold State.debugHalt
  extract_lets scope us halts s1 s2
  have h₁ : OnlyHalts s s1 := by
    refine foldl_keeps (OnlyHalts s) _ (fun t u' h => foldl_keeps (OnlyHalts s) _ (fun t k' h => ?_) _ t h) us s ⟨fun _ _ => rfl, fun _ _ _ _ => rfl⟩
    dsimp only
    split
    · exact h.trans (onlyHalts_setGrp rfl)
    · exact h
  have h₂ : OnlyHalts s s2 := by
    simp only [s2]
    split
    · exact h₁
    · exact ⟨h₁.wfe, h₁.reg⟩
  refine foldl_keeps (OnlyHalts s) _ (fun t u' h => OnlyHalts.trans h ?_) us s2 h₂
  refine ⟨fun _ _ => rfl, fun u'' off ho hne => ?_⟩
  exact congrArg (Option.getD · _) (SMap.get_set_ne _ _ _ _ (regKey_unitReg_ne (u := u') (by omega) (by omega) (Ne.symm hne)))

theorem onlyHalts_afterStep (s : State) (u k : Nat) (b : Bool) : OnlyHalts s (s.afterStep u k b) := by
  unfold State.afterStep
  extract_lets g
  split
  · exact ⟨fun _ _ => rfl, fun _ _ _ _ => rfl⟩
  · split
    · exact ⟨fun _ _ => rfl, fun _ _ _ _ => rfl⟩
    · exact OnlyHalts.trans (onlyHalts_setGrp (g := { g with step := false, halted := true }) rfl) (onlyHalts_debugHalt ..)

/-! #### The instructions -/

/-- What an issued instruction finds when it takes effect: `Prepared`, the chosen threads behind it, and what its bookkeeping leaves besides. -/
structure Arrived (s s₁ : State) (i : Iss) : Prop where
  keeps : Keeps s s₁
  regs : SameRegs (s.grp i.u i.k) (s₁.grp i.u i.k)
  pc : ∀ l, l < 32 → ((s₁.grp i.u i.k).thr l).pc = if i.chosen.testBit l then i.next else ((s.grp i.u i.k).thr l).pc
  same : SameStatus s s₁

theorem Keeps.units {s t : State} (h : Keeps s t) : t.units = s.units := by rw [h.1]

theorem Keeps.mem {s t : State} (h : Keeps s t) : t.mem = s.mem := by rw [h.1]

theorem Arrived.unit {s s₁ : State} {i : Iss} (h : Arrived s s₁ i) (u : Nat) : s₁.unit u = s.unit u := by simp only [State.unit, h.keeps.units]

/-- A privileged instruction of a housekeeping unit that issues has its effect. -/
theorem privIssue_eq {s : State} {sh : Shape} {mi : Mi} {i : Iss} {f : Iss → State → State} (h : Issues s sh mi i) (hu : 128 ≤ i.u) :
    ∃ s₁, Arrived s s₁ i ∧ s.privIssue sh mi f = (f i s₁).afterStep i.u i.k (s.grp i.u i.k).step := by
  unfold State.privIssue
  rw [if_neg (by rw [← h.unit_eq]; omega)]
  obtain ⟨forced, he⟩ := issue_eq (bad := false) (ready := fun _ => true) (f := f) h rfl rfl
  obtain ⟨hk, hr, hp, -⟩ := atIssue_spec s sh mi i forced h.unit_lt
  exact ⟨_, ⟨hk, hr, hp, sameStatus_atIssue ..⟩, he⟩

/-- An effect that writes no register of its group and moves no PC leaves the group behind the instruction. -/
theorem advanced_afterStep {s s₁ t : State} {i : Iss} (h : Arrived s s₁ i) (hu : i.u < 132) (hthr : ∀ l, (t.grp i.u i.k).thr l = (s₁.grp i.u i.k).thr l)
    (huni : ∀ r, (t.grp i.u i.k).getU r = (s₁.grp i.u i.k).getU r) (hpeek : ∀ a, t.peek a = s₁.peek a) (b : Bool) :
    Advanced s (t.afterStep i.u i.k b) i := by
  obtain ⟨hk, hafter⟩ := afterStep_spec t i.u i.k b hu
  obtain ⟨hr, hp⟩ := hafter i.u i.k
  refine ⟨fun l hl => ?_, (h.regs.trans ⟨fun l _ => by rw [hthr l], fun l _ => by rw [hthr l], huni⟩).trans hr, fun a => ?_⟩
  · rw [hp, hthr, h.pc l hl]
  · rw [hk.peek, hpeek, h.keeps.peek]

/-- As `advanced_afterStep`, for an effect outside the groups. -/
theorem advanced_of_groups {s s₁ t : State} {i : Iss} (h : Arrived s s₁ i) (hu : i.u < 132) (hg : t.groups = s₁.groups)
    (hpeek : ∀ a, t.peek a = s₁.peek a) (b : Bool) : Advanced s (t.afterStep i.u i.k b) i :=
  advanced_afterStep h hu (fun l => by rw [grp_congr hg]) (fun r => by rw [grp_congr hg]) hpeek b

theorem afterStep_units (s : State) {u : Nat} (hu : u < 132) (k : Nat) (b : Bool) : (s.afterStep u k b).units = s.units :=
  (afterStep_spec s u k b hu).1.units

theorem afterStep_unit (s : State) {u : Nat} (hu : u < 132) (k : Nat) (b : Bool) (v : Nat) : (s.afterStep u k b).unit v = s.unit v := by
  simp only [State.unit, afterStep_units s hu]

/-- A group that issues waits for no event. -/
theorem Issues.wfe {s : State} {sh : Shape} {mi : Mi} {i : Iss} (h : Issues s sh mi i) : (s.grp i.u i.k).wfe = false := by
  obtain ⟨-, -, hmay, -⟩ := h
  simp only [State.mayIssue, Bool.and_eq_true, Bool.not_eq_true'] at hmay
  exact hmay.2

theorem wdkick_kicks {s : State} {mi : Mi} {i : Iss} (h : Issues s {} mi i) (hu : 128 ≤ i.u) :
    Completes (.wdkick mi) s fun t => Advanced s t i ∧ t.units = s.units.set {} i.u { s.unit i.u with kickAt := s.pkg.time } := by
  obtain ⟨s₁, ha, he⟩ := privIssue_eq (f := fun i s => s.kick i.u) h hu
  refine ⟨_, congrArg Host.Outcome.next he, advanced_of_groups ha h.unit_lt (by rfl) (fun _ => by rfl) _, ?_⟩
  rw [afterStep_units _ h.unit_lt, ha.keeps.1]
  rfl

/-- The effect of wfe where no event is pending. -/
def State.sleep (s : State) (u k : Nat) : State := s.setGrp u k { s.grp u k with wfe := true }

theorem wfe_waits {s : State} {mi : Mi} {i : Iss} (h : Issues s {} mi i) (hu : 128 ≤ i.u) :
    Completes (.wfe mi) s fun t => Advanced s t i ∧ (t.unit i.u).events = 0 ∧ (t.grp i.u i.k).wfe = decide ((s.unit i.u).events = 0)
      ∧ ((s.unit i.u).events = 0 → t.mayIssue i.u i.k = false) := by
  obtain ⟨s₁, ha, he⟩ := privIssue_eq (f := fun i s =>
    if (s.unit i.u).events ≠ 0 then s.setUnit i.u { s.unit i.u with events := 0 } else s.sleep i.u i.k) h hu
  refine ⟨_, congrArg Host.Outcome.next he, ?_⟩
  dsimp only
  rw [ha.unit]
  by_cases hev : (s.unit i.u).events = 0
  · rw [if_neg (not_not.2 hev)]
    have hg : (s₁.sleep i.u i.k).grp i.u i.k = { s₁.grp i.u i.k with wfe := true } := setGrp_grp_same ..
    have hset : (((s₁.sleep i.u i.k).afterStep i.u i.k (s.grp i.u i.k).step).grp i.u i.k).wfe = true := by
      rw [(onlyHalts_afterStep ..).wfe, hg]
    refine ⟨advanced_afterStep ha h.unit_lt (fun l => by rw [hg]; rfl) (fun r => by rw [hg]; rfl) (fun _ => by rfl) _, ?_, by simp [hset, hev],
      fun _ => by simp [State.mayIssue, hset]⟩
    rw [afterStep_unit _ h.unit_lt]
    exact (congrArg UnitSt.events (ha.unit i.u)).trans hev
  · rw [if_pos hev]
    refine ⟨advanced_of_groups ha h.unit_lt (by rfl) (fun _ => by rfl) _, ?_, ?_, fun h0 => absurd h0 hev⟩
    · rw [afterStep_unit _ h.unit_lt, State.unit, State.setUnit, SMap.get_set_same]
    · rw [(onlyHalts_afterStep ..).wfe]
      have hwfe : (s₁.grp i.u i.k).wfe = false := (congrArg (·.2.2) (ha.same.status i.u i.k)).trans h.wfe
      exact hwfe.trans (by simp [hev])

/-! ##### Events (R233) -/

/-- An event with no group waiting becomes pending. -/
theorem raiseEvent_pending {s : State} {u : Nat} (hn : ∀ k, k < 32 → ((s.grp u k).live && (s.grp u k).wfe) = false) (src : Nat) :
    s.raiseEvent u src = s.setUnit u { s.unit u with events := (s.unit u).events ||| 2 ^ (src % 32) } := by
  have hw : (List.range 32).filter (fun k => (s.grp u k).live && (s.grp u k).wfe) = [] :=
    List.filter_eq_nil_iff.2 fun k hk => by simp only [hn k (List.mem_range.1 hk), Bool.false_eq_true, not_false_eq_true]
  unfold State.raiseEvent
  simp only [hw]

/-- An event that groups wait for lets each of them go on. -/
theorem raiseEvent_taken {s : State} {u k : Nat} (hk : k < 32) (hlive : (s.grp u k).live = true) (hwfe : (s.grp u k).wfe = true) (src : Nat) :
    ∃ ks, k ∈ ks ∧ SlotsDone s (s.raiseEvent u src) u ks (fun _ => true) (fun g => { g with wfe := false }) := by
  have hmem : k ∈ (List.range 32).filter (fun k => (s.grp u k).live && (s.grp u k).wfe) :=
    List.mem_filter.2 ⟨List.mem_range.2 hk, by simp [hlive, hwfe]⟩
  unfold State.raiseEvent
  extract_lets x waiting
  have hnodup : waiting.Nodup := List.nodup_range.filter _
  have hlt : ∀ k ∈ waiting, k < 32 := fun k h => List.mem_range.1 (List.mem_filter.1 h).1
  change k ∈ waiting at hmem
  clear_value waiting
  cases waiting with
  | nil => cases hmem
  | cons a l => exact ⟨a :: l, hmem, slotsDone_foldl hnodup hlt fun t k _ => (if_pos rfl).symm⟩

section
variable {s : State} {mi : Mi} {i : Iss} {l src n : Nat} (h : Issues s shapeTwo mi i) (hu : 128 ≤ i.u) (hl : l < 32) (hx : i.exec = 2 ^ l)
  (hsrc : src = opA shapeTwo mi (s.grp i.u i.k) ((s.grp i.u i.k).thr l)) (hn : n = opB shapeTwo mi (s.grp i.u i.k) ((s.grp i.u i.k).thr l)) (h4 : n < 4)
include h hu hl hx hsrc hn h4

/-- The effect of sev for one thread: source `src` of housekeeping unit `n`. -/
theorem sev_effect : ∃ s₁, Arrived s s₁ i
    ∧ exec (.sev mi) s = .next ((s₁.raiseEvent (128 + n) src).afterStep i.u i.k (s.grp i.u i.k).step) := by
  obtain ⟨s₁, ha, he⟩ := privIssue_eq (f := fun i s =>
    let g := s.grp i.u i.k
    (lanesOf i.exec).foldl (fun s l =>
      let n := opB shapeTwo mi g (g.thr l)
      if n < 4 then s.raiseEvent (128 + n) (opA shapeTwo mi g (g.thr l)) else s) s) h hu
  refine ⟨s₁, ha, congrArg Host.Outcome.next (he.trans ?_)⟩
  simp only [hx, lanesOf_two_pow hl, List.foldl_cons, List.foldl_nil, opA_same ha.regs, opB_same ha.regs, ← hsrc, ← hn, if_pos h4]

theorem sev_pending (hnone : ∀ k, k < 32 → (128 + n, k) ≠ (i.u, i.k) → ((s.grp (128 + n) k).live && (s.grp (128 + n) k).wfe) = false) :
    Completes (.sev mi) s fun t => Advanced s t i ∧ (t.unit (128 + n)).events = (s.unit (128 + n)).events ||| 2 ^ (src % 32) := by
  obtain ⟨s₁, ha, he⟩ := sev_effect h hu hl hx hsrc hn h4
  have hwait : ∀ k, k < 32 → ((s₁.grp (128 + n) k).live && (s₁.grp (128 + n) k).wfe) = false := fun k hk => by
    have hst := ha.same.status (128 + n) k
    simp only [Grp.status, Prod.mk.injEq] at hst
    rw [hst.1, hst.2.2]
    by_cases hself : (128 + n, k) = (i.u, i.k)
    · obtain ⟨hu', hk'⟩ := Prod.mk.inj hself
      rw [hu', hk', h.wfe, Bool.and_false]
    · exact hnone k hk hself
  rw [raiseEvent_pending hwait] at he
  refine ⟨_, he, advanced_of_groups ha h.unit_lt (by rfl) (fun _ => by rfl) _, ?_⟩
  rw [afterStep_unit _ h.unit_lt, ha.unit, State.unit, State.setUnit, SMap.get_set_same]

theorem sev_taken {k : Nat} (hk : k < 32) (hlive : (s.grp (128 + n) k).live = true) (hwfe : (s.grp (128 + n) k).wfe = true) :
    Completes (.sev mi) s fun t => (t.grp (128 + n) k).wfe = false ∧ (t.unit (128 + n)).events = (s.unit (128 + n)).events := by
  obtain ⟨s₁, ha, he⟩ := sev_effect h hu hl hx hsrc hn h4
  have hst := ha.same.status (128 + n) k
  simp only [Grp.status, Prod.mk.injEq] at hst
  obtain ⟨ks, hmem, hdone⟩ := raiseEvent_taken hk (hst.1.trans hlive) (hst.2.2.trans hwfe) src
  refine ⟨_, he, ?_, ?_⟩
  · rw [(onlyHalts_afterStep ..).wfe, hdone.grp _ k hk, if_pos ⟨rfl, hmem, rfl⟩]
  · rw [afterStep_unit _ h.unit_lt, hdone.frame]
    exact congrArg UnitSt.events (ha.unit _)

end

/-! ##### Registers of the unit (R233) -/

/-- What a 32-bit register of a housekeeping unit reads. -/
theorem regRead_hku (s : State) {n off : Nat} {d : RegDef} (h0 : off ≠ 0) (hb : regBase (home .hku n off) = some (d, off)) (hd : d.wide = false) :
    (s.regRead (home .hku n off)).1
      = ((s.unitReg32 (home .hku n off) off (128 + n)).getD (s.reg (home .hku n off)) &&& ((2 ^ 64 - 1) ^^^ d.wo)) % 2 ^ 32 := by
  have hv : s.regValue (home .hku n off) d off
      = (s.unitReg32 (home .hku n off) off (128 + n)).getD (s.reg (home .hku n off)) &&& ((2 ^ 64 - 1) ^^^ d.wo) := by
    have hview : s.viewReg (home .hku n off) off = s.unitReg32 (home .hku n off) off (128 + n) := rfl
    unfold State.regValue
    rw [if_neg (by simp [State.asleep, regDomain, home])]
    show (match s.viewReg (home .hku n off) off with | some v => v | none => s.reg (home .hku n off)) &&& _ = _
    rw [hview]
    cases s.unitReg32 (home .hku n off) off (128 + n) <;> rfl
  have hne : (decide (off = 0) && (home .hku n off).kind != .prog) = false := by simp [h0]
  unfold State.regRead
  rw [if_neg (by simp [home]), if_neg (by rw [show (home .hku n off).off = off from rfl, hne]; decide), hb]
  simp only [hd, Bool.not_false, if_true, ← hv]
  rfl

/-- The registers that csrr names read the same once the instruction is issued. -/
theorem regRead_arrived {s s₁ : State} {i : Iss} (h : Arrived s s₁ i) (n : Nat) {a : Nat} (ha : a = 0 ∨ a = 5 ∨ a = 6 ∨ a = 7 ∨ a = 8) :
    (s₁.regRead (home .hku n (4 * a))).1 = (s.regRead (home .hku n (4 * a))).1 := by
  have hreg : ∀ off, off < 0x100 → s₁.reg (home .hku n off) = s.reg (home .hku n off) := fun off ho => by
    have := h.same.reg (128 + n) off ho
    rwa [unitReg_hku (by omega), Nat.add_sub_cancel_left] at this
  have hhalted : ∀ k, ((s₁.grp (128 + n) k).live && s₁.groupHalted (128 + n) k) = ((s.grp (128 + n) k).live && s.groupHalted (128 + n) k) := fun k => by
    have hst := h.same.status (128 + n) k
    simp only [Grp.status, Prod.mk.injEq] at hst
    rw [groupHalted_eq, groupHalted_eq, hst.1, hst.2.1, h.same.halts]
  rcases ha with rfl | rfl | rfl | rfl | rfl
  · rfl
  all_goals
    rw [regRead_hku s₁ (by omega) rfl rfl, regRead_hku s (by omega) rfl rfl]
    simp [State.unitReg32, hreg, hhalted, h.same.halts]

theorem csrr_reads {s : State} {mi : Mi} {i : Iss} {l : Nat} (h : Issues s shapeCsrr mi i) (hu : 128 ≤ i.u) (hl : l < 32) (hx : i.exec = 2 ^ l)
    (hud : mi.udst = false) (hd : mi.dst.toNat < 255) {a : Nat} (ha : a = opA shapeCsrr mi (s.grp i.u i.k) ((s.grp i.u i.k).thr l))
    (hreg : a = 0 ∨ a = 5 ∨ a = 6 ∨ a = 7 ∨ a = 8) :
    Completes (.csrr mi) s fun t => ((t.grp i.u i.k).thr l).getG mi.dst.toNat = (s.regRead (home .hku (i.u - 128) (4 * a))).1 % 2 ^ 32
      ∧ t.mem = s.mem ∧ t.units = s.units := by
  obtain ⟨s₁, harr, he⟩ := privIssue_eq (f := fun i s =>
    let low := lowLane i.exec
    (lanesOf i.exec).foldl (fun s l =>
      let g := s.grp i.u i.k
      let (v, s) := s.regRead (home .hku (i.u - 128) (4 * opA shapeCsrr mi g (g.thr l)))
      if mi.udst && l != low then s else s.deliver i.u i.k mi.udst mi.dst.toNat 4 l v) s) h hu
  refine ⟨_, congrArg Host.Outcome.next he, ?_⟩
  simp only [hx, lanesOf_two_pow hl, List.foldl_cons, List.foldl_nil, opA_same harr.regs, ← ha, hud, Bool.false_and, Bool.false_eq_true, if_false]
  have hread := regRead_arrived harr (i.u - 128) hreg
  have hlatch := latchedOnly_regRead s₁ (home .hku (i.u - 128) (4 * a))
  generalize s₁.regRead (home .hku (i.u - 128) (4 * a)) = r at hread hlatch ⊢
  obtain ⟨v, s₂⟩ := r
  change LatchedOnly s₁ s₂ at hlatch
  have hgrp : ∀ u k, s₂.grp u k = s₁.grp u k := fun u k => by rw [hlatch]; rfl
  have hlive : (s₂.grp i.u i.k).live = true := by
    rw [hgrp]
    exact (congrArg Prod.fst (harr.same.status i.u i.k)).trans h.live
  have hret := (deliver_one hlive (d := mi.dst.toNat) (by omega) 4 ⟨l, 0, 0, v, 0⟩).returned (fun a => ?_) (hgrp i.u i.k ▸ harr.regs) h.unit_lt (by omega)
    (s.grp i.u i.k).step
  · have hk := (afterStep_spec (s₂.deliver i.u i.k false mi.dst.toNat 4 l v) i.u i.k (s.grp i.u i.k).step h.unit_lt).1
    have hf := deliver_frame s₂ i.u i.k false mi.dst.toNat 4 l v
    refine ⟨?_, ?_, ?_⟩
    · have := hret.lane _ (List.mem_singleton_self _) 0 (by decide)
      rw [← hread]
      simpa [bits] using this
    · rw [hk.mem, hf, hlatch]
      exact harr.keeps.mem
    · rw [hk.units, hf, hlatch]
      exact harr.keeps.units
  · rw [hlatch]
    exact harr.keeps.peek a

/-- A write of the debug selector keeps its ten bits (R8, R198). -/
theorem fieldWrite_dbgSel (locked : Bool) (old v : Nat) :
    fieldWrite locked ⟨0x20, 0, 1, false, 0x3FF, 0, 0, 0, 0⟩ old v = (old &&& (2 ^ 64 - 1 ^^^ 0x3FF)) ||| (v &&& 0x3FF) := by
  have hlt : (old &&& (2 ^ 64 - 1 ^^^ 0x3FF)) ||| (v &&& 0x3FF) < 2 ^ 64 :=
    Nat.or_lt_two_pow (Nat.and_lt_two_pow _ (by decide)) (Nat.and_lt_two_pow _ (by decide))
  unfold fieldWrite
  simp only [ite_self, Nat.or_zero, Nat.and_zero, Nat.xor_zero]
  exact (Nat.and_two_pow_sub_one_eq_mod _ 64).trans (Nat.mod_eq_of_lt hlt)

theorem csrw_writes {s : State} {mi : Mi} {i : Iss} {l : Nat} (h : Issues s shapeTwo mi i) (hu : 128 ≤ i.u) (hl : l < 32) (hx : i.exec = 2 ^ l)
    (ha : opA shapeTwo mi (s.grp i.u i.k) ((s.grp i.u i.k).thr l) = 8) :
    Completes (.csrw mi) s fun t => t.reg (home .hku (i.u - 128) 0x20)
        = (s.reg (home .hku (i.u - 128) 0x20) &&& (2 ^ 64 - 1 ^^^ 0x3FF))
          ||| (opB shapeTwo mi (s.grp i.u i.k) ((s.grp i.u i.k).thr l) % 2 ^ 32 &&& 0x3FF)
      ∧ Advanced s t i ∧ t.units = s.units := by
  obtain ⟨s₁, harr, he⟩ := privIssue_eq (f := fun i s =>
    (lanesOf i.exec).foldl (fun s l =>
      let g := s.grp i.u i.k
      let t := g.thr l
      s.regWrite (home .hku (i.u - 128) (4 * opA shapeTwo mi g t)) (opB shapeTwo mi g t) 0) s) h hu
  refine ⟨_, congrArg Host.Outcome.next he, ?_⟩
  simp only [hx, lanesOf_two_pow hl, List.foldl_cons, List.foldl_nil, opA_same harr.regs, opB_same harr.regs, ha]
  generalize opB shapeTwo mi (s.grp i.u i.k) ((s.grp i.u i.k).thr l) = v
  have hw : s₁.regWrite (home .hku (i.u - 128) (4 * 8)) v 0 = s₁.setReg (home .hku (i.u - 128) 0x20)
      (fieldWrite s₁.pkg.locked ⟨0x20, 0, 1, false, 0x3FF, 0, 0, 0, 0⟩ (s₁.reg (home .hku (i.u - 128) 0x20)) (v % 2 ^ 32)) := rfl
  have hreg : ∀ t : State, t.reg (home .hku (i.u - 128) 0x20) = t.reg (unitReg i.u 0x20) := fun t => by rw [unitReg_hku (by omega)]
  rw [hw, fieldWrite_dbgSel]
  refine ⟨?_, advanced_of_groups harr h.unit_lt (by rfl) (fun _ => by rfl) _, ?_⟩
  · rw [hreg, (onlyHalts_afterStep ..).reg _ _ (by omega) (by omega), ← hreg, setReg_reg_same, hreg s₁, harr.same.reg _ _ (by omega), hreg s]
  · rw [afterStep_units _ h.unit_lt]
    exact harr.keeps.units

/-- Settles O15: each instruction has its effect in the state that `privIssue_eq` gives. -/
theorem privilegedInstructions : Obligations.PrivilegedInstructions := by
  unfold Obligations.PrivilegedInstructions
  refine ⟨?_, ?_, ?_, ?_, ?_, ?_⟩
  · intro s mi i l h hu hl hx hud hd a ha
    exact csrr_reads h hu hl hx hud hd rfl ha
  · intro s mi i l h hu hl hx ha
    exact csrw_writes h hu hl hx ha
  · intro s mi i h hu
    exact wdkick_kicks h hu
  · intro s mi i h hu
    exact wfe_waits h hu
  · intro s mi i l h hu hl hx g src n hn hnone
    exact sev_pending h hu hl hx rfl rfl hn hnone
  · intro s mi i l k h hu hl hx g n hn hk _ hlive hwfe
    exact sev_taken h hu hl hx rfl rfl hn hk hlive hwfe

end Sys2Proof.Machine
end

section
/-! ### What the work on a partition leaves alone -/

namespace Sys2Proof.Machine

theorem regKey_ne_of_off {a b : RegAddr} (h : a.off % 2 ^ 24 ≠ b.off % 2 ^ 24) : regKey a ≠ regKey b := by
  unfold regKey
  omega

/-- A progress block of a partition, which start-up and the Dome do not write. -/
theorem regKey_prog_ne_prt (n p off : Nat) (h : p < 40960 + n) (ho : off < 2 ^ 24) : regKey (home .prog n off) ≠ regKey (home .prt p 0x10) := by
  simp only [regKey, home, Kind.code]
  omega

/-- A number with a field replaced: the bits below it, the field, the bits above it. -/
theorem putBits_eq (x lo w v : Nat) : putBits x lo w v = x % 2 ^ lo + 2 ^ lo * (v % 2 ^ w + 2 ^ w * (x / 2 ^ lo / 2 ^ w)) := by
  simp only [bits, putBits, Nat.shiftRight_eq_div_pow, Nat.shiftLeft_eq]
  have hx : x = x / 2 ^ lo % 2 ^ w * 2 ^ lo + (x % 2 ^ lo + 2 ^ lo * (2 ^ w * (x / 2 ^ lo / 2 ^ w))) := by
    calc x = x % 2 ^ lo + 2 ^ lo * (x / 2 ^ lo) := (Nat.mod_add_div x (2 ^ lo)).symm
      _ = x % 2 ^ lo + 2 ^ lo * (x / 2 ^ lo % 2 ^ w + 2 ^ w * (x / 2 ^ lo / 2 ^ w)) := by rw [Nat.mod_add_div (x / 2 ^ lo)]
      _ = _ := by ring
  rw [Nat.sub_eq_of_eq_add' hx]
  ring

theorem bits_putBits_same (x lo w v : Nat) : bits (putBits x lo w v) lo w = v % 2 ^ w := by
  have hl : 0 < 2 ^ lo := by positivity
  rw [putBits_eq, bits, Nat.shiftRight_eq_div_pow, Nat.add_mul_div_left _ _ hl, Nat.div_eq_of_lt (Nat.mod_lt _ hl), Nat.zero_add,
    Nat.add_mul_mod_self_left, Nat.mod_mod]

theorem bits_putBits_below (x w v : Nat) {lo n : Nat} (h : n ≤ lo) : bits (putBits x lo w v) 0 n = bits x 0 n := by
  obtain ⟨k, rfl⟩ := Nat.exists_eq_add_of_le h
  rw [putBits_eq, bits, bits, Nat.shiftRight_zero, Nat.shiftRight_zero, Nat.pow_add, Nat.mul_assoc, Nat.add_mul_mod_self_left,
    Nat.mod_mul_right_mod]

/-- A state reached with events, counters and messages only: what it holds beyond them, and the state of partition `p`, is as before. -/
structure Noted (p : Nat) (s t : State) : Prop where
  frame : t = { s with rings := t.rings, regs := t.regs, out := t.out, eth := t.eth, shares := t.shares,
                       dome := { s.dome with open_ := t.dome.open_ } }
  prt : t.prtState p = s.prtState p

section
variable {p : Nat} {s t u : State}

theorem Noted.refl (p : Nat) (s : State) : Noted p s s := ⟨rfl, rfl⟩

theorem Noted.trans (h : Noted p s t) (h' : Noted p t u) : Noted p s u where
  frame := by
    have hf := h'.frame
    generalize u.rings = r, u.regs = g, u.out = o, u.eth = e, u.shares = x, u.dome.open_ = d at hf ⊢
    rw [h.frame] at hf
    exact hf
  prt := h'.prt.trans h.prt

theorem Noted.foldl {α : Type} {f : State → α → State} (hf : ∀ s a, Noted p s (f s a)) (l : List α) (s : State) : Noted p s (l.foldl f s) :=
  State.foldl_keeps (Noted p s) f (fun t a h => h.trans (hf t a)) l s (.refl p s)

theorem Noted.setReg {a : RegAddr} (h : regKey a ≠ regKey (home .prt p 0x10)) (s : State) (v : Nat) : Noted p s (s.setReg a v) :=
  ⟨rfl, by unfold State.prtState; rw [State.setReg_reg_ne _ _ _ _ h]⟩

theorem Noted.bump {a : RegAddr} (h : regKey a ≠ regKey (home .prt p 0x10)) (s : State) (n : Nat) : Noted p s (s.bump a n) := by
  unfold State.bump
  split
  · exact .refl p s
  · exact .setReg h ..

theorem noted_progress (s : State) {n : Nat} (h : p < 40960 + n) (state operation code done total : Nat) :
    Noted p s (s.progress n state operation code done total) :=
  have key (off : Nat) (ho : off < 2 ^ 24) := regKey_prog_ne_prt n p off h ho
  (((Noted.setReg (key 0 (by norm_num)) ..).trans (.setReg (key 8 (by norm_num)) ..)).trans (.setReg (key 0x10 (by norm_num)) ..)).trans
    (.setReg (key 0x18 (by norm_num)) ..)

theorem noted_transmit (s : State) (port : Nat) (f : EthFrame) : Noted p s (s.transmit port f) := by
  unfold State.transmit
  extract_lets x s₁ s₂
  have h : Noted p s s₂ := ⟨rfl, rfl⟩
  have h' (o : Output) : Noted p s₂ (s₂.emit o) := ⟨rfl, rfl⟩
  exact (h.trans (h' _)).trans (.bump (regKey_ne_of_off (by simp [pages, home])) ..)

theorem noted_sendFrom (s : State) (port : Nat) (f : EthFrame) : Noted p s (s.sendFrom port f) := by
  unfold State.sendFrom
  split
  · exact noted_transmit ..
  · exact ⟨rfl, rfl⟩

theorem noted_flushRing (s : State) (q : Nat) : Noted p s (s.flushRing q) :=
  Noted.trans (t := State.setRing _ _ _) ⟨rfl, rfl⟩ (.foldl (fun s _ => noted_sendFrom s ..) ..)

theorem noted_post (s : State) (q type code stream index d0 d1 : Nat) (wake : Bool) : Noted p s (s.post q type code stream index d0 d1 wake) := by
  unfold State.post
  extract_lets r dropped r' s₁ s₂
  have h₁ : Noted p s s₁ := ⟨rfl, rfl⟩
  have h₂ : Noted p s₁ s₂ := by
    simp only [s₂]
    split
    · exact .bump (regKey_ne_of_off (by simp [home])) ..
    · exact .refl ..
  exact (h₁.trans h₂).trans (noted_flushRing ..)

theorem noted_mbxAnswer (s : State) (r : DomReq) (status data : Nat) : Noted p s (s.mbxAnswer r status data) := by
  unfold State.mbxAnswer
  split
  · exact ⟨rfl, rfl⟩
  · exact ((Noted.setReg (regKey_ne_of_off (by simp [home])) ..).trans (.setReg (regKey_ne_of_off (by simp [home])) ..)).trans ⟨rfl, rfl⟩

theorem noted_mbxAnswers (l : List DomReq) (s : State) : Noted p s (l.foldl (fun s r => s.mbxAnswer r 0 0) s) :=
  .foldl (fun s r => noted_mbxAnswer s r 0 0) l s

theorem noted_postEvery (s : State) (type code d0 d1 : Nat) : Noted p s (s.postEvery type code d0 d1) :=
  .foldl (fun _ _ => noted_post ..) ..

theorem noted_postOthers (s : State) (q type code d0 d1 : Nat) : Noted p s (s.postOthers q type code d0 d1) :=
  .foldl (fun _ _ => noted_post ..) ..

theorem noted_checkQuota (s : State) : Noted p s (s.checkQuota p) := by
  unfold State.checkQuota
  extract_lets a beyond was s'
  have h : Noted p s s' := ⟨rfl, by unfold State.prtState; rw [State.setReg_reg_same]; exact bits_putBits_below _ _ _ (by norm_num)⟩
  split
  · exact h.trans (noted_post ..)
  · exact h

/-- A state in which partition `p` has no more work than before, with its state and every action under way as they were. -/
structure Quiet (p : Nat) (s t : State) : Prop where
  layout : t.pkg.layout = s.pkg.layout
  acts : t.dome.acts = s.dome.acts
  prt : t.prtState p = s.prtState p
  ctx : s.hasCtx p = false → t.hasCtx p = false
  cmds : ∀ k, (s.strs.get {} k).cmds = [] → (t.strs.get {} k).cmds = []
  live : ∀ k, (s.groups.get {} k).live = false → (t.groups.get {} k).live = false

theorem Quiet.refl (p : Nat) (s : State) : Quiet p s s := ⟨rfl, rfl, rfl, id, fun _ => id, fun _ => id⟩

theorem Quiet.trans (h : Quiet p s t) (h' : Quiet p t u) : Quiet p s u where
  layout := h'.layout.trans h.layout
  acts := h'.acts.trans h.acts
  prt := h'.prt.trans h.prt
  ctx := h'.ctx ∘ h.ctx
  cmds k := h'.cmds k ∘ h.cmds k
  live k := h'.live k ∘ h.live k

theorem Quiet.foldl_mem {α : Type} {f : State → α → State} (l : List α) (s : State) (hf : ∀ s, ∀ a ∈ l, Quiet p s (f s a)) :
    Quiet p s (l.foldl f s) := by
  induction l generalizing s with
  | nil => exact .refl p s
  | cons a l ih => exact (hf s a (by simp)).trans (ih _ fun s b hb => hf s b (by simp [hb]))

theorem Quiet.foldl {α : Type} {f : State → α → State} (hf : ∀ s a, Quiet p s (f s a)) (l : List α) (s : State) : Quiet p s (l.foldl f s) :=
  foldl_mem l s fun s a _ => hf s a

/-- A change of fields that hold no partition's work. -/
theorem Quiet.of_fields (hl : t.pkg.layout = s.pkg.layout) (ha : t.dome.acts = s.dome.acts) (hr : t.regs = s.regs) (hc : t.ctx = s.ctx)
    (hs : t.strs = s.strs) (hg : t.groups = s.groups) : Quiet p s t where
  layout := hl
  acts := ha
  prt := by unfold State.prtState State.reg; rw [hr]
  ctx h := by rw [State.hasCtx, State.ctxOf, hc]; exact h
  cmds k h := by rw [hs]; exact h
  live k h := by rw [hg]; exact h

theorem Noted.quiet (h : Noted p s t) : Quiet p s t where
  layout := by rw [h.frame]
  acts := by rw [h.frame]
  prt := h.prt
  ctx hc := by rw [h.frame]; exact hc
  cmds k hk := by rw [h.frame]; exact hk
  live k hk := by rw [h.frame]; exact hk

theorem quiet_setStr (s : State) (q st : Nat) (x : Str) (h : (s.str q st).cmds = [] → x.cmds = []) : Quiet p s (s.setStr q st x) where
  layout := rfl
  acts := rfl
  prt := rfl
  ctx := id
  cmds k hk := by
    rw [State.setStr, SMap.get_set]
    split
    · rename_i he
      exact h (by rw [State.str, he]; exact hk)
    · exact hk
  live _ := id

theorem quiet_endCmd (s : State) (q st idx code : Nat) : Quiet p s (s.endCmd q st idx code) :=
  quiet_setStr s q st _ fun h => by simp [h]

/-! ### What fails as work is abandoned -/

theorem quiet_exchSend (s : State) (q g kind stage dir bucket block : Nat) (data : List Byte) :
    Quiet p s (s.exchSend q g kind stage dir bucket block data) := by
  unfold State.exchSend
  dsimp only
  split
  · exact .refl p s
  · exact .of_fields rfl rfl rfl rfl rfl rfl

theorem quiet_sendAbort (s : State) (q : Nat) (ports : List Nat) (code dev command slot : Nat) :
    Quiet p s (s.sendAbort q ports code dev command slot) :=
  .foldl (fun _ _ => quiet_exchSend ..) ..

theorem noted_noteAbort (s : State) (q : Nat) (dims : List Nat) (code dev command idx step : Nat) :
    Noted p s (s.noteAbort q dims code dev command idx step) :=
  (Noted.foldl (fun s _ => .setReg (regKey_ne_of_off (by simp [pages, home])) s _) ..).trans (noted_post ..)

theorem quiet_setXch (s : State) (q : Nat) (x : XchSt) : Quiet p s (s.setXch q x) := .of_fields rfl rfl rfl rfl rfl rfl

theorem quiet_failExch (s : State) (q : Nat) (e : Exch) (code sent dev : Nat) (skip : List Nat) :
    Quiet p s (s.failExch q e code sent dev skip) :=
  (((quiet_sendAbort ..).trans (noted_noteAbort ..).quiet).trans (quiet_setXch ..)).trans (quiet_endCmd ..)

theorem quiet_failGath (s : State) (q : Nat) (g : Gath) (code sent dev : Nat) (skip : List Nat) :
    Quiet p s (s.failGath q g code sent dev skip) :=
  (((quiet_sendAbort ..).trans (noted_noteAbort ..).quiet).trans (quiet_setXch ..)).trans (quiet_endCmd ..)

theorem noted_permFell (s : State) (q code : Nat) : Noted p s (s.permFell q code) :=
  .foldl (fun s _ => .setReg (regKey_ne_of_off (by simp [pages, home])) s _) ..

theorem quiet_failPerm (s : State) (code : Nat) : Quiet p s (s.failPerm p code) := by
  unfold State.failPerm
  split
  · exact .refl p s
  · exact (((noted_permFell ..).quiet.trans (quiet_setXch ..)).trans (noted_progress _ (by omega) ..).quiet).trans (quiet_endCmd ..)

theorem quiet_abortCollectives (s : State) (code : Nat) : Quiet p s (s.abortCollectives p code) := by
  unfold State.abortCollectives
  extract_lets s₁ s₂
  have h₁ : Quiet p s s₁ := by
    simp only [s₁]
    split
    · exact quiet_failExch ..
    · exact .refl p s
  exact (h₁.trans (.foldl (fun _ _ => quiet_failGath ..) ..)).trans (quiet_failPerm ..)

theorem noted_snpError (s : State) (v : Nat) : Noted p s (s.setReg (home .snp p 0x18) v) := .setReg (regKey_ne_of_off (by simp [home])) ..

theorem noted_abortSave (s : State) (code : Nat) (v : Save) : Noted p s (s.abortSave p code v) :=
  .foldl (fun s _ => ((Noted.bump (regKey_ne_of_off (by simp [home])) s _).trans (noted_snpError ..)).trans
    (noted_progress _ (by omega) ..)) ..

theorem noted_fillProgress (s : State) (f : Fill) (state code done : Nat) : Noted p s (s.fillProgress p f state code done) :=
  noted_progress _ (by omega) ..

theorem quiet_abortSnaps (s : State) (code : Nat) : Quiet p s (s.abortSnaps p code) := by
  unfold State.abortSnaps
  extract_lets x tell s₁ s₂ ended
  have h₁ : Noted p s s₁ := .foldl (fun s v => by
    dsimp only
    split
    · exact noted_abortSave ..
    · exact (noted_abortSave ..).trans (noted_post ..)) ..
  have h₂ : Noted p s₁ s₂ := .foldl (fun s f => by
    dsimp only
    split
    · exact ((noted_snpError ..).trans (noted_fillProgress ..)).trans (noted_post ..)
    · exact (noted_snpError ..).trans (noted_fillProgress ..)) ..
  have h₃ : Quiet p s₂ (s₂.setSnap p {}) := .of_fields rfl rfl rfl rfl rfl rfl
  exact ((h₁.trans h₂).quiet.trans h₃).trans (.foldl (fun _ _ => quiet_endCmd ..) ..)

theorem quiet_releaseFence (s : State) (k : Nat) : Quiet p s (s.releaseFence k) :=
  .foldl (fun s st => .foldl (fun s c => by
    dsimp only
    split
    · split
      · exact quiet_endCmd ..
      · split
        · exact quiet_endCmd ..
        · exact .refl p s
    · exact .refl p s) ..) ..

theorem quiet_fenceFault (s : State) (q k code st idx : Nat) (owes : Bool) : Quiet p s (s.fenceFault q k code st idx owes) := by
  unfold State.fenceFault
  extract_lets f r f' s₁ s₂ s₃
  have hset (g : Fence) : Quiet p s (s.setFence k g) := .of_fields rfl rfl rfl rfl rfl rfl
  have hbump (s : State) (off n : Nat) (h : off % 2 ^ 24 ≠ 16) : Quiet p s (s.bump (home .fen r off) n) := (Noted.bump (regKey_ne_of_off h) ..).quiet
  split
  · exact (hset _).trans (hbump _ _ _ (by norm_num))
  · exact (((hset _).trans (hbump _ _ _ (by norm_num))).trans (noted_post ..).quiet).trans (quiet_releaseFence ..)

theorem quiet_faultPending (s : State) (q code : Nat) : Quiet p s (s.faultPending q code) := .foldl (fun _ _ => quiet_fenceFault ..) ..

theorem quiet_abandon (s : State) (halted : Str → Str) (hh : ∀ x : Str, x.cmds = [] → (halted x).cmds = []) : Quiet p s (s.abandon p halted) := by
  unfold State.abandon
  extract_lets s₁ ports
  have h₁ : Quiet p s s₁ := .foldl (fun s st => quiet_setStr s p st _ fun _ => hh _ rfl) ..
  refine ⟨h₁.layout, h₁.acts, h₁.prt, fun hc => ?_, h₁.cmds, h₁.live⟩
  have hs : (s₁.ctxOf p).state = 0 := by simpa [State.hasCtx] using h₁.ctx hc
  rw [State.hasCtx, bne_eq_false_iff_eq]
  exact (congrArg Ctx.state (State.setCtx_ctxOf_same s₁ p { s₁.ctxOf p with ready := [], xq := [] })).trans hs

/-! ### The scrub of a partition begins -/

theorem quiet_setUnit (s : State) (u : Nat) (x : UnitSt) : Quiet p s (s.setUnit u x) := .of_fields rfl rfl rfl rfl rfl rfl

/-- A map without some of its entries has what it had of a kind that the default value is of. -/
theorem get_dropIf_of {α : Type} {d : α} {P : α → Prop} (hd : P d) {m : SMap α} {k : Nat} (h : P (m.get d k)) (f : Nat → Bool) :
    P ((m.dropIf f).get d k) := by
  rw [SMap.get_dropIf]
  split
  · exact hd
  · exact h


theorem stopUnits_groups (s : State) (q : Nat) : (s.stopUnits q).groups = s.groups.dropIf (fun k => (s.clustersOf q).contains (k / 128)) := by
  unfold State.stopUnits
  extract_lets s₁ cs
  have h₁ : s₁.groups = s.groups ∧ s₁.clustersOf q = s.clustersOf q := by
    refine State.foldl_keeps (fun t => t.groups = s.groups ∧ t.clustersOf q = s.clustersOf q) _ ?_ _ _ ⟨rfl, rfl⟩
    intro t u h
    exact h
  dsimp only
  rw [h₁.1, ← h₁.2]

theorem quiet_stopUnits (s : State) (q : Nat) : Quiet p s (s.stopUnits q) := by
  have hlive (k : Nat) (hk : (s.groups.get {} k).live = false) : ((s.stopUnits q).groups.get {} k).live = false := by
    rw [stopUnits_groups]
    exact get_dropIf_of (P := fun x : Grp => x.live = false) rfl hk _
  unfold State.stopUnits at *
  extract_lets s₁
  have h₁ : Quiet p s s₁ := .foldl (fun _ _ => quiet_setUnit ..) ..
  exact ⟨h₁.layout, h₁.acts, h₁.prt, h₁.ctx, h₁.cmds, hlive⟩

theorem stopUnits_dead (s : State) (q k : Nat) (h : k / 128 ∈ s.clustersOf q) : ((s.stopUnits q).groups.get {} k).live = false := by
  rw [stopUnits_groups, SMap.get_dropIf, if_pos (by simpa using h)]

theorem quiet_freeAll (s : State) : Quiet p s (s.freeAll p) :=
  .foldl (fun s i => Quiet.trans (t := s.setObj p i _) (.of_fields rfl rfl rfl rfl rfl rfl) (noted_checkQuota _).quiet) ..

theorem endContext_strs (s : State) (q : Nat) : (s.endContext q).strs = s.strs.dropIf (fun k => k / 4 == q) := rfl

theorem endContext_hasCtx (s : State) (q : Nat) : (s.endContext q).hasCtx q = false := by
  rw [State.hasCtx, bne_eq_false_iff_eq]
  exact congrArg Ctx.state (State.setCtx_ctxOf_same ..)

theorem quiet_endContext (s : State) : Quiet p s (s.endContext p) := by
  refine ⟨rfl, rfl, rfl, fun _ => endContext_hasCtx s p, fun k hk => ?_, fun _ => id⟩
  rw [endContext_strs]
  exact get_dropIf_of (P := fun x : Str => x.cmds = []) rfl hk _

theorem endContext_cmds (s : State) (q : Nat) {st : Nat} (h : st < 4) : ((s.endContext q).strs.get {} (q * 4 + st)).cmds = [] := by
  rw [endContext_strs, SMap.get_dropIf, if_pos (by rw [beq_iff_eq]; omega)]

/-- A domain that goes off loses no register of the partition block. -/
theorem lostKey_prt {d : Nat} (h : p < 4096 ∨ 256 ∣ p ∧ d ≠ 0 ∧ d ≠ 32) : lostKey d (regKey (home .prt p 0x10)) = false := by
  have hkind : keyKind (regKey (home .prt p 0x10)) = 14 + p / 4096 := by
    simp only [keyKind, regKey, home, Kind.code]
    omega
  have hinst : keyInst (regKey (home .prt p 0x10)) = p % 256 := by
    simp only [keyInst, regKey, home, Kind.code]
    omega
  simp only [lostKey, hkind, hinst, Kind.code]
  obtain h | ⟨h, h0, h32⟩ := h
  · rw [Nat.div_eq_of_lt h]
    simp
  · rw [Nat.mod_eq_zero_of_dvd h]
    simp [h0.symm, h32.symm]

theorem prtState_dropIf {d : Nat} (h : lostKey d (regKey (home .prt p 0x10)) = false) (ht : t.regs = s.regs.dropIf (lostKey d)) :
    t.prtState p = s.prtState p := by
  unfold State.prtState State.reg
  rw [ht, SMap.get_dropIf, h, if_neg Bool.false_ne_true]

theorem quiet_setDomain (s : State) (d : Nat) (on : Bool) : Quiet p s (s.setDomain d on) := by
  unfold State.setDomain
  split
  · exact .refl p s
  · exact .of_fields rfl rfl rfl rfl rfl rfl

theorem quiet_clusterOff (s : State) {c : Nat} (h : lostKey c (regKey (home .prt p 0x10)) = false) : Quiet p s (s.clusterOff c) := by
  unfold State.clusterOff
  extract_lets lo hi s₁
  split
  · exact .refl p s
  · have h₁ := quiet_setDomain (p := p) s c false
    refine ⟨h₁.layout, h₁.acts, (prtState_dropIf h rfl).trans h₁.prt, h₁.ctx, h₁.cmds, fun k hk => ?_⟩
    exact get_dropIf_of (P := fun x : Grp => x.live = false) rfl (h₁.live k hk) (fun k => k / 128 == c)

theorem quiet_regionOff (s : State) {r : Nat} (h : lostKey (32 + r) (regKey (home .prt p 0x10)) = false) : Quiet p s (s.regionOff r) := by
  unfold State.regionOff
  extract_lets s₁
  split
  · exact .refl p s
  · have h₁ := quiet_setDomain (p := p) s (32 + r) false
    exact ⟨h₁.layout, h₁.acts, (prtState_dropIf h rfl).trans h₁.prt, h₁.ctx, h₁.cmds, h₁.live⟩

/-- The number of a partition of some layout: it names one block of its kind, or leaves the blocks numbered 0 to partition 0. -/
theorem partOfRegion_small (s : State) {r : Nat} (hr : r < 4) : s.partOfRegion r < 4096 ∨ 256 ∣ s.partOfRegion r := by
  unfold State.partOfRegion State.nParts
  obtain h | h := Nat.lt_or_ge s.pkg.layout 13
  · have := Nat.pow_le_pow_right (n := 2) (by norm_num) (Nat.le_of_lt_succ h)
    exact .inl (by nlinarith [Nat.div_le_self (r * 2 ^ s.pkg.layout) 4, Nat.div_mul_le_self (r * 2 ^ s.pkg.layout) 4])
  · obtain ⟨k, hk⟩ := Nat.exists_eq_add_of_le h
    refine .inr ⟨r * 2 ^ (k + 3), ?_⟩
    rw [hk, show r * 2 ^ (13 + k) = 256 * (r * 2 ^ (k + 3)) * 4 by ring, Nat.mul_div_cancel _ (by norm_num)]

theorem quiet_contextPowerOff (s : State) (hp : p < 4096 ∨ 256 ∣ p) : Quiet p s (s.contextPowerOff p) := by
  have spared (d r : Nat) (hd : d = 32 + r ∨ d < 32 ∧ r = d / 8) (h : s.partOfRegion r = p) : lostKey d (regKey (home .prt p 0x10)) = false := by
    by_cases h4096 : p < 4096
    · exact lostKey_prt (.inl h4096)
    · have hr : r ≠ 0 := fun h0 => by
        rw [h0, State.partOfRegion, Nat.zero_mul, Nat.zero_div] at h
        omega
      exact lostKey_prt (.inr ⟨hp.resolve_left h4096, by omega, by omega⟩)
  refine (Quiet.foldl_mem _ _ fun t c hc => quiet_clusterOff t ?_).trans (.foldl_mem _ _ fun t r hr => quiet_regionOff t ?_)
  · simp only [State.clustersOf, List.mem_filter, List.mem_range, beq_iff_eq] at hc
    exact spared c (c / 8) (.inr ⟨hc.1, rfl⟩) hc.2
  · simp only [State.regionsOf, List.mem_filter, beq_iff_eq] at hr
    exact spared _ r (.inl rfl) hr.2

theorem quiet_qpFail (s : State) (n cause : Nat) : Quiet p s (s.qpFail n cause) := by
  unfold State.qpFail
  extract_lets q s₁ x s₂ r s₃ lose s₄
  have h₃ : Quiet p s₂ s₃ := by
    simp only [s₃]
    split
    · exact .of_fields rfl rfl rfl rfl rfl rfl
    · exact .refl p _
  have h₂ : Quiet p s s₂ := .of_fields rfl rfl rfl rfl rfl rfl
  have h₄ : Quiet p s₃ s₄ := .of_fields rfl rfl rfl rfl rfl rfl
  split
  · exact .refl p s
  · exact ((h₂.trans h₃).trans h₄).trans ((Noted.bump (regKey_ne_of_off (by simp [pages, home])) s₄ _).trans (noted_post ..)).quiet

theorem quiet_freeQps (s : State) (q : Nat) : Quiet p s (s.freeQps q) :=
  (Quiet.foldl (fun _ _ => quiet_qpFail ..) ..).trans (.of_fields rfl rfl rfl rfl rfl rfl)

/-- What is left of a partition's work as its scrub begins. -/
structure ScrubBegun (p : Nat) (s t : State) : Prop extends Quiet p s t where
  ended : t.hasCtx p = false
  noCmds : ∀ st, st < 4 → (t.str p st).cmds = []
  noGroups : ∀ u k, u ∈ s.unitsOf p → k < 32 → (t.grp u k).live = false

theorem beginScrub_begun (s : State) (hp : p < 4096 ∨ 256 ∣ p) : ScrubBegun p s (s.beginScrub p) := by
  unfold State.beginScrub
  extract_lets s₃ s₄
  have h₀ : Quiet p s (s.dropRequests p) := .of_fields rfl rfl rfl rfl rfl rfl
  have h₁ := (quiet_freeAll (p := p) ((s.dropRequests p).stopUnits p)).trans (quiet_endContext _)
  have h₂ : Quiet p _ s₃ := quiet_contextPowerOff _ hp
  have h₄ : Quiet p s₃ s₄ := (quiet_freeQps ..).trans (.of_fields rfl rfl rfl rfl rfl rfl)
  have h₅ := (h₂.trans h₄).trans (noted_progress (p := p) s₄ (n := 22 + 16 * p) (by omega) 2 6 0 0 (s₄.scrubBytes p)).quiet
  exact {
    toQuiet := ((h₀.trans (quiet_stopUnits ..)).trans h₁).trans h₅
    ended := h₅.ctx (endContext_hasCtx ..)
    noCmds := fun st hst => h₅.cmds _ (endContext_cmds _ p hst)
    noGroups := fun u k hu hk => (h₁.trans h₅).live _ (stopUnits_dead _ p _ (by
      simp only [State.unitsOf, State.clustersOf, List.mem_filter, List.mem_range, beq_iff_eq] at hu ⊢
      rw [show (u * 32 + k) / 128 = u / 4 by omega]
      exact ⟨by omega, hu.2⟩)) }

end

end Sys2Proof.Machine
end

section
/-! ### Partition actions -/

namespace Sys2Proof.Machine

section
variable {p : Nat} {s t u : State}

theorem prtState_setPrtState (s : State) (p st : Nat) : (s.setPrtState p st).prtState p = st % 8 := by
  rw [State.prtState, State.setPrtState, State.setReg_reg_same]
  exact bits_putBits_same ..

theorem find?_others (l : List (Nat × PartAct)) (p q : Nat) :
    (l.filter (fun e => e.1 != p)).find? (fun e => e.1 == q) = if q = p then none else l.find? (fun e => e.1 == q) := by
  induction l with
  | nil => simp
  | cons e l ih =>
    by_cases hp : e.1 = p <;> by_cases hq : e.1 = q <;> grind

theorem actOf_setAct (s : State) (p : Nat) (a : Option PartAct) (q : Nat) : (s.setAct p a).actOf q = if q = p then a else s.actOf q := by
  rw [State.actOf, State.setAct, List.find?_append, find?_others]
  split
  · rename_i h
    subst h
    cases a <;> simp
  · rename_i h
    cases a <;> simp [State.actOf, Ne.symm h]

theorem prtState_congr (h : t.regs = s.regs) (q : Nat) : t.prtState q = s.prtState q := by rw [State.prtState, State.reg, h]; rfl

theorem actOf_congr (h : t.dome.acts = s.dome.acts) (q : Nat) : t.actOf q = s.actOf q := by rw [State.actOf, h]; rfl

theorem unitsOf_congr (h : t.pkg.layout = s.pkg.layout) (q : Nat) : t.unitsOf q = s.unitsOf q := by
  simp only [State.unitsOf, State.partOfCluster, State.partOfRegion, State.nParts, h]

/-- The end of a drain: the scrub of the partition begins, and no other partition's action changes. -/
theorem drainEnd_spec (s : State) (a : PartAct) (hp : p < 4096) : ∃ u v, Quiet p s u ∧ ScrubBegun p (u.setPrtState p 2) v
    ∧ ∃ n, s.drainEnd p a = v.setAct p (some { a with scrubbing := true, aborted := n }) := by
  unfold State.drainEnd
  extract_lets n s₁ s₂ s₃
  have h₁ : Quiet p s s₁ := (quiet_abortCollectives ..).trans (quiet_abortSnaps ..)
  have h₂ : Quiet p s₁ s₂ := (quiet_faultPending ..).trans (quiet_abandon _ _ fun _ h => h)
  have h₃ : Quiet p s₂ (s₂.bump (home .prt p 0x110) n) := (Noted.bump (regKey_ne_of_off (by simp [home])) ..).quiet
  exact ⟨_, _, (h₁.trans h₂).trans h₃, beginScrub_begun _ (.inl hp), n, rfl⟩

theorem beginReset_spec (s : State) (answer : List DomReq) (cause : Nat) (hp : p < 4096 ∨ 256 ∣ p) : ∃ v : State, v.prtState p = 4 ∧ v.hasCtx p = false
    ∧ ∃ a : PartAct, s.beginReset p answer cause = v.setAct p (some a) ∧ a.kind = .reset ∧ a.scrubbing = true ∧ a.answer = answer := by
  unfold State.beginReset
  extract_lets s₁ s₂ s₃
  have h₂ : Quiet p s₁ s₂ := (quiet_abortCollectives ..).trans (quiet_abortSnaps ..)
  have h₃ : ScrubBegun p (s₂.abandon p fun x => x) s₃ := beginScrub_begun _ hp
  have h := (h₂.trans (quiet_abandon _ _ fun _ h => h)).trans h₃.toQuiet
  exact ⟨s₃, h.prt.trans (prtState_setPrtState ..), h₃.ended, _, rfl, rfl, rfl, rfl⟩

/-! ### The end of a scrub -/

/-- Every byte of a partition's HBM reads zero, every other byte of HBM as before. -/
def HbmScrubbed (p : Nat) (s t : State) : Prop := ∀ a, place a = .hbm → t.peek a = if s.ownsLpa p a then 0 else s.peek a

theorem ownsLpa_line (hl : s.pkg.layout < 3) {a : Nat} (ha : place a = .hbm) : s.ownsLpa p (a / 128 * 128) = s.ownsLpa p a := by
  have hline := (place_line_hbm a).2 ha
  have hdvd : ∃ n, (s.hbmRange p).1 = 128 * (p * n) ∧ (s.hbmRange p).2 = 128 * n := by
    unfold State.hbmRange State.nParts
    have hl : s.pkg.layout = 0 ∨ s.pkg.layout = 1 ∨ s.pkg.layout = 2 := by omega
    refine ⟨0x9000000000 / 128 / 2 ^ s.pkg.layout, ?_⟩
    obtain hl | hl | hl := hl <;> rw [hl] <;> constructor <;> norm_num <;> ring
  obtain ⟨n, hb, hn⟩ := hdvd
  simp only [State.ownsLpa, ha, hline, hb, hn]
  have h1 : 128 * (p * n) ≤ a / 128 * 128 ↔ 128 * (p * n) ≤ a := by omega
  have h2 : a / 128 * 128 < 128 * (p * n) + 128 * n ↔ a < 128 * (p * n) + 128 * n := by omega
  simp only [h1, h2]

theorem peek_hbm (s : State) {a : Nat} (ha : place a = .hbm) : s.peek a = if (s.line a).present && (s.line a).valid.testBit (a % 128)
    then ((s.line a).data[a % 128]?).getD 0 else s.memByte a := by
  simp only [State.peek, ha]

/-- What a scrub leaves: the lines and bytes of the partition are gone. -/
structure Scrubbed (p : Nat) (s t : State) : Prop where
  lines : t.lines = s.lines.dropIf (fun k => s.ownsLpa p (k * 128))
  mem : t.mem = s.mem.dropIf (s.ownsLpa p)

theorem ownsLpa_congr (hp : t.pkg = s.pkg) (hr : t.regs = s.regs) (hb : t.dome.boot = s.dome.boot) : t.ownsLpa p = s.ownsLpa p := by
  funext a
  simp only [State.ownsLpa, State.hbmRange, State.nParts, State.partOfCluster, State.partOfRegion, State.pcxRole, State.cxlPart, State.cfg,
    State.reg, hp, hr, hb]
  cases place a <;> rfl

/-- A state that holds the lines and bytes of another. -/
structure SameHbm (s t : State) : Prop where
  lines : t.lines = s.lines
  mem : t.mem = s.mem

theorem Noted.hbm (h : Noted p s t) : SameHbm s t := ⟨by rw [h.frame], by rw [h.frame]⟩

theorem SameHbm.trans (h : SameHbm s t) (h' : SameHbm t u) : SameHbm s u := ⟨h'.lines.trans h.lines, h'.mem.trans h.mem⟩

theorem scrubbed_spec (s : State) (p : Nat) : Scrubbed p s (s.scrubbed p) := by
  unfold State.scrubbed
  extract_lets s₁ ops s₂ s₃
  have ho : s₁.ownsLpa p = s.ownsLpa p := ownsLpa_congr rfl rfl rfl
  have hmem : s₂.mem = s.mem.dropIf (s₁.ownsLpa p) := rfl
  have h₂ : Scrubbed p s s₂ := ⟨rfl, hmem.trans (congrArg (fun f => SMap.dropIf f s.mem) ho)⟩
  have h₃ : Scrubbed p s s₃ := by
    refine State.foldl_keeps (Scrubbed p s) _ ?_ _ _ h₂
    intro t r h
    exact ⟨h.lines, h.mem⟩
  clear_value s₃
  have h := (noted_progress (p := p) s₃ (n := 22 + 16 * p) (by omega) 3 6 0 (s₃.scrubBytes p) (s₃.scrubBytes p)).hbm
  exact ⟨h.lines.trans h₃.lines, h.mem.trans h₃.mem⟩

theorem Scrubbed.hbm (h : Scrubbed p s t) (hl : s.pkg.layout < 3) : HbmScrubbed p s t := by
  intro a ha
  rw [peek_hbm _ ha, peek_hbm _ ha, State.line, State.line, State.memByte, State.memByte, h.lines, h.mem, SMap.get_dropIf, SMap.get_dropIf,
    ownsLpa_line hl ha]
  by_cases ho : s.ownsLpa p a = true
  · simp only [ho, if_true]
    rfl
  · simp only [ho, if_false, Bool.false_eq_true]

theorem HbmScrubbed.trans (h : HbmScrubbed p s t) (h' : SameHbm t u) : HbmScrubbed p s u := by
  intro a ha
  rw [← h a ha, peek_hbm _ ha, peek_hbm _ ha]
  simp only [State.line, State.memByte, h'.lines, h'.mem]
  rfl

theorem setDomain_frame (s : State) (d : Nat) (on : Bool) : s.setDomain d on = { s with pkg := (s.setDomain d on).pkg } := by
  unfold State.setDomain
  split <;> rfl

theorem setAct_hbm (s : State) (q : Nat) (a : Option PartAct) : SameHbm s (s.setAct q a) := by
  unfold State.setAct
  exact ⟨rfl, rfl⟩

theorem hbmDomains_frame (s : State) : s.hbmDomains = { s with pkg := s.hbmDomains.pkg } := by
  unfold State.hbmDomains
  refine State.foldl_keeps (fun t => t = { s with pkg := t.pkg }) _ ?_ _ _ rfl
  intro t st h
  extract_lets die off
  have h' := setDomain_frame t (36 + st) (!off)
  generalize t.setDomain (36 + st) (!off) = u at h' ⊢
  generalize u.pkg = x at h' ⊢
  rw [h', h]

theorem hbmDomains_prtState (s : State) (q : Nat) : s.hbmDomains.prtState q = s.prtState q := by rw [hbmDomains_frame]; rfl

theorem hbmDomains_dome (s : State) : s.hbmDomains.dome = s.dome := by rw [hbmDomains_frame]

theorem hbmDomains_hbm (s : State) : SameHbm s s.hbmDomains := ⟨by rw [hbmDomains_frame], by rw [hbmDomains_frame]⟩

theorem Noted.disabled (h : Noted p s t) : t.dome.disabled = s.dome.disabled := by rw [h.frame]

theorem Noted.acts (h : Noted p s t) (q : Nat) : t.actOf q = s.actOf q := actOf_congr h.quiet.acts q

/-- The end of a disable's scrub (R432 step 7). -/
theorem scrubEnd_disable (s : State) {a : PartAct} (hk : a.kind = .disable) (hl : s.pkg.layout < 3) :
    (s.scrubEnd p a).prtState p = 3 ∧ (s.scrubEnd p a).actOf p = none ∧ (s.scrubEnd p a).dome.disabled.contains p = true
      ∧ HbmScrubbed p s (s.scrubEnd p a) := by
  have hhbm := (scrubbed_spec s p).hbm hl
  unfold State.scrubEnd
  rw [hk]
  dsimp -zeta only
  generalize s.scrubbed p = s' at hhbm ⊢
  extract_lets s₀ s₁ s₂ d s₃
  have h₀ : s₀.actOf p = none := by rw [actOf_setAct, if_pos rfl]
  have h₁ : Noted p s₀ s₁ := (Noted.bump (regKey_ne_of_off (by simp [home])) ..).trans (noted_postEvery ..)
  have h₂ : s₂.prtState p = 3 := prtState_setPrtState ..
  have ha₃ : s₃.actOf p = s₁.actOf p := actOf_congr (by rfl) p
  have hb₃ : SameHbm s₁ s₃ := ⟨rfl, rfl⟩
  have hp₃ : s₃.prtState p = s₂.prtState p := prtState_congr (by rfl) p
  have hd₃ : s₃.dome.disabled.contains p = true := by simp [s₃]
  have hb₀ : SameHbm s' s₀ := setAct_hbm ..
  clear_value s₃ s₂ s₁ s₀
  have h₄ := noted_mbxAnswers (p := p) a.answer s₃.hbmDomains
  refine ⟨?_, ?_, ?_, ?_⟩
  · exact (((h₄.prt.trans (hbmDomains_prtState ..)).trans hp₃).trans h₂)
  · rw [h₄.acts, actOf_congr (congrArg DomSt.acts (hbmDomains_dome s₃)) p, ha₃, h₁.acts, h₀]
  · rw [h₄.disabled, hbmDomains_dome]
    exact hd₃
  · exact hhbm.trans ((((hb₀.trans h₁.hbm).trans hb₃).trans (hbmDomains_hbm s₃)).trans h₄.hbm)

/-- A partition with no snapshot, exchange or object of its own. -/
structure Emptied (p : Nat) (s t : State) : Prop extends SameHbm s t where
  acts : t.dome.acts = s.dome.acts
  snap : t.snapOf p = {}
  xch : t.xchOf p = {}
  objs : ∀ i, i < 65536 → (t.obj p i).live = false

theorem Emptied.of_fields (h : Emptied p s t) (hl : u.lines = t.lines) (hm : u.mem = t.mem) (ha : u.dome.acts = t.dome.acts)
    (hs : u.snaps = t.snaps) (hx : u.xch = t.xch) (ho : u.objs = t.objs) : Emptied p s u where
  lines := hl.trans h.lines
  mem := hm.trans h.mem
  acts := ha.trans h.acts
  snap := by rw [State.snapOf, hs]; exact h.snap
  xch := by rw [State.xchOf, hx]; exact h.xch
  objs i hi := by rw [State.obj, ho]; exact h.objs i hi

theorem Emptied.noted (h : Emptied p s t) (h' : Noted p t u) : Emptied p s u :=
  h.of_fields h'.hbm.lines h'.hbm.mem h'.quiet.acts (by rw [h'.frame]) (by rw [h'.frame]) (by rw [h'.frame])

theorem noted_newKeys (s : State) (r : Nat) : Noted p s ((List.range 4).foldl (fun s port => s.setReg (pages .eth p port 0x14) r) s) :=
  .foldl (fun s _ => .setReg (regKey_ne_of_off (by simp [pages, home])) s _) ..

theorem newKey_eq (s : State) (p : Nat) : ∃ r, s.newKey p
    = (List.range 4).foldl (fun s port => s.setReg (pages .eth p port 0x14) r) { s with free := s.free + 1 } := by
  unfold State.newKey State.draw
  dsimp only
  exact ⟨_, rfl⟩

theorem emptied_cleared (s : State) (p : Nat) (extents : SMap Extent) (rings : SMap Ring) (faultQ : SMap (List (Nat × FaultRec)))
    (mgmt : SMap (List (Nat × Nat))) (regs : SMap (Option Nat)) : Emptied p s { s with
      extents := extents, rings := rings, objs := s.objs.dropIf (fun k => k / 65536 == p), faultQ := faultQ, mgmt := mgmt,
      snaps := s.snaps.set {} p {}, xch := s.xch.set {} p {}, regs := regs } where
  lines := rfl
  mem := rfl
  acts := rfl
  snap := by simp only [State.snapOf, SMap.get_set_same]
  xch := by simp only [State.xchOf, SMap.get_set_same]
  objs i hi := by
    have hp : (p * 65536 + i) / 65536 = p := by omega
    simp only [State.obj, SMap.get_dropIf, hp, beq_self_eq_true, if_true]

/-- A partition is formed: it is READY (R436). -/
theorem form_spec (s : State) (p : Nat) : Emptied p s (s.form p) ∧ (s.form p).prtState p = 0 := by
  unfold State.form
  extract_lets ext table s₁ s₂ s₃ s₄ r c s' d s₅
  have h₁ : Emptied p s s₁ := emptied_cleared ..
  clear_value s₁
  have h₂ : Emptied p s s₂ := by
    refine State.foldl_keeps (Emptied p s) _ ?_ _ _ h₁
    intro t r h
    exact h.of_fields rfl rfl rfl rfl rfl rfl
  have h₃ : Emptied p s s₃ := by
    refine State.foldl_keeps (Emptied p s) _ ?_ _ _ h₂
    intro t r h
    exact h.of_fields rfl rfl rfl rfl rfl rfl
  clear_value s₂ s₃
  have hq := noted_checkQuota (p := p) (s₃.setPrtState p 0)
  have h₄ : Emptied p s s₄ := Emptied.noted (t := s₃.setPrtState p 0) (h₃.of_fields rfl rfl rfl rfl rfl rfl) hq
  have hp₄ : s₄.prtState p = 0 := hq.prt.trans (prtState_setPrtState ..)
  clear_value s₄
  have h₅ : Emptied p s s₅ ∧ s₅.prtState p = 0 := by
    simp only [s₅]
    split
    · exact ⟨h₄, hp₄⟩
    · exact ⟨h₄.of_fields rfl rfl rfl rfl rfl rfl, hp₄⟩
  clear_value s₅
  obtain ⟨k, hk⟩ := newKey_eq s₅ p
  rw [hk]
  have h₆ := (noted_newKeys (p := p) { s₅ with free := s₅.free + 1 } k).trans (noted_post _ p 0x0204 0 0 0 p (bits (State.faultBits r) 0 64) false)
  exact ⟨Emptied.noted (t := { s₅ with free := s₅.free + 1 }) (h₅.1.of_fields rfl rfl rfl rfl rfl rfl) h₆, h₆.prt.trans h₅.2⟩

/-- The end of a reset's scrub (R436 step 5). -/
theorem scrubEnd_reset (s : State) {a : PartAct} (hk : a.kind = .reset) (hd : a.thenDisable = []) (hl : s.pkg.layout < 3) :
    ∃ t, Emptied p t (s.scrubEnd p a) ∧ (s.scrubEnd p a).prtState p = 0 ∧ t.actOf p = none ∧ HbmScrubbed p s t := by
  have hhbm := (scrubbed_spec s p).hbm hl
  unfold State.scrubEnd
  rw [hk, hd]
  dsimp -zeta only
  generalize s.scrubbed p = s' at hhbm ⊢
  extract_lets s₀ s₁ s₂
  obtain ⟨hf, hp⟩ := form_spec s₀ p
  have h := (noted_postOthers (p := p) (s₀.form p) p 0x0204 0 p 0).trans (noted_mbxAnswers a.answer _)
  have h₀ : s₀.actOf p = none := by rw [actOf_setAct, if_pos rfl]
  refine ⟨s₀, hf.noted h, h.prt.trans hp, h₀, hhbm.trans (setAct_hbm ..)⟩

end

/-! ### A package warm reset -/

/-- What a state holds that no package reset touches. -/
structure Surviving (s t : State) : Prop where
  survives : Survives s t
  mem : t.mem = s.mem

theorem Surviving.trans {s t u : State} (h : Surviving s t) (h' : Surviving t u) : Surviving s u := by
  obtain ⟨⟨hf, hb, hu, hp⟩, hm⟩ := h
  obtain ⟨⟨hf', hb', hu', hp'⟩, hm'⟩ := h'
  exact ⟨⟨hf'.trans hf, hb'.trans hb, hu'.trans hu, hp'.trans hp⟩, hm'.trans hm⟩

theorem Surviving.refl (s : State) : Surviving s s := ⟨⟨rfl, rfl, rfl, rfl⟩, rfl⟩

theorem Surviving.foldl {α : Type} {f : State → α → State} (hf : ∀ s a, Surviving s (f s a)) (l : List α) (s : State) : Surviving s (l.foldl f s) :=
  State.foldl_keeps (Surviving s) f (fun t a h => h.trans (hf t a)) l s (.refl s)

theorem Noted.surviving {p : Nat} {s t : State} (h : Noted p s t) : Surviving s t := by
  constructor
  · refine ⟨?_, ?_, ?_, ?_⟩ <;> rw [h.frame]
  · exact h.hbm.mem

theorem surviving_endSelfTest (s : State) : Surviving s s.endSelfTest := by
  unfold State.endSelfTest State.draw
  split
  · exact Surviving.trans (t := { s with free := s.free + 1 }) ⟨⟨rfl, rfl, rfl, rfl⟩, rfl⟩
      (noted_progress (p := 0) _ (n := 1) (by norm_num) ..).surviving
  · exact .refl s

theorem surviving_setReg (s : State) (a : RegAddr) (v : Nat) : Surviving s (s.setReg a v) := ⟨⟨rfl, rfl, rfl, rfl⟩, rfl⟩

theorem surviving_sendControl (s : State) (g : Nat) (slots : List Nat) : Surviving s (s.sendControl g slots) := by
  unfold State.sendControl
  obtain ⟨cvc, cpool, n, x⟩ := State.creditField (s.port g)
  exact ⟨⟨rfl, rfl, rfl, rfl⟩, rfl⟩

theorem surviving_keepFault (s : State) (p : Nat) : Surviving s (s.keepFault p) := by
  unfold State.keepFault
  split
  · exact ⟨⟨rfl, rfl, rfl, rfl⟩, rfl⟩
  · exact .refl s

/-- Every switched domain is off and nothing of the package's state is left but what no reset touches. -/
structure Down (s t : State) : Prop where
  cleared : Cleared s t
  survives : Survives s t
  domains : t.pkg.domains = 0

theorem down_powerLost (s : State) : Down s s.powerLost := by
  unfold State.powerLost
  extract_lets s₁ status s₂
  have h₁ : Surviving s s₁ := .foldl surviving_keepFault ..
  have h₂ : Surviving s₁ s₂ := surviving_setReg ..
  obtain ⟨hs, hm⟩ := h₁.trans h₂
  clear_value s₂
  refine ⟨⟨⟨rfl, rfl, rfl, rfl, rfl, rfl, rfl, rfl, rfl, rfl, fun a => ?_⟩, rfl⟩, hs, rfl⟩
  dsimp only
  rw [SMap.get_dropIf, hm]
  cases inCxl a <;> rfl

/-- Only registers, outputs and the Dome have changed, and not the fuses. -/
structure Rewired (s t : State) : Prop where
  frame : t = { s with regs := t.regs, out := t.out, dome := t.dome }
  fuses : t.dome.fuses = s.dome.fuses

section
variable {s t u : State}

theorem Rewired.refl (s : State) : Rewired s s := ⟨rfl, rfl⟩

theorem Rewired.trans (h : Rewired s t) (h' : Rewired t u) : Rewired s u where
  frame := by
    have hf := h'.frame
    generalize u.regs = r, u.out = o, u.dome = d at hf ⊢
    rw [h.frame] at hf
    exact hf
  fuses := h'.fuses.trans h.fuses

theorem Rewired.foldl {α : Type} {f : State → α → State} (hf : ∀ s a, Rewired s (f s a)) (l : List α) (s : State) : Rewired s (l.foldl f s) :=
  State.foldl_keeps (Rewired s) f (fun t a h => h.trans (hf t a)) l s (.refl s)

theorem Down.rewired (h : Down s t) (h' : Rewired t u) : Down s u := by
  obtain ⟨hflash, hbol, hfuses, hpending⟩ := h.survives
  have hf := h'.fuses.trans hfuses
  have hframe := h'.frame
  generalize u.regs = r, u.out = o, u.dome = d at hframe hf
  subst hframe
  exact ⟨h.cleared, ⟨hflash, hbol, hf, hpending⟩, h.domains⟩

theorem rewired_boot (s : State) (b : Boot) : Rewired s { s with dome := { s.dome with boot := b } } := ⟨rfl, rfl⟩

theorem rewired_setReg (s : State) (a : RegAddr) (v : Nat) : Rewired s (s.setReg a v) := ⟨rfl, rfl⟩

theorem rewired_bump (s : State) (a : RegAddr) (n : Nat) : Rewired s (s.bump a n) := by
  unfold State.bump
  split
  · exact .refl s
  · exact rewired_setReg ..

theorem rewired_progress (s : State) (n state operation code done total : Nat) : Rewired s (s.progress n state operation code done total) :=
  (((rewired_setReg ..).trans (rewired_setReg ..)).trans (rewired_setReg ..)).trans (rewired_setReg ..)

theorem rewired_disableRails (s : State) (keep : List Nat) : Rewired s (s.disableRails keep) := by
  refine .foldl (fun t a => ?_) _ _
  exact ⟨rfl, rfl⟩

theorem rewired_holdPerst (s : State) : Rewired s s.holdPerst :=
  .foldl (fun s n => .foldl (fun s l => by
    split
    · exact ⟨rfl, rfl⟩
    · exact .refl s) ..) ..

theorem rewired_bumpDom (s : State) (off n : Nat) : Rewired s (s.bumpDom off n) := .foldl (fun _ _ => rewired_bump ..) ..

theorem bumpDom_reg (s : State) {off : Nat} (n : Nat) {a : RegAddr} (h : off % 2 ^ 24 ≠ a.off % 2 ^ 24) : (s.bumpDom off n).reg a = s.reg a :=
  State.foldl_keeps (fun t => t.reg a = s.reg a) _ (fun _ _ ht => (State.bump_reg_ne _ _ _ _ (regKey_ne_of_off h)).trans ht) _ _ rfl

theorem stageProgress_status (s : State) (state done : Nat) : (s.stageProgress state done).reg (home .dom 0 0x10) = s.reg (home .dom 0 0x10) := by
  have h (off : Nat) (ho : off < 2 ^ 24) : regKey (home .prog 0 off) ≠ regKey (home .dom 0 0x10) := by
    simp only [regKey, home, Kind.code]
    omega
  unfold State.stageProgress State.progress
  rw [State.setReg_reg_ne _ _ _ _ (h _ (by norm_num)), State.setReg_reg_ne _ _ _ _ (h _ (by norm_num)),
    State.setReg_reg_ne _ _ _ _ (h _ (by norm_num)), State.setReg_reg_ne _ _ _ _ (h _ (by norm_num))]

theorem reg_congr (h : t.regs = s.regs) (a : RegAddr) : t.reg a = s.reg a := by rw [State.reg, h]; rfl

/-- Start-up is in stage 1; DOM_STATUS is as before (R468). -/
theorem beginStart_spec (s : State) : Rewired s s.beginStart ∧ s.beginStart.dome.boot.state = 0 ∧ s.beginStart.dome.boot.stage = 1
    ∧ s.beginStart.reg (home .dom 0 0x10) = s.reg (home .dom 0 0x10) := by
  unfold State.beginStart
  extract_lets b s₁ d s₂
  have h₁ : Rewired s s₁ := rewired_bumpDom ..
  have hr₁ : s₁.reg (home .dom 0 0x10) = s.reg (home .dom 0 0x10) := bumpDom_reg s 1 (by norm_num [home])
  clear_value s₁
  have h₂ : Rewired s₁ s₂ := rewired_boot ..
  have hr₂ : s₂.reg (home .dom 0 0x10) = s₁.reg (home .dom 0 0x10) := reg_congr (by rfl) _
  have hb₂ : s₂.dome.boot.state = 0 ∧ s₂.dome.boot.stage = 1 := ⟨rfl, rfl⟩
  clear_value s₂
  split
  · exact ⟨h₁.trans h₂, hb₂.1, hb₂.2, hr₂.trans hr₁⟩
  · refine ⟨(h₁.trans h₂).trans (rewired_progress ..), hb₂.1, hb₂.2, (stageProgress_status ..).trans (hr₂.trans hr₁)⟩

theorem Down.surviving (h : Down t u) (h' : Surviving s t) : Down s u := by
  obtain ⟨⟨⟨hg, hu, hc, hst, ho, he, hq, hl, hsl, hh, hm⟩, hports⟩, ⟨hf, hb, hfu, hp⟩, hd⟩ := h
  obtain ⟨⟨hf', hb', hfu', hp'⟩, hm'⟩ := h'
  exact ⟨⟨⟨hg, hu, hc, hst, ho, he, hq, hl, hsl, hh, by rwa [← hm']⟩, hports⟩, ⟨hf.trans hf', hb.trans hb', hfu.trans hfu', hp.trans hp'⟩, hd⟩

theorem rewired_resetPower (s : State) : Rewired s.endSelfTest.powerLost s.resetPower := by
  unfold State.resetPower
  extract_lets s₁ d
  have h₁ : Rewired s.endSelfTest.powerLost s₁ := rewired_disableRails ..
  clear_value s₁
  have h₂ : Rewired s₁ { s₁ with dome := { s₁.dome with challenge := none, debug := 0 } } := ⟨rfl, rfl⟩
  exact h₁.trans h₂

/-- A package warm reset (R435, R462, R503). -/
theorem warmReset_spec (s : State) {cause : Nat} (hc : cause < 8) : WarmReset s (s.warmReset cause) cause := by
  unfold State.warmReset
  extract_lets s₁
  have h₁ : Surviving s s₁ := by
    simp only [s₁]
    split
    · exact .refl s
    · refine .foldl (fun t g => ?_) _ _
      split
      · exact surviving_sendControl ..
      · exact .refl t
  clear_value s₁
  have h₂ : Down s s₁.resetPower := ((down_powerLost s₁.endSelfTest).surviving (h₁.trans (surviving_endSelfTest s₁))).rewired (rewired_resetPower s₁)
  have h₃ : Rewired s₁.resetPower (s₁.resetPower.holdPerst.setLastReset cause) := (rewired_holdPerst _).trans (rewired_setReg ..)
  obtain ⟨h₄, hstate, hstage, hreg⟩ := beginStart_spec (s₁.resetPower.holdPerst.setLastReset cause)
  obtain ⟨hcleared, hsurvives, hdomains⟩ := h₂.rewired (h₃.trans h₄)
  refine ⟨hcleared, hsurvives, hdomains, hstate, hstage, ?_⟩
  rw [hreg, State.setLastReset, State.setReg_reg_same, bits_putBits_same]
  exact Nat.mod_eq_of_lt hc

/-! ### The obligation -/

theorem exec_partitionDrainEnd (p : Fin 4) (s : State) : exec (.partitionDrainEnd p) s = execPartitionDrainEnd p s := rfl

theorem exec_partitionScrubEnd (p : Fin 4) (s : State) : exec (.partitionScrubEnd p) s = execPartitionScrubEnd p s := rfl

theorem exec_regionUncorrectableError (r : Fin 4) (s : State) : exec (.regionUncorrectableError r) s = execRegionUncorrectableError r s := rfl

theorem exec_drainEnd {s : State} {p : Fin 4} {a : PartAct} (h : s.actOf p.val = some a) (hs : a.scrubbing = false) :
    exec (.partitionDrainEnd p) s = .next (if a.began + s.reg (home .prt p.val 0x14) * 1000000 ≤ s.pkg.time
      || (List.range 4).all (fun st => (s.str p.val st).cmds.isEmpty) then s.drainEnd p.val a else s) := by
  rw [exec_partitionDrainEnd, execPartitionDrainEnd, h]
  dsimp only
  rw [hs, if_neg Bool.false_ne_true]

theorem exec_scrubEnd {s : State} {p : Fin 4} {a : PartAct} (h : s.actOf p.val = some a) (hs : a.scrubbing = true) :
    exec (.partitionScrubEnd p) s = .next (s.scrubEnd p.val a) := by
  rw [exec_partitionScrubEnd, execPartitionScrubEnd, h]
  dsimp only
  rw [hs, if_pos rfl]

theorem exec_regionError {s : State} {r : Fin 4} (hon : s.domOn (32 + r.val) = true) (ha : s.actOf (s.partOfRegion r.val) = none) :
    exec (.regionUncorrectableError r) s = .next (s.beginReset (s.partOfRegion r.val) [] 1) := by
  rw [exec_regionUncorrectableError, execRegionUncorrectableError, if_pos hon, State.resetPartition, ha]

end

/-- Settles O45. A step of the drain or of the scrub is quiet: it leaves the partition's state and every action under way alone, and gives the
partition no work; the states and actions that the end of a drain or of a scrub sets are then read off. -/
theorem partitionActions : Obligations.PartitionActions := by
  unfold Obligations.PartitionActions
  refine ⟨fun s p a ha hs ht => ?_, fun s p a ha hs ht hc => ?_, fun s p a ha hs hk hl => ?_, fun s p a ha hs hk hd hl => ?_, fun s r hon ha => ?_,
    fun s => ⟨fun hb => ?_, fun hb => ?_⟩⟩
  · have hp := p.isLt
    obtain ⟨u, v, hu, hv, n, hd⟩ := drainEnd_spec s a (p := p.val) (by omega)
    have hlayout : (u.setPrtState p.val 2).pkg.layout = s.pkg.layout := hu.layout
    refine ⟨_, exec_drainEnd ha hs, ?_⟩
    rw [if_pos (by simp [ht]), hd]
    refine ⟨hv.prt.trans (prtState_setPrtState ..), ⟨n, by rw [actOf_setAct, if_pos rfl]⟩, hv.ended, hv.noCmds, fun w k hw hk => ?_, fun q hq => ?_⟩
    · exact hv.noGroups w k (by rwa [unitsOf_congr hlayout]) hk
    · rw [actOf_setAct, if_neg hq, actOf_congr (hv.acts.trans hu.acts)]
  · obtain ⟨st, hst, hne⟩ := hc
    refine ⟨_, exec_drainEnd ha hs, if_neg ?_⟩
    rw [Bool.or_eq_true, decide_eq_true_iff, List.all_eq_true]
    rintro (h | h)
    · omega
    · exact hne (List.isEmpty_iff.1 (h st (List.mem_range.2 hst)))
  · exact ⟨_, exec_scrubEnd ha hs, scrubEnd_disable s hk hl⟩
  · obtain ⟨t, he, hprt, hact, hhbm⟩ := scrubEnd_reset (p := p.val) s hk hd hl
    exact ⟨_, exec_scrubEnd ha hs, hprt, (actOf_congr he.acts _).trans hact, he.snap, he.xch, he.objs, hhbm.trans he.toSameHbm⟩
  · obtain ⟨v, hprt, hctx, a, hr, hkind, hscrub, hans⟩ := beginReset_spec s [] 1 (partOfRegion_small s r.isLt)
    refine ⟨_, exec_regionError hon ha, ?_⟩
    rw [hr]
    exact ⟨hprt, hctx, a, by rw [actOf_setAct, if_pos rfl], hkind, hscrub, hans⟩
  · exact ⟨s, congrArg Host.Outcome.next (if_pos hb), rfl⟩
  · exact ⟨s.warmReset 2, congrArg Host.Outcome.next (if_neg hb), warmReset_spec s (by norm_num)⟩

end Sys2Proof.Machine
end

section
/-! ### Griwald ports: what a port that stops leaves alone -/

namespace Sys2Proof.Machine

/-- A state after work on the links: no memory, group, counter or package state has changed, and no flit waits for replay where none did. -/
structure LinkWork (s t : State) : Prop where
  mem : t.mem = s.mem
  groups : t.groups = s.groups
  ctrs : t.ctrs = s.ctrs
  pkg : t.pkg = s.pkg
  boot : t.dome.boot = s.dome.boot
  replay : ∀ h, (s.port h).replay = [] → (t.port h).replay = []

section
variable {s t u : State}

theorem LinkWork.refl (s : State) : LinkWork s s := ⟨rfl, rfl, rfl, rfl, rfl, fun _ => id⟩

theorem LinkWork.trans (h : LinkWork s t) (h' : LinkWork t u) : LinkWork s u where
  mem := h'.mem.trans h.mem
  groups := h'.groups.trans h.groups
  ctrs := h'.ctrs.trans h.ctrs
  pkg := h'.pkg.trans h.pkg
  boot := h'.boot.trans h.boot
  replay g := h'.replay g ∘ h.replay g

theorem LinkWork.foldl {α : Type} {f : State → α → State} (hf : ∀ s a, LinkWork s (f s a)) (l : List α) (s : State) : LinkWork s (l.foldl f s) :=
  State.foldl_keeps (LinkWork s) f (fun t a h => h.trans (hf t a)) l s (.refl s)

theorem Noted.ports {p : Nat} (h : Noted p s t) : t.ports = s.ports := by rw [h.frame]

theorem port_congr (h : t.ports = s.ports) (g : Nat) : t.port g = s.port g := by rw [State.port, h]; rfl

theorem Noted.linkWork {p : Nat} (h : Noted p s t) : LinkWork s t where
  mem := by rw [h.frame]
  groups := by rw [h.frame]
  ctrs := by rw [h.frame]
  pkg := by rw [h.frame]
  boot := by rw [h.frame]
  replay g hg := by rw [port_congr h.ports]; exact hg

@[simp] theorem setPort_port_same (s : State) (g : Nat) (x : Glp) : (s.setPort g x).port g = x := SMap.get_set_same ..

theorem setPort_port (s : State) (g : Nat) (x : Glp) (h : Nat) : (s.setPort g x).port h = if g = h then x else s.port h := SMap.get_set ..

theorem linkWork_setPort (s : State) (g : Nat) (x : Glp) (hx : (s.port g).replay = [] → x.replay = []) : LinkWork s (s.setPort g x) where
  mem := rfl
  groups := rfl
  ctrs := rfl
  pkg := rfl
  boot := rfl
  replay h hr := by
    rw [setPort_port]
    split
    · rename_i he
      exact hx (by rw [he]; exact hr)
    · exact hr

/-! ### A port goes DOWN -/

theorem noted_bumpPort (s : State) (g : Nat) {off : Nat} (h : off % 2 ^ 24 ≠ 16) (n : Nat) : Noted 0 s (s.bumpPort g off n) :=
  .bump (regKey_ne_of_off h) ..

theorem noted_postAll (s : State) (type code d0 d1 : Nat) : Noted 0 s (s.postAll type code d0 d1) := .foldl (fun _ _ => noted_post ..) ..

theorem linkWork_release (s : State) (h : Option Held) : LinkWork s (s.release h) := by
  cases h with
  | none => exact .refl s
  | some h => exact linkWork_setPort _ _ _ id

theorem linkWork_enqueue (s : State) (g vc : Nat) (t : Txn) (fwd : Bool) (held : Option Held) : LinkWork s (s.enqueue g vc t fwd held) :=
  linkWork_setPort _ _ _ id

theorem linkWork_inTxn (s : State) (l : List InTxn) : LinkWork s { s with inTxn := l } := ⟨rfl, rfl, rfl, rfl, rfl, fun _ => id⟩

theorem linkWork_reqFailed (s : State) (g : Nat) : LinkWork s (s.reqFailed g) := linkWork_setPort _ _ _ id

theorem linkWork_refuseLocal (s : State) (g : Nat) (t : Txn) (code : Nat) : LinkWork s (s.refuseLocal g t code) :=
  ((noted_bumpPort s g (by norm_num) 1).linkWork.trans (linkWork_reqFailed ..)).trans (linkWork_inTxn ..)

theorem linkWork_respond (s : State) (t : Txn) (op code : Nat) (data : List Byte) : LinkWork s (s.respond t op code data) := by
  unfold State.respond
  extract_lets r nak s₁
  have hnak (s : State) (g : Option Nat) : LinkWork s (nak s g) := by
    cases g with
    | none => exact .refl s
    | some g =>
      simp only [nak]
      split
      · exact (noted_bumpPort s g (by norm_num) 1).linkWork
      · exact .refl s
  have h₁ : LinkWork s s₁ := hnak s none
  split
  · exact h₁.trans (linkWork_inTxn ..)
  · split
    · exact (h₁.trans (hnak s₁ (if (none : Option Nat).isNone then some _ else none))).trans (linkWork_enqueue ..)
    · exact h₁

theorem linkWork_dropEntry (s : State) (g : Nat) (e : TxEntry) : LinkWork s (s.dropEntry g e) := by
  unfold State.dropEntry
  extract_lets t s₁
  have h₁ : LinkWork s s₁ := linkWork_release ..
  split
  · exact h₁
  · split
    · exact (h₁.trans (linkWork_reqFailed ..)).trans (linkWork_respond ..)
    · exact h₁.trans (linkWork_refuseLocal ..)

theorem linkWork_cutForwards (s : State) (g : Nat) : LinkWork s (s.cutForwards g) := by
  unfold State.cutForwards State.draw
  refine .foldl (fun t h => ?_) _ _
  dsimp only
  split
  · exact .refl t
  · refine LinkWork.trans ?_ (.foldl (fun _ _ => linkWork_dropEntry ..) _ _)
    exact LinkWork.trans (t := { t with free := t.free + 1 }) ⟨rfl, rfl, rfl, rfl, rfl, fun _ => id⟩ (linkWork_setPort _ _ _ id)

theorem failPort_spec (s : State) (g : Nat) : LinkWork s (s.failPort g) ∧ ((s.failPort g).port g).replay = [] := by
  unfold State.failPort
  extract_lets x s₁
  have h₁ : LinkWork s s₁ := linkWork_setPort _ _ _ fun _ => rfl
  have hr₁ : (s₁.port g).replay = [] := by simp only [s₁, setPort_port_same]
  have h₂ : LinkWork s₁ _ := (LinkWork.foldl (f := fun s e => s.dropEntry g e) (fun _ _ => linkWork_dropEntry ..) ((x.txq.map Prod.snd).flatten) s₁).trans
    (linkWork_cutForwards _ g)
  exact ⟨h₁.trans h₂, h₂.replay g hr₁⟩

/-- Credits are returned out of the slots freed; nothing else of the port changes. -/
theorem creditField_port (x : Glp) : (State.creditField x).2.2.2 = { x with freed := (State.creditField x).2.2.2.freed } := by
  unfold State.creditField
  split <;> rfl

theorem linkWork_emit (s : State) (o : Output) : LinkWork s (s.emit o) := ⟨rfl, rfl, rfl, rfl, rfl, fun _ => id⟩

theorem linkWork_sendControl (s : State) (g : Nat) (slots : List Nat) : LinkWork s (s.sendControl g slots) := by
  have hx := creditField_port (s.port g)
  unfold State.sendControl
  generalize State.creditField (s.port g) = c at hx ⊢
  refine (linkWork_setPort s g _ fun hr => ?_).trans (linkWork_emit ..)
  show c.2.2.2.replay = []
  rw [hx]
  exact hr

theorem setDomain_pkg_congr (h : t.pkg = s.pkg) (d : Nat) (on : Bool) : (t.setDomain d on).pkg = (s.setDomain d on).pkg := by
  unfold State.setDomain State.domOn
  rw [h]
  split
  · exact h
  · rfl

theorem setDomain_keeps (s : State) (d : Nat) (on : Bool) : (s.setDomain d on).ports = s.ports ∧ (s.setDomain d on).mem = s.mem
    ∧ (s.setDomain d on).groups = s.groups ∧ (s.setDomain d on).ctrs = s.ctrs := by
  refine ⟨?_, ?_, ?_, ?_⟩ <;> rw [setDomain_frame]

/-- A port goes DOWN (R366); with cause FAULT its domain goes off, once start-up has ended (R482). -/
theorem portDown_spec (s : State) (g cause : Nat) : WentDown s (s.portDown g cause) g cause
    ∧ (s.portDown g cause).pkg = if cause = 11 ∧ s.dome.boot.state = 1 then (s.setDomain (48 + g) false).pkg else s.pkg := by
  unfold State.portDown
  extract_lets s₁ s₂ x s₃ s₄
  have h₁ : LinkWork s s₁ := by
    simp only [s₁]
    split
    · exact .refl s
    · split
      · exact linkWork_sendControl ..
      · exact .refl s
  obtain ⟨h₂, hr⟩ : LinkWork s₁ s₂ ∧ (s₂.port g).replay = [] := failPort_spec s₁ g
  clear_value s₁ s₂
  have hx : x.replay = [] := hr
  have h₃ : LinkWork s s₃ := (h₁.trans h₂).trans (linkWork_setPort _ _ _ id)
  have hp₃ : s₃.port g = { x with
      state := 4, cause := cause, lanes := 0, peerValid := false, ctlIn := [], ctlOut := []
      retry := false, failedReqs := 0, ackOk := false, downAfter := false } := setPort_port_same ..
  have h₄ : s₄ = if cause = 11 ∧ s.dome.boot.state = 1 then s₃.setDomain (48 + g) false else s₃ := by simp only [s₄, h₃.boot]
  have hk₄ : s₄.ports = s₃.ports ∧ s₄.mem = s₃.mem ∧ s₄.groups = s₃.groups ∧ s₄.ctrs = s₃.ctrs := by
    rw [h₄]
    split
    · exact setDomain_keeps ..
    · exact ⟨rfl, rfl, rfl, rfl⟩
  have hpkg₄ : s₄.pkg = if cause = 11 ∧ s.dome.boot.state = 1 then (s.setDomain (48 + g) false).pkg else s.pkg := by
    rw [h₄]
    split
    · exact setDomain_pkg_congr h₃.pkg ..
    · exact h₃.pkg
  clear_value s₄ s₃
  have h₅ := (noted_bumpPort s₄ g (off := 0x160) (by norm_num) 1).trans (noted_postAll _ 0x0102 0x0701 (g + cause * 256) x.failedReqs)
  obtain ⟨hports, hmem, hgroups, hctrs⟩ := hk₄
  refine ⟨?_, h₅.linkWork.pkg.trans hpkg₄⟩
  unfold WentDown
  rw [port_congr (h₅.ports.trans hports), hp₃]
  exact ⟨rfl, rfl, rfl, rfl, rfl, rfl, hx, (h₅.linkWork.mem.trans hmem).trans h₃.mem, (h₅.linkWork.groups.trans hgroups).trans h₃.groups,
    (h₅.linkWork.ctrs.trans hctrs).trans h₃.ctrs⟩

/-! ### A port comes UP -/

/-- An entry of channel 0 that the firmware has just put there. -/
def TxEntry.fresh (e : TxEntry) : Prop := e.begun = false ∧ e.fwd = false ∧ e.held = none

/-- A port to whose channel 0 an entry is added. -/
def Glp.tell (x : Glp) (e : TxEntry) : Glp := { x with txq := x.txq.modify [] 0 (· ++ [e]) }

theorem tellFeeds_spec (s : State) (g : Nat) : ∃ e : TxEntry, e.fresh
    ∧ s.tellFeeds g = { s with ports := (s.tellFeeds g).ports, free := (s.tellFeeds g).free }
    ∧ ∀ h, (s.tellFeeds g).port h = if h = g ∧ (s.port h).state = 3 then (s.port h).tell e else s.port h := by
  unfold State.tellFeeds State.draw
  dsimp only
  by_cases h3 : (s.port g).state = 3
  · rw [if_neg (not_not.2 h3)]
    refine ⟨{ slots := [3 + 16 * bits (Config.freeValue s.free) 0 124], begun := false, fwd := false, resp := false, part := 0, held := none },
      ⟨rfl, rfl, rfl⟩, rfl, fun h => ?_⟩
    rw [setPort_port]
    by_cases he : g = h
    · subst he
      rw [if_pos rfl, if_pos ⟨rfl, h3⟩]
      rfl
    · rw [if_neg he, if_neg fun hh => he hh.1.symm]
      rfl
  · rw [if_pos h3]
    refine ⟨{ slots := [], begun := false, fwd := false, resp := false, part := 0, held := none }, ⟨rfl, rfl, rfl⟩, rfl, fun h => ?_⟩
    rw [if_neg]
    rintro ⟨rfl, h⟩
    exact h3 h

theorem tellFeeds_foldl {l : List Nat} (hl : l.Nodup) (s : State) : ∃ e : Nat → TxEntry, (∀ h, (e h).fresh)
    ∧ l.foldl State.tellFeeds s = { s with ports := (l.foldl State.tellFeeds s).ports, free := (l.foldl State.tellFeeds s).free }
    ∧ ∀ h, (l.foldl State.tellFeeds s).port h = if h ∈ l ∧ (s.port h).state = 3 then (s.port h).tell (e h) else s.port h := by
  induction l generalizing s with
  | nil => exact ⟨fun _ => { slots := [], begun := false, fwd := false, resp := false, part := 0, held := none }, fun _ => ⟨rfl, rfl, rfl⟩, rfl,
      fun h => by simp⟩
  | cons g l ih =>
    obtain ⟨hg, hl⟩ := List.nodup_cons.1 hl
    obtain ⟨e, he, hf, hp⟩ := tellFeeds_spec s g
    obtain ⟨e', he', hf', hp'⟩ := ih hl (s.tellFeeds g)
    rw [List.foldl_cons]
    generalize s.tellFeeds g = t at *
    generalize l.foldl State.tellFeeds t = u at *
    refine ⟨fun h => if h = g then e else e' h, fun h => ?_, ?_, fun h => ?_⟩
    · dsimp only
      split
      exacts [he, he' h]
    · generalize u.ports = a, u.free = b at hf' ⊢
      rw [hf] at hf'
      exact hf'
    · rw [hp' h, hp h]
      by_cases hh : h = g
      · subst hh
        simp [hg]
      · simp [hh]

end

end Sys2Proof.Machine
end

section
/-! ### Link messages and the life of a Griwald port -/

namespace Sys2Proof.Machine

section
variable {s t u : State}

/-- A port as its link starts afresh. -/
def Glp.up (x : Glp) : Glp :=
  { x with state := 3, rxSeq := 0, txSeq := 0, replay := [], unacked := 0, retry := false, credits := State.fullCredits,
           freed := [], txq := [], rxPart := [], rxFwd := [], ackOk := false, peerValid := true }

/-- A port comes UP (R368): its link starts afresh, the device number is fixed, and every UP port has its neighbours' feed groups to pass on. -/
theorem portUp_spec (s : State) (g : Nat) : (s.portUp g).pkg = { s.pkg with fixedDev := true } ∧ (s.portUp g).mem = s.mem
    ∧ ∃ e : Nat → TxEntry, (∀ h, (e h).fresh) ∧ ∀ h, (s.portUp g).port h
      = let x := if g = h then (s.port g).up else s.port h
        if h < 8 ∧ x.state = 3 then x.tell (e h) else x := by
  unfold State.portUp
  extract_lets x s₁ k s₂ s₃
  have hp₂ (h : Nat) : s₂.port h = if g = h then x.up else s.port h := setPort_port s g x.up h
  have hpkg₂ : s₂.pkg = { s.pkg with fixedDev := true } := rfl
  have hmem₂ : s₂.mem = s.mem := rfl
  clear_value s₂
  obtain ⟨e, he, hf, hp⟩ := tellFeeds_foldl (List.nodup_range (n := 8)) s₂
  have h₃ : s₃.pkg = s₂.pkg ∧ s₃.mem = s₂.mem := by
    constructor
    · exact (congrArg State.pkg hf).trans rfl
    · exact (congrArg State.mem hf).trans rfl
  have hp₃ (h : Nat) : s₃.port h = if h ∈ List.range 8 ∧ (s₂.port h).state = 3 then (s₂.port h).tell (e h) else s₂.port h := hp h
  clear_value s₃
  have h₄ := noted_postAll s₃ 0x0101 0 (g + State.laneCount x.lanes * 16 + x.peerDev * 256) x.peerSerial
  refine ⟨(h₄.linkWork.pkg.trans h₃.1).trans hpkg₂, (h₄.linkWork.mem.trans h₃.2).trans hmem₂, e, he, fun h => ?_⟩
  rw [port_congr h₄.ports, hp₃, hp₂]
  simp only [List.mem_range, x]

/-! ### The oldest link message -/

/-- The oldest message that a port received, of a code, taken out. -/
def State.taken (s : State) (g : Nat) (rest : List (List Nat)) : State := s.setPort g { s.port g with ctlIn := rest }

theorem takeCtl_eq {g a b code : Nat} {rest : List (List Nat)} (h : (s.port g).ctlIn = [a, b] :: rest) (hc : bits a 0 8 = code) :
    s.takeCtl g code = some (a, b, s.taken g rest) := by
  unfold State.takeCtl
  simp only [h, List.headD_cons, hc, if_true]
  rfl

@[simp] theorem taken_port (s : State) (g : Nat) (rest : List (List Nat)) : (s.taken g rest).port g = { s.port g with ctlIn := rest } :=
  setPort_port_same ..

/-- What a port that goes DOWN leaves does not depend on the messages and masks it held. -/
theorem WentDown.of_taken {g cause : Nat} (h : WentDown t u g cause) (hm : t.mem = s.mem) (hg : t.groups = s.groups) (hc : t.ctrs = s.ctrs) :
    WentDown s u g cause := by
  obtain ⟨h1, h2, h3, h4, h5, h6, h7, h8, h9, h10⟩ := h
  exact ⟨h1, h2, h3, h4, h5, h6, h7, h8.trans hm, h9.trans hg, h10.trans hc⟩

theorem wentDown_setPort {g cause : Nat} (s : State) (h : Nat) (x : Glp) (hd : WentDown (s.setPort h x) u g cause) : WentDown s u g cause :=
  hd.of_taken rfl rfl rfl

theorem portDown_pkg (s : State) (g : Nat) {cause : Nat} (h : cause ≠ 11) : (s.portDown g cause).pkg = s.pkg := by
  rw [(portDown_spec s g cause).2, if_neg fun hh => h hh.1]

/-! ### RECORD -/

theorem exec_record (g : Fin 8) (s : State) : exec (.record g) s = execRecord g s := rfl

section
variable {g : Fin 8} {a b : Nat} {rest : List (List Nat)} (hfront : (s.port g.val).ctlIn = [a, b] :: rest) (hcode : bits a 0 8 = 1)
include hfront hcode

theorem exec_record_front : exec (.record g) s = .next ((s.taken g.val rest).takeRecord g.val a b) := by
  rw [exec_record, execRecord, takeCtl_eq hfront hcode]

theorem exec_record_still (h : (s.port g.val).state ≠ 2) : exec (.record g) s = .next (s.taken g.val rest) := by
  rw [exec_record_front hfront hcode, State.takeRecord]
  dsimp only
  rw [if_pos (by simpa using h)]

theorem exec_record_failed (h : (s.port g.val).state = 2) (hc : s.recordCheck g.val a ≠ 0) :
    exec (.record g) s = .next ((s.taken g.val rest).portDown g.val (s.recordCheck g.val a)) := by
  have hcheck : (s.taken g.val rest).recordCheck g.val a = s.recordCheck g.val a := rfl
  rw [exec_record_front hfront hcode, State.takeRecord]
  dsimp only
  rw [if_neg (by simpa using h), hcheck, if_pos hc]

end

/-- A port that has kept its neighbour's record. -/
def Glp.record (x : Glp) (a b : Nat) (rest : List (List Nat)) : Glp :=
  { x with ctlIn := rest, peerDev := bits a 32 12, peerPort := bits a 8 3 * 2 + bits a 11 1, peerFeed := bits a 64 8, peerLayout := bits a 72 2,
           peerSerial := bits b 0 64, recordOk := true }

/-- The device number taken from a neighbour's record, where the device has none. -/
def State.learn (s : State) (dev : Nat) : State :=
  if s.pkg.device.isNone then { s with pkg := { s.pkg with device := some dev } } else s

/-- A record that passes its checks is kept; the device takes its coordinates from it where it has none, and the port comes UP, or goes DOWN where
they differ (R368). -/
theorem takeRecord_kept {g : Nat} (h2 : (s.port g).state = 2) {a : Nat} (hc : s.recordCheck g a = 0) (b : Nat) : ∃ t : State,
    t = s.setPort g ((s.port g).record a b (s.port g).ctlIn) ∧ s.takeRecord g a b = if bit a 44 = false then t else
      if s.derived g (bits a 32 12) ≠ (t.learn (s.derived g (bits a 32 12))).self then (t.learn (s.derived g (bits a 32 12))).portDown g 9
      else (t.learn (s.derived g (bits a 32 12))).portUp g := by
  refine ⟨_, rfl, ?_⟩
  unfold State.takeRecord
  extract_lets x cause peer t k s₂
  have ht : s.setPort g ((s.port g).record a b (s.port g).ctlIn) = t := rfl
  have hd : t.derived g peer = s.derived g peer := rfl
  have hs₂ : s₂ = t.learn (s.derived g peer) := rfl
  have hd₂ : s₂.derived g peer = s.derived g peer := by
    rw [hs₂, State.learn]
    split <;> rfl
  rw [if_neg (not_not.2 h2), if_neg (not_not.2 hc), ht, hd₂, hs₂]
  clear_value t
  cases bit a 44 <;> rfl

section
variable {g : Fin 8} {a b : Nat} {rest : List (List Nat)} (hfront : (s.port g.val).ctlIn = [a, b] :: rest) (hcode : bits a 0 8 = 1)
  (h2 : (s.port g.val).state = 2) (hc : s.recordCheck g.val a = 0)
include hfront hcode h2 hc

theorem exec_record_kept : ∃ t : State, t.port g.val = (s.port g.val).record a b rest ∧ (∀ h, h ≠ g.val → t.port h = s.port h)
    ∧ t = { s with ports := t.ports } ∧ exec (.record g) s = .next (if bit a 44 = false then t else
      if s.derived g.val (bits a 32 12) ≠ (t.learn (s.derived g.val (bits a 32 12))).self then
        (t.learn (s.derived g.val (bits a 32 12))).portDown g.val 9
      else (t.learn (s.derived g.val (bits a 32 12))).portUp g.val) := by
  have hcheck : (s.taken g.val rest).recordCheck g.val a = 0 := hc
  have hder : (s.taken g.val rest).derived g.val (bits a 32 12) = s.derived g.val (bits a 32 12) := rfl
  obtain ⟨t, ht, he⟩ := takeRecord_kept (by rw [taken_port]; exact h2) hcheck b
  refine ⟨t, ?_, fun h hh => ?_, ?_, ?_⟩
  · rw [ht, setPort_port_same, taken_port]
    rfl
  · rw [ht, setPort_port, if_neg hh.symm, State.taken, setPort_port, if_neg hh.symm]
  · rw [ht]
    rfl
  · rw [exec_record_front hfront hcode, he, hder]

theorem exec_record_agreed (hbit : bit a 44 = true)
    (hd : s.pkg.device = none ∨ s.pkg.device = some (s.derived g.val (bits a 32 12))) :
    ∃ t : State, t.port g.val = (s.port g.val).record a b rest ∧ (∀ h, h ≠ g.val → t.port h = s.port h)
      ∧ t = { s with ports := t.ports, pkg := { s.pkg with device := some (s.derived g.val (bits a 32 12)) } }
      ∧ exec (.record g) s = .next (t.portUp g.val) := by
  obtain ⟨t, hp, ho, hf, he⟩ := exec_record_kept hfront hcode h2 hc (b := b)
  have hpkg : t.pkg = s.pkg := by rw [hf]
  rw [hbit, if_neg (by simp)] at he
  generalize s.derived g.val (bits a 32 12) = dev at *
  obtain hn | hn := hd
  · refine ⟨{ t with pkg := { t.pkg with device := some dev } }, hp, ho, ?_, ?_⟩
    · rw [hpkg]
      generalize t.ports = ports at hf ⊢
      rw [hf]
    · rw [he, show t.learn dev = { t with pkg := { t.pkg with device := some dev } } from if_pos (by rw [hpkg, hn]; rfl),
        if_neg (by simp [State.self])]
  · refine ⟨t, hp, ho, ?_, ?_⟩
    · rw [← hn]
      exact hf
    · rw [he, show t.learn dev = t from if_neg (by simp [hpkg, hn]), if_neg (by simp [State.self, hpkg, hn])]

theorem exec_record_differs {n : Nat} (hbit : bit a 44 = true) (hd : s.pkg.device = some n) (hne : n ≠ s.derived g.val (bits a 32 12)) :
    ∃ t : State, t = { s with ports := t.ports } ∧ exec (.record g) s = .next (t.portDown g.val 9) := by
  obtain ⟨t, -, -, hf, he⟩ := exec_record_kept hfront hcode h2 hc (b := b)
  have hpkg : t.pkg = s.pkg := by rw [hf]
  rw [hbit, if_neg (by simp)] at he
  refine ⟨t, hf, ?_⟩
  rw [he, show t.learn (s.derived g.val (bits a 32 12)) = t from if_neg (by simp [hpkg, hd]),
    if_pos (by simpa [State.self, hpkg, hd] using hne.symm)]

end

/-! ### RETRY -/

/-- Whether a flit of the replay buffer is the one with a SEQ or a later one. -/
def Replay.from (r : Replay) (seq : Nat) : Bool := decide ((r.seq + 4096 - seq) % 4096 < 2048)

/-- A flit replayed once more. -/
def Replay.again (r : Replay) (seq : Nat) : Replay := if r.from seq then { r with count := r.count + 1 } else r

theorem emit_foldl {α : Type} (f : α → Output) (l : List α) (s : State) :
    l.foldl (fun s r => s.emit (f r)) s = { s with out := s.out ++ l.map f } := by
  induction l generalizing s with
  | nil => simp
  | cons r l ih =>
    rw [List.foldl_cons, ih]
    simp [State.emit]

theorem bumpPort_regs (s : State) (g off n : Nat) : s.bumpPort g off n = { s with regs := (s.bumpPort g off n).regs } := by
  unfold State.bumpPort State.bump
  split <;> rfl

theorem replayFrom_eq (s : State) (g seq : Nat) : ∃ regs, s.replayFrom g seq
    = let t : State := { s.setPort g { s.port g with replay := (s.port g).replay.map (·.again seq) } with
        out := s.out ++ ((s.port g).replay.filter (·.from seq)).map (fun r => .flit g r.flit), regs := regs }
      if ((s.port g).replay.filter (·.from seq)).any (fun r => decide (15 ≤ r.count)) then t.portDown g 4 else t := by
  unfold State.replayFrom
  extract_lets x hit l s₁ s₂ s₃
  have h₂ : s₂ = { s₁ with out := s₁.out ++ l.map (fun r => .flit g r.flit) } := emit_foldl ..
  have h₃ : s₃ = { s₂ with regs := s₃.regs } := bumpPort_regs ..
  refine ⟨s₃.regs, ?_⟩
  generalize s₃.regs = r at h₃ ⊢
  rw [h₃, h₂]
  rfl

/-! ### Lanes -/

theorem setLanes_spec (s : State) (g mask : Nat) : (s.setLanes g mask).port g = { s.port g with lanes := mask }
    ∧ (s.setLanes g mask).mem = s.mem ∧ (s.setLanes g mask).groups = s.groups := by
  unfold State.setLanes
  extract_lets x
  split
  · rename_i h
    exact ⟨by rw [← h], rfl, rfl⟩
  · have h := noted_postAll (s.setPort g { x with lanes := mask }) 0x0103 0
      (g + State.laneCount x.lanes * 16 + State.laneCount mask * 256 + x.failed * 4096) 0
    exact ⟨(port_congr h.ports g).trans (setPort_port_same ..), h.linkWork.mem, h.linkWork.groups⟩

/-- A port some of whose lanes have failed. -/
def Glp.lose (x : Glp) (mask : Nat) : Glp := { x with failed := x.failed ||| mask }

theorem loseLanes_down {g mask : Nat} (tell : Bool) (h : State.laneCount (State.goodLanes ((s.port g).lose mask)) < 8) :
    s.loseLanes g mask tell = (s.setPort g ((s.port g).lose mask)).portDown g 3 := if_pos h

theorem loseLanes_move {g mask : Nat} (tell : Bool) (h : 8 ≤ State.laneCount (State.goodLanes ((s.port g).lose mask))) :
    let m := State.goodLanes ((s.port g).lose mask)
    (s.loseLanes g mask tell).port g = { (s.port g).lose mask with
        lanes := State.bestLanes m
        ctlOut := if tell then (s.port g).ctlOut ++ [[4 + m * 2 ^ 32]] else (s.port g).ctlOut }
      ∧ (s.loseLanes g mask tell).mem = s.mem ∧ (s.loseLanes g mask tell).groups = s.groups := by
  intro m
  unfold State.loseLanes
  extract_lets x y s₁ good s₂
  have hgood : ¬ State.laneCount good < 8 := Nat.not_lt.2 h
  rw [if_neg hgood]
  obtain ⟨hp, hm, hg⟩ := setLanes_spec s₂ g (State.bestLanes good)
  have h₂ : s₂.port g = { (s.port g).lose mask with
      ctlOut := if tell then (s.port g).ctlOut ++ [[4 + m * 2 ^ 32]] else (s.port g).ctlOut } ∧ s₂.mem = s.mem ∧ s₂.groups = s.groups := by
    simp only [s₂]
    cases tell
    · exact ⟨setPort_port_same .., rfl, rfl⟩
    · exact ⟨setPort_port_same .., rfl, rfl⟩
  exact ⟨hp.trans (by rw [h₂.1]; rfl), hm.trans h₂.2.1, hg.trans h₂.2.2⟩

/-! ### The other messages -/

section
variable {g : Fin 8} {a b : Nat} {rest : List (List Nat)} (hfront : (s.port g.val).ctlIn = [a, b] :: rest)
include hfront

theorem exec_retry_front (hcode : bits a 0 8 = 2) : exec (.retry g) s
    = .next (if (s.port g.val).state = 3 then (s.taken g.val rest).replayFrom g.val (bits a 32 12) else s.taken g.val rest) := by
  rw [show exec (.retry g) s = execRetry g s from rfl, execRetry, takeCtl_eq hfront hcode]
  dsimp only
  rw [taken_port]

theorem exec_down_front (hcode : bits a 0 8 = 3) : exec (.down g) s
    = .next (if (s.port g.val).state = 2 || (s.port g.val).state = 3 then (s.taken g.val rest).portDown g.val (State.peerCause (bits a 32 8))
      else s.taken g.val rest) := by
  rw [show exec (.down g) s = execDown g s from rfl, execDown, takeCtl_eq hfront hcode]
  dsimp only
  rw [taken_port]

theorem exec_lanes_front (hcode : bits a 0 8 = 4) : exec (.lanes g) s
    = .next (if (s.port g.val).state = 2 || (s.port g.val).state = 3 then
        (s.taken g.val rest).loseLanes g.val (0xFFF ^^^ bits a 32 12) (State.goodLanes (s.port g.val) &&& bits a 32 12 != bits a 32 12)
      else s.taken g.val rest) := by
  rw [show exec (.lanes g) s = execLanes g s from rfl, execLanes, takeCtl_eq hfront hcode]
  dsimp only
  rw [taken_port]
  rfl

end

theorem sendControl_spec (s : State) (g : Nat) (slots : List Nat) :
    let c := State.creditField (s.port g)
    (s.sendControl g slots).out
        = s.out ++ [.flit g (makeFlit 2 0 0 (((s.port g).rxSeq + 4095) % 4096) (b2n (s.port g).ackOk) c.1 c.2.1 c.2.2.1 slots 15)]
      ∧ (s.sendControl g slots).port g = { c.2.2.2 with unacked := 0 }
      ∧ s.sendControl g slots = { s with out := (s.sendControl g slots).out, ports := (s.sendControl g slots).ports } := by
  have hx := creditField_port (s.port g)
  unfold State.sendControl
  generalize State.creditField (s.port g) = c at hx ⊢
  refine ⟨?_, setPort_port_same .., rfl⟩
  show s.out ++ [.flit g (makeFlit 2 0 0 ((c.2.2.2.rxSeq + 4095) % 4096) (b2n c.2.2.2.ackOk) _ _ _ _ _)] = _
  rw [hx]

end

end Sys2Proof.Machine
end

section
/-! ### The management of Griwald ports -/

namespace Sys2Proof.Machine

section
variable {s t : State}

theorem get_tell (x : Glp) (e : TxEntry) (vc : Nat) : (x.tell e).txq.get [] vc = if 0 = vc then x.txq.get [] 0 ++ [e] else x.txq.get [] vc := by
  have h : (x.tell e).txq = x.txq.modify [] 0 (· ++ [e]) := rfl
  rw [h, SMap.modify, SMap.get_set]

/-- What the other ports keep as a port comes UP, and what each UP port has to pass on. -/
theorem portUp_ports {g : Nat} (ho : ∀ h, h ≠ g → t.port h = s.port h) :
    (∀ h, h ≠ g → (t.portUp g).port h = { s.port h with txq := ((t.portUp g).port h).txq }
        ∧ ((s.port h).state ≠ 3 → (t.portUp g).port h = s.port h))
      ∧ (∀ h vc, vc ≠ 0 → ((t.portUp g).port h).txq.get [] vc = if h = g then [] else (s.port h).txq.get [] vc)
      ∧ ∀ h, h < 8 → ((t.portUp g).port h).state = 3 → ∃ e : TxEntry,
        ((t.portUp g).port h).txq.get [] 0 = (if h = g then [] else (s.port h).txq.get [] 0) ++ [e]
          ∧ e.begun = false ∧ e.fwd = false ∧ e.held = none := by
  obtain ⟨-, -, e, he, hp⟩ := portUp_spec t g
  have hother (h : Nat) (hh : h ≠ g) : (t.portUp g).port h = if h < 8 ∧ (s.port h).state = 3 then (s.port h).tell (e h) else s.port h := by
    rw [hp]
    simp only [hh.symm, if_false, ho h hh]
  have hself : (t.portUp g).port g = if g < 8 then (t.port g).up.tell (e g) else (t.port g).up := by
    rw [hp]
    simp [Glp.up]
  refine ⟨fun h hh => ?_, fun h vc hvc => ?_, fun h h8 h3 => ⟨e h, ?_, he h⟩⟩
  · rw [hother h hh]
    split
    · exact ⟨rfl, fun hn => absurd ‹_ ∧ _›.2 hn⟩
    · exact ⟨rfl, fun _ => rfl⟩
  · by_cases hh : h = g
    · subst hh
      rw [hself, if_pos rfl]
      split
      · rw [get_tell, if_neg hvc.symm]
        rfl
      · rfl
    · rw [hother h hh, if_neg hh]
      split
      · rw [get_tell, if_neg hvc.symm]
      · rfl
  · by_cases hh : h = g
    · subst hh
      rw [hself, if_pos h8, if_pos rfl, get_tell, if_pos rfl]
      rfl
    · rw [hother h hh] at h3 ⊢
      have hs : (s.port h).state = 3 := by
        split at h3
        exacts [‹_ ∧ _›.2, h3]
      rw [if_pos ⟨h8, hs⟩, if_neg hh, get_tell, if_pos rfl]

/-- The fields of the port itself as it comes UP. -/
theorem portUp_port (t : State) {g : Nat} (hg : g < 8) : ∃ e, (t.portUp g).port g = (t.port g).up.tell e := by
  obtain ⟨-, -, e, -, hp⟩ := portUp_spec t g
  refine ⟨e g, ?_⟩
  rw [hp]
  simp [Glp.up, hg]

/-- A port whose neighbour knows its own coordinates, which agree with this device's where it has some, comes UP (R368). -/
theorem record_comesUp {g : Fin 8} {a b : Nat} {rest : List (List Nat)} (hfront : (s.port g.val).ctlIn = [a, b] :: rest) (hcode : bits a 0 8 = 1)
    (h2 : (s.port g.val).state = 2) (hc : s.recordCheck g.val a = 0) (hbit : bit a 44 = true)
    (hd : s.pkg.device = none ∨ s.pkg.device = some (s.derived g.val (bits a 32 12))) :
    ∃ t u e, exec (.record g) s = .next u ∧ u = State.portUp t g.val ∧ u.port g.val = ((s.port g.val).record a b rest).up.tell e
      ∧ u.pkg.device = some (s.derived g.val (bits a 32 12)) ∧ u.pkg.fixedDev = true ∧ u.mem = s.mem ∧ ∀ h, h ≠ g.val → t.port h = s.port h := by
  obtain ⟨t, hp, ho, ht, he⟩ := exec_record_agreed hfront hcode h2 hc hbit hd (b := b)
  obtain ⟨e, hup⟩ := portUp_port t g.isLt
  obtain ⟨hpkg, hmem, -⟩ := portUp_spec t g.val
  have hdev : t.pkg.device = some (s.derived g.val (bits a 32 12)) := by rw [ht]
  have hmem' : t.mem = s.mem := by rw [ht]
  exact ⟨t, _, e, he, rfl, hup.trans (by rw [hp]), by rw [hpkg]; exact hdev, by rw [hpkg], hmem.trans hmem', ho⟩

theorem recordCheck_ne (s : State) (g a : Nat) : s.recordCheck g a ≠ 11 := by
  unfold State.recordCheck
  split_ifs <;> decide

theorem domOn_setDomain_off (s : State) (d : Nat) : (s.setDomain d false).domOn d = false := by
  unfold State.setDomain
  split
  · assumption
  · have h : putBits s.pkg.domains d 1 (b2n false) / 2 ^ d % 2 = 0 := by
      rw [← Nat.shiftRight_eq_div_pow]
      exact bits_putBits_same s.pkg.domains d 1 (b2n false)
    exact (Nat.testBit_eq_decide_div_mod_eq ..).trans (decide_eq_false (by rw [h]; decide))

theorem portFault_domain (s : State) (g : Nat) :
    (s.portDown g 11).domOn (48 + g) = (s.dome.boot.state != 1 && s.domOn (48 + g)) := by
  rw [State.domOn, (portDown_spec s g 11).2]
  by_cases h : s.dome.boot.state = 1
  · rw [if_pos ⟨rfl, h⟩, h]
    exact domOn_setDomain_off ..
  · rw [if_neg fun hh => h hh.2]
    simp [h, State.domOn]

/-- A RETRY that no flit has been replayed too often for (R349). -/
theorem retry_replays {g : Fin 8} {a b : Nat} {rest : List (List Nat)} (hfront : (s.port g.val).ctlIn = [a, b] :: rest) (hcode : bits a 0 8 = 2)
    (h3 : (s.port g.val).state = 3) : ∃ regs, exec (.retry g) s = .next
      (let t : State := { s with
        out := s.out ++ ((s.port g.val).replay.filter (·.from (bits a 32 12))).map (fun r => .flit g.val r.flit)
        ports := ((s.taken g.val rest).setPort g.val { s.port g.val with
          ctlIn := rest, replay := (s.port g.val).replay.map (·.again (bits a 32 12)) }).ports
        regs := regs }
      if ((s.port g.val).replay.filter (·.from (bits a 32 12))).any (fun r => decide (15 ≤ r.count)) then t.portDown g.val 4 else t) := by
  obtain ⟨regs, h⟩ := replayFrom_eq (s.taken g.val rest) g.val (bits a 32 12)
  refine ⟨regs, ?_⟩
  rw [exec_retry_front hfront hcode, if_pos h3, h, taken_port]
  rfl

end

/-- Settles O35. What stops a port answers or drops what it held and changes no memory, group or counter, so a port that goes DOWN is read off once;
a port that comes UP starts its link afresh, then each UP port gains one entry of channel 0. -/
theorem linkManagement : Obligations.LinkManagement := by
  unfold Obligations.LinkManagement
  dsimp only
  refine ⟨⟨fun s g a b rest hf => ?_, fun s g a b rest hf => ?_, fun s g a b rest hf => ?_, fun s g a b rest hf => ?_⟩, fun s g good => ?_,
    fun s g => ?_, fun s g => ?_, fun s g => ?_, fun s g => ?_, fun s g => ?_, fun s g mask => ?_⟩
  · obtain ⟨hfront, hcode⟩ := hf
    refine ⟨fun h => ⟨_, exec_record_still hfront hcode h, taken_port .., rfl⟩, fun h hc => ⟨_, exec_record_failed hfront hcode h hc, ?_, ?_⟩,
      fun h hc hbit => ?_, fun h hc hbit hd => ?_, fun n h hc hbit hd hne => ?_⟩
    · exact wentDown_setPort _ _ _ (portDown_spec ..).1
    · exact portDown_pkg _ _ (recordCheck_ne s _ _)
    · obtain ⟨t, hp, -, ht, he⟩ := exec_record_kept hfront hcode h hc (b := b)
      refine ⟨t, by rw [he, if_pos hbit], ?_, ?_, ht⟩
      · rw [hp]
        exact ⟨rfl, rfl, rfl, rfl, rfl, rfl⟩
      · rw [hp]
        exact h
    · obtain ⟨t, u, e, he, hu, hup, hdev, hfix, hmem, ho⟩ := record_comesUp hfront hcode h hc hbit hd (b := b)
      have hports := portUp_ports ho
      rw [← hu] at hports
      refine ⟨u, he, ?_, ?_, hdev, hfix, ?_, ?_, ?_, ?_, hmem, hports⟩
      · rw [hup]
        exact ⟨rfl, rfl, rfl, rfl, rfl, rfl⟩
      iterate 5
        · rw [hup]
          rfl
    · obtain ⟨t, ht, he⟩ := exec_record_differs hfront hcode h hc hbit hd hne (b := b)
      refine ⟨_, he, (portDown_spec ..).1.of_taken ?_ ?_ ?_, (portDown_pkg _ _ (by decide)).trans ?_⟩ <;> rw [ht]
  · obtain ⟨hfront, hcode⟩ := hf
    refine ⟨fun h => ⟨_, (exec_retry_front hfront hcode).trans (congrArg _ (if_neg h)), taken_port .., rfl⟩, fun h hlow => ?_, fun h hmany => ?_⟩
    · obtain ⟨regs, he⟩ := retry_replays hfront hcode h
      rw [if_neg (by simpa [Replay.from] using hlow)] at he
      exact ⟨_, he, rfl, setPort_port_same .., rfl⟩
    · obtain ⟨regs, he⟩ := retry_replays hfront hcode h
      rw [if_pos (by simpa [Replay.from] using hmany)] at he
      exact ⟨_, he, (portDown_spec ..).1.of_taken rfl rfl rfl⟩
  · obtain ⟨hfront, hcode⟩ := hf
    have he := exec_down_front hfront hcode
    refine ⟨fun h => ?_, fun h => ?_⟩
    · rw [if_pos (by simpa using h)] at he
      exact ⟨_, he, wentDown_setPort _ _ _ (portDown_spec ..).1⟩
    · rw [if_neg (by simpa using h)] at he
      exact ⟨_, he, taken_port .., rfl⟩
  · obtain ⟨hfront, hcode⟩ := hf
    have he := exec_lanes_front hfront hcode
    refine ⟨fun h hn => ?_, fun h hn => ?_, fun h => ?_⟩
    · rw [if_pos (by simpa using h)] at he
      obtain ⟨hp, hm, hg⟩ := loseLanes_move (s := s.taken g.val rest) (g := g.val) (mask := 0xFFF ^^^ bits a 32 12)
        (State.goodLanes (s.port g.val) &&& bits a 32 12 != bits a 32 12) (by rw [taken_port]; exact hn)
      refine ⟨_, he, ?_, hm, hg⟩
      rw [hp, taken_port]
      by_cases hall : State.goodLanes (s.port g.val) &&& bits a 32 12 = bits a 32 12
      · simp [hall, Glp.lose]
      · simp [hall, Glp.lose]
    · rw [if_pos (by simpa using h), loseLanes_down _ (by rw [taken_port]; exact hn)] at he
      exact ⟨_, he, wentDown_setPort _ _ _ (wentDown_setPort _ _ _ (portDown_spec ..).1)⟩
    · rw [if_neg (by simpa using h)] at he
      exact ⟨_, he, taken_port .., rfl⟩
  · refine ⟨fun h hn => ?_, fun h hn => ?_, fun h => ⟨s, congrArg Host.Outcome.next (if_neg h), rfl⟩⟩
    · refine ⟨_, congrArg Host.Outcome.next ((if_pos h).trans (if_neg (Nat.not_lt.2 hn))), ?_, rfl⟩
      dsimp only
      rw [setPort_port_same, setPort_port_same]
    · exact ⟨_, congrArg Host.Outcome.next ((if_pos h).trans (if_pos hn)), wentDown_setPort _ _ _ (portDown_spec ..).1⟩
  · refine ⟨fun h => ⟨_, congrArg Host.Outcome.next (if_pos h), sendControl_spec ..⟩, fun h => ⟨s, congrArg Host.Outcome.next (if_neg h), rfl⟩⟩
  · refine ⟨fun h => ⟨_, congrArg Host.Outcome.next (if_pos (by simpa using h)), (portDown_spec ..).1⟩,
      fun h => ⟨s, congrArg Host.Outcome.next (if_neg (by simpa using h)), rfl⟩⟩
  · exact ⟨fun h => ⟨_, congrArg Host.Outcome.next (if_pos h), (portDown_spec ..).1⟩, fun h => ⟨s, congrArg Host.Outcome.next (if_neg h), rfl⟩⟩
  · refine ⟨fun h => ⟨_, congrArg Host.Outcome.next (if_neg (by simpa using h)), (portDown_spec ..).1, ?_⟩,
      fun h => ⟨s, congrArg Host.Outcome.next (if_pos (by simpa using h)), rfl⟩⟩
    exact portFault_domain ..
  · refine ⟨fun h => ⟨_, congrArg Host.Outcome.next (if_pos (by simpa [and_assoc] using h)), setPort_port_same .., rfl⟩,
      fun h => ⟨s, congrArg Host.Outcome.next (if_neg (by simpa [and_assoc] using h)), rfl⟩⟩
  · refine ⟨fun h hm hn => ?_, fun h hm hn => ?_, fun h hm => ?_, fun h => ⟨s, congrArg Host.Outcome.next (if_neg (by simpa using h)), rfl⟩⟩
    · obtain ⟨hp, hmem, hg⟩ := loseLanes_move (s := s) (g := g.val) (mask := mask.toNat) true hn
      exact ⟨_, congrArg Host.Outcome.next ((if_pos (by simpa using h)).trans (if_neg hm)), hp, hmem, hg⟩
    · refine ⟨_, congrArg Host.Outcome.next ((if_pos (by simpa using h)).trans ((if_neg hm).trans (loseLanes_down true hn))), ?_⟩
      exact wentDown_setPort _ _ _ (portDown_spec ..).1
    · exact ⟨_, congrArg Host.Outcome.next ((if_pos (by simpa using h)).trans (if_pos hm)), setPort_port_same .., rfl⟩

end Sys2Proof.Machine
end

section
/-! ### What a load by an agent leaves alone (R237, R239) -/

namespace Sys2Proof.Machine

section
variable {s t u : State}

theorem Loads.refl (s : State) : Loads s s := rfl

theorem Loads.trans (h : Loads s t) (h' : Loads t u) : Loads s u := by
  unfold Loads at *
  generalize u.lines = a, u.slices = b, u.regs = c, u.mem = d, u.poison = e, u.free = f, u.rings = g, u.out = i, u.eth = j, u.shares = k at h' ⊢
  rw [h] at h'
  exact h'

theorem Loads.foldl {α : Type} {f : State → α → State} (hf : ∀ s a, Loads s (f s a)) (l : List α) (s : State) : Loads s (l.foldl f s) :=
  State.foldl_keeps (Loads s) f (fun t a h => h.trans (hf t a)) l s (.refl s)

theorem sendFrom_dome (s : State) (port : Nat) (f : EthFrame) : (s.sendFrom port f).dome = s.dome := by
  unfold State.sendFrom State.transmit
  split
  · rw [State.bumpEth, State.bump_dome]
    rfl
  · rfl

theorem post_dome (s : State) (p t c st i d0 d1 : Nat) (w : Bool) : (s.post p t c st i d0 d1 w).dome = s.dome := by
  unfold State.post State.flushRing
  dsimp only
  refine State.foldl_keeps (fun t => t.dome = s.dome) _ (fun t x h => (sendFrom_dome ..).trans h) _ _ ?_
  show State.dome (if _ then _ else _) = _
  split <;> simp only [State.bump_dome, State.setRing]

theorem Noted.loads {p : Nat} (h : Noted p s t) (hd : t.dome = s.dome) : Loads s t := by
  have hf := h.frame
  rw [hd] at hf
  generalize t.regs = a, t.rings = b, t.out = c, t.eth = d, t.shares = e at hf
  rw [hf]
  rfl

theorem loads_post (s : State) (p t c st i d0 d1 : Nat) (w : Bool) : Loads s (s.post p t c st i d0 d1 w) :=
  (noted_post (p := 0) ..).loads (post_dome ..)

theorem loads_setReg (s : State) (a : RegAddr) (v : Nat) : Loads s (s.setReg a v) := rfl

theorem loads_bump (s : State) (a : RegAddr) (n : Nat) : Loads s (s.bump a n) := by
  unfold State.bump
  split
  · rfl
  · exact loads_setReg ..

theorem loads_slices (s : State) (m : SMap SliceSt) : Loads s { s with slices := m } := rfl

theorem loads_poison (s : State) (m : SMap Bool) : Loads s { s with poison := m } := rfl

theorem loads_free (s : State) (n : Nat) : Loads s { s with free := n } := rfl

theorem loads_setMem (s : State) (a : Nat) (b : Byte) : Loads s (s.setMem a b) := rfl

theorem loads_setLine (s : State) (a : Nat) (l : L2Line) : Loads s (s.setLine a l) := rfl

theorem loads_hbmFound (s : State) (lpa : Nat) (e : Ecc) : Loads s (s.hbmFound lpa e) := by
  unfold State.hbmFound
  extract_lets b stack s₁
  have h₁ : Loads s s₁ := loads_bump ..
  refine h₁.trans (.foldl (fun t w => ?_) _ _)
  split
  · exact ((loads_poison t _).trans (loads_bump ..)).trans (loads_setReg ..)
  · exact .refl t

theorem loads_postPoison (s : State) (line : Nat) (ws : List Nat) : Loads s (s.postPoison line ws) := .foldl (fun _ _ => loads_post ..) ..

theorem loads_rmwFound (s : State) (lpa words : Nat) : Loads s (s.rmwFound lpa words) := by
  unfold State.rmwFound State.draw
  split
  · exact .refl s
  · exact ((loads_free s _).trans (loads_hbmFound ..)).trans (loads_postPoison ..)

theorem loads_cxlFound (s : State) (n lpa : Nat) (e : Ecc) : Loads s (s.cxlFound n lpa e) := by
  unfold State.cxlFound
  extract_lets b l s₁
  have h₁ : Loads s s₁ := by
    refine .foldl (fun t w => ?_) _ _
    split
    · exact loads_poison ..
    · exact .refl t
  split
  · exact .refl s
  · split
    · exact h₁.trans (loads_bump ..)
    · exact h₁

theorem loads_eccFound (s : State) (line : Nat) (e : Ecc) : Loads s (s.eccFound line e) := by
  unfold State.eccFound
  split
  · exact (loads_hbmFound ..).trans (loads_postPoison ..)
  · exact loads_cxlFound ..
  · exact .refl s

theorem loads_fillLine (s : State) (lpa : Nat) : Loads s (s.fillLine lpa) := by
  unfold State.fillLine
  extract_lets b l down data poison s₁
  have h₁ : Loads s s₁ := loads_setLine ..
  split
  · exact .refl s
  · split
    · exact h₁.trans (loads_bump ..)
    · split
      · exact h₁
      · exact h₁.trans (loads_bump ..)
    · exact h₁

theorem loads_writeBack (s : State) (lpa : Nat) : Loads s (s.writeBack lpa) := by
  unfold State.writeBack
  extract_lets b l slice drop touched inPart s₁ s₂ s₃ s₄
  have h₁ : Loads s s₁ := by
    simp only [s₁]
    split
    · exact loads_rmwFound ..
    · exact .refl s
  have h₂ : Loads s₁ s₂ := by
    refine .foldl (fun t i => ?_) _ _
    split
    · exact loads_setMem ..
    · exact .refl t
  have h₃ : Loads s₂ s₃ := by
    refine .foldl (fun t w => ?_) _ _
    split
    · exact .refl t
    · exact loads_poison ..
  have h₄ : Loads s₃ s₄ := by
    simp only [s₄]
    split
    · exact (loads_bump ..).trans (loads_bump ..)
    · exact loads_bump ..
    · exact .refl s₃
  split
  · exact .refl s
  · split
    · exact loads_bump ..
    · exact (((h₁.trans h₂).trans h₃).trans h₄).trans (loads_bump ..)

theorem loads_evict (s : State) (lpa : Nat) : Loads s (s.evict lpa) := (loads_writeBack ..).trans (loads_setLine ..)

theorem loads_freshLine (s : State) (p lpa : Nat) : Loads s (s.freshLine p lpa) := (loads_slices ..).trans (loads_setLine ..)

theorem loads_allocLine {p lpa : Nat} (h : s.allocLine p lpa = some t) : Loads s t := by
  unfold State.allocLine State.draw at h
  obtain ⟨slice, set⟩ := s.sliceOf lpa
  dsimp only at h
  split at h
  · exact Option.some.inj h ▸ .refl s
  · split at h
    · exact Option.some.inj h ▸ loads_freshLine ..
    · split at h
      · cases h
      · exact Option.some.inj h ▸ ((loads_free s _).trans (loads_evict ..)).trans (loads_freshLine ..)

theorem loads_noteMissed (s : State) (p slice : Nat) : Loads s (s.noteMissed p slice) := loads_slices ..

theorem loads_noteMiss (s : State) (p line : Nat) : Loads s (s.noteMiss p line) := by
  unfold State.noteMiss
  extract_lets slice s₁ x
  have h₁ : Loads s s₁ := loads_noteMissed ..
  split
  · exact (h₁.trans (loads_slices ..)).trans (loads_bump ..)
  · exact h₁

theorem loads_agentMiss (s : State) (p lpa : Nat) (e : Ecc) : Loads s (s.agentMiss p lpa e) := by
  unfold State.agentMiss
  extract_lets b slice
  split
  · exact loads_noteMissed ..
  · rename_i t ht
    have h₁ : Loads t (if s.fillOutstanding b then t.bump (pages .slc p slice 0x110) 1 else t) := by
      split
      · exact loads_bump ..
      · exact .refl t
    exact ((((loads_allocLine ht).trans h₁).trans (loads_bump ..)).trans (loads_noteMiss ..)).trans ((loads_eccFound ..).trans (loads_fillLine ..))

theorem loads_readLine (s : State) (p lpa n : Nat) (e : Ecc) : Loads s (s.readLine p lpa n e) := by
  have h (slice : Nat) : Loads s (let t := if s.lineHeld lpa n then s.bump (pages .slc p slice 0x100) 1 else s.agentMiss p lpa e
      if t.poisonedIn lpa n then t.bump (pages .slc p slice 0x158) 1 else t) := by
    extract_lets t
    have ht : Loads s t := by
      simp only [t]
      split
      · exact loads_bump ..
      · exact loads_agentMiss ..
    split
    · exact ht.trans (loads_bump ..)
    · exact ht
  unfold State.readLine
  split
  · exact h _
  · exact h _
  · exact .refl s

theorem loads_readPa (s : State) (p pa n : Nat) : Loads s (s.readPa p pa n) := by
  unfold State.readPa
  split
  · exact .refl s
  · refine .foldl (fun t i => ?_) _ _
    dsimp only
    split
    · exact loads_readLine ..
    · exact .refl t

theorem loads_fetched (s : State) (p pa n : Nat) : Loads s (s.fetched p pa n) := by
  unfold State.fetched
  split
  · exact loads_readPa ..
  · exact .refl s

end

end Sys2Proof.Machine
end

section
/-! ### Launches that become ready, and commands that start (R302, R545) -/

namespace Sys2Proof.Machine

section
variable {s t u : State} {p : Nat}

/-- A state in which launches of partition `p` have joined those that wait for clusters. -/
structure MoreReady (p : Nat) (s t : State) : Prop where
  frame : t = { s with ctx := t.ctx }
  ctx : t.ctxOf p = { s.ctxOf p with ready := (t.ctxOf p).ready }
  grows : (s.ctxOf p).ready <+: (t.ctxOf p).ready

theorem MoreReady.refl (p : Nat) (s : State) : MoreReady p s s := ⟨rfl, rfl, List.prefix_refl _⟩

theorem MoreReady.trans (h : MoreReady p s t) (h' : MoreReady p t u) : MoreReady p s u where
  frame := by
    have hf := h'.frame
    generalize u.ctx = x at hf ⊢
    rw [h.frame] at hf
    exact hf
  ctx := by
    have hc := h'.ctx
    rw [h.ctx] at hc
    exact hc
  grows := h.grows.trans h'.grows

theorem moreReady_append (s : State) (p : Nat) (l : List (Nat × Nat)) :
    MoreReady p s (s.setCtx p { s.ctxOf p with ready := (s.ctxOf p).ready ++ l }) where
  frame := rfl
  ctx := by rw [State.setCtx_ctxOf_same]
  grows := by
    rw [State.setCtx_ctxOf_same]
    exact List.prefix_append ..

theorem moreReady_noteReady (s : State) (p : Nat) : MoreReady p s (s.noteReady p) := by
  refine State.foldl_keeps (MoreReady p s) _ (fun t st h => ?_) _ _ (.refl p s)
  dsimp only
  split
  · exact h
  · split
    · exact h
    · exact h.trans (moreReady_append ..)

theorem moreReady_joinReady (s : State) (p st : Nat) (c : Cmd) : MoreReady p s (s.joinReady p st c) := by
  unfold State.joinReady
  extract_lets k
  split
  · exact .refl p s
  · exact moreReady_append ..

theorem joinReady_mem (s : State) (p st : Nat) (c : Cmd) : (st, c.idx) ∈ ((s.joinReady p st c).ctxOf p).ready := by
  unfold State.joinReady
  extract_lets k
  split
  · rename_i h
    simpa using h
  · rw [State.setCtx_ctxOf_same]
    simp

theorem MoreReady.str (h : MoreReady p s t) (q st : Nat) : t.str q st = s.str q st := by rw [h.frame]; rfl

theorem MoreReady.cmdOf (h : MoreReady p s t) (q st idx : Nat) : t.cmdOf q st idx = s.cmdOf q st idx := by
  rw [State.cmdOf, h.str]
  rfl

theorem MoreReady.startOp (h : MoreReady p s t) (st op : Nat) : t.startOp p st op = s.startOp p st op := by
  have hs : (t.ctxOf p).state = (s.ctxOf p).state := by rw [h.ctx]
  unfold State.startOp State.startable
  rw [h.str, hs]

theorem MoreReady.addrOf (h : MoreReady p s t) (q v : Nat) : t.addrOf q v = s.addrOf q v := by
  rw [h.frame]
  rfl

/-! ### A command of a stream changed -/

theorem cmdOf_modCmd (s : State) (p st idx : Nat) {f : Cmd → Cmd} (hf : ∀ c, (f c).idx = c.idx) :
    (s.modCmd p st idx f).cmdOf p st idx = (s.cmdOf p st idx).map f := by
  rw [State.cmdOf, State.modCmd, State.setStr_str_same, State.cmdOf, List.find?_map]
  have h : ((fun c : Cmd => c.idx == idx) ∘ fun c => if c.idx = idx then f c else c) = fun c => c.idx == idx := by
    funext c
    simp only [Function.comp]
    split <;> simp_all
  rw [h]
  cases hfind : (s.str p st).cmds.find? (fun c => c.idx == idx) with
  | none => rfl
  | some c =>
    have hc := List.find?_some hfind
    simp_all

/-- A command that has started, with the borrowed counters it recorded. -/
theorem begin_cmdOf {st : Nat} {c x : Cmd} (h : s.cmdOf p st c.idx = some x) :
    ∃ b, (s.begin p st c).cmdOf p st c.idx = some { x with started := true, borrowed := b } := by
  rw [State.begin, cmdOf_modCmd _ _ _ _ (by exact fun _ => rfl), h]
  exact ⟨_, rfl⟩

theorem begin_span (s : State) (p st : Nat) (c : Cmd) : ((s.begin p st c).str p st).span = (s.str p st).span := by
  rw [State.begin, State.modCmd, State.setStr_str_same]

/-- A command that starts and ends at once has ended with its code. -/
theorem beginEnd_spec {st : Nat} {c : Cmd} (h : s.cmdOf p st c.idx = some c) (hd : c.done = none) (code : Nat) :
    Ended (s.beginEnd p st c code) p st c.idx code
      ∧ s.beginEnd p st c code = { s with strs := (s.beginEnd p st c code).strs, regs := (s.beginEnd p st c code).regs } := by
  unfold State.beginEnd
  extract_lets s₁
  have h₁ : s₁ = { s with regs := s₁.regs } := by
    simp only [s₁]
    split
    · unfold State.bump
      split <;> rfl
    · rfl
  have hc : s₁.cmdOf p st c.idx = some c := by rw [h₁]; exact h
  clear_value s₁
  obtain ⟨b, hb⟩ := begin_cmdOf hc
  have hend : ((s₁.begin p st c).endCmd p st c.idx code).cmdOf p st c.idx
      = some { c with started := true, borrowed := b, done := c.done <|> some code } := by
    rw [State.endCmd, cmdOf_modCmd _ _ _ _ (by exact fun _ => rfl), hb]
    rfl
  refine ⟨⟨_, hend, rfl, by rw [hd]; rfl⟩, ?_⟩
  have hf : (s₁.begin p st c).endCmd p st c.idx code = { s₁ with strs := ((s₁.begin p st c).endCmd p st c.idx code).strs } := rfl
  generalize (s₁.begin p st c).endCmd p st c.idx code = u at hf ⊢
  generalize u.strs = x at hf
  subst hf
  generalize s₁.regs = r at h₁
  subst h₁
  rfl

theorem spanOf_none {st : Nat} (h : (s.str p st).span = none) (idx : Nat) : s.spanOf p st idx = none := by
  unfold State.spanOf
  split
  · split
    · exact h
    · rfl
  · rfl

/-! ### Teams that start (R146, R169, R170) -/

theorem get_foldl_zipIdx (l : List Nat) (n : Nat) (m : SMap Nat) (k : Nat) :
    ((l.zipIdx n).foldl (fun (m : SMap Nat) a => m.set 0 a.2 a.1) m).get 0 k
      = if n ≤ k ∧ k < n + l.length then (l[k - n]?).getD 0 else m.get 0 k := by
  induction l generalizing n m with
  | nil => rw [if_neg (by simp only [List.length_nil]; omega)]; rfl
  | cons b l ih =>
    rw [List.zipIdx_cons, List.foldl_cons, ih, SMap.get_set]
    by_cases h0 : k = n
    · subst h0
      rw [if_neg (by omega), if_pos rfl, if_pos (by simp only [List.length_cons]; omega), Nat.sub_self]
      rfl
    · by_cases h1 : n + 1 ≤ k ∧ k < n + 1 + l.length
      · rw [if_pos h1, if_pos (by simp only [List.length_cons]; omega), show k - n = k - (n + 1) + 1 by omega, List.getElem?_cons_succ]
      · rw [if_neg h1, if_neg (fun h => h0 h.symm), if_neg (by simp only [List.length_cons]; omega)]

theorem get_map_mem {α : Type} (d : α) (f : Nat → α) {l : List Nat} {k : Nat} (h : k ∈ l) : SMap.get d (l.map fun i => (i, f i)) k = f k := by
  induction l with
  | nil => cases h
  | cons i l ih =>
    rw [List.map_cons, SMap.get]
    split
    · rename_i he
      rw [he]
    · exact ih ((List.mem_cons.1 h).resolve_left fun he => absurd he.symm ‹_›)

/-- A group of a launch outside a span: its place in the launch, 32 live threads at the entry with every register zero, and the arguments in its
uniform registers. -/
theorem freshGroup_spec {st : Nat} {c : Cmd} (hz : s.spanOf p st c.idx = none) (args : List Nat) (g : Nat) :
    let y := s.freshGroup p st c args g
    y.live = true ∧ y.part = p ∧ y.stream = st ∧ y.cmd = c.idx ∧ y.index = g ∧ y.groups = c.f 0x24 8 8
      ∧ y.alloc = (c.f 0x24 0 8 + 7) / 8 * 8
      ∧ (∀ l, l < 32 → (y.thr l).alive = true ∧ (y.thr l).pc = (s.addrOf p (c.w64 0x10)).2 ∧ ∀ r, (y.thr l).getG r = 0)
      ∧ ∀ r, r < 63 → y.getU r = if r < args.length then (args[r]?).getD 0 else 0 := by
  intro y
  have hu : y.u = args.zipIdx.foldl (fun (m : SMap Nat) a => m.set 0 a.2 a.1) [] := by
    simp only [y, State.freshGroup, hz]
  have hthreads : y.threads = (List.range 32).map (fun l => (l, { alive := true, pc := (s.addrOf p (c.w64 0x10)).2 })) := rfl
  have ht (l : Nat) (hl : l < 32) : y.thr l = { alive := true, pc := (s.addrOf p (c.w64 0x10)).2 } := by
    rw [Grp.thr, hthreads]
    exact get_map_mem _ _ (List.mem_range.2 hl)
  refine ⟨rfl, rfl, rfl, rfl, rfl, rfl, rfl, fun l hl => ?_, fun r hr => ?_⟩
  · rw [ht l hl]
    refine ⟨rfl, rfl, fun r => ?_⟩
    unfold Thr.getG
    split <;> rfl
  · rw [Grp.getU, if_neg (by omega), hu, get_foldl_zipIdx]
    simp [SMap.get]

/-- What a group of a launch begins with depends on the spans, the objects and the device number alone. -/
theorem freshGroup_congr (hf : t = { s with groups := t.groups, units := t.units, vecs := t.vecs, teams := t.teams, ops := t.ops })
    (st : Nat) (c : Cmd) (args : List Nat) (g : Nat) : t.freshGroup p st c args g = s.freshGroup p st c args g := by
  rw [hf]
  rfl

/-- Groups of a launch placed on the units of a cluster. -/
theorem setGroups_spec (s : State) (p st : Nat) (c : Cmd) (args : List Nat) (k n : Nat) (hn : n ≤ 128) :
    let t := (List.range n).foldl (fun s g => s.setGrp (4 * k + g % 4) (g / 4) (s.freshGroup p st c args g)) s
    t = { s with groups := t.groups } ∧ ∀ k' u g, u < 4 → g < 32 →
      t.grp (4 * k' + u) g = if k' = k ∧ 4 * g + u < n then s.freshGroup p st c args (4 * g + u) else s.grp (4 * k' + u) g := by
  induction n with
  | zero => exact ⟨rfl, fun k' u g _ _ => by simp⟩
  | succ n ih =>
    obtain ⟨hf, hg⟩ := ih (by omega)
    rw [List.range_succ, List.foldl_append, List.foldl_cons, List.foldl_nil]
    generalize (List.range n).foldl (fun s g => s.setGrp (4 * k + g % 4) (g / 4) (s.freshGroup p st c args g)) s = t at hf hg
    have hfresh : t.freshGroup p st c args n = s.freshGroup p st c args n := by rw [hf]; rfl
    refine ⟨?_, fun k' u g hu h32 => ?_⟩
    · rw [hfresh]
      generalize s.freshGroup p st c args n = y
      rw [State.setGrp, hf]
    · rw [hfresh]
      by_cases he : k' = k ∧ 4 * g + u = n
      · obtain ⟨rfl, rfl⟩ := he
        rw [show (4 * g + u) % 4 = u by omega, show (4 * g + u) / 4 = g by omega, State.setGrp_grp_same, if_pos (by omega)]
      · rw [State.setGrp_grp_ne _ _ _ _ _ _ (fun h => ?_), hg k' u g hu h32]
        · exact if_congr (by omega) rfl rfl
        · have hunit : 4 * k + n % 4 = 4 * k' + u := by omega
          exact he (by omega)

end

end Sys2Proof.Machine
end

section
/-! ### Launches on their clusters, and the power-up of a cluster -/

namespace Sys2Proof.Machine

section
variable {s t u : State} {p st : Nat} {c : Cmd} {args : List Nat}

/-- Only what a team changes as it starts has changed. -/
def OnlyTeams (s t : State) : Prop := t = { s with groups := t.groups, units := t.units, vecs := t.vecs, teams := t.teams, ops := t.ops }

theorem OnlyTeams.trans (h : OnlyTeams s t) (h' : OnlyTeams t u) : OnlyTeams s u := by
  unfold OnlyTeams at *
  generalize u.groups = a, u.units = b, u.vecs = d, u.teams = e, u.ops = f at h' ⊢
  rw [h] at h'
  exact h'

/-- A team of a launch runs on each cluster of a list; what runs on the others is as before. -/
structure TeamsStarted (p st : Nat) (c : Cmd) (args : List Nat) (l : List Nat) (s t : State) : Prop where
  only : OnlyTeams s t
  teams : ∀ k, t.teams.get none k
    = if k ∈ l then some { part := p, stream := st, cmd := c.idx, live := c.f 0x24 8 8, issued := 0 } else s.teams.get none k
  lanes : ∀ k, k ∈ l → (t.vec k).lanes = []
  keptLanes : ∀ k, k ∉ l → t.vec k = s.vec k
  groups : ∀ k u g, u < 4 → g < 32 → t.grp (4 * k + u) g
    = if k ∈ l ∧ 4 * g + u < c.f 0x24 8 8 then s.freshGroup p st c args (4 * g + u) else s.grp (4 * k + u) g

/-- The caches of a cluster's units are emptied as a team starts. -/
theorem dropCaches_frame (s : State) (k : Nat) (l : List Nat) :
    let t := l.foldl (fun s i =>
      let s := s.dropL1 (4 * k + i)
      s.setUnit (4 * k + i) { s.unit (4 * k + i) with cc := [], vecLink := none }) s
    t = { s with units := t.units, ops := t.ops } := by
  refine State.foldl_keeps (fun t => t = { s with units := t.units, ops := t.ops }) _ (fun t i h => ?_) _ _ rfl
  dsimp only
  have h' : (t.dropL1 (4 * k + i)).setUnit (4 * k + i) { (t.dropL1 (4 * k + i)).unit (4 * k + i) with cc := [], vecLink := none }
    = { t with units := ((t.dropL1 (4 * k + i)).setUnit (4 * k + i) { (t.dropL1 (4 * k + i)).unit (4 * k + i) with cc := [], vecLink := none }).units
               ops := (t.dropL1 (4 * k + i)).ops } := rfl
  generalize ((t.dropL1 (4 * k + i)).setUnit (4 * k + i) { (t.dropL1 (4 * k + i)).unit (4 * k + i) with cc := [], vecLink := none }) = u at h' ⊢
  generalize u.units = a, (t.dropL1 (4 * k + i)).ops = b at h'
  subst h'
  rw [h]

theorem startTeam_started (s : State) (p st : Nat) (c : Cmd) (args : List Nat) (k : Nat) (hn : c.f 0x24 8 8 ≤ 128) :
    TeamsStarted p st c args [k] s (s.startTeam p st c args k) := by
  unfold State.startTeam
  extract_lets n s₁ v s₂ s₃
  have h₁ : s₁ = { s with units := s₁.units, ops := s₁.ops } := dropCaches_frame s k (List.range 4)
  clear_value s₁
  have hkeep₁ : s₁.teams = s.teams ∧ s₁.groups = s.groups ∧ s₁.vecs = s.vecs := by
    refine ⟨?_, ?_, ?_⟩ <;> rw [h₁]
  have hvec (k' : Nat) : s₂.vec k' = if k = k' then { v with lanes := [] } else s₁.vec k' := SMap.get_set ..
  have hkeep₂ : s₂.teams = s₁.teams ∧ s₂.groups = s₁.groups := ⟨rfl, rfl⟩
  have h₂ : OnlyTeams s s₂ := by
    have hf : s₂ = { s₁ with vecs := s₂.vecs } := rfl
    unfold OnlyTeams
    generalize s₂.vecs = x at hf
    rw [hf]
    generalize s₁.units = a, s₁.ops = b at h₁
    rw [h₁]
  clear_value s₂ v
  have hs : s₃ = { s₂ with groups := s₃.groups } ∧ ∀ k' u g, u < 4 → g < 32 → s₃.grp (4 * k' + u) g
    = if k' = k ∧ 4 * g + u < n then s₂.freshGroup p st c args (4 * g + u) else s₂.grp (4 * k' + u) g := setGroups_spec s₂ p st c args k n hn
  clear_value s₃
  obtain ⟨h₃, hg⟩ := hs
  have hvecs₃ : s₃.vecs = s₂.vecs := by rw [h₃]
  have hteams₃ : s₃.teams = s.teams := by rw [h₃, hkeep₂.1, hkeep₁.1]
  exact {
    only := by
      have hf : OnlyTeams s₂ s₃ := by
        unfold OnlyTeams
        generalize s₃.groups = x at h₃
        rw [h₃]
      exact (h₂.trans hf).trans rfl
    teams := fun k' => by
      rw [SMap.get_set, hteams₃]
      exact if_congr (by simp [eq_comm]) rfl rfl
    lanes := fun k' hk => by
      have hv : s₃.vec k' = { v with lanes := [] } := by
        rw [State.vec, hvecs₃]
        exact (hvec k').trans (if_pos (List.mem_singleton.1 hk).symm)
      exact congrArg VecSt.lanes hv
    keptLanes := fun k' hk => by
      show s₃.vec k' = s.vec k'
      rw [State.vec, hvecs₃]
      refine ((hvec k').trans (if_neg fun he => hk (List.mem_singleton.2 he.symm))).trans ?_
      rw [State.vec, hkeep₁.2.2]
      rfl
    groups := fun k' u g hu hg32 => by
      refine (hg k' u g hu hg32).trans (if_congr (by simp [n]) (freshGroup_congr h₂ ..) ?_)
      exact grp_congr (hkeep₂.2.trans hkeep₁.2.1) _ _ }

theorem teamsStarted_foldl (s : State) (p st : Nat) (c : Cmd) (args : List Nat) (hn : c.f 0x24 8 8 ≤ 128) (l : List Nat) :
    TeamsStarted p st c args l s (l.foldl (fun s k => s.startTeam p st c args k) s) := by
  induction l generalizing s with
  | nil => exact ⟨rfl, fun k => by simp, fun k h => absurd h List.not_mem_nil, fun _ _ => rfl, fun k u g _ _ => by simp⟩
  | cons k l ih =>
    have h := startTeam_started s p st c args k hn
    have h' := ih (s.startTeam p st c args k)
    rw [List.foldl_cons]
    generalize s.startTeam p st c args k = t at h h'
    generalize l.foldl (fun s k => s.startTeam p st c args k) t = u at h'
    exact {
      only := h.only.trans h'.only
      teams := fun j => by
        rw [h'.teams, h.teams]
        by_cases hl : j ∈ l <;> by_cases hk : j = k <;> simp [hl, hk]
      lanes := fun j hj => by
        by_cases hl : j ∈ l
        · exact h'.lanes j hl
        · rw [h'.keptLanes j hl]
          exact h.lanes j (List.mem_singleton.2 ((List.mem_cons.1 hj).resolve_right hl))
      keptLanes := fun j hj => by
        rw [List.mem_cons, not_or] at hj
        rw [h'.keptLanes j hj.2, h.keptLanes j (by simpa using hj.1)]
      groups := fun j w g hw hg => by
        rw [h'.groups j w g hw hg, h.groups j w g hw hg, freshGroup_congr h.only]
        by_cases hl : j ∈ l <;> by_cases hk : j = k <;> by_cases hlt : 4 * g + w < c.f 0x24 8 8 <;> simp [hl, hk, hlt] }

/-! ### LAUNCH (R309) -/

section
variable {p st : Fin 4} {x : Cmd} (h : Starts s p.val st.val 0x01 x) (hi : (s.ctxOf p.val).inter = none)
include h hi

theorem exec_launch : exec (.launch p st) s = .next ((s.noteReady p.val).launchFree p.val st.val x) := by
  have hm := moreReady_noteReady s p.val
  have hs : (s.noteReady p.val).startOp p.val st.val 0x01 = some x := (hm.startOp ..).trans h.1
  have hc : ((s.noteReady p.val).ctxOf p.val).inter = none := by rw [hm.ctx]; exact hi
  show Host.Outcome.next (s.starting p.val st.val 0x01 _) = _
  rw [State.starting, hs]
  show Host.Outcome.next ((s.noteReady p.val).startLaunch p.val st.val x) = _
  rw [State.startLaunch, hc]

theorem exec_launch_fails (hc : (s.noteReady p.val).launchCheck p.val x ≠ 0) : exec (.launch p st) s
    = .next ((s.noteReady p.val).beginEnd p.val st.val x ((s.noteReady p.val).launchCheck p.val x)) := by
  rw [exec_launch h hi, State.launchFree, if_pos hc]

theorem exec_launch_go (hc : (s.noteReady p.val).launchCheck p.val x = 0) : exec (.launch p st) s
    = .next ((s.noteReady p.val).launchGo p.val st.val x id) := by
  rw [exec_launch h hi, State.launchFree, if_neg (not_not.2 hc)]

end

section
variable {s₁ : State} {pa n : Nat} (hs : s.joinReady p st c = s₁) (hpa : (s₁.addrOf p (c.w64 0x18)).2 = pa) (hn : c.f 0x24 16 6 = n)
include hs hpa hn

/-- A launch that must wait for a cluster or a line starts nothing. -/
theorem launchGo_waits (note : State → State) (h : s₁.clustersReady p st c = false ∨ s₁.recordWaits p pa (4 * n) = true) :
    s.launchGo p st c note = s₁ := by
  subst hs hpa hn
  unfold State.launchGo
  extract_lets s₁ n pa
  by_cases hr : s₁.clustersReady p st c = true
  · have hw : s₁.recordWaits p pa (4 * n) = true := h.resolve_left fun hh => Bool.false_ne_true (hh.symm.trans hr)
    rw [if_neg (by rw [hr]; simp), State.withRecord, if_pos hw]
  · rw [if_pos (by simpa using hr)]

/-- A launch whose clusters are ready and whose arguments have been read starts a team on each cluster. -/
theorem launchGo_starts {l : List Byte} (hr : s₁.clustersReady p st c = true) (hw : s₁.recordWaits p pa (4 * n) = false)
    (hl : (if n = 0 then .ok [] else (s₁.fetched p pa (4 * n)).readRecord p pa (4 * n)) = .ok l) :
    s.launchGo p st c id = (State.launchClusters c).foldl
      (fun s k => s.startTeam p st c ((List.range n).map (fun i => State.rec32 l (4 * i))) k)
      (((s₁.fetched p pa (4 * n)).leaveReady p st c).begin p st c) := by
  subst hs hpa hn
  unfold State.launchGo
  extract_lets s₁ n pa
  have hw' : ¬ s₁.recordWaits p pa (4 * n) = true := fun hh => Bool.false_ne_true (hw.symm.trans hh)
  rw [if_neg (by simp [s₁, hr]), State.withRecord, if_neg hw']
  have hread : (if n = 0 then .ok [] else (id ((s₁.fetched p pa (4 * n)).leaveReady p st c)).readRecord p pa (4 * n)) = .ok l := hl
  extract_lets s₂
  have hread₂ : (if n = 0 then .ok [] else s₂.readRecord p pa (4 * n)) = .ok l := hread
  rw [hread₂]
  rfl

end

/-- A launch that has started, before its teams: it no longer waits, and is started in its stream. -/
theorem launchBegun_spec {r : State} (hc : r.cmdOf p st c.idx = some c) (hz : (r.str p st).span = none) :
    ∃ u, (r.leaveReady p st c).begin p st c = u ∧ u = { r with strs := u.strs, ctx := u.ctx } ∧ (∀ idx, u.spanOf p st idx = none)
      ∧ ∃ b, u.cmdOf p st c.idx = some { c with started := true, borrowed := b } :=
  ⟨_, rfl, rfl, spanOf_none ((begin_span ..).trans hz), begin_cmdOf (s := r.leaveReady p st c) hc⟩

theorem mem_launchClusters {k : Nat} (hk : k < 32) : k ∈ State.launchClusters c ↔ (c.w32 0x20).testBit k = true := by
  simp [State.launchClusters, hk]

/-- The group in slot `g / 4` of unit `4 k + g mod 4`, after a team has started on cluster `k`. -/
theorem TeamsStarted.group {l : List Nat} (h : TeamsStarted p st c args l s t) {k g : Nat} (hk : k ∈ l) (hg : g < c.f 0x24 8 8) (hn : c.f 0x24 8 8 ≤ 128) :
    t.grp (4 * k + g % 4) (g / 4) = s.freshGroup p st c args g := by
  rw [h.groups k (g % 4) (g / 4) (by omega) (by omega), show 4 * (g / 4) + g % 4 = g by omega, if_pos ⟨hk, hg⟩]

theorem addrOf_congr (hp : t.pkg = s.pkg) (ho : t.objs = s.objs) (q v : Nat) : t.addrOf q v = s.addrOf q v := by
  unfold State.addrOf State.self State.obj
  rw [hp, ho]

/-- A launch has started teams on its clusters from a state `s₁` in which it is ready, once its arguments are read in `r`. -/
structure Launched (p st : Nat) (c : Cmd) (args : List Nat) (s r t : State) : Prop where
  cmd : ∃ y, t.cmdOf p st c.idx = some y ∧ y.started = true ∧ y.done = none
  named : ∀ k, k < 32 → (c.w32 0x20).testBit k = true →
    t.teams.get none k = some { part := p, stream := st, cmd := c.idx, live := c.f 0x24 8 8, issued := 0 } ∧ (t.vec k).lanes = []
      ∧ ∀ g, g < c.f 0x24 8 8 → ∃ u : State, t.grp (4 * k + g % 4) (g / 4) = u.freshGroup p st c args g ∧ u.spanOf p st c.idx = none
        ∧ u.addrOf p (c.w64 0x10) = s.addrOf p (c.w64 0x10)
  others : ∀ k, k < 32 → (c.w32 0x20).testBit k = false → t.teams.get none k = s.teams.get none k
    ∧ ∀ u g, u < 4 → g < 32 → t.grp (4 * k + u) g = s.grp (4 * k + u) g
  frame : t = { r with strs := t.strs, ctx := t.ctx, groups := t.groups, units := t.units, vecs := t.vecs, teams := t.teams, ops := t.ops }

theorem launched_of_teams {s₁ r : State} (hm : MoreReady p s s₁) (hload : Loads s₁ r) (hc : s.cmdOf p st c.idx = some c) (hd : c.done = none)
    (hz : (s.str p st).span = none) (hn : c.f 0x24 8 8 ≤ 128) (args : List Nat) : Launched p st c args s r
      ((State.launchClusters c).foldl (fun s k => s.startTeam p st c args k) ((r.leaveReady p st c).begin p st c)) := by
  have hstrs : r.strs = s.strs := by rw [hload, hm.frame]
  have hteams : r.teams = s.teams := by rw [hload, hm.frame]
  have hgroups : r.groups = s.groups := by rw [hload, hm.frame]
  have hself : r.pkg = s.pkg ∧ r.objs = s.objs := by constructor <;> rw [hload, hm.frame]
  have hstr : r.str p st = s.str p st := by rw [State.str, hstrs]; rfl
  have hcr : r.cmdOf p st c.idx = some c := by rw [State.cmdOf, hstr]; exact hc
  obtain ⟨u, hu, hfu, hspan, b, hb⟩ := launchBegun_spec hcr (by rw [hstr]; exact hz)
  rw [hu]
  have hteams' : u.teams = s.teams := by rw [hfu, hteams]
  have hgroups' : u.groups = s.groups := by rw [hfu, hgroups]
  have haddr : u.addrOf p (c.w64 0x10) = s.addrOf p (c.w64 0x10) :=
    addrOf_congr (by rw [hfu, hself.1]) (by rw [hfu, hself.2]) ..
  have h := teamsStarted_foldl u p st c args hn (State.launchClusters c)
  generalize (State.launchClusters c).foldl (fun s k => s.startTeam p st c args k) u = t at h
  have hts : t.strs = u.strs := by rw [h.only]
  have hcmd : t.cmdOf p st c.idx = u.cmdOf p st c.idx := by
    rw [State.cmdOf, State.str, hts]
    rfl
  exact {
    cmd := ⟨_, hcmd.trans hb, rfl, hd⟩
    named := fun k hk hbit => by
      have hmem := (mem_launchClusters hk).2 hbit
      exact ⟨(h.teams k).trans (if_pos hmem), h.lanes k hmem, fun g hg => ⟨u, h.group hmem hg hn, hspan _, haddr⟩⟩
    others := fun k hk hbit => by
      have hmem : k ∉ State.launchClusters c := fun hh => by
        rw [(mem_launchClusters hk).1 hh] at hbit
        cases hbit
      refine ⟨by rw [h.teams, if_neg hmem, hteams'], fun w g hw hg => ?_⟩
      rw [h.groups k w g hw hg, if_neg fun hh => hmem hh.1, grp_congr hgroups']
    frame := by
      have ho := h.only
      unfold OnlyTeams at ho
      have hctx : t.ctx = u.ctx := by rw [ho]
      rw [hctx, hts]
      generalize t.groups = x₁, t.units = x₂, t.vecs = x₃, t.teams = x₄, t.ops = x₅ at ho ⊢
      rw [ho]
      generalize u.strs = y₁, u.ctx = y₂ at hfu ⊢
      rw [hfu] }

/-! ### The power-up of a cluster (R25, R26, R482) -/

/-- A clear bit of a number set by addition. -/
theorem testBit_add_two_pow {x i : Nat} (h : x.testBit i = false) (j : Nat) : (x + 2 ^ i).testBit j = (decide (j = i) || x.testBit j) := by
  obtain hj | rfl | hj := Nat.lt_trichotomy j i
  · rw [Nat.add_comm, Nat.testBit_two_pow_add_gt hj]
    simp [hj.ne]
  · rw [Nat.add_comm, Nat.testBit_two_pow_add_eq, h]
    simp
  · obtain ⟨k, rfl⟩ := Nat.exists_eq_add_of_lt hj
    have heven : x / 2 ^ i % 2 = 0 := by
      rw [Nat.testBit_eq_decide_div_mod_eq] at h
      simpa using h
    have hdiv : (x + 2 ^ i) / 2 ^ (i + 1) = x / 2 ^ (i + 1) := by
      rw [Nat.pow_succ, ← Nat.div_div_eq_div_mul, ← Nat.div_div_eq_div_mul, Nat.add_div_right _ (by positivity)]
      omega
    rw [show i + k + 1 = k + (i + 1) by omega, Nat.testBit_add, hdiv, ← Nat.testBit_add,
      decide_eq_false (by omega), Bool.false_or]

theorem place_cmemLpa {c off : Nat} (hc : c < 32) (ho : off < 0x1000000) : place (State.cmemLpa c off) = .cmem c off := by
  rw [place_cmem_iff, State.cmemLpa]
  omega

/-- The state as a cluster powers up. -/
def State.powered (s : State) (c : Nat) : State :=
  { s with
    pkg := { s.pkg with domains := s.pkg.domains + 2 ^ c }
    mem := s.mem.dropIf (fun a => decide (State.cmemLpa c 0 ≤ a) && decide (a < State.cmemLpa (c + 1) 0))
    cpoison := s.cpoison.dropIf (fun a => decide (State.cmemLpa c 0 / 8 ≤ a) && decide (a < State.cmemLpa (c + 1) 0 / 8))
    vecs := s.vecs.set {} c {}, arrays := s.arrays.set {} c {} }

theorem powered_memByte (s : State) (c a : Nat) : (s.powered c).memByte a
    = if State.cmemLpa c 0 ≤ a ∧ a < State.cmemLpa (c + 1) 0 then 0 else s.memByte a := by
  show SMap.get 0 (s.mem.dropIf fun a => decide (State.cmemLpa c 0 ≤ a) && decide (a < State.cmemLpa (c + 1) 0)) a = _
  rw [SMap.get_dropIf]
  exact if_congr (by simp) rfl rfl

theorem peek_congr {a : Nat} (hl : t.lines = s.lines) (hm : t.memByte a = s.memByte a) : t.peek a = s.peek a := by
  simp only [State.peek, State.line, hl, hm]
  cases place a <;> rfl

theorem powered_domOn {c : Nat} (h : s.domOn c = false) (d : Nat) : (s.powered c).domOn d = (decide (d = c) || s.domOn d) :=
  testBit_add_two_pow h d

theorem powered_peek (s : State) {c off : Nat} (hc : c < 32) (ho : off < 0x1000000) : (s.powered c).peek (State.cmemLpa c off) = 0 := by
  have hin : State.cmemLpa c 0 ≤ State.cmemLpa c off ∧ State.cmemLpa c off < State.cmemLpa (c + 1) 0 := by
    simp only [State.cmemLpa]
    omega
  rw [State.peek, place_cmemLpa hc ho]
  dsimp only
  rw [powered_memByte, if_pos hin, ite_self]

theorem powered_peek_others (s : State) {c a : Nat} (h : ¬ (State.cmemLpa c 0 ≤ a ∧ a < State.cmemLpa (c + 1) 0)) :
    (s.powered c).peek a = s.peek a :=
  peek_congr rfl ((powered_memByte ..).trans (if_neg h))

theorem powered_vec (s : State) (c : Nat) : (s.powered c).vec c = {} := by
  simp only [State.vec, State.powered, SMap.get_set_same]

theorem powered_arr (s : State) (c : Nat) : (s.powered c).arr c = {} := by
  simp only [State.arr, State.powered, SMap.get_set_same]

theorem powered_frame (s : State) (c : Nat) : s.powered c = { s with
    pkg := (s.powered c).pkg, mem := (s.powered c).mem, cpoison := (s.powered c).cpoison, vecs := (s.powered c).vecs
    arrays := (s.powered c).arrays } := rfl

theorem exec_clusterPowerUp (c : Fin 32) (s : State) : exec (.clusterPowerUp c) s
    = .next (if s.domOn c.val || !s.hasCtx (s.partOfCluster c.val) || !s.aimedAt c.val then s else s.powered c.val) := rfl

end

/-- Settles O30. The record of a launch is read, which leaves all but lines, memory and events alone; then a team starts on each of its clusters, of
which each leaves the others as they are. -/
theorem launchesAndPower : Obligations.LaunchesAndPower := by
  unfold Obligations.LaunchesAndPower
  dsimp only
  refine ⟨⟨fun s p st x l hl hc hr hw hread => ?_, fun s p st x hl hc hr => ?_, fun s p st x hl hc => ?_⟩, fun s c hoff hctx haim => ?_,
    fun s c h => ?_⟩
  · obtain ⟨hs, hi, hspan, hn⟩ := hl
    have hm := (moreReady_noteReady s p.val).trans (moreReady_joinReady (s.noteReady p.val) p.val st.val x)
    have hpa := congrArg Prod.snd (hm.addrOf p.val (x.w64 0x18))
    have hgo := launchGo_starts rfl hpa rfl hr hw hread
    have hload := loads_fetched ((s.noteReady p.val).joinReady p.val st.val x) p.val (s.addrOf p.val (x.w64 0x18)).2 (4 * x.f 0x24 16 6)
    have h := launched_of_teams hm hload hs.2.1 hs.2.2 hspan hn ((List.range (x.f 0x24 16 6)).map (fun i => State.rec32 l (4 * i)))
    refine ⟨_, (exec_launch_go hs hi hc).trans (congrArg _ hgo), hload, h.cmd, fun k hk hbit => ?_, h.others, h.frame⟩
    obtain ⟨hteam, hlanes, hgroups⟩ := h.named k hk hbit
    refine ⟨hteam, hlanes, fun g hg => ?_⟩
    obtain ⟨u, hu, hz, haddr⟩ := hgroups g hg
    rw [hu]
    obtain ⟨h1, h2, h3, h4, h5, h6, h7, hthr, hregs⟩ := freshGroup_spec hz ((List.range (x.f 0x24 16 6)).map (fun i => State.rec32 l (4 * i))) g
    refine ⟨h1, h2, h3, h4, h5, h6, h7, fun ln hln => ?_, fun r hr => ?_⟩
    · rw [← haddr]
      exact hthr ln hln
    · rw [hregs r hr, List.length_map, List.length_range]
      split
      · rename_i hlt
        simp [hlt]
      · rfl
  · obtain ⟨hs, hi, -, -⟩ := hl
    have hm := (moreReady_noteReady s p.val).trans (moreReady_joinReady (s.noteReady p.val) p.val st.val x)
    have hpa := congrArg Prod.snd (hm.addrOf p.val (x.w64 0x18))
    exact ⟨_, (exec_launch_go hs hi hc).trans (congrArg _ (launchGo_waits rfl hpa rfl id hr)), hm.frame, joinReady_mem .., hm.grows⟩
  · obtain ⟨hs, hi, -, -⟩ := hl
    have hm := moreReady_noteReady s p.val
    exact ⟨_, exec_launch_fails hs hi hc, beginEnd_spec ((hm.cmdOf ..).trans hs.2.1) hs.2.2 _⟩
  · have hon : (s.powered c.val).domOn c.val = true := by
      rw [powered_domOn hoff]
      simp
    have hothers (d : Nat) (hd : d ≠ c.val) : (s.powered c.val).domOn d = s.domOn d := by
      rw [powered_domOn hoff, decide_eq_false hd, Bool.false_or]
    refine ⟨s.powered c.val, (exec_clusterPowerUp c s).trans (congrArg _ (if_neg (by simp [hoff, hctx, haim]))), hon, hothers, ?_⟩
    have hframe := powered_frame s c.val
    have hpeek := fun off => powered_peek s (off := off) c.isLt
    have hout := fun a => powered_peek_others s (c := c.val) (a := a)
    have hvec := powered_vec s c.val
    have harr := powered_arr s c.val
    generalize s.powered c.val = t at *
    exact ⟨hpeek, fun a ha => hout a (by omega), hvec, harr, hframe⟩
  · refine ⟨s, (exec_clusterPowerUp c s).trans (congrArg _ (if_pos ?_)), rfl⟩
    obtain h | h | h := h <;> simp [h]

end Sys2Proof.Machine
end

section
/-! ### The stride of a cluster's memory (R44) -/

namespace Sys2Proof.Machine

theorem wake_peek (s : State) (lpa a : Nat) : (s.wake lpa).peek a = s.peek a := peek_congr rfl rfl

/-- The upper part of the stride reads zero. -/
theorem peek_upper {s : State} {a c off : Nat} (hp : place a = .cmem c off) (hoff : 0xC00000 ≤ off) : s.peek a = 0 := by
  simp only [State.peek, hp, if_pos hoff]

/-- The lower part reads what memory holds. -/
theorem peek_cmem {s : State} {a c off : Nat} (hp : place a = .cmem c off) (hoff : off < 0xC00000) : s.peek a = s.memByte a := by
  simp only [State.peek, hp, if_neg (Nat.not_le.2 hoff)]

theorem pokeLine_cmem_lines {s : State} {p a c off : Nat} (hp : place a = .cmem c off) (hon : s.domOn c = true) (hoff : off < 0xC00000)
    (l : List Byte) : (s.pokeLine p a l).lines = s.lines := by
  obtain ⟨m, hm⟩ := pokeLine_cmem (p := p) hp hon hoff l
  rw [hm, setMemBytes_frame]
  rfl

/-- Bytes written at the bank of a cluster that is on. -/
theorem pokeLine_cmem_memByte {s : State} {p a c off : Nat} (hp : place a = .cmem c off) (hon : s.domOn c = true) (hoff : off < 0xC00000)
    (l : List Byte) (b : Nat) :
    (s.pokeLine p a l).memByte b = if a ≤ b ∧ b < a + l.length then (l[b - a]?).getD 0 else s.memByte b := by
  obtain ⟨m, hm⟩ := pokeLine_cmem (p := p) hp hon hoff l
  rw [hm]
  exact State.memByte_setMemBytes (s.wake a) a l b

/-- Settles O59: a write to the lower part of the stride stays in its line, hence below the upper part, and its bytes go to memory, where the
lower part is read; the upper part reads zero and takes no write. -/
theorem clusterMemoryStride : Obligations.ClusterMemoryStride := by
  unfold Obligations.ClusterMemoryStride
  refine ⟨fun s c off hc hlo hhi => ?_, fun s p c off l hc hlo hhi _ a => ?_, fun s p c off l hc hlo hline hon => ?_⟩
  · exact peek_upper (place_cmemLpa hc hhi) hlo
  · rw [pokeLine_upper (place_cmemLpa hc hhi) hlo, wake_peek]
  · have hp := place_cmemLpa hc (off := off) (by omega)
    refine ⟨fun i b hb => ?_, fun a ha => ?_⟩
    · obtain ⟨hi, rfl⟩ := List.getElem?_eq_some_iff.1 hb
      have hpi := place_cmem_add hp (j := i) (by omega)
      rw [peek_cmem hpi (by omega), pokeLine_cmem_memByte hp hon hlo, if_pos (by omega), Nat.add_sub_cancel_left, hb]
      rfl
    · refine peek_congr (pokeLine_cmem_lines hp hon hlo l) ?_
      rw [pokeLine_cmem_memByte hp hon hlo, if_neg (by omega)]

end Sys2Proof.Machine
end

section
/-! ### Writes of extent entries (R54, R55) -/

namespace Sys2Proof.Machine

/-- The state with extent entry `e` of partition `p` changed. -/
def State.setExtent (s : State) (p e : Nat) (x : Extent) : State := { s with extents := s.extents.set {} (p * 64 + e) x }

theorem setExtent_extent (s : State) (p e : Nat) (x : Extent) (p' e' : Nat) :
    (s.setExtent p e x).extent p' e' = if p * 64 + e = p' * 64 + e' then x else s.extent p' e' :=
  SMap.get_set ..

@[simp] theorem setExtent_extent_same (s : State) (p e : Nat) (x : Extent) : (s.setExtent p e x).extent p e = x := by
  rw [setExtent_extent, if_pos rfl]

theorem setExtent_extent_ne (s : State) {p e p' e' : Nat} (h : p' * 64 + e' ≠ p * 64 + e) (x : Extent) :
    (s.setExtent p e x).extent p' e' = s.extent p' e' := by
  rw [setExtent_extent, if_neg h.symm]

section
variable {s : State} {p e v : Nat}

/-! #### The entries of firmware, and writes while a context exists -/

theorem extentRange_firmware (he : e < 8) (field : Nat) : s.extentRange p e field v = s := by
  simp [State.extentRange, he]

theorem extentPerm_firmware (he : e < 8) : s.extentPerm p e v = s := by
  simp [State.extentPerm, he]

theorem extentRange_busy (hc : s.hasCtx p = true) (field : Nat) : s.extentRange p e field v = s := by
  simp [State.extentRange, hc]

variable (he : 8 ≤ e) (he' : e < 64)
include he he'

theorem extentPerm_busy (hc : s.hasCtx p = true) : s.extentPerm p e v = s.setExtent p e { s.extent p e with err := 1 } := by
  simp [State.extentPerm, State.setExtent, hc, Nat.not_lt.2 he, Nat.not_le.2 he']

/-! #### The entries of the partition -/

variable (hc : s.hasCtx p = false)
include hc

/-- A range register takes its granule number, and its entry is invalid. -/
theorem extentRange_eq {field : Nat} (hf : field < 3) : s.extentRange p e field v = s.setExtent p e { s.extent p e with
    base := if field = 0 then bits v 16 28 else (s.extent p e).base
    limit := if field = 1 then bits v 16 28 else (s.extent p e).limit
    target := if field = 2 then bits v 16 28 else (s.extent p e).target
    valid := false } := by
  simp only [State.extentRange, hc, Nat.not_lt.2 he, Nat.not_le.2 he', decide_false, Bool.or_self, Bool.false_eq_true, if_false]
  interval_cases field <;> rfl

/-- PRT_EXT_PERM written without VALID. -/
theorem extentPerm_clear (hv : bit v 31 = false) :
    s.extentPerm p e v = s.setExtent p e { s.extent p e with perm := bits v 0 6, valid := false } := by
  simp [State.extentPerm, State.setExtent, hc, hv, Nat.not_lt.2 he, Nat.not_le.2 he']

/-- PRT_EXT_PERM written with VALID: the entry is valid if no check fails, and holds the first that does. -/
theorem extentPerm_checked (hv : bit v 31 = true) {c : Nat} (hcheck : s.extentCheck p e (s.extent p e) (bits v 0 6) = c) :
    s.extentPerm p e v = s.setExtent p e { s.extent p e with perm := bits v 0 6, valid := c == 0, err := c } := by
  simp [State.extentPerm, State.setExtent, hc, hv, hcheck, Nat.not_lt.2 he, Nat.not_le.2 he']

end

/-! #### The checks of an entry (R54) -/

theorem bit_bits_low (v : Nat) {w n : Nat} (h : n < w) : bit (bits v 0 w) n = bit v n := by
  simp [bit, bits, h]

/-- Of the permissions W, X, A and H — bits 2 to 5 — `a` carries none that `b` lacks. -/
theorem excess_eq_zero_iff (a b : Nat) :
    a &&& (b ^^^ 0x3F) &&& 0x3C = 0 ↔ ∀ n, 2 ≤ n → n < 6 → bit a n = true → bit b n = true := by
  have hmask : ∀ n, Nat.testBit 0x3C n = decide (2 ≤ n ∧ n < 6) ∧ (n < 6 → Nat.testBit 0x3F n = true) := fun n => by
    by_cases h : n < 6
    · interval_cases n <;> decide
    · have hlt : 0x3C < 2 ^ n := lt_of_lt_of_le (by decide) (Nat.pow_le_pow_right two_pos (Nat.le_of_not_lt h))
      exact ⟨by rw [Nat.testBit_lt_two_pow hlt]; simp [h], fun h' => absurd h' h⟩
  constructor
  · intro h n h2 h6 ha
    have hn := congrArg (fun x => Nat.testBit x n) h
    simp only [Nat.testBit_and, Nat.testBit_xor, (hmask n).1, (hmask n).2 h6, h2, h6, Nat.zero_testBit] at hn
    simp only [bit] at ha ⊢
    simpa [ha] using hn
  · refine fun h => Nat.eq_of_testBit_eq fun n => ?_
    rw [Nat.testBit_and, Nat.testBit_and, Nat.testBit_xor, (hmask n).1, Nat.zero_testBit]
    by_cases hn : 2 ≤ n ∧ n < 6
    · have := h n hn.1 hn.2
      rw [(hmask n).2 hn.2]
      simp only [bit] at this
      by_cases ha : a.testBit n = true
      · simp [this ha]
      · simp [ha]
    · simp [hn]

section
variable {s : State} {p e perm : Nat} {x : Extent}

theorem extentCheck_order (h : x.limit < x.base) : s.extentCheck p e x perm = 2 := by
  simp [State.extentCheck, h]

variable (horder : x.base ≤ x.limit)
include horder

theorem extentCheck_overlap {i : Nat} (hi : i < 64) (hne : i ≠ e) (hv : (s.extent p i).valid = true)
    (hlo : (s.extent p i).base ≤ x.limit) (hhi : x.base ≤ (s.extent p i).limit) : s.extentCheck p e x perm = 3 := by
  unfold State.extentCheck
  rw [if_neg (Nat.not_lt.2 horder), if_pos]
  exact List.any_eq_true.2 ⟨i, List.mem_range.2 hi, by simp [hne, hv, hlo, hhi]⟩

variable (hapart : ∀ i, i < 64 → i ≠ e → (s.extent p i).valid = true → x.limit < (s.extent p i).base ∨ (s.extent p i).limit < x.base)
include hapart

/-- An entry that meets no other is measured against firmware's. -/
theorem extentCheck_apart : s.extentCheck p e x perm = (s.firmwareFor p x.target (x.target + x.limit - x.base)).elim 4 fun f =>
    if (perm &&& (f.perm ^^^ 0x3F) &&& 0x3C) ≠ 0 then 5 else 0 := by
  unfold State.extentCheck
  rw [if_neg (Nat.not_lt.2 horder), if_neg]
  · cases s.firmwareFor p x.target (x.target + x.limit - x.base) <;> rfl
  · intro h
    obtain ⟨i, hi, h⟩ := List.any_eq_true.1 h
    simp only [Bool.and_eq_true, bne_iff_ne, decide_eq_true_eq] at h
    obtain ⟨⟨⟨hne, hv⟩, hlo⟩, hhi⟩ := h
    have := hapart i (List.mem_range.1 hi) hne hv
    omega

theorem extentCheck_outside (hf : s.firmwareFor p x.target (x.target + x.limit - x.base) = none) : s.extentCheck p e x perm = 4 := by
  rw [extentCheck_apart horder hapart, hf, Option.elim_none]

theorem extentCheck_permission {f : Extent} (hf : s.firmwareFor p x.target (x.target + x.limit - x.base) = some f) {n : Nat} (h2 : 2 ≤ n)
    (h6 : n < 6) (hn : bit perm n = true) (hlack : bit f.perm n = false) : s.extentCheck p e x perm = 5 := by
  rw [extentCheck_apart horder hapart, hf]
  refine if_pos fun h => ?_
  rw [(excess_eq_zero_iff _ _).1 h n h2 h6 hn] at hlack
  cases hlack

theorem extentCheck_passes {f : Extent} (hf : s.firmwareFor p x.target (x.target + x.limit - x.base) = some f)
    (hperm : ∀ n, 2 ≤ n → n < 6 → bit perm n = true → bit f.perm n = true) : s.extentCheck p e x perm = 0 := by
  rw [extentCheck_apart horder hapart, hf]
  exact if_neg (not_not.2 ((excess_eq_zero_iff _ _).2 hperm))

end

/-! #### The commands -/

theorem exec_extentPermWrite (p : Fin 4) (e : Fin 64) (w : W32) (s : State) :
    exec (.extentPermWrite p e w) s = .next (s.extentPerm p.val e.val w.toNat) := rfl

theorem exec_extentRangeWrite (p : Fin 4) (e : Fin 64) (field : Fin 3) (v : W64) (s : State) :
    exec (.extentRangeWrite p e field v) s = .next (s.extentRange p.val e.val field.val v.toNat) := rfl

end Sys2Proof.Machine
end

section
/-! ### Writes of counter entries (R275, R278) -/

namespace Sys2Proof.Machine

/-- From `s` to `t` nothing has changed but groups, units, operations in flight and the commands of streams. -/
def Wakes (s t : State) : Prop := t = { s with groups := t.groups, units := t.units, ops := t.ops, strs := t.strs }

section
variable {s t u : State}

theorem Wakes.refl (s : State) : Wakes s s := rfl

theorem Wakes.trans (h : Wakes s t) (h' : Wakes t u) : Wakes s u := by
  unfold Wakes at *
  generalize u.groups = a, u.units = b, u.ops = c, u.strs = d at h' ⊢
  rw [h] at h'
  exact h'

theorem Wakes.foldl {α : Type} {f : State → α → State} (hf : ∀ s a, Wakes s (f s a)) (l : List α) (s : State) : Wakes s (l.foldl f s) :=
  State.foldl_keeps (Wakes s) f (fun t a h => h.trans (hf t a)) l s (.refl s)

theorem wakes_setGrp (s : State) (u k : Nat) (g : Grp) : Wakes s (s.setGrp u k g) := rfl

theorem wakes_acquire (s : State) (u scope : Nat) : Wakes s (s.acquire u scope) := by
  unfold State.acquire
  split <;> rfl

theorem wakes_releaseWaiter (s : State) (p value : Nat) (w : Waiter) : Wakes s (s.releaseWaiter p value w) := by
  unfold State.releaseWaiter
  split
  · refine .foldl (fun t lane => ?_) _ _
    dsimp only
    split
    · exact .refl t
    · split
      · exact .refl t
      · exact (wakes_setGrp ..).trans (wakes_acquire ..)
  · rfl

theorem wakes_releaseCtr (s : State) (r n : Nat) :
    Wakes (s.setCtr r n { s.ctr r n with waiters := (s.ctr r n).waiters.filter fun w => decide ((s.ctr r n).value < w.target) })
      (s.releaseCtr r n) := by
  have hlater : (not ∘ fun w : Waiter => decide (w.target ≤ (s.ctr r n).value)) = fun w => decide ((s.ctr r n).value < w.target) :=
    funext fun w => by rw [Function.comp_apply, ← decide_not, decide_eq_decide, Nat.not_le]
  unfold State.releaseCtr
  simp only [List.partition_eq_filter_filter, hlater]
  exact .foldl (fun _ _ => wakes_releaseWaiter ..) _ _

end

theorem setCtr_ctr (s : State) (r n : Nat) (c : Ctr) (r' n' : Nat) :
    (s.setCtr r n c).ctr r' n' = if r * 4096 + n = r' * 4096 + n' then c else s.ctr r' n' :=
  SMap.get_set ..

@[simp] theorem setCtr_ctr_same (s : State) (r n : Nat) (c : Ctr) : (s.setCtr r n c).ctr r n = c := by
  rw [setCtr_ctr, if_pos rfl]

/-- A counter changed, and its waiters released whose target it meets. -/
theorem releaseCtr_setCtr (s : State) (r n : Nat) (c : Ctr) : ∃ t, (s.setCtr r n c).releaseCtr r n = t
    ∧ t.ctr r n = { c with waiters := c.waiters.filter fun w => decide (c.value < w.target) }
    ∧ (∀ r' n', r' * 4096 + n' ≠ r * 4096 + n → t.ctr r' n' = s.ctr r' n') ∧ t.fences = s.fences ∧ t.mem = s.mem := by
  have h := wakes_releaseCtr (s.setCtr r n c) r n
  rw [setCtr_ctr_same] at h
  have hctr : ∀ r' n', ((s.setCtr r n c).releaseCtr r n).ctr r' n' = _ := fun r' n' => congrArg (fun t => State.ctr t r' n') h
  refine ⟨_, rfl, (hctr r n).trans (setCtr_ctr_same ..), fun r' n' hne => (hctr r' n').trans ?_, by rw [h]; rfl, by rw [h]; rfl⟩
  exact (setCtr_ctr ..).trans ((if_neg hne.symm).trans ((setCtr_ctr ..).trans (if_neg hne.symm)))

/-! #### The write of a register of an entry -/

/-- The register tables of VALUE (0), FLOOR (1) and CEIL (2) of the counters. -/
def ctrEntryDef (field : Nat) : RegDef :=
  ⟨0x10000 + 4 * field, 16, 4096, false, 0xFFFFFFFF, 0, 0, 0, if field = 2 then 0xFFFFFFFF else 0⟩

/-- They stand at the end of the table, behind 17 registers of other offsets. -/
theorem regDefsCtr_split (field : Fin 3) :
    regDefsCtr = regDefsCtr.take (17 + field.val) ++ ctrEntryDef field.val :: regDefsCtr.drop (18 + field.val) := by
  revert field
  decide

theorem regBase_ctrEntry (r : Nat) {n : Nat} (hn : n < 4096) (field : Fin 3) :
    regBase (home .ctr r (0x10000 + 16 * n + 4 * field.val)) = some (ctrEntryDef field, 0x10000 + 16 * n + 4 * field.val) := by
  have hoff : 0x10000 + 16 * n + 4 * field.val - (0x10000 + 4 * field.val) = 16 * n := by omega
  have hdef : findDef (regDefs .ctr) (0x10000 + 16 * n + 4 * field.val) = some (ctrEntryDef field) := by
    refine List.find?_eq_some_iff_append.2 ⟨by simp [ctrEntryDef, hoff, hn], _, _, regDefsCtr_split field, ?_⟩
    obtain ⟨field, hf⟩ := field
    interval_cases field <;> simp [regDefsCtr, ro, perf] <;> omega
  simp only [regBase, home, hdef, Option.map_some, ctrEntryDef, Option.some.injEq, Prod.mk.injEq, true_and]
  rw [if_neg (by decide)]
  omega

theorem regWriteFull_ctrEntry {s : State} {a : RegAddr} {d : RegDef} {base : Nat} (hk : a.kind = .ctr)
    (ha : s.asleep { a with off := base } d base = false) (hlo : 0x10000 ≤ base) (v idx : Nat) :
    s.regWriteFull a d base v idx = s.ctrWrite a.inst ((base - 0x10000) / 16) (base % 16 / 4) (v % 2 ^ 32) idx := by
  unfold State.regWriteFull
  simp only [ha, Bool.false_eq_true, if_false]
  simp only [hk, if_neg (Nat.not_lt.2 hlo), if_neg (show base ≠ 0x10 by omega)]

/-- CTR_ENTRY_WRITE in a region whose fabric is on. -/
theorem exec_ctrEntryWrite {s : State} {r : Fin 4} (n : Fin 4096) (field : Fin 3) (w : W32) (hon : s.domOn (32 + r.val) = true) :
    exec (.ctrEntryWrite r n field w) s = .next (s.ctrWrite r.val n.val field.val w.toNat 0) := by
  have ha := asleep_region_on (s := s) (a := home .ctr r.val (0x10000 + 16 * n.val + 4 * field.val)) rfl hon (ctrEntryDef field)
    (0x10000 + 16 * n.val + 4 * field.val)
  have hn : (0x10000 + 16 * n.val + 4 * field.val - 0x10000) / 16 = n.val := by omega
  have hf : (0x10000 + 16 * n.val + 4 * field.val) % 16 / 4 = field.val := by omega
  show Host.Outcome.next (s.regWrite _ _ _) = _
  rw [regWrite_narrow (regBase_ctrEntry r.val n.isLt field) rfl ha,
    regWriteFull_ctrEntry (a := home .ctr r.val (0x10000 + 16 * n.val + 4 * field.val)) rfl ha (by omega), hn, hf, Nat.mod_mod,
    Nat.mod_eq_of_lt w.isLt]
  rfl

/-- A counter to whose VALUE the register write of command `idx` writes `v`: a new value names it as the last signaller (R278). -/
def Ctr.written (c : Ctr) (v idx : Nat) : Ctr :=
  if v = c.value then c else { c with value := v, lastAgent := 0x0170, lastAmount := (v + 2 ^ 32 - c.value) % 2 ^ 32, lastCmd := idx }

@[simp] theorem Ctr.written_value (c : Ctr) (v idx : Nat) : (c.written v idx).value = v := by
  unfold Ctr.written
  split
  · next h => exact h.symm
  · rfl

@[simp] theorem Ctr.written_waiters (c : Ctr) (v idx : Nat) : (c.written v idx).waiters = c.waiters := by
  unfold Ctr.written
  split <;> rfl

theorem Ctr.written_lastAgent {c : Ctr} {v : Nat} (h : v ≠ c.value) (idx : Nat) : (c.written v idx).lastAgent = 0x0170 := by
  rw [Ctr.written, if_neg h]

section
variable {s : State} {r n : Nat} (hd : s.ctrDiscards (s.partOfRegion r) = false)
include hd

/-- VALUE within its limits. -/
theorem ctrWrite_value {v : Nat} (hlo : (s.ctr r n).floor ≤ v) (hhi : v ≤ (s.ctr r n).ceil) (idx : Nat) :
    s.ctrWrite r n 0 v idx = (s.setCtr r n ((s.ctr r n).written v idx)).releaseCtr r n := by
  simp [State.ctrWrite, Ctr.written, hd, Nat.not_lt.2 hlo, Nat.not_lt.2 hhi]

theorem ctrWrite_value_refused {v : Nat} (h : v < (s.ctr r n).floor ∨ (s.ctr r n).ceil < v) (idx : Nat) :
    s.ctrWrite r n 0 v idx = s.setReg (home .ctr r 0x100) (n + 1 * 0x1000) := by
  simp [State.ctrWrite, hd, h]

theorem ctrWrite_floor {v : Nat} (hv : v ≤ (s.ctr r n).value) (hc : v ≤ (s.ctr r n).ceil) (idx : Nat) :
    s.ctrWrite r n 1 v idx = s.setCtr r n { s.ctr r n with floor := v } := by
  simp [State.ctrWrite, hd, Nat.not_lt.2 hv, Nat.not_lt.2 hc]

theorem ctrWrite_floor_refused {v : Nat} (h : (s.ctr r n).value < v ∨ (s.ctr r n).ceil < v) (idx : Nat) :
    s.ctrWrite r n 1 v idx = s.setReg (home .ctr r 0x100) (n + 2 * 0x1000) := by
  simp [State.ctrWrite, hd, h]

theorem ctrWrite_ceil {v : Nat} (hv : (s.ctr r n).value ≤ v) (hf : (s.ctr r n).floor ≤ v) (idx : Nat) :
    s.ctrWrite r n 2 v idx = s.setCtr r n { s.ctr r n with ceil := v } := by
  simp [State.ctrWrite, hd, Nat.not_lt.2 hv, Nat.not_lt.2 hf]

theorem ctrWrite_ceil_refused {v : Nat} (h : v < (s.ctr r n).value ∨ v < (s.ctr r n).floor) (idx : Nat) :
    s.ctrWrite r n 2 v idx = s.setReg (home .ctr r 0x100) (n + 3 * 0x1000) := by
  simp [State.ctrWrite, hd, h]

end

/-- A refused write changes no counter, and CTR_LAST_ERROR holds its cause. -/
theorem completes_ctrRefused {s t : State} {c : Instr} {r n e : Nat} (hc : exec c s = .next t)
    (ht : t = s.setReg (home .ctr r 0x100) (n + e * 0x1000)) :
    Completes c s fun t => t.ctrs = s.ctrs ∧ t.reg (home .ctr r 0x100) = n + e * 0x1000 :=
  ⟨t, hc, by rw [ht]; rfl, by rw [ht, State.setReg_reg_same]⟩

/-- Settles O21: the writes of an extent entry by who owns it, whether a context exists and the first check that fails; and those of a
counter's VALUE, FLOOR and CEIL by its limits. -/
theorem extentAndCounterWrites : Obligations.ExtentAndCounterWrites := by
  unfold Obligations.ExtentAndCounterWrites
  refine ⟨⟨fun s p e w field v he => ⟨⟨_, exec_extentPermWrite .., extentPerm_firmware he⟩,
        ⟨_, exec_extentRangeWrite .., extentRange_firmware he _⟩⟩,
      fun s p e w field v he hc => ⟨⟨_, exec_extentPermWrite .., ?_⟩, ⟨_, exec_extentRangeWrite .., extentRange_busy hc _⟩⟩,
      fun s p e field v he hc => ⟨_, exec_extentRangeWrite .., ?_⟩, fun s p e w f he hc hv => ?_, fun s p e w he hc hv => ?_,
      fun s p e w i he hc hv => ?_, fun s p e w he hc hv => ?_, fun s p e w he hc hv => ⟨_, exec_extentPermWrite .., ?_⟩⟩,
    fun s r n w hopen => ?_, fun s r n w hopen => ?_, fun s r n w hopen => ?_⟩
  · rw [extentPerm_busy he e.isLt hc]
    exact ⟨setExtent_extent_same .., rfl⟩
  · rw [extentRange_eq he e.isLt hc field.isLt]
    exact ⟨setExtent_extent_same .., rfl, fun p' e' hne => setExtent_extent_ne _ hne _⟩
  · intro x horder hapart hf hperm
    have hcheck := extentCheck_passes horder hapart hf (perm := bits w.toNat 0 6) fun n h2 h6 => by
      rw [bit_bits_low _ h6]
      exact hperm n h2 h6
    refine ⟨_, exec_extentPermWrite .., ?_⟩
    rw [extentPerm_checked he e.isLt hc hv hcheck]
    exact ⟨setExtent_extent_same .., rfl, fun p' e' hne => setExtent_extent_ne _ hne _⟩
  · intro x horder
    refine ⟨_, exec_extentPermWrite .., ?_⟩
    rw [extentPerm_checked he e.isLt hc hv (extentCheck_order horder)]
    exact setExtent_extent_same ..
  · intro x horder hi hne hvalid hlo hhi
    refine ⟨_, exec_extentPermWrite .., ?_⟩
    rw [extentPerm_checked he e.isLt hc hv (extentCheck_overlap horder hi hne hvalid hlo hhi)]
    exact setExtent_extent_same ..
  · intro x horder hapart
    refine ⟨fun hf => ⟨_, exec_extentPermWrite .., ?_⟩, fun f n hf h2 h6 hn hlack => ⟨_, exec_extentPermWrite .., ?_⟩⟩
    · rw [extentPerm_checked he e.isLt hc hv (extentCheck_outside horder hapart hf)]
      exact setExtent_extent_same ..
    · rw [extentPerm_checked he e.isLt hc hv
        (extentCheck_permission horder hapart hf h2 h6 ((bit_bits_low _ h6).trans hn) hlack)]
      exact setExtent_extent_same ..
  · rw [extentPerm_clear he e.isLt hc hv]
    exact setExtent_extent_same ..
  · obtain ⟨hon, hd⟩ := hopen
    refine ⟨fun hlo hhi => ?_, fun h => completes_ctrRefused (exec_ctrEntryWrite n 0 w hon) (ctrWrite_value_refused hd h 0)⟩
    obtain ⟨t, ht, hctr, hothers, hfen, hmem⟩ := releaseCtr_setCtr s r.val n.val ((s.ctr r.val n.val).written w.toNat 0)
    refine ⟨t, (exec_ctrEntryWrite n 0 w hon).trans (congrArg _ ((ctrWrite_value hd hlo hhi 0).trans ht)), ?_, ?_, fun hne => ?_,
      hothers, hfen, hmem⟩
    · rw [hctr, Ctr.written_value]
    · rw [hctr, Ctr.written_waiters, Ctr.written_value]
    · rw [hctr, Ctr.written_lastAgent hne]
  · obtain ⟨hon, hd⟩ := hopen
    refine ⟨fun hv hc => ⟨_, exec_ctrEntryWrite n 1 w hon, ?_⟩,
      fun h => completes_ctrRefused (exec_ctrEntryWrite n 1 w hon) (ctrWrite_floor_refused hd h 0)⟩
    rw [show (1 : Fin 3).val = 1 from rfl, ctrWrite_floor hd hv hc]
    exact ⟨setCtr_ctr_same .., rfl⟩
  · obtain ⟨hon, hd⟩ := hopen
    refine ⟨fun hv hf => ⟨_, exec_ctrEntryWrite n 2 w hon, ?_⟩,
      fun h => completes_ctrRefused (exec_ctrEntryWrite n 2 w hon) (ctrWrite_ceil_refused hd h 0)⟩
    rw [show (2 : Fin 3).val = 2 from rfl, ctrWrite_ceil hd hv hf]
    exact ⟨setCtr_ctr_same .., rfl⟩

end Sys2Proof.Machine
end

section
/-! ### A remote read under a layout that no configuration has (R35, R353) -/

namespace Sys2Proof.Machine

section
variable {s t : State}

theorem bump_peek (s : State) (r : RegAddr) (n a : Nat) : (s.bump r n).peek a = s.peek a :=
  peek_congr (State.bump_lines ..) (by rw [State.memByte, State.bump_mem]; rfl)

/-- Bytes of one line are loaded by one access. -/
theorem readPa_line {p pa n lpa : Nat} (hn : 0 < n) (hline : pa % 128 + n ≤ 128) (ht : s.translate p pa 0 = some lpa) :
    s.readPa p pa n = s.readLine p lpa n := by
  have hone : (pa + n - 1) / 128 - pa / 128 + 1 = 1 := by omega
  have hlo : max pa ((pa / 128 + 0) * 128) = pa := by omega
  have hhi : min (pa + n) ((pa / 128 + 0 + 1) * 128) - pa = n := by omega
  unfold State.readPa
  rw [if_neg (Nat.ne_of_gt hn), hone, List.range_one, List.foldl_cons, List.foldl_nil]
  simp only [hlo, hhi, ht]

/-- A miss of an HBM line: beyond counters it is what the miss makes of the line. -/
theorem readLine_miss_peek {p lpa n : Nat} (hp : place lpa = .hbm) (hmiss : s.lineHeld lpa n = false) (e : Ecc) (a : Nat) :
    (s.readLine p lpa n e).peek a = (s.agentMiss p lpa e).peek a := by
  unfold State.readLine
  simp only [hp, hmiss, Bool.false_eq_true, if_false]
  split
  · exact bump_peek ..
  · rfl

/-- Where one line alone may be given up, a miss in a full set takes its way. -/
theorem allocLine_sole {p lpa v : Nat} (habsent : (s.line lpa).present = false)
    (hfull : 16 ≤ (s.setLines (s.sliceOf lpa).1 (s.sliceOf lpa).2).length)
    (hv : s.victims (s.sliceOf lpa).1 p (s.setLines (s.sliceOf lpa).1 (s.sliceOf lpa).2) = [v]) :
    s.allocLine p lpa = some ((s.draw.2.evict (v * 128)).freshLine p lpa) := by
  unfold State.allocLine
  simp only [habsent, Bool.false_eq_true, if_false, if_neg (Nat.not_lt.2 hfull), hv, List.length_nil, Nat.zero_add, Nat.mod_one,
    List.getElem?_cons_zero, Option.getD_some]

/-- A miss once its line has a way: counted, filled. -/
theorem agentMiss_alloc {p lpa : Nat} (h : s.allocLine p (lpa / 128 * 128) = some t) (e : Ecc) : s.agentMiss p lpa e =
    let b := lpa / 128 * 128
    let slice := (s.sliceOf b).1
    let u := if s.fillOutstanding b then t.bump (pages .slc p slice 0x110) 1 else t
    (((u.bump (pages .slc p slice 0x108) 1).noteMiss p b).eccFound b e).fillLine b := by
  unfold State.agentMiss
  simp only [h]

end

/-! #### The state -/

/-- A line of partition 0 whose first byte is valid and clean in its slice, while memory holds zero. -/
def staleLine : L2Line := { present := true, valid := 1, data := [5] }

/-- A READ of 8 bytes at PA 576 of partition 0, from device 2. -/
def oddRead : InTxn :=
  { port := 0, held := none
    t := { op := 3, dst := 1, src := 2, part := 0, tp3 := false, pa := 576, bytes := 8, tag := 9, code := 0, data := [] } }

/-- Device 1 with LAYOUT 30, where configurations know 0, 1 and 2. A partition's 576 bytes of HBM end in the middle of a line, and LPA 576 lies in
another slice than LPA 512, where its line begins. The 16 ways of that slice are taken, all but the first by locked lines. -/
def oddLayout : State := { State.reset with
  pkg := { layout := 30, device := some 1, sizes := 0x4444 }
  extents := [(0, { base := 0, limit := 0, target := 0, perm := 63, valid := true })]
  ports := [(0, { state := 3 })]
  inTxn := [oddRead]
  lines := (13, staleLine) :: (List.range 15).map fun i => (22 + 9 * i, { staleLine with lock := some 0 }) }

/-- The state as the request leaves its receive buffer. -/
def oddTaken : State := { oddLayout with inTxn := [] }

/-- The slice of LPA 576 has room. -/
theorem oddLayout_room : (oddLayout.setLines (oddLayout.sliceOf 576).1 (oddLayout.sliceOf 576).2).length < 16 := by
  decide

/-- The slice of LPA 512 has none. -/
theorem oddTaken_full : 16 ≤ (oddTaken.setLines (oddTaken.sliceOf 512).1 (oddTaken.sliceOf 512).2).length := by
  decide

theorem oddTaken_victim :
    oddTaken.victims (oddTaken.sliceOf 512).1 0 (oddTaken.setLines (oddTaken.sliceOf 512).1 (oddTaken.sliceOf 512).2) = [13] := by
  decide

theorem oddLayout_peek : oddLayout.peek (13 * 128) = 5 := by
  decide

/-- The load gives up the way of line 13, whose byte then reads as memory holds it. -/
theorem oddTaken_read_peek : (oddTaken.readPa 0 576 8).peek (13 * 128) = 0 := by
  have halloc := allocLine_sole (lpa := 576 / 128 * 128) (by decide) oddTaken_full oddTaken_victim
  rw [readPa_line (lpa := 576) (by decide) (by decide) (by decide), readLine_miss_peek (by decide) (by decide),
    agentMiss_alloc halloc]
  decide

/-- Refutes O36: its clause on TXN_READ asks for room in the slice of the LPA, while a load takes a way in the slice where its line begins.
The clause does not bound LAYOUT, and under LAYOUT 30 these are two slices: a line of the full one is given up, and the byte it held reads
otherwise. -/
theorem not_remoteTransactions : ¬ Obligations.RemoteTransactions := by
  unfold Obligations.RemoteTransactions
  rintro ⟨⟨-, -, hread, -⟩, -⟩
  obtain ⟨t, -, -, hpeek, -, hframe⟩ := hread oddLayout 0 0 576 oddRead (by decide)
  have hkept : t.peek (13 * 128) = oddLayout.peek (13 * 128) := hpeek (.inr oddLayout_room) _
  have hload : t.peek (13 * 128) = (oddTaken.readPa 0 576 8).peek (13 * 128) := by
    rw [hframe]
    rfl
  rw [hload, oddTaken_read_peek, oddLayout_peek] at hkept
  exact absurd hkept (by decide)

end Sys2Proof.Machine
end

section
/-! ### Issues that write results -/

namespace Sys2Proof.Machine
open Sys2Proof.Machine.State

/-- What a special register shows of a group: its index, the team's groups, and the CLOCK_HI that each thread has latched (R216). -/
def Grp.shown (g : Grp) : Nat × Nat × (Nat → Nat) := (g.index, g.groups, fun l => (g.thr l).clockHi)

theorem Grp.shown_modThr {f : Thr → Thr} (hf : ∀ t, (f t).clockHi = t.clockHi) (g : Grp) (l : Nat) : (g.modThr l f).shown = g.shown := by
  have hthr : ∀ m, ((g.modThr l f).thr m).clockHi = (g.thr m).clockHi := fun m => by
    rw [Grp.thr_modThr]
    split
    · exact hf _
    · rfl
  simp only [Grp.shown, hthr]
  rfl

theorem bookIssue_shown (s : State) (i : Iss) (ready : Nat) (forced : Bool) :
    ((s.bookIssue i ready forced).grp i.u i.k).shown = (s.grp i.u i.k).shown := by
  unfold State.bookIssue
  extract_lets g g' s1 s2 s3
  have hg : g'.shown = g.shown := by
    refine List.foldlRecOn (motive := fun x : Grp => x.shown = g.shown) _ _ rfl fun x hx l _ => ?_
    split
    · exact (Grp.shown_modThr (by exact fun _ => rfl) x l).trans hx
    · split
      · exact (Grp.shown_modThr (by exact fun _ => rfl) x l).trans hx
      · exact hx
  have hgroups : (if forced then s3.bumpUnit i.u 0x140 1 else s3).groups = s1.groups := by split <;> simp [s3, s2]
  rw [grp_congr hgroups]
  exact (congrArg Grp.shown (setGrp_grp_same s i.u i.k { g' with pass := false })).trans hg

theorem delivery_shown (s : State) (sh : Shape) (mi : Mi) (i : Iss) :
    ((s.delivery sh mi i).grp i.u i.k).shown = (s.grp i.u i.k).shown := by
  unfold State.delivery
  extract_lets srcs rc g hit missed s1 s2 s3 place
  split
  · rw [grp_congr (s := s) (by simp)]
  · rw [setGrp_grp_same]
    have hplace : ∀ t, (place t).clockHi = t.clockHi := fun t => by
      refine List.foldlRecOn (motive := fun x : Thr => x.clockHi = t.clockHi) _ _ rfl fun x hx y _ => ?_
      dsimp only
      split <;> exact hx
    exact List.foldlRecOn (motive := fun x : Grp => x.shown = g.shown) _ _ rfl fun x hx l _ => (Grp.shown_modThr hplace x l).trans hx

/-- The state `s₁` in which an instruction issued in `s` takes effect: registers as before, the chosen threads behind the instruction. -/
structure AtEffect (s s₁ : State) (i : Iss) : Prop where
  keeps : Keeps s s₁
  regs : SameRegs (s.grp i.u i.k) (s₁.grp i.u i.k)
  pc : ∀ l, l < 32 → ((s₁.grp i.u i.k).thr l).pc = if i.chosen.testBit l then i.next else ((s.grp i.u i.k).thr l).pc
  others : ∀ u k, u * 32 + k ≠ i.u * 32 + i.k → s₁.grp u k = s.grp u k
  shown : (s₁.grp i.u i.k).shown = (s.grp i.u i.k).shown

theorem atEffect_atIssue (s : State) (sh : Shape) (mi : Mi) {i : Iss} (forced : Bool) (hu : i.u < 132) : AtEffect s (s.atIssue sh mi i forced) i := by
  obtain ⟨hk, hr, hp, ho⟩ := atIssue_spec s sh mi i forced hu
  exact ⟨hk, hr, hp, ho, (delivery_shown ..).trans (bookIssue_shown ..)⟩

/-- From `s` to `t` each executing lane's result `f` has been written, and no other register and no PC has changed. -/
structure WroteResults (s t : State) (sh : Shape) (mi : Mi) (i : Iss) (f : Nat → Nat) : Prop where
  keeps : Keeps s t
  gen : ∀ l r, l < 32 → r < 255 → ((t.grp i.u i.k).thr l).getG r = genAfter (s.grp i.u i.k) sh mi i.exec f l r
  uni : ∀ r, r < 63 → (t.grp i.u i.k).getU r = uniAfter (s.grp i.u i.k) sh mi i.exec f r
  pred : ∀ l n, l < 32 → n < 7 → ((t.grp i.u i.k).thr l).getP n = predAfter (s.grp i.u i.k) sh mi i.exec f l n
  pc : ∀ l, ((t.grp i.u i.k).thr l).pc = ((s.grp i.u i.k).thr l).pc
  others : ∀ u k, u * 32 + k ≠ i.u * 32 + i.k → SameRegs (s.grp u k) (t.grp u k)

theorem wrote_writeResults (s : State) (sh : Shape) (mi : Mi) {i : Iss} (he : i.exec ≠ 0) (F : Grp → Nat → Nat × Nat) :
    WroteResults s (s.writeResults sh mi i F) sh mi i (fun l => (F (s.grp i.u i.k) l).1) := by
  obtain ⟨hgen, huni, hpred, hpc⟩ := Grp.writeAll_spec (s.grp i.u i.k) sh mi i.exec (fun l => (F (s.grp i.u i.k) l).1) he
  have hset : WroteResults s (s.setGrp i.u i.k ((s.grp i.u i.k).writeAll sh mi i.exec (fun l => (F (s.grp i.u i.k) l).1))) sh mi i
      (fun l => (F (s.grp i.u i.k) l).1) := by
    refine ⟨Keeps.setGrp .., ?_, ?_, ?_, ?_, fun u k h => ?_⟩
    iterate 4
      rw [setGrp_grp_same]
      assumption
    rw [setGrp_grp_ne _ _ _ _ _ _ (Ne.symm h)]
    exact .refl _
  unfold State.writeResults
  extract_lets g fl t
  split
  · exact hset
  · have hg : ∀ u k, (t.addFlags g.part g.stream g.cmd fl).grp u k = t.grp u k := fun u k => grp_congr (by simp) u k
    obtain ⟨k, gen, uni, pred, pc, others⟩ := hset
    constructor
    case keeps => exact k.trans (Keeps.addFlags ..)
    all_goals
      simp only [hg]
      assumption

/-- A change of no register and no PC after the results. -/
theorem WroteResults.trans {s t v : State} {sh : Shape} {mi : Mi} {i : Iss} {f : Nat → Nat} (h : WroteResults s t sh mi i f) (hk : Keeps t v)
    (hv : ∀ u k, SameRegs (t.grp u k) (v.grp u k) ∧ ∀ l, ((v.grp u k).thr l).pc = ((t.grp u k).thr l).pc) : WroteResults s v sh mi i f := by
  obtain ⟨⟨hg, hp, hu⟩, hpc⟩ := hv i.u i.k
  exact ⟨h.keeps.trans hk, fun l r hl hr => (hg l r).trans (h.gen l r hl hr), fun r hr => (hu r).trans (h.uni r hr),
    fun l n hl hn => (hp l n).trans (h.pred l n hl hn), fun l => (hpc l).trans (h.pc l), fun u k hne => (h.others u k hne).trans (hv u k).1⟩

/-- An instruction whose effect is to write results (R199, R206). -/
theorem issue_wrote {s : State} {sh : Shape} {mi : Mi} {i : Iss} {bad : Bool} {ready : Iss → Bool} {f : Iss → State → State} {v : Nat → Nat}
    (h : Issues s sh mi i) (hb : bad = false) (hr : ready i = true) (hf : ∀ s₁, AtEffect s s₁ i → WroteResults s₁ (f i s₁) sh mi i v) :
    ResultIn s (s.issue sh mi bad ready f) sh mi i v ∧ RegistersOnly s (s.issue sh mi bad ready f) i.u i.k := by
  obtain ⟨forced, he⟩ := issue_eq (f := f) h hb hr
  have ha := atEffect_atIssue s sh mi forced h.unit_lt
  obtain ⟨hk, hafter⟩ := afterStep_spec (f i (s.atIssue sh mi i forced)) i.u i.k (s.grp i.u i.k).step h.unit_lt
  have hw := (hf _ ha).trans hk hafter
  rw [he]
  have hkeeps := ha.keeps.trans hw.keeps
  refine ⟨⟨fun l r hl hr => ?_, fun r hr => ?_, fun l n hl hn => ?_, fun l hl => (hw.pc l).trans (ha.pc l hl)⟩, hkeeps.peek, hkeeps, ?_⟩
  · rw [hw.gen l r hl hr, genAfter_same ha.regs]
  · rw [hw.uni r hr, uniAfter_same ha.regs]
  · rw [hw.pred l n hl hn, predAfter_same ha.regs]
  · intro u k hk' hk0 hne l r
    have hkey : u * 32 + k ≠ i.u * 32 + i.k := fun e => hne (by ext <;> simp only <;> omega)
    obtain ⟨hgen, hpred, huni⟩ := hw.others u k hkey
    rw [ha.others u k hkey] at hgen hpred huni
    exact ⟨hgen l r, hpred l r, huni r⟩

end Sys2Proof.Machine
end

section
/-! ### Compares, votes, selects, moves and shuffles (R214, R215) -/

namespace Sys2Proof.Machine
open Sys2Proof.Machine.State

theorem psetp_results : Results .psetp (fun _ => shapePsetp)
    (fun _ mi _ => modf mi 52 2 ≠ 3 ∧ mi.a.toNat < 8 ∧ mi.b.toNat < 8 ∧ mi.c = 0 ∧ mi.usel = 0) (fun s mi i l =>
      let t := (s.grp i.u i.k).thr l
      let x := t.getP mi.a.toNat != bit mi.mod.toNat 2
      let y := t.getP mi.b.toNat != bit mi.mod.toNat 3
      b2n (if modf mi 52 2 = 0 then x && y else if modf mi 52 2 = 1 then x || y else x != y)) := by
  refine results_of (fun _ _ => rfl) ?_ ?_
  · rintro s mi i ⟨hop, ha, hb, hc, hu⟩
    simp [hop, hc, hu, Nat.not_le.2 ha, Nat.not_le.2 hb]
  · intro mi i s g' hg l
    simp only [predVal, hg.2.1]

theorem sel_results : Results .sel (fun _ => shapeSel) (fun _ _ _ => True) (fun s mi i l =>
    let g := s.grp i.u i.k
    if (g.thr l).getP (modf mi 52 3) != bit mi.mod.toNat 3 then opA shapeSel mi g (g.thr l) else opB shapeSel mi g (g.thr l)) := by
  refine results_of (fun _ _ => rfl) (fun _ _ _ _ => rfl) ?_
  intro mi i s g' hg l
  simp only [predVal, hg.2.1, opA_same hg, opB_same hg]

theorem ballot_same {g g' : Grp} (h : SameRegs g g') (mi : Mi) (exec : Nat) : ballot mi g' exec = ballot mi g exec := by
  unfold ballot
  simp only [h.2.1]

/-- A vote gives every executing thread one value of the ballot and the executing threads. -/
theorem vote_results {c : Mi → Instr} {pd : Bool} {f : Nat → Nat → Nat} (hc : ∀ mi s, exec (c mi) s = .next (s.vote pd mi f)) :
    Results c (fun _ => shapeVote pd) (fun _ _ _ => True) (fun s mi i _ => f (ballot mi (s.grp i.u i.k) i.exec) i.exec) := by
  refine results_of (bad := fun _ => false) (F := fun mi i g _ => (f (ballot mi g i.exec) i.exec, 0)) hc (fun _ _ _ _ => rfl) ?_
  intro mi i s g' hg l
  simp only [ballot_same hg]

theorem shfl_results : Results .shfl (fun _ => shapeShfl) (fun _ _ _ => True) (fun s mi i l =>
    let g := s.grp i.u i.k
    match shflLane (modf mi 52 2) l (opB shapeShfl mi g (g.thr l)) with
    | some j => if i.exec.testBit j then opA shapeShfl mi g (g.thr j) else opA shapeShfl mi g (g.thr l)
    | none => opA shapeShfl mi g (g.thr l)) := by
  refine results_of (fun _ _ => rfl) (fun _ _ _ _ => rfl) ?_
  intro mi i s g' hg l
  simp only [opA_same hg, opB_same hg]
  cases shflLane (modf mi 52 2) l (opB shapeShfl mi (s.grp i.u i.k) ((s.grp i.u i.k).thr l)) <;> rfl

end Sys2Proof.Machine
end

section
/-! ### Conversions, MX instructions and special registers (R216 to R219) -/

namespace Sys2Proof.Machine
open Sys2Proof.Machine.State

theorem cvt_computes : Computes .cvt shapeCvt (fun mi => modf mi 52 4 ≤ 7 ∧ modf mi 56 4 ≤ 7) (fun mi a _ _ =>
    match fmtOfCode (modf mi 56 4), fmtOfCode (modf mi 52 4) with
    | some x, some y => (convert x y (rmOf (bit mi.mod.toNat 8)) (a % 2 ^ x.width)).1
    | _, _ => 0) := by
  refine computes_of (fun _ _ => rfl) ?_ ?_
  · rintro mi ⟨hd, hs⟩
    simp [hd, hs]
  · intro mi a _ _
    cases fmtOfCode (modf mi 56 4) <;> cases fmtOfCode (modf mi 52 4) <;> rfl

theorem ndec_computes : Computes .ndec (fun _ => shapeNdec) (fun mi => 8 ≤ modf mi 52 4 ∧ modf mi 52 4 ≤ 12) (fun mi a b _ =>
    match fmtOfCode (modf mi 52 4) with
    | some (.nd f) => (encodeFp fp32 .rne (ndValue f (b % 256) (a % 2 ^ f.width))).1
    | _ => 0) := by
  refine computes_of (fun _ _ => rfl) ?_ ?_
  · rintro mi ⟨hlo, hhi⟩
    simp [hlo, hhi]
  · intro mi a b _
    split <;> simp_all

/-- An MX instruction that all 32 threads execute writes its results (R219). -/
theorem wholeGroup_results {c : Mi → Instr} {sh : Shape} {F : Mi → Grp → Nat → Nat × Nat} {f : State → Mi → Iss → Nat → Nat}
    (hc : ∀ mi s, exec (c mi) s = .next (s.wholeGroup sh mi (F mi)))
    (hf : ∀ mi i s g', SameRegs (s.grp i.u i.k) g' → ∀ l, (F mi g' l).1 = f s mi i l) :
    Results c (fun _ => sh) (fun _ mi i => modf mi 52 3 ≤ 4 ∧ i.exec = 0xFFFFFFFF) f := by
  rintro s mi i ⟨hfmt, hall⟩ hi
  refine ⟨_, hc mi s, issue_wrote hi (decide_eq_false (Nat.not_lt.2 hfmt)) rfl fun s₁ ha => ?_⟩
  have hw := wrote_writeResults s₁ sh mi hi.exec_eq.2 (F mi)
  rw [funext (hf mi i s _ ha.regs)] at hw
  rwa [if_neg (not_not.2 hall)]

theorem mxsimp_results : Results .mxsimp (fun _ => shapeMxsimp) (fun _ mi i => modf mi 52 3 ≤ 4 ∧ i.exec = 0xFFFFFFFF) (fun s mi i l =>
    let g := s.grp i.u i.k
    if (List.range 32).any (fun j => mxSpecial (modf mi 52 3) (opA shapeMxsimp mi g (g.thr j))) then 0xFF
    else (mxScale (opB shapeMxsimp mi g (g.thr l) % 256)).1) := by
  refine wholeGroup_results (fun _ _ => rfl) ?_
  intro mi i s g' hg l
  simp only [opA_same hg, opB_same hg]
  split <;> rfl

theorem mxsexp_results : Results .mxsexp (fun _ => shapeMx1) (fun _ mi i => modf mi 52 3 ≤ 4 ∧ i.exec = 0xFFFFFFFF) (fun s mi i _ =>
    let g := s.grp i.u i.k
    mxShared (modf mi 52 3) ((List.range 32).map (fun j => opA shapeMx1 mi g (g.thr j)))) := by
  refine wholeGroup_results (fun _ _ => rfl) ?_
  intro mi i s g' hg l
  simp only [opA_same hg]

/-- A special register reads the same once the instruction is issued. -/
theorem special_same {s s₁ : State} {i : Iss} (h : AtEffect s s₁ i) (l n : Nat) :
    special s₁ i (s₁.grp i.u i.k) l n = special s i (s.grp i.u i.k) l n := by
  have hsh := h.shown
  simp only [Grp.shown, Prod.mk.injEq] at hsh
  obtain ⟨hindex, hgroups, hclock⟩ := hsh
  have hpkg : s₁.pkg = s.pkg := by rw [h.keeps.1]
  have hctx : s₁.ctx = s.ctx := by rw [h.keeps.1]
  unfold special
  simp only [hindex, hgroups, congrFun hclock l, State.partOfCluster, State.partOfRegion, State.nParts, State.ctxNum, State.hasCtx, State.ctxOf,
    State.cycle, hpkg, hctx] <;> rfl

/-- CLOCK_HI latched in each thread of a list (R216). -/
theorem latchClock_wrote {s t : State} {sh : Shape} {mi : Mi} {i : Iss} {f : Nat → Nat} (h : WroteResults s t sh mi i f) (hi : Nat) (ls : List Nat)
    (hn : ls.Nodup) :
    WroteResults s (t.setGrp i.u i.k (ls.foldl (fun g l => g.modThr l (fun x => { x with clockHi := hi })) (t.grp i.u i.k))) sh mi i f := by
  refine h.trans (Keeps.setGrp ..) fun u k => ?_
  by_cases he : i.u * 32 + i.k = u * 32 + k
  · have hg : ∀ v : State, v.grp u k = v.grp i.u i.k := fun v => by simp only [State.grp, he]
    rw [hg, hg, setGrp_grp_same]
    have hthr := fun l => Grp.thr_foldl (fun _ x => { x with clockHi := hi }) ls (t.grp i.u i.k) l hn
    refine ⟨⟨fun l r => ?_, fun l r => ?_, Grp.getU_foldl (fun _ x => { x with clockHi := hi }) ls _⟩, fun l => ?_⟩
    all_goals
      rw [hthr]
      split <;> rfl
  · rw [setGrp_grp_ne _ _ _ _ _ _ he]
    exact ⟨.refl _, fun _ => rfl⟩

theorem s2r_results : Results .s2r (fun _ => shapeS2r) (fun _ mi _ => mi.a.toNat ≤ 12 ∧ mi.usel.getLsbD 0 = false) (fun s mi i l =>
    special s i (s.grp i.u i.k) l mi.a.toNat) := by
  rintro s mi i ⟨hreg, husel⟩ hi
  refine ⟨_, rfl, issue_wrote hi (by rw [husel, decide_eq_false (Nat.not_lt.2 hreg)]; rfl) rfl fun s₁ ha => ?_⟩
  have hw := wrote_writeResults s₁ shapeS2r mi hi.exec_eq.2 (fun g l => (special s₁ i g l mi.a.toNat, 0))
  rw [funext fun l => special_same ha l mi.a.toNat] at hw
  dsimp only
  split
  · exact latchClock_wrote hw _ _ (nodup_lanesOf _)
  · exact hw

/-- Settles O3: every instruction of these families writes its result and touches nothing but registers (`computes_of`, `results_of`,
`issue_wrote`). -/
theorem moveAndConversionResults : Obligations.MoveAndConversionResults := by
  unfold Obligations.MoveAndConversionResults
  refine ⟨⟨?isetp, ?fsetp, ?dsetp, psetp_results, sel_results, ?all, ?any,
    ?vballot, ?mov, ?mov64, shfl_results⟩,
    cvt_computes, ndec_computes, ?mximp, ?mxexp, mxsimp_results, mxsexp_results, s2r_results⟩
  case isetp =>
    exact computes_of (fun _ _ => rfl) (fun mi hrel => decide_eq_false (Nat.not_lt.2 hrel)) (fun _ _ _ _ => rfl)
  case fsetp =>
    exact computes_of (fun _ _ => rfl) (fun mi ⟨hrel, hfmt⟩ => by simp [hrel, hfmt]) (fun _ _ _ _ => rfl)
  case dsetp =>
    exact computes_of (fun _ _ => rfl) (fun mi hrel => decide_eq_false (Nat.not_lt.2 hrel)) (fun _ _ _ _ => rfl)
  case all => exact vote_results (pd := true) (f := fun v e => b2n (v == e)) fun _ _ => rfl
  case any => exact vote_results (pd := true) (f := fun v _ => b2n (v != 0)) fun _ _ => rfl
  case vballot => exact vote_results (pd := false) (f := fun v _ => v) fun _ _ => rfl
  case mov =>
    exact computes_of (fun _ _ => rfl) (fun _ _ => rfl) (fun _ _ _ _ => rfl)
  case mov64 =>
    exact computes_of (fun _ _ => rfl) (fun _ _ => rfl) (fun _ _ _ _ => rfl)
  case mximp =>
    exact computes_of (fun _ _ => rfl) (fun mi hfmt => decide_eq_false (Nat.not_lt.2 hfmt)) (fun _ _ _ _ => rfl)
  case mxexp =>
    exact computes_of (fun _ _ => rfl) (fun mi hfmt => decide_eq_false (Nat.not_lt.2 hfmt)) (fun _ _ _ _ => rfl)

end Sys2Proof.Machine
end

section
/-! ### A REDO_COMMIT that waits for its log record (R100, R244) -/

namespace Sys2Proof.Machine

/-- A REDO_COMMIT writes nothing while the line of the next record of the numerics log waits. -/
theorem redoCommit_waits {s : State} {p st : Nat} {z : Span} (hz : (s.str p st).span = some z) (hw : s.paWaits p (s.numSlot p) 32 = true)
    (c : Cmd) : s.redoCommit p st c = s := by
  unfold State.redoCommit
  rw [hz]
  exact if_pos (by rw [hw, Bool.or_true])

theorem exec_redoCommit {s : State} {p st : Fin 4} {c : Cmd} (h : Starts s p.val st.val 0x11 c) :
    exec (.redoCommit p st) s = .next ((s.noteReady p.val).redoCommit p.val st.val c) := by
  have hs : (s.noteReady p.val).startOp p.val st.val 0x11 = some c := ((moreReady_noteReady s p.val).startOp ..).trans h.1
  show Host.Outcome.next (s.starting p.val st.val 0x11 _) = _
  rw [State.starting, hs]

/-- A REDO_COMMIT that has been parsed. -/
def commitCmd : Cmd :=
  { idx := 8, pa := 0x20080, slot := 0x10011, started := false, refs := [], flags := 0, done := none, engine := none, borrowed := []
    errFence := false, span := true, owes := false, issued := false, ledSkip := false, notes := [] }

/-- A span in which a command has failed. -/
def failedSpan : Span :=
  { beginPa := 0x20000, beginIdx := 4, id := 1, slots := 3, formats := 0, staging := 0, stageCap := 0, attempt := 1, borrowed := [], flags := 0
    deferred := [], staged := [], parsedCommit := true, commitIdx := 8, committed := false, failed := true, ended := false, resume := [] }

/-- An ACTIVE context of partition 0 whose stream 1 has nothing left but the REDO_COMMIT of a failed span. The numerics log stands at PA 0x10000 of
its HBM, and another agent has locked that line in its slice. -/
def lockedLog : State := { State.reset with
  pkg := { device := some 1 }
  extents := [(0, { base := 0, limit := 0x8FFFFF, target := 0, perm := 63, valid := true })]
  ctx := [(0, { num := 1, state := 1, numlog := 0x10000 })]
  strs := [(1, { cmds := [commitCmd], span := some failedSpan })]
  lines := [(0x10000 / 128, { present := true, lock := some 5 })] }

theorem lockedLog_starts : Starts lockedLog 0 1 0x11 commitCmd := by
  unfold Starts
  decide +kernel

theorem lockedLog_waits : (lockedLog.noteReady 0).paWaits 0 ((lockedLog.noteReady 0).numSlot 0) 32 = true := by
  decide +kernel

/-- Refutes O27: its clauses on REDO_COMMIT do not ask that the next place of the numerics log can be written. While that line is locked the command
of a failed span stays as it is, neither started nor ended with UPSTREAM. -/
theorem not_redoSpans : ¬ Obligations.RedoSpans := by
  unfold Obligations.RedoSpans
  rintro ⟨-, -, hfailed, -⟩
  obtain ⟨t, hexec, ⟨y, hy, -, hdone⟩, -⟩ := hfailed lockedLog 0 1 commitCmd failedSpan lockedLog_starts rfl (by decide) rfl
  have hm := moreReady_noteReady lockedLog 0
  have ht : lockedLog.noteReady 0 = t := by
    have he : Host.Outcome.next ((lockedLog.noteReady 0).redoCommit 0 1 commitCmd) = .next t :=
      (exec_redoCommit (p := 0) (st := 1) lockedLog_starts).symm.trans hexec
    rw [redoCommit_waits (p := 0) (st := 1) (z := failedSpan) (by rw [hm.str]; rfl) lockedLog_waits] at he
    exact Host.Outcome.next.inj he
  have hkept : lockedLog.cmdOf 0 1 commitCmd.idx = some y := by
    rw [← hm.cmdOf, ht]
    exact hy
  rw [lockedLog_starts.2.1] at hkept
  obtain rfl := Option.some.inj hkept
  exact absurd hdone (by decide)

end Sys2Proof.Machine
end

section
/-! ### Elements of a vector register (R145) -/

namespace Sys2Proof.Machine

/-- The bits of a number with a field replaced. -/
theorem testBit_putBits (x lo w v n : Nat) :
    (putBits x lo w v).testBit n = if n < lo then x.testBit n else if n < lo + w then v.testBit (n - lo) else x.testBit n := by
  rw [putBits_eq, Nat.add_comm, Nat.testBit_two_pow_mul_add _ (Nat.mod_lt _ (by positivity))]
  split
  · rename_i h
    simp [Nat.testBit_mod_two_pow, h]
  · rename_i h
    rw [Nat.add_comm, Nat.testBit_two_pow_mul_add _ (Nat.mod_lt _ (by positivity))]
    split
    · rename_i hw
      rw [Nat.testBit_mod_two_pow, decide_eq_true hw, Bool.true_and, if_pos (by omega)]
    · rename_i hw
      rw [if_neg (by omega), Nat.testBit_div_two_pow, Nat.testBit_div_two_pow]
      congr 1
      omega

theorem testBit_bits (x lo w n : Nat) : (bits x lo w).testBit n = (decide (n < w) && x.testBit (lo + n)) := by
  rw [bits, Nat.testBit_mod_two_pow, Nat.testBit_shiftRight]

/-- A field apart from the one replaced. -/
theorem bits_putBits_apart {lo w lo' w' : Nat} (h : lo + w ≤ lo' ∨ lo' + w' ≤ lo) (x v : Nat) : bits (putBits x lo w v) lo' w' = bits x lo' w' := by
  refine Nat.eq_of_testBit_eq fun n => ?_
  rw [testBit_bits, testBit_bits, testBit_putBits]
  by_cases hn : n < w'
  · split
    · rfl
    · rw [if_neg (by omega)]
  · simp [hn]

/-- Element `e` of register `w` among the words of an engine's registers, in a lane format. -/
def laneElem (m : SMap Nat) (w lane e : Nat) : Nat :=
  bits (m.get 0 (w * 512 + e / (32 / laneBits lane))) (laneBits lane * (e % (32 / laneBits lane))) (laneBits lane)

theorem regElem_eq (v : VecSt) (w lane e : Nat) : State.regElem v w lane e = laneElem v.lanes w lane e := rfl

theorem setElem_eq (m : SMap Nat) (w lane e x : Nat) : State.setElem m w lane e x = m.set 0 (w * 512 + e / (32 / laneBits lane))
    (putBits (m.get 0 (w * 512 + e / (32 / laneBits lane))) (laneBits lane * (e % (32 / laneBits lane))) (laneBits lane) x) := rfl

/-- An element read after one is written. -/
theorem laneElem_setElem (m : SMap Nat) (w lane e x e' : Nat) :
    laneElem (State.setElem m w lane e x) w lane e' = if e = e' then x % 2 ^ laneBits lane else laneElem m w lane e' := by
  rw [laneElem, laneElem, setElem_eq]
  generalize laneBits lane = b
  generalize 32 / b = per
  rw [SMap.get_set]
  by_cases hword : e / per = e' / per
  · rw [if_pos (by rw [hword]), hword]
    by_cases he : e = e'
    · subst he
      rw [if_pos rfl, bits_putBits_same]
    · have hrem : e % per ≠ e' % per := fun h => he (by rw [← Nat.div_add_mod e per, ← Nat.div_add_mod e' per, hword, h])
      rw [if_neg he, bits_putBits_apart]
      rcases Nat.lt_or_gt_of_ne hrem with h | h
      · exact .inl (by simpa [Nat.mul_succ] using Nat.mul_le_mul_left b h)
      · exact .inr (by simpa [Nat.mul_succ] using Nat.mul_le_mul_left b h)
  · rw [if_neg (by omega), if_neg (fun h => hword (by rw [h]))]

/-- The elements of an image written from element `n` on. -/
theorem laneElem_image (l : List Nat) (n : Nat) (m : SMap Nat) (w lane e : Nat) :
    laneElem ((l.zipIdx n).foldl (fun m x => State.setElem m w lane x.2 x.1) m) w lane e
      = if n ≤ e ∧ e < n + l.length then (l[e - n]?).getD 0 % 2 ^ laneBits lane else laneElem m w lane e := by
  induction l generalizing n m with
  | nil => rw [if_neg (by simp only [List.length_nil]; omega)]; rfl
  | cons x l ih =>
    rw [List.zipIdx_cons, List.foldl_cons, ih, laneElem_setElem, List.length_cons]
    by_cases hfirst : n = e
    · subst hfirst
      rw [if_neg (by omega), if_pos rfl, if_pos (by omega), Nat.sub_self]
      rfl
    · rw [if_neg hfirst]
      by_cases hin : n + 1 ≤ e ∧ e < n + 1 + l.length
      · rw [if_pos hin, if_pos (by omega), show e - n = e - (n + 1) + 1 by omega, List.getElem?_cons_succ]
      · rw [if_neg hin, if_neg (by omega)]

/-- An image of no more elements than a register holds leaves the other registers alone. -/
theorem get_image_other {w k : Nat} (hk : k / 512 ≠ w) {lane : Nat} (l : List Nat) (n : Nat) (hl : n + l.length ≤ laneElems lane) (m : SMap Nat) :
    SMap.get 0 ((l.zipIdx n).foldl (fun m x => State.setElem m w lane x.2 x.1) m) k = m.get 0 k := by
  induction l generalizing n m with
  | nil => rfl
  | cons x l ih =>
    rw [List.length_cons] at hl
    have hword : n / (32 / laneBits lane) < 512 := Nat.div_lt_of_lt_mul (by
      rw [Nat.mul_comm]
      exact lt_of_lt_of_le (Nat.lt_add_of_pos_right (Nat.succ_pos _)) hl)
    have hne : w * 512 + n / (32 / laneBits lane) ≠ k := by
      generalize n / (32 / laneBits lane) = j at hword
      omega
    rw [List.zipIdx_cons, List.foldl_cons, ih _ (by omega), setElem_eq, SMap.get_set_ne _ _ _ _ hne]

/-- Words of consecutive keys written one after the other. -/
theorem get_words (m : SMap Nat) (base n : Nat) (f : Nat → Nat) (k : Nat) :
    SMap.get 0 ((List.range n).foldl (fun m i => SMap.set 0 m (base + i) (f i)) m) k = if base ≤ k ∧ k < base + n then f (k - base) else m.get 0 k := by
  induction n with
  | zero => rw [if_neg (by omega)]; rfl
  | succ n ih =>
    rw [List.range_succ, List.foldl_append, List.foldl_cons, List.foldl_nil, SMap.get_set, ih]
    by_cases hlast : base + n = k
    · subst hlast
      rw [if_pos rfl, if_pos (by omega), Nat.add_sub_cancel_left]
    · rw [if_neg hlast]
      exact if_congr (by omega) rfl rfl

/-- A word built of bits, from bit 0 upward. -/
theorem testBit_packed (p : Nat → Bool) (n j : Nat) :
    ((List.range n).foldl (fun a i => a + b2n (p i) * 2 ^ i) 0).testBit j = (decide (j < n) && p j) := by
  induction n generalizing j with
  | zero => simp
  | succ n ih =>
    rw [List.range_succ, List.foldl_append, List.foldl_cons, List.foldl_nil]
    have hclear : ((List.range n).foldl (fun a i => a + b2n (p i) * 2 ^ i) 0).testBit n = false := by simp [ih]
    cases hp : p n with
    | false =>
      rw [show b2n false * 2 ^ n = 0 from Nat.zero_mul _, Nat.add_zero, ih]
      by_cases hj : j = n
      · simp [hj, hp]
      · rw [show decide (j < n) = decide (j < n + 1) from decide_eq_decide.2 (by omega)]
    | true =>
      rw [show b2n true * 2 ^ n = 2 ^ n from Nat.one_mul _, testBit_add_two_pow hclear, ih]
      by_cases hj : j = n
      · simp [hj, hp]
      · rw [show decide (j < n) = decide (j < n + 1) from decide_eq_decide.2 (by omega), decide_eq_false hj, Bool.false_or]

/-- The words of one register are apart from those of the others. -/
theorem laneElems_words {lane n : Nat} (h : n ≤ laneElems lane) (hl : isLane lane = true) : (n + 31) / 32 ≤ 512 := by
  have hbits : 8 ≤ laneBits lane := by
    simp only [isLane, List.contains_cons, List.contains_nil, Bool.or_eq_true, beq_iff_eq] at hl
    rcases hl with rfl | rfl | rfl | rfl | rfl | rfl | rfl | h
    iterate 7 decide
    cases h
  have hper : 32 / laneBits lane ≤ 4 := Nat.div_le_of_le_mul (by omega)
  have : laneElems lane ≤ 512 * 4 := Nat.mul_le_mul_left 512 hper
  omega

/-- A bit read from a register that holds its bits densely converts to a lane element that is 1 or 0. -/
theorem laneNonzero_b2n {lane : Nat} (h : isLane lane = true) (b : Bool) : laneNonzero lane (b2n b) = b := by
  simp only [isLane, List.contains_cons, List.contains_nil, Bool.or_eq_true, beq_iff_eq] at h
  rcases h with rfl | rfl | rfl | rfl | rfl | rfl | rfl | h
  iterate 7 cases b <;> decide
  cases h

end Sys2Proof.Machine
end

section
/-! ### One repetition of the vector engine (R147, R154) -/

namespace Sys2Proof.Machine

section
variable {s t v : State} {c : Nat}

/-- A repetition that writes no memory changes registers of blocks, vector engines and the number of free values drawn. -/
def VecOnly (s t : State) : Prop := t = { s with regs := t.regs, vecs := t.vecs, free := t.free }

theorem VecOnly.refl (s : State) : VecOnly s s := rfl

theorem VecOnly.trans (h : VecOnly s t) (h' : VecOnly t v) : VecOnly s v := by
  unfold VecOnly at h h' ⊢
  generalize v.regs = x, v.vecs = y, v.free = z at h' ⊢
  rw [h', h]

theorem vecOnly_bump (s : State) (a : RegAddr) (n : Nat) : VecOnly s (s.bump a n) := by
  unfold State.bump
  split <;> rfl

theorem vecOnly_setVec (s : State) (c : Nat) (x : VecSt) : VecOnly s (s.setVec c x) := rfl

theorem vecOnly_free (s : State) (n : Nat) : VecOnly s { s with free := n } := rfl

theorem VecOnly.peek (h : VecOnly s t) (a : Nat) : t.peek a = s.peek a := by
  rw [show t.peek a = _ from congrArg (State.peek · a) h]
  exact peek_congr rfl rfl

theorem vec_bump (s : State) (a : RegAddr) (n c : Nat) : (s.bump a n).vec c = s.vec c := by
  rw [State.vec, State.bump_vecs]
  rfl

@[simp] theorem setVec_vec_same (s : State) (c : Nat) (x : VecSt) : (s.setVec c x).vec c = x := SMap.get_set_same ..

/-! #### What a repetition reads -/

/-- States in which a repetition of cluster `c` reads the same. -/
structure ReadsSame (s t : State) (c : Nat) : Prop where
  vec : t.vec c = s.vec c
  free : t.free = s.free
  peek : ∀ a, t.peek a = s.peek a

theorem readsSame_bump (s : State) (a : RegAddr) (n c : Nat) : ReadsSame s (s.bump a n) c :=
  ⟨vec_bump .., State.bump_free .., (vecOnly_bump ..).peek⟩

section
variable (h : ReadsSame s t c)
include h

theorem ReadsSame.cbyte (off : Nat) : t.cbyte c off = s.cbyte c off := by rw [State.cbyte, h.peek]; rfl

theorem ReadsSame.streamCode (x : StreamD) (r : Nat) (o : Int) : t.streamCode c x r o = s.streamCode c x r o := by
  simp only [State.streamCode, State.peekNat, State.peekBytes, h.cbyte, h.peek]

theorem ReadsSame.streamElem (x : StreamD) (lane round r : Nat) (o : Int) : t.streamElem c x lane round r o = s.streamElem c x lane round r o := by
  simp only [State.streamElem, State.cbitAt, h.cbyte, h.streamCode] <;> rfl

theorem ReadsSame.resultRm (q : VecReq) (r n e : Nat) : t.resultRm q r n e = s.resultRm q r n e := by
  simp only [State.resultRm, h.free]

theorem ReadsSame.vecSource (q : VecReq) (i r j n e : Nat) : t.vecSource c q i r j n e = s.vecSource c q i r j n e := by
  simp only [State.vecSource, h.streamElem, h.vec, h.resultRm]

theorem ReadsSame.vecMask (q : VecReq) (r j n e : Nat) : t.vecMask c q r j n e = s.vecMask c q r j n e := by
  simp only [State.vecMask, State.cbitAt, h.cbyte]

theorem ReadsSame.dotImage (q : VecReq) (row j n : Nat) (acc : Nat × Nat) : t.dotImage c q row j n acc = s.dotImage c q row j n acc := by
  simp only [State.dotImage, h.cbyte, h.streamCode, h.vecMask]

end

/-! #### The end of a repetition -/

/-- The end of a repetition of a single instruction: the port is released where it asks for it, and the instruction runs on or is done. -/
def State.endRep (s : State) (c : Nat) (x : VecRun) : State :=
  let s := s.vecRelease c x.first
  if x.rep + 1 < x.first.reps then s.setVec c { s.vec c with run := some { x with inSecond := false, rep := x.rep + 1 } }
  else s.setVec c { s.vec c with run := none, done := (s.vec c).done ++ [(x.first, x.flags)] }

theorem vecRelease_spec (s : State) (c : Nat) (q : VecReq) : VecOnly s (s.vecRelease c q)
    ∧ ((s.vecRelease c q).vec c).lanes = (s.vec c).lanes ∧ ((s.vecRelease c q).vec c).done = (s.vec c).done := by
  unfold State.vecRelease
  split
  · exact ⟨vecOnly_setVec .., by rw [setVec_vec_same], by rw [setVec_vec_same]⟩
  · exact ⟨.refl s, rfl, rfl⟩

theorem endRep_vecOnly (s : State) (c : Nat) (x : VecRun) : VecOnly s (s.endRep c x) := by
  have hrel := (vecRelease_spec s c x.first).1
  unfold State.endRep
  dsimp only
  split <;> exact hrel.trans (vecOnly_setVec ..)

theorem endRep_lanes (s : State) (c : Nat) (x : VecRun) : ((s.endRep c x).vec c).lanes = (s.vec c).lanes := by
  have hrel := (vecRelease_spec s c x.first).2.1
  unfold State.endRep
  dsimp only
  split <;> rw [setVec_vec_same] <;> exact hrel

/-- After it the instruction runs on with its next repetition, or waits for its completion (R154, R155). -/
theorem endRep_ranOne {x y : VecRun} (hfirst : y.first = x.first) (hrep : y.rep = x.rep) (hdone : (t.vec c).done = (s.vec c).done) :
    RanOne s (t.endRep c y) c x := by
  have hrel := ((vecRelease_spec t c y.first).2.2).trans hdone
  unfold RanOne State.endRep
  rw [← hfirst, ← hrep]
  dsimp only
  split <;> rw [setVec_vec_same]
  · exact ⟨_, rfl, rfl, rfl, hrel⟩
  · exact ⟨rfl, y.flags, by rw [hrel]⟩

/-! #### The single instruction that runs next -/

section
variable {x : VecRun} {q : VecReq} (h : RunsNext s c x q)
include h

theorem RunsNext.step {f : Nat → Bool} (hf : f q.vop = true) : s.vecStep c f = s.vecRun c x := by
  obtain ⟨hrun, -, hin, hfirst, hready, -⟩ := h
  unfold State.vecStep State.nextVec
  rw [hrun]
  simp only [hin, hfirst, hf, Bool.not_true, Bool.false_eq_true, if_false, hrun, hready, if_true]

/-- A repetition of an elementwise operation or a softmax helper that is no reduction. -/
theorem RunsNext.run_elementwise (hred : isReduction q.vop = false) : s.vecRun c x
    = (((s.bump (home .vec c 0x108) (State.imageCycles q)).vecElementwise c q x.rep).1.endRep c
        { x with flags := x.flags ||| ((s.bump (home .vec c 0x108) (State.imageCycles q)).vecElementwise c q x.rep).2 }) := by
  obtain ⟨-, hsecond, hin, rfl, -, -⟩ := h
  unfold State.vecRun State.endRep
  simp only [hsecond, hin, hred, Bool.false_eq_true, if_false, Option.isSome_none, Bool.false_and, Option.map_none, Option.toList_none,
    List.append_nil]

/-- A repetition of a reduction. -/
theorem RunsNext.run_reduction (hred : isReduction q.vop = true)
    {u : State} {y : VecRun} (hu : (s.bump (home .vec c 0x108) (State.imageCycles q)).vecReduce c x = (u, y)) (hsecond : y.second = none)
    (hin : y.inSecond = false) (hfirst : y.first = q) : s.vecRun c x = u.endRep c y := by
  obtain ⟨-, -, hin', rfl, -, -⟩ := h
  unfold State.vecRun State.endRep
  simp only [hin', Bool.false_eq_true, if_false, hred, if_true, hu, hsecond, hin, Option.isSome_none, Bool.false_and, Option.map_none,
    Option.toList_none, List.append_nil, hfirst]

end

end

end Sys2Proof.Machine
end

section
/-! ### Images of elementwise operations and softmax helpers (R156 to R160) -/

namespace Sys2Proof.Machine

section
variable {s t : State} {c r : Nat} {q : VecReq}

/-- A source element of an operation, 0 where the operation does not use the source. -/
def State.usedSource (s : State) (c : Nat) (q : VecReq) (r i e : Nat) : Nat :=
  if (sourcesUsed q.vop q.lse).testBit (i - 1) then (s.vecSource c q i r 0 q.count e).1 else 0

/-- The elements `g` of the image of repetition `r` of an operation, read in `s`. -/
structure Image (s : State) (c : Nat) (q : VecReq) (r : Nat) (g : Nat → Nat) : Prop where
  elementwise : q.vop ≠ 0x19 → q.vop ≠ 0x2D → q.vop ≠ 0x2E → q.vop ≠ 0x31 → ∀ e, g e = (vopElem q.vop q.lane (s.resultRm q r q.count e)
    (s.usedSource c q r 1 e) (s.usedSource c q r 2 e) (s.usedSource c q r 3 e)).1
  rndbits : q.vop = 0x19 → ∀ e,
    g e = srBits (streamD (q.desc 1)).seed (streamD (q.desc 1)).tensor ((streamD (q.desc 1)).index + (streamD (q.desc 1)).off r 0 q.count e).toNat
  smExp : q.vop = 0x2D → r < 512 → ∀ e,
    g e = (State.smExp ((s.vec c).lanes.get 0 (bits q.b 0 5 * 512 + r)) ((s.vec c).lanes.get 0 ((bits q.b 0 5 + 1) * 512 + r))
      (s.vecSource c q 1 r 0 q.count e).1 (s.vecMask c q r 0 q.count e)).1
  smNorm : q.vop = 0x2E → q.lse = false → r < 512 → ∀ e,
    g e = (State.smNorm ((s.vec c).lanes.get 0 ((bits q.b 0 5 + 1) * 512 + r)) ((s.vec c).lanes.get 0 (bits q.c 0 5 * 512 + r))
      (s.vecSource c q 1 r 0 q.count e).1).1
  unpack : q.vop = 0x31 → opKind q.a ≠ 2 → ∀ e,
    g e = (vopElem 0x31 q.lane .rne (b2n (bit ((s.vec c).lanes.get 0 (bits q.a 0 5 * 512 + e / 32)) (e % 32))) 0 0).1

/-- A repetition computes its image and writes it to the destination (R158). -/
theorem vecElementwise_image (h : (decide (q.vop = 0x2E) && q.lse) = false) : ∃ n fl g, Image s c q r g
    ∧ (s.vecElementwise c q r).1 = { (((s.bump (home .vec c 0x128) n).storeResult c q r q.count ((List.range q.count).map g)).1) with free := fl } := by
  unfold State.vecElementwise
  extract_lets n x xs fl s' y
  rw [if_neg (by simp [h])]
  have hxs : ∃ f : Nat → Nat × Nat × Bool, Image s c q r (fun e => (f e).1) ∧ xs = (List.range n).map f := by
    refine ⟨_, ?_, rfl⟩
    constructor
    case elementwise =>
      intro hrnd hexp hnorm hunpack e
      dsimp only
      split
      case h_5 => simp only [State.usedSource, apply_ite Prod.fst, n]
      all_goals contradiction
    case rndbits =>
      intro hv e
      simp only [hv]
      rfl
    case smExp =>
      intro hv hr e
      have hused : (sourcesUsed 0x2D q.lse).testBit (1 - 1) = true := by cases q.lse <;> rfl
      simp only [hv, State.smStats, if_pos hr, if_pos hused]
      rfl
    case smNorm =>
      intro hv hlse hr e
      simp only [hv, State.smStats, if_pos hr, hlse]
      rfl
    case unpack =>
      intro hv ha e
      simp only [hv, if_neg ha]
  obtain ⟨f, himage, hf⟩ := hxs
  have hfst : (List.range q.count).map (fun e => (f e).1) = xs.map Prod.fst := by
    rw [hf, List.map_map]
    rfl
  refine ⟨(xs.filter (fun x => x.2.2)).length, (s'.storeResult c q r n (xs.map Prod.fst)).1.free + 2050, _, himage, ?_⟩
  rw [hfst]

/-- States that read the same have the same images. -/
theorem Image.reads {g : Nat → Nat} (h : Image t c q r g) (hr : ReadsSame s t c) : Image s c q r g := by
  obtain ⟨elementwise, rndbits, smExp, smNorm, unpack⟩ := h
  simp only [State.usedSource, hr.vecSource, hr.vecMask, hr.resultRm, hr.vec] at elementwise smExp smNorm unpack
  exact ⟨elementwise, rndbits, smExp, smNorm, unpack⟩

theorem count_le (q : VecReq) : q.count ≤ laneElems q.lane := by
  unfold VecReq.count
  split
  · exact Nat.min_le_left ..
  · exact Nat.le_refl _

/-! #### Registers as destination -/

/-- What the writing of an image to register `w` leaves and does: the register's elements are those of the list. -/
structure RegisterWritten (s t : State) (c w lane : Nat) (l : List Nat) : Prop where
  frame : VecOnly s t
  done : (t.vec c).done = (s.vec c).done
  other : ∀ k, k / 512 ≠ w → (t.vec c).lanes.get 0 k = (s.vec c).lanes.get 0 k
  elem : ∀ e, e < l.length → State.regElem (t.vec c) w lane e = (l[e]?).getD 0 % 2 ^ laneBits lane

theorem storeResult_register (hdst : opKind q.dst = 1) (hmask : q.maskout = false) (hrelu : q.relu = false) (hpack : q.vop ≠ 0x30) (n : Nat)
    {l : List Nat} (hl : l.length ≤ laneElems q.lane) : RegisterWritten s (s.storeResult c q r n l).1 c (bits q.dst 0 5) q.lane l := by
  unfold State.storeResult
  simp only [hmask, hrelu, hdst, if_neg hpack, Bool.false_eq_true, if_false]
  refine ⟨vecOnly_setVec .., by rw [setVec_vec_same], fun k hk => ?_, fun e he => ?_⟩
  · rw [setVec_vec_same]
    exact get_image_other hk l 0 (by omega) _
  · rw [setVec_vec_same, regElem_eq]
    exact (laneElem_image l 0 _ _ _ e).trans (if_pos ⟨Nat.zero_le e, by omega⟩)

/-- PACK to a register writes the bits of its words (R156; notes/assumptions/22.md). -/
theorem storeResult_pack (hdst : opKind q.dst = 1) (hmask : q.maskout = false) (hrelu : q.relu = false) (hpack : q.vop = 0x30)
    (hlane : isLane q.lane = true) {l : List Nat} (hl : l.length ≤ laneElems q.lane) :
    let t := (s.storeResult c q r l.length l).1
    VecOnly s t ∧ (t.vec c).done = (s.vec c).done ∧ (∀ k, k / 512 ≠ bits q.dst 0 5 → (t.vec c).lanes.get 0 k = (s.vec c).lanes.get 0 k)
      ∧ ∀ e, e < l.length → bit ((t.vec c).lanes.get 0 (bits q.dst 0 5 * 512 + e / 32)) (e % 32) = laneNonzero q.lane ((l[e]?).getD 0) := by
  intro t
  have hwords := laneElems_words hl hlane
  have ht : t = s.setVec c { s.vec c with lanes := (List.range ((l.length + 31) / 32)).foldl (fun m k => m.set 0 (bits q.dst 0 5 * 512 + k)
      ((List.range 32).foldl (fun a i => a + b2n (laneNonzero q.lane ((l[32 * k + i]?).getD 0)) * 2 ^ i) 0)) (s.vec c).lanes } := by
    simp only [t, State.storeResult, hmask, hrelu, hdst, hpack, Bool.false_eq_true, if_false, if_true]
  rw [ht]
  refine ⟨vecOnly_setVec .., by rw [setVec_vec_same], fun k hk => ?_, fun e he => ?_⟩
  · rw [setVec_vec_same, get_words, if_neg (by omega)]
  · rw [setVec_vec_same, get_words, if_pos (by omega), Nat.add_sub_cancel_left, bit, testBit_packed, Nat.div_add_mod,
      decide_eq_true (Nat.mod_lt e (by decide)), Bool.true_and]

end

section
variable {s : State} {c : Nat} {x : VecRun}

/-- A repetition that has written registers of its engine only ends. -/
theorem ranOne_endRep {t : State} {y : VecRun} (ht : VecOnly s t) (hdone : (t.vec c).done = (s.vec c).done)
    (hfirst : y.first = x.first) (hrep : y.rep = x.rep) {w : Nat} (hother : ∀ k, k / 512 ≠ w → (t.vec c).lanes.get 0 k = (s.vec c).lanes.get 0 k) :
    RanOne s (t.endRep c y) c x ∧ VecFrame s (t.endRep c y) c w := by
  have hframe := ht.trans (endRep_vecOnly t c y)
  refine ⟨endRep_ranOne hfirst hrep hdone, fun k hk => ?_, hframe.peek, by rw [hframe], by rw [hframe], by rw [hframe]⟩
  rw [endRep_lanes]
  exact hother k hk

end

end Sys2Proof.Machine
end

section
/-! ### Elementwise rows and softmax helpers with a register as destination -/

namespace Sys2Proof.Machine

section
variable {s : State} {c : Nat} {x : VecRun} {q : VecReq} (h : RunsNext s c x q)
include h

/-- A repetition of an elementwise operation computes its image, writes it to the destination and ends. -/
theorem RunsNext.step_image (hred : isReduction q.vop = false) (hlse : (decide (q.vop = 0x2E) && q.lse) = false) {f : Nat → Bool}
    (hf : f q.vop = true) : ∃ u fl g y, ReadsSame s u c ∧ VecOnly s u ∧ Image s c q x.rep g ∧ y.first = x.first ∧ y.rep = x.rep
      ∧ s.vecStep c f
        = State.endRep { (u.storeResult c q x.rep q.count ((List.range q.count).map g)).1 with free := fl } c y := by
  have hr := readsSame_bump s (home .vec c 0x108) (State.imageCycles q) c
  obtain ⟨n, fl, g, hg, he⟩ := vecElementwise_image (s := s.bump (home .vec c 0x108) (State.imageCycles q)) (c := c) (r := x.rep) hlse
  rw [h.step hf, h.run_elementwise hred, he]
  have hr' := readsSame_bump (s.bump (home .vec c 0x108) (State.imageCycles q)) (home .vec c 0x128) n c
  exact ⟨_, fl, g, { x with flags := x.flags ||| _ }, ⟨hr'.vec.trans hr.vec, hr'.free.trans hr.free, fun a => (hr'.peek a).trans (hr.peek a)⟩,
    (vecOnly_bump ..).trans (vecOnly_bump ..), hg.reads hr, rfl, rfl, rfl⟩

section
variable (hdst : opKind q.dst = 1) (hmask : q.maskout = false) (hrelu : q.relu = false)
include hdst hmask hrelu

/-- One repetition with a register as destination writes its image there, and nothing else (R148, R154, R158). -/
theorem RunsNext.step_register (hred : isReduction q.vop = false) (hpack : q.vop ≠ 0x30)
    (hlse : (decide (q.vop = 0x2E) && q.lse) = false) {f : Nat → Bool} (hf : f q.vop = true) : ∃ g, Image s c q x.rep g
      ∧ RanOne s (s.vecStep c f) c x ∧ VecFrame s (s.vecStep c f) c (bits q.dst 0 5)
      ∧ ∀ e, e < q.count → State.regElem ((s.vecStep c f).vec c) (bits q.dst 0 5) q.lane e = g e % 2 ^ laneBits q.lane := by
  obtain ⟨u, fl, g, y, hr, hu, hg, hfirst, hrep, he⟩ := h.step_image hred hlse hf
  have hlen : ((List.range q.count).map g).length = q.count := by rw [List.length_map, List.length_range]
  obtain ⟨hframe, hdone, hother, helem⟩ := storeResult_register (s := u) (c := c) (r := x.rep) hdst hmask hrelu hpack q.count
    (hlen.trans_le (count_le q))
  rw [he]
  generalize (u.storeResult c q x.rep q.count ((List.range q.count).map g)).1 = t at hframe hdone hother helem
  rw [hr.vec] at hdone hother
  obtain ⟨hran, hvec⟩ := ranOne_endRep (t := { t with free := fl }) ((hu.trans hframe).trans (vecOnly_free ..)) hdone hfirst hrep hother
  refine ⟨g, hg, hran, hvec, fun e hlt => ?_⟩
  have := helem e (by omega)
  rw [List.getElem?_map, List.getElem?_range hlt] at this
  rw [regElem_eq, endRep_lanes]
  exact this

/-- As `RunsNext.step_register`, for PACK. -/
theorem RunsNext.step_pack (hpack : q.vop = 0x30) {f : Nat → Bool} (hf : f q.vop = true) : ∃ g, Image s c q x.rep g
      ∧ RanOne s (s.vecStep c f) c x ∧ VecFrame s (s.vecStep c f) c (bits q.dst 0 5)
      ∧ ∀ e, e < q.count → bit (((s.vecStep c f).vec c).lanes.get 0 (bits q.dst 0 5 * 512 + e / 32)) (e % 32) = laneNonzero q.lane (g e) := by
  obtain ⟨u, fl, g, y, hr, hu, hg, hfirst, hrep, he⟩ := h.step_image (by rw [hpack]; rfl) (by rw [hpack]; rfl) hf
  have hlen : ((List.range q.count).map g).length = q.count := by rw [List.length_map, List.length_range]
  have hspec := storeResult_pack (s := u) (c := c) (r := x.rep) hdst hmask hrelu hpack h.2.2.2.2.2 (hlen.trans_le (count_le q))
  rw [hlen] at hspec
  obtain ⟨hframe, hdone, hother, helem⟩ := hspec
  rw [he]
  generalize (u.storeResult c q x.rep q.count ((List.range q.count).map g)).1 = t at hframe hdone hother helem
  rw [hr.vec] at hdone hother
  obtain ⟨hran, hvec⟩ := ranOne_endRep (t := { t with free := fl }) ((hu.trans hframe).trans (vecOnly_free ..)) hdone hfirst hrep hother
  refine ⟨g, hg, hran, hvec, fun e hlt => ?_⟩
  have := helem e hlt
  rw [List.getElem?_map, List.getElem?_range hlt] at this
  rw [endRep_lanes]
  exact this

end

end

/-- The log-sum-exp of row `r` as SM_NORM with LSE writes it (R158, R160). -/
def State.lseWritten (s : State) (c : Nat) (q : VecReq) (r : Nat) : Nat :=
  let y := (State.smLse ((s.vec c).lanes.get 0 (bits q.b 0 5 * 512 + r)) ((s.vec c).lanes.get 0 ((bits q.b 0 5 + 1) * 512 + r))
    ((s.vec c).lanes.get 0 (bits q.c 0 5 * 512 + r))).1
  if q.relu then relu q.lane y else y

theorem vecElementwise_lse {s : State} {c r : Nat} {q : VecReq} (hv : q.vop = 0x2E) (hlse : q.lse = true) (hmask : q.maskout = false) (hr : r < 512) :
    ∃ n fl, (s.vecElementwise c q r).1 = { (s.bump (home .vec c 0x128) n).setVec c
      { s.vec c with lanes := (s.vec c).lanes.set 0 (bits q.dst 0 5 * 512 + r) (s.lseWritten c q r) } with free := fl } := by
  unfold State.vecElementwise
  extract_lets n x xs fl s' y
  rw [if_pos (by simp [hv, hlse])]
  have hvec : s'.vec c = s.vec c := vec_bump ..
  refine ⟨(xs.filter (fun x => x.2.2)).length, s'.free + 2050, ?_⟩
  simp only [State.smStats, if_pos hr, hmask, Bool.false_eq_true, if_false, hvec, State.lseWritten]
  rfl

/-- SM_NORM with LSE leaves one result in the row's lane (R160; notes/assumptions/21.md). -/
theorem RunsNext.step_lse {s : State} {c : Nat} {x : VecRun} {q : VecReq} (h : RunsNext s c x q) (hv : q.vop = 0x2E) (hlse : q.lse = true)
    (hmask : q.maskout = false) (hrow : x.rep < 512) {f : Nat → Bool} (hf : f q.vop = true) :
    RanOne s (s.vecStep c f) c x ∧ VecFrame s (s.vecStep c f) c (bits q.dst 0 5)
      ∧ ((s.vecStep c f).vec c).lanes.get 0 (bits q.dst 0 5 * 512 + x.rep) = s.lseWritten c q x.rep := by
  rw [h.step hf, h.run_elementwise (by rw [hv]; rfl)]
  have hvec := vec_bump s (home .vec c 0x108) (State.imageCycles q) c
  have hu := vecOnly_bump s (home .vec c 0x108) (State.imageCycles q)
  generalize s.bump (home .vec c 0x108) (State.imageCycles q) = u at hvec hu
  obtain ⟨n, fl, he⟩ := vecElementwise_lse (s := u) (c := c) hv hlse hmask hrow
  have hframe : VecOnly s (u.vecElementwise c q x.rep).1 := by
    rw [he]
    exact ((hu.trans (vecOnly_bump ..)).trans (vecOnly_setVec ..)).trans (vecOnly_free ..)
  have hafter : (u.vecElementwise c q x.rep).1.vec c
      = { s.vec c with lanes := (s.vec c).lanes.set 0 (bits q.dst 0 5 * 512 + x.rep) (s.lseWritten c q x.rep) } := by
    rw [he, State.lseWritten, State.lseWritten, ← hvec]
    exact setVec_vec_same ..
  obtain ⟨hran, hframe'⟩ := ranOne_endRep (w := bits q.dst 0 5) hframe (by rw [hafter]) (y := { x with flags := x.flags ||| (u.vecElementwise c q x.rep).2 })
    (x := x) rfl rfl fun k hk => by
    rw [hafter, SMap.get_set_ne _ _ _ _ (by omega)]
  refine ⟨hran, hframe', ?_⟩
  rw [endRep_lanes, hafter, SMap.get_set_same]

/-! #### The rows -/

/-- The value 1 in a lane format. -/
def laneOne (lane : Nat) : Nat := if laneFloat lane then (encodeFp (laneFp lane) .rne (Fv.fin false 1 0)).1 else 1

/-- PACK and UNPACK give 1 for an element that is not 0, and 0 for one that is (R156). -/
theorem vopElem_nonzero (lane : Nat) (rm : Rm) (a b c : Nat) :
    (vopElem 0x30 lane rm a b c).1 = (if laneNonzero lane a then laneOne lane else 0)
      ∧ (vopElem 0x31 lane rm a b c).1 = (if laneNonzero lane a then laneOne lane else 0) := ⟨rfl, rfl⟩

/-- Whether an operation is elementwise and computes each element of its result from its sources' elements alone. -/
def plainVop (v : Nat) : Bool := !isReduction v && !([0x19, 0x2D, 0x2E, 0x30, 0x31] : List Nat).contains v

theorem plainVop_of_beq {k : Nat} (h : plainVop k = true) (v : Nat) (hv : (v == k) = true) : plainVop v = true := by
  rwa [beq_iff_eq.1 hv]

/-- The row of an elementwise operation. -/
theorem elementwise_row {r : Fin 32 → Instr} {op : Nat → Bool} (hr : ∀ c s, exec (r c) s = .next (s.vecStep c.val op))
    (hop : ∀ v, op v = true → plainVop v = true) (s : State) (c : Fin 32) (x : VecRun) (q : VecReq) (h : RunsNext s c.val x q) (hf : op q.vop = true)
    (hdst : opKind q.dst = 1) (hmask : q.maskout = false) (hrelu : q.relu = false) :
    Completes (r c) s fun t => RanOne s t c.val x ∧ VecFrame s t c.val (bits q.dst 0 5)
      ∧ ∀ e, e < q.count → State.regElem (t.vec c.val) (bits q.dst 0 5) q.lane e
          = (vopElem q.vop q.lane (s.resultRm q x.rep q.count e) (s.usedSource c.val q x.rep 1 e) (s.usedSource c.val q x.rep 2 e)
              (s.usedSource c.val q x.rep 3 e)).1 % 2 ^ laneBits q.lane := by
  have hplain := hop _ hf
  simp only [plainVop, List.contains_cons, List.contains_nil, Bool.or_false, Bool.and_eq_true, Bool.not_eq_true', Bool.or_eq_false_iff,
    beq_eq_false_iff_ne] at hplain
  obtain ⟨hred, hrnd, hexp, hnorm, hpack, hunpack⟩ := hplain
  obtain ⟨g, hg, hran, hframe, helem⟩ := h.step_register hdst hmask hrelu hred hpack (by simp [hnorm]) hf
  refine ⟨_, hr c s, hran, hframe, fun e he => ?_⟩
  rw [helem e he, hg.elementwise hrnd hexp hnorm hunpack]

section
variable {s : State} {c : Fin 32} {x : VecRun} {q : VecReq} (h : RunsNext s c.val x q)
include h

section
variable (hdst : opKind q.dst = 1) (hmask : q.maskout = false) (hrelu : q.relu = false)
include hdst hmask hrelu

theorem rndbits_row (hv : q.vop = 0x19) : Completes (.rndbits c) s fun t => RanOne s t c.val x ∧ VecFrame s t c.val (bits q.dst 0 5)
    ∧ ∀ e, e < q.count → State.regElem (t.vec c.val) (bits q.dst 0 5) q.lane e = srBits (streamD (q.desc 1)).seed (streamD (q.desc 1)).tensor
        ((streamD (q.desc 1)).index + (streamD (q.desc 1)).off x.rep 0 q.count e).toNat % 2 ^ laneBits q.lane := by
  obtain ⟨g, hg, hran, hframe, helem⟩ := h.step_register (f := (· == 0x19)) hdst hmask hrelu (by rw [hv]; rfl) (by rw [hv]; decide) (by rw [hv]; rfl)
    (by rw [hv]; rfl)
  refine ⟨_, rfl, hran, hframe, fun e he => ?_⟩
  rw [helem e he, hg.rndbits hv]

theorem unpack_row (hv : q.vop = 0x31) (ha : opKind q.a ≠ 2) :
    Completes (.unpack c) s fun t => RanOne s t c.val x ∧ VecFrame s t c.val (bits q.dst 0 5)
      ∧ ∀ e, e < q.count → State.regElem (t.vec c.val) (bits q.dst 0 5) q.lane e
          = (if bit ((s.vec c.val).lanes.get 0 (bits q.a 0 5 * 512 + e / 32)) (e % 32) then laneOne q.lane else 0) % 2 ^ laneBits q.lane := by
  obtain ⟨g, hg, hran, hframe, helem⟩ := h.step_register (f := (· == 0x31)) hdst hmask hrelu (by rw [hv]; rfl) (by rw [hv]; decide) (by rw [hv]; rfl)
    (by rw [hv]; rfl)
  refine ⟨_, rfl, hran, hframe, fun e he => ?_⟩
  rw [helem e he, hg.unpack hv ha, (vopElem_nonzero ..).2, laneNonzero_b2n h.2.2.2.2.2]

theorem smExp_row (hv : q.vop = 0x2D) (hrow : x.rep < 512) :
    Completes (.smExp c) s fun t => RanOne s t c.val x ∧ VecFrame s t c.val (bits q.dst 0 5)
      ∧ ∀ e, e < q.count → State.regElem (t.vec c.val) (bits q.dst 0 5) q.lane e
          = (State.smExp ((s.vec c.val).lanes.get 0 (bits q.b 0 5 * 512 + x.rep)) ((s.vec c.val).lanes.get 0 ((bits q.b 0 5 + 1) * 512 + x.rep))
              (s.vecSource c.val q 1 x.rep 0 q.count e).1 (s.vecMask c.val q x.rep 0 q.count e)).1 % 2 ^ laneBits q.lane := by
  obtain ⟨g, hg, hran, hframe, helem⟩ := h.step_register (f := (· == 0x2D)) hdst hmask hrelu (by rw [hv]; rfl) (by rw [hv]; decide) (by rw [hv]; rfl)
    (by rw [hv]; rfl)
  refine ⟨_, rfl, hran, hframe, fun e he => ?_⟩
  rw [helem e he, hg.smExp hv hrow]

theorem smNorm_row (hv : q.vop = 0x2E) (hrow : x.rep < 512) (hlse : q.lse = false) :
    Completes (.smNorm c) s fun t => RanOne s t c.val x ∧ VecFrame s t c.val (bits q.dst 0 5)
      ∧ ∀ e, e < q.count → State.regElem (t.vec c.val) (bits q.dst 0 5) q.lane e
          = (State.smNorm ((s.vec c.val).lanes.get 0 ((bits q.b 0 5 + 1) * 512 + x.rep)) ((s.vec c.val).lanes.get 0 (bits q.c 0 5 * 512 + x.rep))
              (s.vecSource c.val q 1 x.rep 0 q.count e).1).1 % 2 ^ laneBits q.lane := by
  obtain ⟨g, hg, hran, hframe, helem⟩ := h.step_register (f := (· == 0x2E)) hdst hmask hrelu (by rw [hv]; rfl) (by rw [hv]; decide)
    (by rw [hlse, Bool.and_false]) (by rw [hv]; rfl)
  refine ⟨_, rfl, hran, hframe, fun e he => ?_⟩
  rw [helem e he, hg.smNorm hv hlse hrow]

theorem pack_row (hv : q.vop = 0x30) :
    Completes (.pack c) s fun t => RanOne s t c.val x ∧ VecFrame s t c.val (bits q.dst 0 5)
      ∧ ∀ e, e < q.count → bit ((t.vec c.val).lanes.get 0 (bits q.dst 0 5 * 512 + e / 32)) (e % 32)
          = laneNonzero q.lane (if laneNonzero q.lane (s.vecSource c.val q 1 x.rep 0 q.count e).1 then laneOne q.lane else 0) := by
  obtain ⟨g, hg, hran, hframe, helem⟩ := h.step_pack (f := (· == 0x30)) hdst hmask hrelu hv (by rw [hv]; rfl)
  have hused : (sourcesUsed q.vop q.lse).testBit (1 - 1) = true := by
    rw [hv]
    cases q.lse <;> rfl
  refine ⟨_, rfl, hran, hframe, fun e he => ?_⟩
  rw [helem e he, hg.elementwise (by rw [hv]; decide) (by rw [hv]; decide) (by rw [hv]; decide) (by rw [hv]; decide), hv, (vopElem_nonzero ..).1,
    State.usedSource, if_pos hused]

end

theorem smNorm_lse_row (hv : q.vop = 0x2E) (hlse : q.lse = true) (hmask : q.maskout = false) (hrow : x.rep < 512) :
    Completes (.smNorm c) s fun t => RanOne s t c.val x ∧ VecFrame s t c.val (bits q.dst 0 5)
      ∧ (t.vec c.val).lanes.get 0 (bits q.dst 0 5 * 512 + x.rep) = s.lseWritten c.val q x.rep :=
  ⟨_, rfl, h.step_lse hv hlse hmask hrow (f := (· == 0x2E)) (by rw [hv]; rfl)⟩

end

end Sys2Proof.Machine
end

section
/-! ### Reductions (R93, R159, R160) -/

namespace Sys2Proof.Machine

/-- The partial result of row `row` after its image `j` joins `r0` (R87, R93, R159). -/
def State.rowAcc (s : State) (c : Nat) (q : VecReq) (row j : Nat) (r0 : Nat × Nat) : Nat × Nat :=
  if State.ndDot q then ((s.dotImage c q row j q.count (r0.1, 0)).1, 1)
  else ((List.range q.count).filter (fun e => s.vecMask c q row j q.count e)).foldl (fun a e =>
    (State.accStep q.vop q.lane a (s.vecSource c q 1 row j q.count e).1 (if q.vop = 0x2A then (s.vecSource c q 2 row j q.count e).1 else 0)).1) r0

/-- The registers of an engine after the last image of a row, with the result `acc` of the row and, for SM_STAT, its second word (R160). -/
def rowLanes (m : SMap Nat) (q : VecReq) (row : Nat) (acc : Nat × Nat) (free : Nat) : SMap Nat :=
  let m := m.set 0 (bits q.dst 0 5 * 512 + row) acc.1
  if q.vop = 0x2C then m.set 0 ((bits q.dst 0 5 + 1) * 512 + row) (State.smWord acc.2 free) else m

/-- A fold that keeps more than the partial result, and skips what a mask leaves out, has the partial result of the selected elements. -/
theorem foldl_selected {α β γ : Type} (sel : γ → Bool) (f : α × β → γ → α × β) (g : α → γ → α) (hf : ∀ st e, (f st e).1 = g st.1 e) (l : List γ)
    (st : α × β) : (l.foldl (fun st e => if !sel e then st else f st e) st).1 = (l.filter sel).foldl g st.1 := by
  rw [List.foldl_filter]
  refine (List.foldl_hom Prod.fst fun st e => ?_).symm
  cases sel e <;> simp [hf]

section
variable {s t : State} {c : Nat}

theorem ReadsSame.rowAcc (h : ReadsSame s t c) (q : VecReq) (row j : Nat) (r0 : Nat × Nat) : t.rowAcc c q row j r0 = s.rowAcc c q row j r0 := by
  simp only [State.rowAcc, h.dotImage, h.vecMask, h.vecSource]

/-- The last image of a row leaves the row's result in the row's lane. -/
theorem vecReduce_last {x : VecRun} {row j : Nat} (hrow : x.rep % x.first.rows = row) (hj : x.rep / x.first.rows = j)
    (hlast : j + 1 = x.first.reps / x.first.rows) (hrelu : x.first.relu = false) {acc : Nat × Nat}
    (hacc : s.rowAcc c x.first row j (x.acc.get (State.accStart x.first.vop) row) = acc) (hmax : x.first.vop = 0x29 → acc.2 ≠ 0) :
    ∃ u y free, s.vecReduce c x = (u, y) ∧ VecOnly s u ∧ u.vec c = { s.vec c with lanes := rowLanes (s.vec c).lanes x.first row acc free }
      ∧ y.first = x.first ∧ y.rep = x.rep ∧ y.second = x.second ∧ y.inSecond = x.inSecond := by
  subst hrow hj
  unfold State.vecReduce
  extract_lets q row j n r0
  split
  rename_i a fl sat hstep
  have ha : a = acc := by
    rw [← hacc, State.rowAcc]
    split at hstep
    · rename_i hnd
      rw [if_pos hnd]
      exact (congrArg Prod.fst hstep).symm
    · rename_i hnd
      rw [if_neg hnd, ← foldl_selected (β := Nat × Nat) _ _ _ _ _ (r0, 0, 0)]
      · exact (congrArg Prod.fst hstep).symm
      · intro st e
        rw [← apply_ite Prod.fst (x.first.vop = 0x2A) _ (0, 0)]
  subst ha
  have hempty : (q.vop == 0x29 && a.2 == 0) = false := by
    by_cases hv : q.vop = 0x29
    · simp [hmax hv]
    · simp [hv]
  extract_lets s' y empty
  have hvec : s'.vec c = s.vec c := vec_bump ..
  rw [if_neg (show ¬ j + 1 < q.reps / q.rows from hlast.not_lt)]
  refine ⟨_, y, Config.freeValue s'.free, rfl, (vecOnly_bump s _ sat).trans ((vecOnly_free ..).trans (vecOnly_setVec ..)), ?_, rfl, rfl, rfl, rfl⟩
  rw [setVec_vec_same]
  simp only [empty, hempty, show q.relu = false from hrelu, Bool.false_eq_true, if_false, rowLanes]
  rw [show State.vec { s' with free := s'.free + 1 } c = s.vec c from hvec]

end

/-- The registers after the last image of a row, lane by lane. -/
theorem rowLanes_get {m : SMap Nat} {q : VecReq} (row : Nat) (acc : Nat × Nat) (free : Nat) :
    (rowLanes m q row acc free).get 0 (bits q.dst 0 5 * 512 + row) = acc.1
      ∧ (q.vop = 0x2C → (rowLanes m q row acc free).get 0 ((bits q.dst 0 5 + 1) * 512 + row) = State.smWord acc.2 free)
      ∧ ∀ k, k ≠ bits q.dst 0 5 * 512 + row → (q.vop = 0x2C → k ≠ (bits q.dst 0 5 + 1) * 512 + row) → (rowLanes m q row acc free).get 0 k = m.get 0 k := by
  unfold rowLanes
  dsimp only
  split
  · rename_i hv
    refine ⟨?_, fun _ => SMap.get_set_same .., fun k hk hk' => ?_⟩
    · rw [SMap.get_set_ne _ _ _ _ (by omega), SMap.get_set_same]
    · rw [SMap.get_set_ne _ _ _ _ (hk' hv).symm, SMap.get_set_ne _ _ _ _ hk.symm]
  · rename_i hv
    exact ⟨SMap.get_set_same .., fun h => absurd h hv, fun k hk _ => SMap.get_set_ne _ _ _ _ hk.symm⟩

theorem smWord_count {acc : Nat} (h : acc / 0x40000 < 0x10000) (free : Nat) : State.smWord acc free = acc / 0x40000 + bits acc 16 2 * 0x10000 := by
  rw [State.smWord, if_pos h, Nat.add_comm]

/-- The row of a reduction: the last image of a row. -/
theorem reduction_row {r : Fin 32 → Instr} {op : Nat} (hr : ∀ c s, exec (r c) s = .next (s.vecStep c.val (· == op))) (hred : isReduction op = true)
    (s : State) (c : Fin 32) (x : VecRun) (q : VecReq) (h : RunsNext s c.val x q) (hv : q.vop = op) (hrelu : q.relu = false)
    (hlast : x.rep / q.rows + 1 = q.reps / q.rows) {row : Nat} (hrow : x.rep % q.rows = row) {acc : Nat × Nat}
    (hacc : s.rowAcc c.val q row (x.rep / q.rows) (x.acc.get (State.accStart op) row) = acc) (hmax : op = 0x29 → acc.2 ≠ 0) :
    Completes (r c) s fun t => RanOne s t c.val x ∧ (t.vec c.val).lanes.get 0 (bits q.dst 0 5 * 512 + row) = acc.1
      ∧ (op = 0x2C → acc.2 / 0x40000 < 0x10000 →
          (t.vec c.val).lanes.get 0 ((bits q.dst 0 5 + 1) * 512 + row) = acc.2 / 0x40000 + bits acc.2 16 2 * 0x10000)
      ∧ (∀ k, k ≠ bits q.dst 0 5 * 512 + row → (op = 0x2C → k ≠ (bits q.dst 0 5 + 1) * 512 + row) →
          (t.vec c.val).lanes.get 0 k = (s.vec c.val).lanes.get 0 k)
      ∧ (∀ a, t.peek a = s.peek a) ∧ t.groups = s.groups ∧ t.ctrs = s.ctrs := by
  subst hv
  obtain ⟨-, hsecond, hin, rfl, -, -⟩ := id h
  have hreads := readsSame_bump s (home .vec c.val 0x108) (State.imageCycles x.first) c.val
  have hbump := vecOnly_bump s (home .vec c.val 0x108) (State.imageCycles x.first)
  obtain ⟨u, y, free, hu, hframe, hvec, hfirst, hrep, hsec, hins⟩ := vecReduce_last hrow rfl hlast hrelu ((hreads.rowAcc ..).trans hacc) hmax
  have hstep := (h.step (f := (· == x.first.vop)) (beq_self_eq_true _)).trans (h.run_reduction hred hu (hsec.trans hsecond) (hins.trans hin) hfirst)
  rw [hreads.vec] at hvec
  have hdone : (u.vec c.val).done = (s.vec c.val).done := by rw [hvec]
  have hlanes : ((u.endRep c.val y).vec c.val).lanes = rowLanes (s.vec c.val).lanes x.first row acc free := by rw [endRep_lanes, hvec]
  have hall := (hbump.trans hframe).trans (endRep_vecOnly u c.val y)
  obtain ⟨hval, hword, hother⟩ := rowLanes_get (m := (s.vec c.val).lanes) (q := x.first) row acc free
  refine ⟨_, (hr c s).trans (congrArg _ hstep), endRep_ranOne hfirst hrep hdone, ?_, fun hv hcount => ?_, ?_, hall.peek, by rw [hall], by rw [hall]⟩
  · rw [hlanes, hval]
  · rw [hlanes, hword hv, smWord_count hcount]
  · rw [hlanes]
    exact hother

end Sys2Proof.Machine
end

section
/-! ### A destination stream of FP32 words (R151, R158) -/

namespace Sys2Proof

theorem ofLeBytes_leBytes (n x : Nat) : ofLeBytes (leBytes n x) = x % 2 ^ (8 * n) := by
  induction n generalizing x with
  | zero => rw [Nat.mul_zero, Nat.pow_zero, Nat.mod_one]; rfl
  | succ n ih =>
    rw [leBytes, ofLeBytes, ih, BitVec.toNat_ofNat, Nat.shiftLeft_eq, Nat.shiftRight_eq_div_pow, show 8 * (n + 1) = 8 + 8 * n by omega, Nat.pow_add,
      Nat.mod_mul, Nat.mul_comm]

end Sys2Proof

namespace Sys2Proof.Machine

theorem leBytes_eq_map (n x : Nat) : leBytes n x = (List.range n).map fun j => BitVec.ofNat 8 (x >>> (8 * j)) := by
  refine List.ext_getElem? fun j => ?_
  by_cases hj : j < n
  · rw [getElem?_leBytes hj, List.getElem?_map, List.getElem?_range hj]
    rfl
  · rw [List.getElem?_eq_none (by rw [length_leBytes]; omega), List.getElem?_eq_none (by rw [List.length_map, List.length_range]; omega)]

/-- A number whose bytes are in memory. -/
theorem peekNat_of_bytes {s : State} {a n x : Nat} (h : ∀ j, j < n → s.peek (a + j) = BitVec.ofNat 8 (x >>> (8 * j))) :
    s.peekNat a n = x % 2 ^ (8 * n) := by
  rw [State.peekNat, State.peekBytes, List.map_congr_left fun j hj => h j (List.mem_range.1 hj), ← leBytes_eq_map, ofLeBytes_leBytes]

/-- Bytes within one line are written to it. -/
theorem poke_one_line (s : State) (p : Nat) {a : Nat} {l : List Byte} (hpos : 0 < l.length) (hline : a % 128 + l.length ≤ 128) :
    s.poke p a l = s.pokeLine p a l := by
  unfold State.poke
  rw [show (a + l.length - 1) / 128 - a / 128 + 1 = 1 by omega]
  simp only [List.range_one, List.foldl_cons, List.foldl_nil, Nat.add_zero]
  rw [show max a (a / 128 * 128) = a by omega, show min (a + l.length) ((a / 128 + 1) * 128) = a + l.length by omega, Nat.sub_self, List.drop_zero,
    Nat.add_sub_cancel_left, List.take_length]

theorem cleanImage_cpoison (s : State) (c : Nat) (x : StreamD) (r n : Nat) :
    s.cleanImage c x r n = { s with cpoison := (s.cleanImage c x r n).cpoison } := by
  unfold State.cleanImage State.cclean
  split_ifs <;> rfl

theorem zipIdx_range_map (n : Nat) (g : Nat → Nat) : ((List.range n).map g).zipIdx = (List.range n).map fun e => (g e, e) := by
  refine List.ext_getElem? fun e => ?_
  rw [List.getElem?_zipIdx, List.getElem?_map, List.getElem?_map, Option.map_map]
  by_cases he : e < n
  · rw [List.getElem?_range he]
    simp
  · rw [List.getElem?_eq_none (by rw [List.length_range]; omega)]
    rfl

/-- A stream of consecutive FP32 elements, each a whole word of memory (R149, R150). -/
structure WordStream (x : StreamD) : Prop where
  elements : x.isBits = false
  fmt : x.fmt = 0
  estride : x.estride = 1
  addr : x.addr % 4 = 0
  rstride : x.rstride % 4 = 0

/-- The place of element `e` of row `r`, and what is written there. -/
def wordOp (c : Nat) (x : StreamD) (r : Nat) (code : Nat → Nat) (e : Nat) : LaneOp :=
  ⟨e, State.cmemLpa c (x.addr + r * x.rstride + 4 * e), 0, code e, 0⟩

section
variable {s : State} {c r : Nat} {x : StreamD} (h : WordStream x)
include h

theorem WordStream.width : x.width = 32 := by
  rw [StreamD.width, h.elements, h.fmt]
  rfl

theorem WordStream.bitAt (n e : Nat) : (x.bitAt r (x.off r 0 n e)).toNat / 8 = x.addr + r * x.rstride + 4 * e := by
  obtain ⟨k, hk⟩ := Nat.dvd_of_mod_eq_zero h.rstride
  have hbytes : r * x.rstride = 4 * (r * k) := by rw [hk, Nat.mul_left_comm]
  rw [StreamD.bitAt, StreamD.off, StreamD.rest, h.width, h.estride, hbytes, imageStep]
  omega

theorem WordStream.storeElem (p n e code : Nat) :
    s.storeElem p c x r (x.off r 0 n e) code = s.putPoint p (State.cmemLpa c (x.addr + r * x.rstride + 4 * e)) (leBytes 4 code) := by
  have hword : (x.addr + r * x.rstride) % 4 = 0 := by
    rw [Nat.add_mod, h.addr, Nat.mul_mod, h.rstride]
    rfl
  unfold State.storeElem
  rw [h.width, h.bitAt]
  show s.poke p _ _ = _
  refine poke_one_line _ _ (by rw [length_leBytes]; decide) ?_
  show State.cmemLpa c (x.addr + r * x.rstride + 4 * e) % 128 + (leBytes 4 code).length ≤ 128
  rw [length_leBytes, State.cmemLpa]
  omega

/-- An image written to the stream is converted element by element, and each is written as a word. -/
theorem WordStream.storeImage (p lane n : Nat) (g : Nat → Nat) :
    let code e := (convert (laneFmt lane) (.fp fp32) (State.storeRm x (x.off r 0 n e)) (g e)).1
    (s.storeImage p c lane x r n ((List.range n).map g)).1
      = ((List.range n).map (wordOp c x r code)).foldl (fun s y => s.putPoint p y.lpa (leBytes 4 y.data)) (s.cleanImage c x r n) := by
  intro code
  have hfmt : fmtOfCode x.fmt = some (.fp fp32) := by
    rw [h.fmt]
    rfl
  unfold State.storeImage
  simp only [h.elements, hfmt, Bool.false_eq_true, if_false, zipIdx_range_map, List.length_map, List.length_range, List.foldl_map, h.storeElem]
  exact (List.foldl_hom Prod.fst fun _ _ => rfl).symm

/-- The words of an image that lies in the lower part of the stride of a cluster that is on are written, and nothing else. -/
theorem WordStream.wrote (hc : c < 32) (hon : s.domOn c = true) {n : Nat} (hend : x.addr + r * x.rstride + 4 * n ≤ 0xC00000) (p lane : Nat)
    (g : Nat → Nat) :
    Wrote s (s.storeImage p c lane x r n ((List.range n).map g)).1
      ((List.range n).map (wordOp c x r fun e => (convert (laneFmt lane) (.fp fp32) (State.storeRm x (x.off r 0 n e)) (g e)).1)) 4 := by
  rw [h.storeImage, cleanImage_cpoison]
  generalize (s.cleanImage c x r n).cpoison = m
  obtain ⟨hframe, hbyte, hother⟩ := wrote_lanes (s := { s with cpoison := m }) (c := c) (n := 4) p
    (ls := (List.range n).map (wordOp c x r fun e => (convert (laneFmt lane) (.fp fp32) (State.storeRm x (x.off r 0 n e)) (g e)).1))
    (fun y hy => by
      obtain ⟨e, he, rfl⟩ := List.mem_map.1 hy
      have := List.mem_range.1 he
      exact ⟨_, place_cmemLpa hc (by omega), by omega⟩)
    (List.pairwise_map.2 (List.pairwise_lt_range.imp fun hlt => by
      simp only [wordOp, State.cmemLpa]
      omega)) hon
  exact ⟨hframe, hbyte, hother⟩

end

section
variable {s : State} {c : Fin 32} {x : VecRun} {q : VecReq}

theorem sum_count (hv : q.vop = 0x00) (hlane : q.lane = 0) : q.count = 512 := by
  rw [VecReq.count, hv, hlane]
  rfl

/-- A sum whose destination is such a stream. -/
theorem stream_row (h : RunsNext s c.val x q) (hv : q.vop = 0x00) (hlane : q.lane = 0) (hdst : opKind q.dst = 2) (hmask : q.maskout = false)
    (hrelu : q.relu = false) (hon : s.domOn c.val = true) {d : StreamD} (hd : streamD (q.desc 0) = d) (hw : WordStream d)
    (hend : d.addr + x.rep * d.rstride + 2048 ≤ 0xC00000) :
    let at_ (e : Nat) : Nat := d.addr + x.rep * d.rstride + 4 * e
    let res (e : Nat) : Nat := (fAdd fp32 (s.resultRm q x.rep 512 e) (s.vecSource c.val q 1 x.rep 0 512 e).1 (s.vecSource c.val q 2 x.rep 0 512 e).1).1
    Completes (.vopAdd c) s fun t => RanOne s t c.val x ∧ (t.vec c.val).lanes = (s.vec c.val).lanes
      ∧ (∀ e, e < 512 → t.cword c.val (at_ e) = (convert (.fp fp32) (.fp fp32) (State.storeRm d (d.off x.rep 0 512 e)) (res e)).1 % 2 ^ 32)
      ∧ ∀ a, (a < State.cmemLpa c.val (at_ 0) ∨ State.cmemLpa c.val (at_ 512) ≤ a) → t.peek a = s.peek a := by
  intro at_ res
  obtain ⟨u, fl, g, y, hr, hu, hg, hfirst, hrep, hstep⟩ := h.step_image (f := (· == 0x00)) (by rw [hv]; rfl) (by rw [hv]; rfl) (by rw [hv]; rfl)
  have hres : ∀ e, g e = res e := fun e => by
    rw [hg.elementwise (by rw [hv]; decide) (by rw [hv]; decide) (by rw [hv]; decide) (by rw [hv]; decide), State.usedSource, State.usedSource,
      sum_count hv hlane, hv, hlane, show sourcesUsed 0 q.lse = 3 from rfl]
    rfl
  have hstored : ((u.storeResult c.val q x.rep q.count ((List.range q.count).map g)).1)
      = (u.storeImage q.part c.val 0 d x.rep 512 ((List.range 512).map g)).1 := by
    unfold State.storeResult
    simp only [hmask, hrelu, hdst, hd, hlane, sum_count hv hlane, Bool.false_eq_true, if_false]
  have hon' : u.domOn c.val = true := by
    rw [hu]
    exact hon
  obtain ⟨hframe, hbyte, hother⟩ := hw.wrote (r := x.rep) (n := 512) c.isLt hon' hend q.part 0 g
  rw [hstored] at hstep
  generalize (u.storeImage q.part c.val 0 d x.rep 512 ((List.range 512).map g)).1 = v at hstep hframe hbyte hother
  have hvec : v.vec c.val = s.vec c.val := by
    rw [hframe]
    exact hr.vec
  have hkept : ∀ a, State.peek (State.endRep { v with free := fl } c.val y) a = v.peek a := fun a =>
    ((endRep_vecOnly { v with free := fl } c.val y).peek a).trans (peek_congr rfl rfl)
  refine ⟨_, congrArg Host.Outcome.next hstep, endRep_ranOne (t := { v with free := fl }) hfirst hrep (congrArg VecSt.done hvec), ?_, fun e he => ?_, fun a ha => ?_⟩
  · rw [endRep_lanes]
    exact congrArg VecSt.lanes hvec
  · have hin : at_ e + 4 ≤ 0xC00000 := by
      simp only [at_]
      omega
    have hplace := place_cmemLpa (off := at_ e) c.isLt (by omega)
    have hword : ∀ j, j < 4 → State.peek _ (State.cmemLpa c.val (at_ e) + j) = _ := fun j hj =>
      calc
        State.peek _ (State.cmemLpa c.val (at_ e) + j) = v.peek (State.cmemLpa c.val (at_ e) + j) := hkept _
        _ = v.memByte (State.cmemLpa c.val (at_ e) + j) := peek_cmem (place_cmem_add hplace (by omega)) (by omega)
        _ = _ := hbyte _ (List.mem_map.2 ⟨e, List.mem_range.2 he, rfl⟩) j hj
    rw [State.cword, peekNat_of_bytes hword, ← hres]
    rfl
  · rw [hkept, peek_congr (s := u) (by rw [hframe]) (hother a fun y hy => ?_), hu.peek]
    obtain ⟨e, he, rfl⟩ := List.mem_map.1 hy
    have := List.mem_range.1 he
    simp only [wordOp, State.cmemLpa, at_] at ha ⊢
    omega

end

end Sys2Proof.Machine
end

section
/-! ### Vector instructions -/

namespace Sys2Proof.Machine

theorem plainVop_compare (v : Nat) (h : (decide (0x08 ≤ v) && decide (v ≤ 0x0D)) = true) : plainVop v = true := by
  rw [Bool.and_eq_true, decide_eq_true_eq, decide_eq_true_eq] at h
  obtain ⟨hlo, hhi⟩ := h
  interval_cases v <;> rfl

/-- Settles O18: a repetition computes its image from a state that reads as the first one does, and writes it to its destination alone, a register
or a stream of words; the last image of a row of a reduction leaves the row's result in the row's lane. -/
theorem vectorInstructions : Obligations.VectorInstructions := by
  unfold Obligations.VectorInstructions
  refine ⟨?elementwise, ?helpers, ?reductions, ?stream⟩
  case elementwise =>
    intro row
    have plain {k : Nat} {r : Fin 32 → Instr} (hr : ∀ c s, exec (r c) s = .next (s.vecStep c.val (· == k))) (hk : plainVop k = true) :
        row r (· == k) := elementwise_row hr (plainVop_of_beq hk)
    exact ⟨plain (fun _ _ => rfl) rfl, plain (fun _ _ => rfl) rfl, plain (fun _ _ => rfl) rfl, plain (fun _ _ => rfl) rfl,
      plain (fun _ _ => rfl) rfl, plain (fun _ _ => rfl) rfl, plain (fun _ _ => rfl) rfl, plain (fun _ _ => rfl) rfl,
      elementwise_row (fun _ _ => rfl) plainVop_compare, plain (fun _ _ => rfl) rfl, plain (fun _ _ => rfl) rfl, plain (fun _ _ => rfl) rfl,
      plain (fun _ _ => rfl) rfl, plain (fun _ _ => rfl) rfl, plain (fun _ _ => rfl) rfl, plain (fun _ _ => rfl) rfl,
      plain (fun _ _ => rfl) rfl, plain (fun _ _ => rfl) rfl, plain (fun _ _ => rfl) rfl, plain (fun _ _ => rfl) rfl,
      plain (fun _ _ => rfl) rfl, plain (fun _ _ => rfl) rfl, plain (fun _ _ => rfl) rfl, plain (fun _ _ => rfl) rfl⟩
  case helpers =>
    exact ⟨fun _ _ _ _ h hv hdst hmask hrelu _ => rndbits_row h hdst hmask hrelu hv,
      fun _ _ _ _ h hv hdst hmask hrelu ha => unpack_row h hdst hmask hrelu hv ha,
      fun _ _ _ _ h hv hdst hmask hrelu hrow => smExp_row h hdst hmask hrelu hv hrow,
      fun _ _ _ _ h hv hdst hmask hrelu ⟨hrow, hlse⟩ => smNorm_row h hdst hmask hrelu hv hrow hlse,
      fun _ _ _ _ h hv hlse hmask hrow => smNorm_lse_row h hv hlse hmask hrow,
      fun _ _ _ _ h hv hdst hmask hrelu => pack_row h hdst hmask hrelu hv⟩
  case reductions =>
    intro row
    have reduces {k : Nat} {r : Fin 32 → Instr} (hr : ∀ c s, exec (r c) s = .next (s.vecStep c.val (· == k))) (hk : isReduction k = true) :
        row r k := fun s c x q h hv hrelu _ _ hlast => reduction_row hr hk s c x q h hv hrelu hlast rfl (by subst hv; rfl)
    exact ⟨reduces (fun _ _ => rfl) rfl, reduces (fun _ _ => rfl) rfl, reduces (fun _ _ => rfl) rfl, reduces (fun _ _ => rfl) rfl⟩
  case stream =>
    intro s c x q h hv hlane hdst hmask hrelu hon d hbits hfmt hestride haddr hrstride hend
    exact stream_row h hv hlane hdst hmask hrelu hon rfl ⟨hbits, hfmt, hestride, haddr, hrstride⟩ hend

end Sys2Proof.Machine
end

section
/-! ### The end of an instruction of the array or the vector engine (R119, R155) -/

namespace Sys2Proof.Machine
open Sys2Proof.Machine.State

section
variable {s t u : State}

/-- What the end of an engine's instruction may change: streams, teams, the signals on their way to the counters, and groups. -/
def EndsOnly (s t : State) : Prop := t = { s with strs := t.strs, teams := t.teams, ctrQ := t.ctrQ, groups := t.groups }

theorem EndsOnly.refl (s : State) : EndsOnly s s := rfl

theorem EndsOnly.trans (h : EndsOnly s t) (h' : EndsOnly t u) : EndsOnly s u := by
  unfold EndsOnly at h h' ⊢
  generalize u.strs = x, u.teams = y, u.ctrQ = z, u.groups = w at h' ⊢
  rw [h', h]

theorem EndsOnly.arr (h : EndsOnly s t) (c : Nat) : t.arr c = s.arr c := by rw [h]; rfl

theorem EndsOnly.vec (h : EndsOnly s t) (c : Nat) : t.vec c = s.vec c := by rw [h]; rfl

@[simp] theorem setArr_arr_same (s : State) (c : Nat) (x : ArrSt) : (s.setArr c x).arr c = x := SMap.get_set_same ..

@[simp] theorem setVec_arr (s : State) (c : Nat) (x : VecSt) (d : Nat) : (s.setVec c x).arr d = s.arr d := rfl

theorem mayCount_congr (h : t.strs = s.strs) (p st idx k : Nat) : t.mayCount p st idx k = s.mayCount p st idx k := by
  simp only [State.mayCount, State.spanOf, State.cmdOf, State.str, h]

theorem endsOnly_addFlags (s : State) (p st idx fl : Nat) : EndsOnly s (s.addFlags p st idx fl) := by
  unfold State.addFlags
  split <;> rfl

/-- Flags joined to a command leave it in its span or outside. -/
theorem addFlags_spanOf (s : State) (p st idx fl : Nat) : (s.addFlags p st idx fl).spanOf p st idx = s.spanOf p st idx := by
  unfold State.addFlags
  split
  · rfl
  · unfold State.spanOf
    rw [cmdOf_modCmd _ _ _ _ (by exact fun _ => rfl), State.modCmd, setStr_str_same]
    cases s.cmdOf p st idx <;> rfl

theorem addFlags_mayCount (s : State) (p st idx fl k : Nat) : (s.addFlags p st idx fl).mayCount p st idx k = s.mayCount p st idx k := by
  rw [State.mayCount, addFlags_spanOf]
  rfl

theorem endsOnly_checkTeam (s : State) (c : Nat) : EndsOnly s (s.checkTeam c) := by
  unfold State.checkTeam
  split
  · rfl
  · dsimp only
    split
    · rfl
    · split <;> rfl

theorem checkTeam_keeps (s : State) (c : Nat) : (s.checkTeam c).ctrQ = s.ctrQ ∧ (s.checkTeam c).groups = s.groups := by
  unfold State.checkTeam
  split
  · exact ⟨rfl, rfl⟩
  · dsimp only
    split
    · exact ⟨rfl, rfl⟩
    · split <;> exact ⟨rfl, rfl⟩

theorem endsOnly_instrEnded (s : State) (c : Nat) : EndsOnly s (s.instrEnded c) :=
  EndsOnly.trans (t := s.modTeam c fun t => { t with issued := t.issued - 1 }) rfl (endsOnly_checkTeam ..)

theorem instrEnded_keeps (s : State) (c : Nat) : (s.instrEnded c).ctrQ = s.ctrQ ∧ (s.instrEnded c).groups = s.groups :=
  checkTeam_keeps (s.modTeam c fun t => { t with issued := t.issued - 1 }) c

/-! #### The signal -/

/-- A completion signals its counter, if it has one. -/
def State.signalled (s : State) (agent p st idx : Nat) (k : Option Nat) : State := match k with
  | some k => s.engineSignal agent p st idx k
  | none => s

/-- The signals on their way after a completion from `s`: one more where it has a counter on which its launch may count. -/
structure Signalled (s t : State) (agent p st idx : Nat) (k : Option Nat) : Prop where
  silent : k = none → t.ctrQ = s.ctrQ
  sent : ∀ n, k = some n → s.mayCount p st idx n = true →
    ∃ m, t.ctrQ.get [] (n / 4096) = s.ctrQ.get [] (n / 4096) ++ [m] ∧ m.sigs = [(n, [(0, 1)])] ∧ m.agent = agent

theorem endsOnly_signalled (s : State) (agent p st idx : Nat) (k : Option Nat) : EndsOnly s (s.signalled agent p st idx k) := by
  unfold State.signalled State.engineSignal
  split
  · split <;> rfl
  · rfl

theorem signalled_groups (s : State) (agent p st idx : Nat) (k : Option Nat) : (s.signalled agent p st idx k).groups = s.groups := by
  unfold State.signalled State.engineSignal
  split
  · split <;> rfl
  · rfl

theorem signalled_spec (s : State) (agent p st idx : Nat) (k : Option Nat) : Signalled s (s.signalled agent p st idx k) agent p st idx k where
  silent h := by rw [h]; rfl
  sent n h hm := by
    subst h
    simp only [State.signalled, State.engineSignal, hm, Bool.not_true, Bool.false_eq_true, if_false]
    exact ⟨_, SMap.get_set_same .., rfl, rfl⟩

/-! #### What an engine's instruction does as it ends -/

/-- The end of an instruction in the order of the model: its flags, its signal, its group by `done`, its team. -/
def State.endEngine (s : State) (done : State → State) (c agent p st idx fl : Nat) (k : Option Nat) : State :=
  (done ((s.addFlags p st idx fl).signalled agent p st idx k)).instrEnded c

/-- A count of instructions in progress, which only groups hold. -/
structure CountsOff (done : State → State) : Prop where
  only : ∀ s, EndsOnly s (done s)
  ctrQ : ∀ s, (done s).ctrQ = s.ctrQ

theorem endEngine_spec {done : State → State} (hd : CountsOff done) (s : State) (c agent p st idx fl : Nat) (k : Option Nat) :
    EndsOnly s (s.endEngine done c agent p st idx fl k) ∧ Signalled s (s.endEngine done c agent p st idx fl k) agent p st idx k := by
  have hf := endsOnly_addFlags s p st idx fl
  have hq : (s.addFlags p st idx fl).ctrQ = s.ctrQ := addFlags_ctrQ ..
  obtain ⟨hsilent, hsent⟩ := signalled_spec (s.addFlags p st idx fl) agent p st idx k
  have ht : (s.endEngine done c agent p st idx fl k).ctrQ = ((s.addFlags p st idx fl).signalled agent p st idx k).ctrQ :=
    (instrEnded_keeps ..).1.trans (hd.ctrQ _)
  refine ⟨((hf.trans (endsOnly_signalled ..)).trans (hd.only _)).trans (endsOnly_instrEnded ..), fun h => ?_, fun n h hm => ?_⟩
  · rw [ht, hsilent h, hq]
  · rw [ht, ← hq]
    exact hsent n h (by rw [addFlags_mayCount, hm])

/-- The groups after the end are those that `done` leaves of a state with the groups of `s`. -/
theorem endEngine_groups {done : State → State} (s : State) (c agent p st idx fl : Nat) (k : Option Nat) :
    ∃ v : State, v.groups = s.groups ∧ (s.endEngine done c agent p st idx fl k).groups = (done v).groups :=
  ⟨_, (signalled_groups ..).trans (addFlags_groups ..), (instrEnded_keeps ..).2⟩

theorem countsOff_tileDone (u k st cmd : Nat) : CountsOff fun s => s.tileDone u k st cmd where
  only s := by unfold State.tileDone; dsimp only; split <;> rfl
  ctrQ s := by unfold State.tileDone; dsimp only; split <;> rfl

theorem countsOff_vecDone (q : VecReq) : CountsOff fun s => s.vecDone q where
  only s := by unfold State.vecDone; dsimp only; split <;> rfl
  ctrQ s := by unfold State.vecDone; dsimp only; split <;> rfl

/-- The group that issued a tile instruction, still there, counts one less. -/
theorem tileDone_tiles {u k st cmd : Nat} (hl : (s.grp u k).live = true) (hs : (s.grp u k).stream = st) (hc : (s.grp u k).cmd = cmd) :
    ((s.tileDone u k st cmd).grp u k).tiles = (s.grp u k).tiles - 1 := by
  unfold State.tileDone
  simp [hl, hs, hc]

theorem vecDone_vecs {q : VecReq} (hl : (s.grp q.unit q.slot).live = true) (hs : (s.grp q.unit q.slot).stream = q.stream)
    (hc : (s.grp q.unit q.slot).cmd = q.cmd) : ((s.vecDone q).grp q.unit q.slot).vecs = (s.grp q.unit q.slot).vecs - 1 := by
  unfold State.vecDone
  simp [hl, hs, hc]

end

/-! #### TILE_COMPLETE and VECTOR_COMPLETE -/

theorem tileComplete_eq {s : State} {c : Nat} {r : TileRun} {rest : List TileRun} (hr : (s.arr c).runs = r :: rest) (ha : s.tileArrived c r = true) :
    s.tileComplete c = (s.setArr c { s.arr c with runs := rest }).endEngine (fun s => s.tileDone r.unit r.slot r.stream r.cmd) c (0x100 + c)
      r.part r.stream r.cmd r.flags r.signal := by
  unfold State.tileComplete
  simp only [hr, ha, Bool.not_true, Bool.false_eq_true, if_false]
  rfl

theorem bump_addFlags (s : State) (p st idx fl : Nat) (a : RegAddr) (n : Nat) :
    (s.addFlags p st idx fl).bump a n = (s.bump a n).addFlags p st idx fl := by
  unfold State.addFlags
  split
  · rfl
  · unfold State.bump
    split <;> rfl

/-- An instruction of the vector engine that ends is counted besides. -/
theorem vecComplete_eq {s : State} {c : Nat} {q : VecReq} {fl : Nat} {rest : List (VecReq × Nat)} (hd : (s.vec c).done = (q, fl) :: rest) :
    s.vecComplete c = ((s.setVec c { s.vec c with done := rest }).bump (home .vec c 0x100) 1).endEngine (fun s => s.vecDone q) c (0x120 + c)
      q.part q.stream q.cmd fl (if q.signal then some (c / 8 * 4096 + q.counter) else none) := by
  unfold State.vecComplete State.endEngine
  simp only [hd, bump_addFlags]
  cases q.signal <;> rfl

/-! #### PORT_IMAGE_DELIVER -/

/-- Lanes written one after the other into a register. -/
def writeLanes (m : SMap Nat) (reg : Nat) (l : List (Nat × Nat)) : SMap Nat := l.foldl (fun m x => m.set 0 (reg * 512 + x.1) x.2) m

theorem writeLanes_other {reg k : Nat} {l : List (Nat × Nat)} (h : ∀ x ∈ l, reg * 512 + x.1 ≠ k) (m : SMap Nat) :
    (writeLanes m reg l).get 0 k = m.get 0 k :=
  List.foldlRecOn (motive := fun m' : SMap Nat => m'.get 0 k = m.get 0 k) l _ rfl fun m' hm x hx => by
    rw [SMap.get_set_ne _ _ _ _ (h x hx), hm]

/-- A lane written once holds its value. -/
theorem writeLanes_mem {reg : Nat} {l : List (Nat × Nat)} (hn : (l.map Prod.fst).Nodup) {x : Nat × Nat} (hx : x ∈ l) (m : SMap Nat) :
    (writeLanes m reg l).get 0 (reg * 512 + x.1) = x.2 := by
  induction l generalizing m with
  | nil => exact absurd hx List.not_mem_nil
  | cons y l ih =>
    obtain ⟨hy, hn⟩ := List.nodup_cons.1 hn
    rcases List.mem_cons.1 hx with rfl | hx
    · refine (writeLanes_other (fun z hz he => hy ?_) (m.set 0 (reg * 512 + x.1) x.2)).trans (SMap.get_set_same ..)
      exact List.mem_map.2 ⟨z, hz, by omega⟩
    · exact ih hn hx _

/-- The lanes that hold no result, as free values. -/
def openLanes (free : Nat) : List (Nat × Nat) := ((List.range 512).map fun l => Config.freeValue (free + l) % 2 ^ 32).zipIdx.map Prod.swap

theorem openLanes_lt {free : Nat} {x : Nat × Nat} (hx : x ∈ openLanes free) : x.1 < 512 := by
  obtain ⟨⟨v, l⟩, hv, rfl⟩ := List.mem_map.1 hx
  have := (List.mem_zipIdx hv).2.1
  simpa using this

theorem writeLanes_append (m : SMap Nat) (reg : Nat) (l l' : List (Nat × Nat)) :
    writeLanes m reg (l ++ l') = writeLanes (writeLanes m reg l) reg l' := List.foldl_append ..

/-- The next image enters the port register. -/
theorem exec_portImageDeliver {s : State} {c : Fin 32} {i : PortImage} {rest : List PortImage} (hi : (s.arr c.val).images = i :: rest)
    (hf : (s.vec c.val).full = none) (ha : ((s.arr c.val).runs.takeWhile (fun r => r.id != i.id)).all (s.tileArrived c.val) = true) :
    exec (.portImageDeliver c) s = .next ((({ s with free := s.free + 512 }).setArr c.val { s.arr c.val with images := rest }).setVec c.val
      { s.vec c.val with lanes := writeLanes (s.vec c.val).lanes i.reg (openLanes s.free ++ i.lanes), full := some i.reg }) := by
  show execPortImageDeliver c s = _
  have hf' : (s.vecs.get {} c.val).full = none := hf
  unfold execPortImageDeliver
  simp only [hi, hf', ha, Bool.not_true, Bool.false_eq_true, if_false]
  rfl

/-- Settles O17: TILE_COMPLETE and VECTOR_COMPLETE end their oldest instruction (`endEngine_spec`), and an image is written lane by lane over free
values. -/
theorem engineCompletion : Obligations.EngineCompletion := by
  unfold Obligations.EngineCompletion
  refine ⟨fun s c r rest hr ha => ?_, fun s c q fl rest hd => ?_, fun s c i rest hi hf ha hn hlt => ?_⟩
  · refine ⟨_, congrArg Host.Outcome.next (tileComplete_eq hr ha), ?_⟩
    set s₁ := s.setArr c.val { s.arr c.val with runs := rest }
    set done : State → State := fun s => s.tileDone r.unit r.slot r.stream r.cmd
    obtain ⟨honly, hsilent, hsent⟩ := endEngine_spec (countsOff_tileDone r.unit r.slot r.stream r.cmd) s₁ c.val (0x100 + c.val) r.part r.stream
      r.cmd r.flags r.signal
    obtain ⟨v, hv, hg⟩ := endEngine_groups (done := done) s₁ c.val (0x100 + c.val) r.part r.stream r.cmd r.flags r.signal
    refine ⟨?_, by rw [honly]; rfl, by rw [honly]; rfl, by rw [honly]; rfl, hsilent, hsent, fun hl hs hc => ?_⟩
    · rw [honly.arr, setArr_arr_same]
    · have hvg : v.grp r.unit r.slot = s.grp r.unit r.slot := grp_congr hv ..
      rw [grp_congr hg, tileDone_tiles (by rw [hvg, hl]) (by rw [hvg, hs]) (by rw [hvg, hc]), hvg]
  · refine ⟨_, congrArg Host.Outcome.next (vecComplete_eq hd), ?_⟩
    set s₁ := (s.setVec c.val { s.vec c.val with done := rest }).bump (home .vec c.val 0x100) 1 with hs₁
    have hvec : s₁.vec c.val = { s.vec c.val with done := rest } := (vec_bump ..).trans (setVec_vec_same ..)
    have hq : s₁.ctrQ = s.ctrQ := bump_ctrQ ..
    set k := if q.signal then some (c.val / 8 * 4096 + q.counter) else none with hk
    obtain ⟨honly, hsilent, hsent⟩ := endEngine_spec (countsOff_vecDone q) s₁ c.val (0x120 + c.val) q.part q.stream q.cmd fl k
    obtain ⟨v, hv, hg⟩ := endEngine_groups (done := fun s => s.vecDone q) s₁ c.val (0x120 + c.val) q.part q.stream q.cmd fl k
    rw [hq] at hsilent hsent
    refine ⟨?_, ?_, ?_, ?_, ?_, fun h => hsilent (by rw [hk, h]; rfl), fun h hm => hsent _ (by rw [hk, h]; rfl) ?_, fun hl hs hc => ?_⟩
    · rw [honly.vec, hvec]
    · rw [honly.vec, hvec]
    · rw [honly]; exact bump_mem ..
    · rw [honly]; exact bump_lines ..
    · rw [honly]; exact bump_ctrs ..
    · rw [mayCount_congr (bump_strs ..)]
      exact hm
    · have hvg : v.grp q.unit q.slot = s.grp q.unit q.slot := grp_congr (hv.trans (bump_groups ..)) ..
      rw [grp_congr hg, vecDone_vecs (by rw [hvg, hl]) (by rw [hvg, hs]) (by rw [hvg, hc]), hvg]
  · refine ⟨_, exec_portImageDeliver hi hf ha, ?_, ?_, ?_, fun x hx => ?_, fun k hk => ?_, fun a => peek_congr rfl rfl, rfl, rfl, rfl⟩
    · rw [setVec_arr, setArr_arr_same]
    · rw [setVec_arr, setArr_arr_same]
    · rw [setVec_vec_same]
    · rw [setVec_vec_same, writeLanes_append]
      exact writeLanes_mem hn hx _
    · rw [setVec_vec_same]
      have hlanes : ∀ x ∈ openLanes s.free ++ i.lanes, x.1 < 512 := fun x hx => (List.mem_append.1 hx).elim openLanes_lt (hlt x)
      dsimp only
      rw [writeLanes_other fun x hx => by have := hlanes x hx; omega]

end Sys2Proof.Machine
end

section
/-! ### Bytes written to the lower part of a cluster's memory, and COMPRESS (R129 to R132) -/

namespace Sys2Proof.SMap

/-- What a change of the entries leaves of each value, it leaves of what is read. -/
theorem get_map_keeps {α β : Type} (d : α) (f : α → β) (g : Nat × α → Nat × α) (hkey : ∀ e, (g e).1 = e.1) (hf : ∀ e, f (g e).2 = f e.2)
    (m : SMap α) (k : Nat) : f (get d (m.map g) k) = f (get d m k) := by
  induction m with
  | nil => rfl
  | cons e m ih =>
    rw [List.map_cons, get_cons, get_cons, hkey]
    split
    · exact hf e
    · exact ih

end Sys2Proof.SMap

namespace Sys2Proof.Machine
open Sys2Proof.Machine.State

section
variable {s t u : State}

/-- Sequencers that wake keep their commands. -/
theorem wake_cmdOf (s : State) (a p st idx : Nat) : (s.wake a).cmdOf p st idx = s.cmdOf p st idx := by
  refine congrArg (List.find? _) (SMap.get_map_keeps {} Str.cmds _ (fun e => ?_) (fun e => ?_) s.strs (p * 4 + st)) <;> split <;> rfl

/-- What bytes that reach the bank of a cluster may change: memory, its poison, and parked sequencers. -/
def BankOnly (s t : State) : Prop := t = { s with strs := t.strs, mem := t.mem, cpoison := t.cpoison }

theorem BankOnly.trans (h : BankOnly s t) (h' : BankOnly t u) : BankOnly s u := by
  unfold BankOnly at h h' ⊢
  generalize u.strs = x, u.mem = y, u.cpoison = z at h' ⊢
  rw [h', h]

theorem BankOnly.domOn (h : BankOnly s t) (c : Nat) : t.domOn c = s.domOn c := by rw [h]; rfl

theorem BankOnly.lines (h : BankOnly s t) : t.lines = s.lines := by rw [h]

theorem pokeLine_bankOnly {a c off : Nat} (hp : place a = .cmem c off) (hon : s.domOn c = true) (hoff : off < 0xC00000) (p : Nat) (l : List Byte) :
    BankOnly s (s.pokeLine p a l) ∧ ∀ q st idx, (s.pokeLine p a l).cmdOf q st idx = s.cmdOf q st idx := by
  obtain ⟨m, hm⟩ := pokeLine_cmem (p := p) hp hon hoff l
  rw [hm, setMemBytes_frame]
  exact ⟨rfl, wake_cmdOf s a⟩

/-- The bytes of `l` are in memory from `a` as far as `e`, and no other byte has changed. -/
structure BytesTo (s t : State) (a : Nat) (l : List Byte) (e : Nat) : Prop where
  only : BankOnly s t
  cmds : ∀ p st idx, t.cmdOf p st idx = s.cmdOf p st idx
  byte : ∀ b, t.memByte b = if a ≤ b ∧ b < e then (l[b - a]?).getD 0 else s.memByte b

theorem BytesTo.start (s : State) (a : Nat) (l : List Byte) : BytesTo s s a l a :=
  ⟨rfl, fun _ _ _ => rfl, fun b => by rw [if_neg (by omega)]⟩

/-- The bytes of the next line join those before it. -/
theorem BytesTo.line {a lo hi c off : Nat} {l : List Byte} (h : BytesTo s t a l lo) (hp : place lo = .cmem c off) (hon : s.domOn c = true)
    (hoff : off < 0xC00000) (hlo : a ≤ lo) (hhi : lo ≤ hi) (hend : hi ≤ a + l.length) (p : Nat) :
    BytesTo s (t.pokeLine p lo ((l.drop (lo - a)).take (hi - lo))) a l hi := by
  have hon' : t.domOn c = true := (h.only.domOn c).trans hon
  obtain ⟨honly, hcmds⟩ := pokeLine_bankOnly hp hon' hoff p ((l.drop (lo - a)).take (hi - lo))
  refine ⟨h.only.trans honly, fun q st idx => (hcmds ..).trans (h.cmds ..), fun b => ?_⟩
  rw [pokeLine_cmem_memByte hp hon' hoff, h.byte, List.length_take, List.length_drop,
    show lo + min (hi - lo) (l.length - (lo - a)) = hi by omega]
  by_cases hb : lo ≤ b ∧ b < hi
  · rw [if_pos hb, if_pos (by omega), List.getElem?_take_of_lt (by omega), List.getElem?_drop, show lo - a + (b - lo) = b - a by omega]
  · rw [if_neg hb]
    exact if_congr (by omega) rfl rfl

/-- Bytes written to the lower part of the memory of a cluster that is on. -/
theorem cpoke_spec {c off : Nat} {l : List Byte} (hc : c < 32) (hon : s.domOn c = true) (hpos : 0 < l.length) (hend : off + l.length ≤ 0xC00000)
    (p : Nat) : BytesTo s (s.cpoke p c off l) (cmemLpa c off) l (cmemLpa c off + l.length) := by
  unfold State.cpoke State.poke
  set a := cmemLpa c off with ha
  have hlines : ∀ n, n ≤ (a + l.length - 1) / 128 - a / 128 + 1 → BytesTo s ((List.range n).foldl (fun s i =>
      let lo := max a ((a / 128 + i) * 128)
      let hi := min (a + l.length) ((a / 128 + i + 1) * 128)
      s.pokeLine p lo ((l.drop (lo - a)).take (hi - lo))) s) a l (if n = 0 then a else min (a + l.length) ((a / 128 + n) * 128)) := by
    intro n hn
    induction n with
    | zero => exact .start s a l
    | succ n ih =>
      rw [List.range_succ, List.foldl_append, List.foldl_cons, List.foldl_nil, if_neg (Nat.succ_ne_zero n)]
      have hnext : (if n = 0 then a else min (a + l.length) ((a / 128 + n) * 128)) = max a ((a / 128 + n) * 128) := by
        split <;> omega
      have h := ih (by omega)
      rw [hnext] at h
      have hplace : place (max a ((a / 128 + n) * 128)) = .cmem c (off + (max a ((a / 128 + n) * 128) - a)) := by
        rw [show max a ((a / 128 + n) * 128) = a + (max a ((a / 128 + n) * 128) - a) by omega, Nat.add_sub_cancel_left]
        exact place_cmem_add (place_cmemLpa hc (by omega)) (by omega)
      exact h.line hplace hon (by omega) (by omega) (by omega) (by omega) p
  have h := hlines _ le_rfl
  rw [if_neg (by omega), show min (a + l.length) ((a / 128 + ((a + l.length - 1) / 128 - a / 128 + 1)) * 128) = a + l.length by omega] at h
  exact h

/-- A byte as its point holds it after them. -/
theorem BytesTo.peek {c off : Nat} {l : List Byte} (h : BytesTo s t (cmemLpa c off) l (cmemLpa c off + l.length)) (hc : c < 32)
    (hend : off + l.length ≤ 0xC00000) :
    (∀ i b, l[i]? = some b → t.peek (cmemLpa c (off + i)) = b)
      ∧ ∀ a, (a < cmemLpa c off ∨ cmemLpa c (off + l.length) ≤ a) → t.peek a = s.peek a := by
  have hadd : ∀ n, cmemLpa c (off + n) = cmemLpa c off + n := fun n => (Nat.add_assoc ..).symm
  refine ⟨fun i b hb => ?_, fun a ha => peek_congr h.only.lines ?_⟩
  · obtain ⟨hi, -⟩ := List.getElem?_eq_some_iff.1 hb
    rw [peek_cmem (place_cmemLpa hc (by omega)) (by omega), h.byte, hadd, if_pos (by omega), Nat.add_sub_cancel_left, hb]
    rfl
  · rw [hadd] at ha
    rw [h.byte, if_neg (by omega)]

/-! #### COMPRESS of one tile -/

/-- A COMPRESS of one tile whose source can be read: a format that it takes (neither FP64 nor G16), no row past the lower part, no poison. -/
structure OneTile (s : State) (x : Cmd) : Prop where
  fmt : x.f 0x10 8 4 ≠ 3 ∧ x.f 0x10 8 4 ≠ 13
  last : x.f 0x14 0 24 + ((if x.f 0x10 6 2 = 1 then x.f 0x1C 0 16 else x.f 0x1C 16 16) - 1) * x.f 0x20 0 24
    + packedBytes (codeWidth (x.f 0x10 8 4)) (if x.f 0x10 6 2 = 1 then x.f 0x1C 16 16 else x.f 0x1C 0 16) ≤ 0xC00000
  clean : ∀ r, r < (if x.f 0x10 6 2 = 1 then x.f 0x1C 0 16 else x.f 0x1C 16 16) → s.cpoisoned (x.f 0x10 0 5) (x.f 0x14 0 24 + r * x.f 0x20 0 24)
    (packedBytes (codeWidth (x.f 0x10 8 4)) (if x.f 0x10 6 2 = 1 then x.f 0x1C 16 16 else x.f 0x1C 0 16)) = false
  depth_pos : 0 < x.f 0x1C 0 16
  depth_le : x.f 0x1C 0 16 ≤ State.compressDepth x

/-- The tile of a COMPRESS of one tile. -/
def State.wholeTile (s : State) (x : Cmd) : List Byte × Bool × Nat := s.compressTile x 0 (x.f 0x1C 0 16)

/-- The counters of the array after a tile has been written (R131). -/
def State.countTile (s : State) (cl : Nat) (tile : List Byte × Bool × Nat) : State :=
  (if tile.2.1 then s.bump (home .arr cl 0x138) 1 else s).bump (home .arr cl 0x140) tile.2.2

/-- A COMPRESS of one tile stores it and ends, or stores nothing where it would pass its limit or the lower part. -/
theorem OneTile.compress {x : Cmd} (h : OneTile s x) (p st : Nat) : s.compress p st x =
    if x.f 0x24 0 24 < (s.wholeTile x).1.length ∨ 0xC00000 < x.f 0x18 0 24 + (s.wholeTile x).1.length then s.beginEnd p st x 0x0401
    else ((s.cpoke p (x.f 0x10 0 5) (x.f 0x18 0 24) (s.wholeTile x).1).countTile (x.f 0x10 0 5) (s.wholeTile x)).beginEnd p st x 0 := by
  obtain ⟨⟨hf3, hf13⟩, hlast, hclean, hpos, hone⟩ := h
  have htiles : (x.f 0x1C 0 16 + compressDepth x - 1) / compressDepth x = 1 := Nat.div_eq_of_lt_le (by omega) (by omega)
  have hpoison : (List.range (if x.f 0x10 6 2 = 1 then x.f 0x1C 0 16 else x.f 0x1C 16 16)).any (fun r =>
      s.cpoisoned (x.f 0x10 0 5) (x.f 0x14 0 24 + r * x.f 0x20 0 24)
        (packedBytes (codeWidth (x.f 0x10 8 4)) (if x.f 0x10 6 2 = 1 then x.f 0x1C 16 16 else x.f 0x1C 0 16))) = false :=
    List.any_eq_false.2 fun r hr => by rw [hclean r (List.mem_range.1 hr)]; decide
  unfold State.compress State.wholeTile
  simp only [hf3, hf13, hpoison, Nat.not_lt.2 hlast, htiles, decide_false, Bool.or_self, Bool.false_eq_true, if_false, List.range_one,
    List.foldl_cons, List.foldl_nil, Nat.zero_mul, Nat.sub_zero, Nat.min_eq_right hone, ne_eq, not_true_eq_false, Nat.zero_add, Nat.add_zero, Bool.or_eq_true,
    decide_eq_true_eq]
  split <;> rfl

theorem countTile_only (s : State) (cl : Nat) (tile : List Byte × Bool × Nat) :
    s.countTile cl tile = { s with regs := (s.countTile cl tile).regs } := by
  have hbump : ∀ (s : State) a n, s.bump a n = { s with regs := (s.bump a n).regs } := fun s a n => by
    unfold State.bump
    split <;> rfl
  unfold State.countTile
  rw [hbump]
  split
  · rw [hbump s]
  · rfl

theorem MoreReady.peek {p : Nat} (h : MoreReady p s t) (a : Nat) : t.peek a = s.peek a := by
  rw [h.frame]
  exact peek_congr rfl rfl

theorem countTile_cmdOf (s : State) (cl : Nat) (tile : List Byte × Bool × Nat) (p st idx : Nat) :
    (s.countTile cl tile).cmdOf p st idx = s.cmdOf p st idx := by
  rw [countTile_only]
  rfl

theorem countTile_peek (s : State) (cl : Nat) (tile : List Byte × Bool × Nat) (a : Nat) : (s.countTile cl tile).peek a = s.peek a := by
  rw [countTile_only]
  exact peek_congr rfl rfl

/-- Launches that become ready change nothing that a COMPRESS reads. -/
theorem MoreReady.wholeTile {p : Nat} (h : MoreReady p s t) (x : Cmd) : t.wholeTile x = s.wholeTile x := by
  have hplane : t.planeAt = s.planeAt := by
    funext c off w j
    simp only [State.planeAt, State.cbyte, h.peek]
  have hdense : t.denseCode = s.denseCode := by
    funext c o k
    simp only [State.denseCode, hplane]
  unfold State.wholeTile State.compressTile
  rw [hdense]

theorem MoreReady.cpoisoned {p : Nat} (h : MoreReady p s t) (c off n : Nat) : t.cpoisoned c off n = s.cpoisoned c off n := by
  rw [h.frame]
  rfl

theorem exec_compress {p st : Fin 4} {x : Cmd} (h : Starts s p.val st.val 0x05 x) (hon : s.domOn (x.f 0x10 0 5) = true) :
    exec (.compress p st) s = .next ((s.noteReady p.val).compress p.val st.val x) := by
  have hm := moreReady_noteReady s p.val
  have hs : (s.noteReady p.val).startOp p.val st.val 0x05 = some x := (hm.startOp ..).trans h.1
  have hon' : (s.noteReady p.val).domOn (x.f 0x10 0 5) = true := by rw [hm.frame]; exact hon
  show Host.Outcome.next (s.starting p.val st.val 0x05 _) = _
  rw [State.starting, hs]
  simp only [hon', if_true]

/-- A tile begins with its header. -/
theorem wholeTile_pos (s : State) (x : Cmd) : 0 < (s.wholeTile x).1.length := by
  unfold State.wholeTile State.compressTile
  simp only [List.length_append, length_leBytes]
  omega

theorem MoreReady.oneTile {p : Nat} (h : MoreReady p s t) {x : Cmd} (ho : OneTile s x) : OneTile t x :=
  { ho with clean := fun r hr => (h.cpoisoned ..).trans (ho.clean r hr) }

/-- A command that starts and ends with a code other than STALE_HANDLE changes its stream alone. -/
theorem beginEnd_strs {code : Nat} (hc : code ≠ 0x0201) (s : State) (p st : Nat) (x : Cmd) :
    s.beginEnd p st x code = { s with strs := (s.beginEnd p st x code).strs } := by
  unfold State.beginEnd
  rw [if_neg hc]
  rfl

theorem beginEnd_peek {code : Nat} (hc : code ≠ 0x0201) (s : State) (p st : Nat) (x : Cmd) (a : Nat) :
    (s.beginEnd p st x code).peek a = s.peek a := by
  rw [beginEnd_strs hc]
  exact peek_congr rfl rfl

/-- A tile that keeps to its limit and to the lower part is stored at its destination. -/
theorem compress_stores {p st : Fin 4} {x : Cmd} (hstart : Starts s p.val st.val 0x05 x) (hon : s.domOn (x.f 0x10 0 5) = true) (htile : OneTile s x)
    (hlim : (s.wholeTile x).1.length ≤ x.f 0x24 0 24) (hend : x.f 0x18 0 24 + (s.wholeTile x).1.length ≤ 0xC00000) :
    Completes (.compress p st) s fun t => Ended t p.val st.val x.idx 0
      ∧ (∀ i b, (s.wholeTile x).1[i]? = some b → t.peek (cmemLpa (x.f 0x10 0 5) (x.f 0x18 0 24 + i)) = b)
      ∧ ∀ a, (a < cmemLpa (x.f 0x10 0 5) (x.f 0x18 0 24) ∨ cmemLpa (x.f 0x10 0 5) (x.f 0x18 0 24 + (s.wholeTile x).1.length) ≤ a) →
        t.peek a = s.peek a := by
  refine ⟨_, exec_compress hstart hon, ?_⟩
  have hm := moreReady_noteReady s p.val
  set u := s.noteReady p.val
  obtain ⟨-, hcmd, hdone⟩ := hstart
  rw [(hm.oneTile htile).compress, hm.wholeTile, if_neg (by omega)]
  set tile := s.wholeTile x
  have hcl : x.f 0x10 0 5 < 32 := Nat.mod_lt _ (by decide)
  have hw := cpoke_spec hcl ((by rw [hm.frame]; exact hon : u.domOn _ = true)) (wholeTile_pos s x) hend p.val
  set w := u.cpoke p.val (x.f 0x10 0 5) (x.f 0x18 0 24) tile.1
  have hwc : (w.countTile (x.f 0x10 0 5) tile).cmdOf p.val st.val x.idx = some x :=
    (countTile_cmdOf ..).trans ((hw.cmds ..).trans ((hm.cmdOf ..).trans hcmd))
  have hpeek : ∀ a, ((w.countTile (x.f 0x10 0 5) tile).beginEnd p.val st.val x 0).peek a = w.peek a := fun a =>
    (beginEnd_peek (by decide) ..).trans (countTile_peek ..)
  obtain ⟨hbytes, hother⟩ := hw.peek hcl hend
  exact ⟨(beginEnd_spec hwc hdone 0).1, fun i b hb => (hpeek _).trans (hbytes i b hb),
    fun a ha => (hpeek a).trans ((hother a ha).trans (hm.peek a))⟩

/-- A tile that would pass its limit is not stored. -/
theorem compress_refused {p st : Fin 4} {x : Cmd} (hstart : Starts s p.val st.val 0x05 x) (hon : s.domOn (x.f 0x10 0 5) = true) (htile : OneTile s x)
    (hlim : x.f 0x24 0 24 < (s.wholeTile x).1.length) :
    Completes (.compress p st) s fun t => Ended t p.val st.val x.idx 0x0401 ∧ t = { s.noteReady p.val with strs := t.strs } := by
  refine ⟨_, exec_compress hstart hon, ?_⟩
  have hm := moreReady_noteReady s p.val
  obtain ⟨-, hcmd, hdone⟩ := hstart
  rw [(hm.oneTile htile).compress, hm.wholeTile, if_pos (Or.inl hlim)]
  exact ⟨(beginEnd_spec ((hm.cmdOf ..).trans hcmd) hdone 0x0401).1, beginEnd_strs (by decide) ..⟩

end

/-- Settles O33: a COMPRESS of one tile that keeps to its limit stores the tile (`compress_stores`); one that would pass it ends without
(`compress_refused`). -/
theorem compressOneTile : Obligations.CompressOneTile := by
  unfold Obligations.CompressOneTile
  intro src
  have hread : ∀ {s p st x}, src s p st x → Starts s p.val st.val 0x05 x ∧ s.domOn (x.f 0x10 0 5) = true ∧ OneTile s x :=
    fun ⟨hstart, hon, hf3, hf13, hlast, hclean, hpos, hone⟩ => ⟨hstart, hon, ⟨hf3, hf13⟩, hlast, hclean, hpos, hone⟩
  refine ⟨fun s p st x hsrc => ?_, fun s p st x hsrc hlim => ?_⟩
  · obtain ⟨hstart, hon, htile⟩ := hread hsrc
    intro l dst hlim hend
    exact compress_stores hstart hon htile hlim hend
  · obtain ⟨hstart, hon, htile⟩ := hread hsrc
    exact compress_refused hstart hon htile hlim

end Sys2Proof.Machine
end

section
/-! ### Issue of tile and vop (R106, R115, R154, R229, R230) -/

namespace Sys2Proof.Machine
open Sys2Proof.Machine.State

/-! #### What the bookkeeping of a compute unit's issue leaves -/

section
variable {s t v : State}

/-- Everything but groups, the registers of compute units (KIND 0x03), last-issued slots and halts is as it was. -/
structure UnitKeeps (s t : State) : Prop where
  frame : t = { s with groups := t.groups, regs := t.regs, slots := t.slots, halts := t.halts }
  regs : ∀ k, k / 2 ^ 36 ≠ 0x03 → t.regs.get none k = s.regs.get none k

theorem UnitKeeps.refl (s : State) : UnitKeeps s s := ⟨rfl, fun _ _ => rfl⟩

theorem UnitKeeps.trans (h : UnitKeeps s t) (h' : UnitKeeps t v) : UnitKeeps s v where
  frame := by
    have hf := h'.frame
    generalize v.groups = a, v.regs = b, v.slots = c, v.halts = d at hf ⊢
    rw [hf, h.frame]
  regs k hk := (h'.regs k hk).trans (h.regs k hk)

theorem unitKeeps_setGrp (s : State) (u k : Nat) (g : Grp) : UnitKeeps s (s.setGrp u k g) := ⟨rfl, fun _ _ => rfl⟩

/-- A register of a compute unit has a key of KIND 0x03. -/
theorem unitReg_key_unit {u off : Nat} (hu : u < 128) (ho : off < 0x1000000) : regKey (unitReg u off) / 2 ^ 36 = 0x03 := by
  rw [unitReg_unit hu]
  unfold regKey home
  simp only [Kind.code]
  omega

theorem unitKeeps_setReg {u off : Nat} (hu : u < 128) (ho : off < 0x1000000) (s : State) (x : Nat) : UnitKeeps s (s.setReg (unitReg u off) x) where
  frame := rfl
  regs _ hk := SMap.get_set_ne _ _ _ _ fun e => hk (e ▸ unitReg_key_unit hu ho)

theorem unitKeeps_bump {u off : Nat} (hu : u < 128) (ho : off < 0x1000000) (s : State) (n : Nat) : UnitKeeps s (s.bumpUnit u off n) := by
  show UnitKeeps s (s.bump (unitReg u off) n)
  unfold State.bump
  split
  · exact .refl s
  · exact unitKeeps_setReg hu ho s _

theorem unitKeeps_bookIssue {i : Iss} (hu : i.u < 128) (s : State) (ready : Nat) (forced : Bool) : UnitKeeps s (s.bookIssue i ready forced) := by
  unfold State.bookIssue
  extract_lets g g' s1 s2 s3
  have h₂ : UnitKeeps s s2 := ⟨rfl, fun _ _ => rfl⟩
  have h₃ : UnitKeeps s s3 := h₂.trans (unitKeeps_bump hu (by decide) s2 1)
  split
  · exact h₃.trans (unitKeeps_bump hu (by decide) s3 1)
  · exact h₃

theorem unitKeeps_delivery {i : Iss} (hu : i.u < 128) (s : State) (sh : Shape) (mi : Mi) : UnitKeeps s (s.delivery sh mi i) := by
  unfold State.delivery
  extract_lets srcs rc g hit missed s1 s2 s3 place
  split
  · exact unitKeeps_bump hu (by decide) s _
  · exact (((unitKeeps_bump hu (by decide) s _).trans (unitKeeps_bump hu (by decide) s1 _)).trans (unitKeeps_bump hu (by decide) s2 _)).trans
      (unitKeeps_setGrp ..)

/-! #### A halt behind a step -/

/-- A halt behind a step changes nothing of a group but that it is halted. -/
structure Halts (s t : State) : Prop where
  keeps : UnitKeeps s t
  work : ∀ u k, t.grp u k = { s.grp u k with halted := (t.grp u k).halted, step := (t.grp u k).step }

theorem Halts.refl (s : State) : Halts s s := ⟨.refl s, fun _ _ => rfl⟩

theorem Halts.trans (h : Halts s t) (h' : Halts t v) : Halts s v where
  keeps := h.keeps.trans h'.keeps
  work u k := by
    have hw := h'.work u k
    generalize (v.grp u k).halted = a, (v.grp u k).step = b at hw ⊢
    rw [hw, h.work]

theorem halts_setGrp {u k : Nat} {a b : Bool} : Halts s (s.setGrp u k { s.grp u k with halted := a, step := b }) where
  keeps := unitKeeps_setGrp ..
  work u' k' := by
    by_cases he : u * 32 + k = u' * 32 + k'
    · have hg : s.grp u' k' = s.grp u k := by simp only [State.grp, he]
      rw [show ∀ g, (s.setGrp u k g).grp u' k' = g from fun g => by simp only [State.grp, State.setGrp, he, SMap.get_set_same], hg]
    · rw [setGrp_grp_ne _ _ _ _ _ _ he]

theorem halts_debugHalt {u : Nat} (hu : u < 128) (s : State) (k : Option Nat) (c b : Nat) : Halts s (s.debugHalt u k c b) := by
  unfold State.debugHalt
  extract_lets scope us halts s1 s2
  have h₁ : Halts s s1 := by
    refine foldl_keeps (Halts s) _ (fun t u' h => foldl_keeps (Halts s) _ (fun t k' h => ?_) _ t h) us s (.refl s)
    dsimp only
    split
    · exact h.trans halts_setGrp
    · exact h
  have h₂ : Halts s s2 := by
    simp only [s2]
    split
    · exact h₁
    · exact h₁.trans ⟨⟨rfl, fun _ _ => rfl⟩, fun _ _ => rfl⟩
  have hus : ∀ u' ∈ us, u' < 128 := by
    intro u' hu'
    simp only [us] at hu'
    split at hu'
    · split at hu'
      · exact List.mem_range.1 (List.mem_filter.1 (List.mem_filter.1 hu').1).1
      · exact List.mem_singleton.1 hu' ▸ hu
    · exact List.mem_singleton.1 hu' ▸ hu
  exact List.foldlRecOn (motive := Halts s) us _ h₂ fun t h u' hu' => h.trans ⟨unitKeeps_setReg (hus u' hu') (by decide) .., fun _ _ => rfl⟩

theorem halts_afterStep {u : Nat} (hu : u < 128) (s : State) (k : Nat) (b : Bool) : Halts s (s.afterStep u k b) := by
  unfold State.afterStep
  extract_lets g
  split
  · exact .refl s
  · split
    · exact .refl s
    · exact Halts.trans (halts_setGrp (a := true) (b := false)) (halts_debugHalt hu ..)

theorem Halts.thr (h : Halts s t) (u k l : Nat) : (t.grp u k).thr l = (s.grp u k).thr l := by rw [h.work]; rfl

theorem Halts.getU (h : Halts s t) (u k r : Nat) : (t.grp u k).getU r = (s.grp u k).getU r := by rw [h.work]; rfl

end

/-! #### The state in which an instruction joins its queue -/

/-- How many tile and vector instructions of a group are in progress. -/
def Grp.inProgress (g : Grp) : Nat × Nat := (g.tiles, g.vecs)

/-- Two groups that differ in their threads and in the passage of a breakpoint alone. -/
def SameBook (g g' : Grp) : Prop := g' = { g with threads := g'.threads, pass := g'.pass }

theorem SameBook.trans {g g' g'' : Grp} (h : SameBook g g') (h' : SameBook g' g'') : SameBook g g'' := by
  unfold SameBook at h h' ⊢
  generalize g''.threads = a, g''.pass = b at h' ⊢
  rw [h', h]

theorem SameBook.owner {g g' : Grp} (h : SameBook g g') : g'.owner = g.owner := by rw [h]; rfl

theorem SameBook.inProgress {g g' : Grp} (h : SameBook g g') : g'.inProgress = g.inProgress := by rw [h]; rfl

theorem bookIssue_book (s : State) (i : Iss) (ready : Nat) (forced : Bool) :
    SameBook (s.grp i.u i.k) ((s.bookIssue i ready forced).grp i.u i.k) := by
  unfold State.bookIssue
  extract_lets g g' s1 s2 s3
  have hg : SameBook g g' := by
    refine List.foldlRecOn (motive := SameBook g) _ _ rfl fun x hx l _ => ?_
    split
    · exact hx.trans rfl
    · split
      · exact hx.trans rfl
      · exact hx
  have hgroups : (if forced then s3.bumpUnit i.u 0x140 1 else s3).groups = s1.groups := by split <;> simp [s3, s2]
  rw [grp_congr hgroups, show s1.grp i.u i.k = _ from setGrp_grp_same s i.u i.k { g' with pass := false }]
  exact hg.trans rfl

theorem delivery_book (s : State) (sh : Shape) (mi : Mi) (i : Iss) : SameBook (s.grp i.u i.k) ((s.delivery sh mi i).grp i.u i.k) := by
  unfold State.delivery
  extract_lets srcs rc g hit missed s1 s2 s3 place
  split
  · rw [grp_congr (bumpUnit_groups ..)]
    rfl
  · rw [setGrp_grp_same]
    exact List.foldlRecOn (motive := SameBook g) _ _ rfl fun x hx _ _ => hx.trans rfl

/-- What an instruction of a compute unit finds when it joins its queue. -/
structure AtQueue (s s₁ : State) (i : Iss) : Prop where
  keeps : UnitKeeps s s₁
  regs : SameRegs (s.grp i.u i.k) (s₁.grp i.u i.k)
  pc : ∀ l, l < 32 → ((s₁.grp i.u i.k).thr l).pc = if i.chosen.testBit l then i.next else ((s.grp i.u i.k).thr l).pc
  book : SameBook (s.grp i.u i.k) (s₁.grp i.u i.k)
  other : ∀ u k, u * 32 + k ≠ i.u * 32 + i.k → s₁.grp u k = s.grp u k

theorem atQueue_atIssue {i : Iss} (hu : i.u < 128) (s : State) (sh : Shape) (mi : Mi) (forced : Bool) : AtQueue s (s.atIssue sh mi i forced) i := by
  obtain ⟨-, hregs, hpc, hother⟩ := atIssue_spec s sh mi i forced (by omega)
  exact ⟨(unitKeeps_bookIssue hu ..).trans (unitKeeps_delivery hu ..), hregs, hpc, (bookIssue_book ..).trans (delivery_book ..), hother⟩

/-! #### What joining the queue does -/

/-- An instruction joins the queue of its unit, which becomes `x`, its group `g`; its team counts one more. -/
def State.joined (s : State) (i : Iss) (x : UnitSt) (g : Grp) : State :=
  ((s.setUnit i.u x).setGrp i.u i.k g).modTeam (i.u / 4) (fun t => { t with issued := t.issued + 1 })

section
variable {s s₁ : State} {i : Iss}

/-- The group after the issue is `g` but for a halt behind a step. -/
theorem joined_spec (h : AtQueue s s₁ i) (hu : i.u < 128) (x : UnitSt) {g : Grp} (hthr : g.threads = (s₁.grp i.u i.k).threads)
    (huni : g.u = (s₁.grp i.u i.k).u) (b : Bool) :
    let t := (s₁.joined i x g).afterStep i.u i.k b
    Advanced s t i ∧ EngineQueued s t i x ∧ (t.grp i.u i.k).inProgress = g.inProgress := by
  intro t
  have hh : Halts (s₁.joined i x g) t := halts_afterStep hu ..
  have hgrp : (s₁.joined i x g).grp i.u i.k = g := setGrp_grp_same (s₁.setUnit i.u x) i.u i.k g
  have hother : ∀ u k, u * 32 + k ≠ i.u * 32 + i.k → (s₁.joined i x g).grp u k = s.grp u k := fun u k hne =>
    (setGrp_grp_ne (s₁.setUnit i.u x) i.u i.k u k g (Ne.symm hne)).trans (h.other u k hne)
  have hthr' : ∀ l, (t.grp i.u i.k).thr l = (s₁.grp i.u i.k).thr l := fun l => by
    rw [hh.thr, hgrp, Grp.thr, hthr]
    rfl
  have huni' : ∀ r, (t.grp i.u i.k).getU r = (s₁.grp i.u i.k).getU r := fun r => by
    rw [hh.getU, hgrp, Grp.getU, huni]
    rfl
  refine ⟨⟨fun l hl => ?_, h.regs.trans ⟨fun l _ => by rw [hthr'], fun l _ => by rw [hthr'], huni'⟩, fun a => ?_⟩,
    ⟨?_, ?_, ?_, fun c hc => ?_, fun k hk => ?_, fun u k hk hik hne => ?_⟩, ?_⟩
  · rw [hthr', h.pc l hl]
  · rw [hh.keeps.frame, h.keeps.frame]
    exact peek_congr rfl rfl
  · have hf := hh.keeps.frame
    generalize t.groups = a, t.regs = b, t.slots = c, t.halts = d at hf ⊢
    rw [hf, h.keeps.frame]
    rfl
  · rw [hh.keeps.frame, h.keeps.frame]
    rfl
  · rw [hh.keeps.frame, h.keeps.frame]
    exact SMap.get_set_same ..
  · rw [hh.keeps.frame, h.keeps.frame]
    exact SMap.get_set_ne _ _ _ _ (Ne.symm hc)
  · exact (hh.keeps.regs k hk).trans (h.keeps.regs k hk)
  · have hne' : u * 32 + k ≠ i.u * 32 + i.k := fun e => hne (by rw [show u = i.u by omega, show k = i.k by omega])
    exact ⟨fun l => by rw [hh.thr, hother u k hne'], fun r => by rw [hh.getU, hother u k hne']⟩
  · rw [hh.work, hgrp]
    rfl

end

/-! #### An issue that is refused -/

/-- An encoding with reserved bits faults; an instruction whose queue is full waits (R172, R207). -/
theorem issue_refused {s : State} {sh : Shape} {mi : Mi} {i : Iss} {bad : Bool} {ready : Iss → Bool} {f : Iss → State → State}
    (h : Issues s sh mi i) (hn' : bad = true ∨ ready i = false) :
    s.issue sh mi bad ready f = if bad then s.threadFault i.u i.k 3 i.exec i.pc 0 else s := by
  obtain ⟨hu, hk, hmay, hturn, hch, hf, hbp, hn, hx, hne, hdef, hleg, hp⟩ := h
  obtain ⟨u, k, pc, next, chosen, exec⟩ := i
  simp only at *
  subst hu hk
  cases hc : s.choose mi.unit.val mi.slot.val mi.stall.toNat with
  | none => simp [hc] at hch
  | some x =>
    obtain ⟨pc', chosen', forced⟩ := x
    simp only [hc, Option.map_some, Option.some.injEq, Prod.mk.injEq] at hch
    obtain ⟨rfl, rfl⟩ := hch
    unfold State.issue
    subst hx hn
    cases bad with
    | true =>
      simp only [hmay, hturn, hc, hf, hbp, hdef, hne, Bool.not_true, Bool.or_self, Bool.false_eq_true, Bool.true_or, Bool.and_true, if_false, if_true,
        ne_eq, not_false_eq_true, decide_true]
    | false =>
      have hr := hn'.resolve_left Bool.false_ne_true
      simp only [hmay, hturn, hc, hf, hbp, hdef, hleg, hr, hne, Bool.not_true, Bool.not_false, Bool.or_self, Bool.or_true, Bool.false_eq_true,
        Bool.and_true, Bool.and_false, if_false, if_true, ne_eq, not_false_eq_true, decide_true]

@[simp] theorem setUnit_grp (s : State) (u : Nat) (x : UnitSt) (v k : Nat) : (s.setUnit u x).grp v k = s.grp v k := rfl

@[simp] theorem setGrp_unit (s : State) (u k : Nat) (g : Grp) (v : Nat) : (s.setGrp u k g).unit v = s.unit v := rfl

@[simp] theorem report_unit (s : State) (p : Nat) (r : FaultRec) (u : Nat) : (s.report p r).unit u = s.unit u := rfl

@[simp] theorem report_grp (s : State) (p : Nat) (r : FaultRec) (u k : Nat) : (s.report p r).grp u k = s.grp u k := rfl

/-- An ILLEGAL fault of a resident group of a compute unit that had no fault record. -/
theorem illegalAt_threadFault {s : State} {i : Iss} (hu : i.u < 128) (hlive : (s.grp i.u i.k).live = true) (hk : (s.unit i.u).fault.kind = 0) :
    IllegalAt s (s.threadFault i.u i.k 3 i.exec i.pc 0) i := by
  have hp : s.partOfUnit i.u = some (s.partOfCluster (i.u / 4)) := if_pos hu
  unfold State.threadFault
  simp only [hp, hk, if_true, setUnit_grp, hlive, IllegalAt, report_unit, report_grp, setGrp_unit, setUnit_unit_same, setGrp_grp_same, true_and]
  exact ⟨rfl, ⟨fun _ _ => rfl, fun _ _ => rfl, fun _ => rfl⟩, fun _ => rfl, rfl, rfl, rfl, rfl⟩

/-! #### tile and vop -/

/-- An encoding of `tile` with reserved bits set, or on a housekeeping unit. -/
def tileBad (mi : Mi) : Bool := mi.a != 0 || mi.b != 0 || mi.c != 0 || mi.usel != 0 || decide (128 ≤ mi.unit.val)

/-- An encoding of `vop` with reserved bits set, or on a housekeeping unit. -/
def vopBad (v : Vi) : Bool := v.rsv != 0 || v.rsvExt != 0 || decide (128 ≤ v.unit.val)

/-- A `tile` may issue: its queue has room, and its group's acquires and its descriptor are final. -/
def State.tileReady (s : State) (mi : Mi) (i : Iss) : Bool :=
  decide ((s.unit i.u).tileQ.length < 2) && s.acquired i && !s.uniformPending i.u i.k (modf mi 52 6) 20

/-- A `vop` may issue: its queue has room, no other group's pair is open, and its group's acquires and its descriptors are final. -/
def State.vopReady (s : State) (v : Vi) (i : Iss) : Bool :=
  decide ((s.unit i.u).vecQ.length < 2) && ((s.unit i.u).vecLink.isNone || (s.unit i.u).vecLink == some i.k)
    && s.acquired i && !(vecStreams v).any (fun d => s.uniformPending i.u i.k d 8)

/-- What a `tile` of group `g` puts into the queue. -/
def tileReq (g : Grp) (mi : Mi) (i : Iss) : TileReq :=
  { slot := i.k, part := g.part, stream := g.stream, cmd := g.cmd, desc := descWords g (modf mi 52 6) 40 20 }

/-- What a `vop` of group `g` puts into the queue. -/
def vecReq (g : Grp) (v : Vi) (i : Iss) : VecReq :=
  { unit := i.u, slot := i.k, part := g.part, stream := g.stream, cmd := g.cmd, vop := v.vop.toNat, lane := v.lane.toNat,
    round := v.round.toNat, dst := v.dst.toNat, a := v.a.toNat, b := v.b.toNat, c := v.c.toNat, relu := v.relu,
    maskout := v.maskout, lse := v.lse, signal := v.signal, link := v.link, reps := v.repeatN.toNat + 1,
    rows := v.rows.toNat + 1, mask := v.mask.toNat, counter := v.counter.toNat, srcfmt := v.srcfmt.toNat,
    descs := [vecDesc g v.dst, vecDesc g v.a, vecDesc g v.b, vecDesc g v.c, vecDesc g v.mask] }

/-- The unit with a tile instruction queued. -/
def UnitSt.withTile (x : UnitSt) (q : TileReq) : UnitSt := { x with tileQ := x.tileQ ++ [q] }

/-- The unit with a vector instruction queued; LINK keeps the next one for the same group. -/
def UnitSt.withVec (x : UnitSt) (q : VecReq) (k : Nat) : UnitSt := { x with vecQ := x.vecQ ++ [q], vecLink := if q.link then some k else none }

theorem exec_tile (s : State) (mi : Mi) : exec (.tile mi) s = .next (s.issue { mods := 0x3F } mi (tileBad mi) (s.tileReady mi) fun i s =>
    s.joined i ((s.unit i.u).withTile (tileReq (s.grp i.u i.k) mi i)) { s.grp i.u i.k with tiles := (s.grp i.u i.k).tiles + 1 }) := rfl

theorem exec_vop (s : State) (v : Vi) : exec (.vop v) s = .next (s.issue { ext := .required } (viIssueWord v) (vopBad v) (s.vopReady v) fun i s =>
    s.joined i ((s.unit i.u).withVec (vecReq (s.grp i.u i.k) v i) i.k) { s.grp i.u i.k with vecs := (s.grp i.u i.k).vecs + 1 }) := rfl

/-- The words of a descriptor depend on the uniform registers alone. -/
theorem descWords_same {g g' : Grp} (h : SameRegs g g') (d last n : Nat) : descWords g' d last n = descWords g d last n := by
  unfold descWords
  simp only [h.2.2]

theorem tileReq_same {g g' : Grp} (h : SameRegs g g') (ho : g'.owner = g.owner) (mi : Mi) (i : Iss) : tileReq g' mi i = tileReq g mi i := by
  simp only [Grp.owner, Prod.mk.injEq] at ho
  simp only [tileReq, descWords_same h, ho]

theorem vecReq_same {g g' : Grp} (h : SameRegs g g') (ho : g'.owner = g.owner) (v : Vi) (i : Iss) : vecReq g' v i = vecReq g v i := by
  simp only [Grp.owner, Prod.mk.injEq] at ho
  simp only [vecReq, vecDesc, descWords_same h, ho]

theorem descWords_eq (g : Grp) (d last n : Nat) :
    descWords g d last n = if d % 4 = 0 ∧ d ≤ last then (List.range n).map (fun w => g.getU (d + w)) else [] := by
  unfold descWords
  by_cases h4 : d % 4 = 0 <;> by_cases hl : last < d <;> simp [h4, hl]

section
variable {s : State} {sh : Shape} {mi : Mi} {i : Iss}

/-- An instruction that may issue joins its queue: the unit becomes what `x` makes of it and of the group, and the group what `g` does, which keeps
its threads and uniform registers. -/
theorem issue_joins (h : Issues s sh mi i) (hu : i.u < 128) {bad : Bool} (hb : bad = false) {ready : Iss → Bool} (hr : ready i = true)
    {x : Iss → UnitSt → Grp → UnitSt} {g : Grp → Grp} (hx : ∀ {y g g'}, SameRegs g g' → g'.owner = g.owner → x i y g' = x i y g)
    (hg : ∀ y : Grp, (g y).threads = y.threads ∧ (g y).u = y.u)
    (hc : ∀ {y y' : Grp}, y'.inProgress = y.inProgress → (g y').inProgress = (g y).inProgress) :
    let t := s.issue sh mi bad ready fun i s => s.joined i (x i (s.unit i.u) (s.grp i.u i.k)) (g (s.grp i.u i.k))
    Advanced s t i ∧ EngineQueued s t i (x i (s.unit i.u) (s.grp i.u i.k)) ∧ (t.grp i.u i.k).inProgress = (g (s.grp i.u i.k)).inProgress := by
  intro t
  obtain ⟨forced, ht⟩ := issue_eq (f := fun i s => s.joined i (x i (s.unit i.u) (s.grp i.u i.k)) (g (s.grp i.u i.k))) h hb hr
  have ha := atQueue_atIssue hu s sh mi forced
  set s₁ := s.atIssue sh mi i forced
  have hunit : s₁.unit i.u = s.unit i.u := by rw [ha.keeps.frame]; rfl
  replace ht : t = (s₁.joined i (x i (s₁.unit i.u) (s₁.grp i.u i.k)) (g (s₁.grp i.u i.k))).afterStep i.u i.k (s.grp i.u i.k).step := ht
  rw [hunit, hx ha.regs ha.book.owner] at ht
  obtain ⟨hthr, huni⟩ := hg (s₁.grp i.u i.k)
  obtain ⟨hadv, hq, hp⟩ := joined_spec ha hu (x i (s.unit i.u) (s.grp i.u i.k)) hthr huni (s.grp i.u i.k).step
  rw [ht]
  exact ⟨hadv, hq, hp.trans (hc ha.book.inProgress)⟩

end

theorem tileBad_eq_false {mi : Mi} (hu : mi.unit.val < 128) (ha : mi.a = 0) (hb : mi.b = 0) (hc : mi.c = 0) (hsel : mi.usel = 0) :
    tileBad mi = false := by simp [tileBad, ha, hb, hc, hsel, hu]

theorem vopBad_eq_false {v : Vi} (hu : v.unit.val < 128) (hrsv : v.rsv = 0) (hext : v.rsvExt = 0) : vopBad v = false := by
  simp [vopBad, hrsv, hext, hu]

theorem tileBad_of_reserved {mi : Mi} (h : mi.a ≠ 0 ∨ mi.b ≠ 0 ∨ mi.c ≠ 0 ∨ mi.usel ≠ 0) : tileBad mi = true := by
  simp only [tileBad, Bool.or_eq_true, bne_iff_ne]
  tauto

theorem vopBad_of_reserved {v : Vi} (h : v.rsv ≠ 0 ∨ v.rsvExt ≠ 0) : vopBad v = true := by
  simp only [vopBad, Bool.or_eq_true, bne_iff_ne]
  tauto

theorem vecDesc_eq (g : Grp) (b : BitVec 8) : vecDesc g b = if bits b.toNat 6 2 = 2 ∧ bits b.toNat 0 6 % 4 = 0 ∧ bits b.toNat 0 6 ≤ 52
    then (List.range 8).map (fun w => g.getU (bits b.toNat 0 6 + w)) else [] := by
  rw [vecDesc, descWords_eq]
  split_ifs <;> simp_all

theorem vecStreams_final {s : State} {i : Iss} {v : Vi}
    (h : ∀ b ∈ [v.dst, v.a, v.b, v.c, v.mask], bits b.toNat 6 2 = 2 → s.uniformPending i.u i.k (bits b.toNat 0 6) 8 = false) :
    (vecStreams v).any (fun d => s.uniformPending i.u i.k d 8) = false := by
  refine List.any_eq_false.2 fun d hd => ?_
  obtain ⟨b, hb, rfl⟩ := List.mem_map.1 hd
  obtain ⟨hmem, hkind⟩ := List.mem_filter.1 hb
  rw [h b hmem (by simpa using hkind)]
  decide

theorem tile_joins {s : State} {mi : Mi} {i : Iss} (h : Issues s { mods := 0x3F } mi i) (hb : tileBad mi = false) (hu : i.u < 128)
    (hr : s.tileReady mi i = true) : Completes (.tile mi) s fun t => Advanced s t i
      ∧ EngineQueued s t i ((s.unit i.u).withTile (tileReq (s.grp i.u i.k) mi i))
      ∧ (t.grp i.u i.k).tiles = (s.grp i.u i.k).tiles + 1 ∧ (t.grp i.u i.k).vecs = (s.grp i.u i.k).vecs := by
  obtain ⟨hadv, hq, hp⟩ := issue_joins h hu hb hr (x := fun i y g => y.withTile (tileReq g mi i)) (g := fun g => { g with tiles := g.tiles + 1 })
    (fun hs ho => by rw [tileReq_same hs ho]) (fun _ => ⟨rfl, rfl⟩) (fun hc => by
      simp only [Grp.inProgress, Prod.mk.injEq] at hc ⊢
      exact ⟨by rw [hc.1], hc.2⟩)
  obtain ⟨htiles, hvecs⟩ := Prod.mk.inj hp
  exact ⟨_, exec_tile s mi, hadv, hq, htiles, hvecs⟩

theorem vop_joins {s : State} {v : Vi} {i : Iss} (h : Issues s { ext := .required } (viIssueWord v) i) (hb : vopBad v = false) (hu : i.u < 128)
    (hr : s.vopReady v i = true) : Completes (.vop v) s fun t => Advanced s t i
      ∧ EngineQueued s t i ((s.unit i.u).withVec (vecReq (s.grp i.u i.k) v i) i.k)
      ∧ (t.grp i.u i.k).vecs = (s.grp i.u i.k).vecs + 1 ∧ (t.grp i.u i.k).tiles = (s.grp i.u i.k).tiles := by
  obtain ⟨hadv, hq, hp⟩ := issue_joins h hu hb hr (x := fun i y g => y.withVec (vecReq g v i) i.k) (g := fun g => { g with vecs := g.vecs + 1 })
    (fun hs ho => by rw [vecReq_same hs ho]) (fun _ => ⟨rfl, rfl⟩) (fun hc => by
      simp only [Grp.inProgress, Prod.mk.injEq] at hc ⊢
      exact ⟨hc.1, by rw [hc.2]⟩)
  obtain ⟨htiles, hvecs⟩ := Prod.mk.inj hp
  exact ⟨_, exec_vop s v, hadv, hq, hvecs, htiles⟩

/-- Settles O14: an instruction joins its queue (`tile_joins`, `vop_joins`), or `issue_refused` says that it waits or faults. -/
theorem engineInstructionsIssued : Obligations.EngineInstructionsIssued := by
  unfold Obligations.EngineInstructionsIssued
  refine ⟨fun s mi i h ha hb hc hsel hu => ?_, fun s v i h hrsv hext hu => ?_, fun s mi i h ha hb hc hsel hu hfull => ?_,
    fun s v i h hrsv hext hu hfull => ?_, fun s mi i h hbad hu hk => ?_, fun s v i h hbad hu hk => ?_⟩
  · intro g d hroom hacq hfinal
    have hok : tileBad mi = false := tileBad_eq_false (h.unit_eq ▸ hu) ha hb hc hsel
    have hready : s.tileReady mi i = true := by simp [State.tileReady, hroom, hacq, d, hfinal]
    have hq := tile_joins h hok hu hready
    rw [UnitSt.withTile, tileReq, descWords_eq] at hq
    exact hq
  · intro g words hroom hlink hacq hfinal
    have hok : vopBad v = false := vopBad_eq_false (v := v) (h.unit_eq ▸ hu) hrsv hext
    have hready : s.vopReady v i = true := by
      have hl : ((s.unit i.u).vecLink.isNone || (s.unit i.u).vecLink == some i.k) = true := by rcases hlink with e | e <;> simp [e]
      rw [State.vopReady, vecStreams_final hfinal, hl, hacq, decide_eq_true hroom]
      rfl
    have hq := vop_joins h hok hu hready
    rw [UnitSt.withVec, vecReq] at hq
    simp only [vecDesc_eq] at hq
    exact hq
  · have hok : tileBad mi = false := tileBad_eq_false (h.unit_eq ▸ hu) ha hb hc hsel
    have hready : s.tileReady mi i = false := by simp [State.tileReady, Nat.not_lt.2 hfull]
    exact ⟨_, exec_tile s mi, by rw [issue_refused h (.inr hready), hok]; rfl⟩
  · have hok : vopBad v = false := vopBad_eq_false (v := v) (h.unit_eq ▸ hu) hrsv hext
    have hready : s.vopReady v i = false := by simp [State.vopReady, Nat.not_lt.2 hfull]
    exact ⟨_, exec_vop s v, by rw [issue_refused h (.inr hready), hok]; rfl⟩
  · have hbad' := tileBad_of_reserved hbad
    exact ⟨_, exec_tile s mi, by rw [issue_refused h (.inl hbad'), if_pos hbad']; exact illegalAt_threadFault hu h.live hk⟩
  · have hbad' := vopBad_of_reserved hbad
    exact ⟨_, exec_vop s v, by rw [issue_refused h (.inl hbad'), if_pos hbad']; exact illegalAt_threadFault hu h.live hk⟩

end Sys2Proof.Machine
end

section
/-! ### Instructions that pass, and the halt of brk (R195, R209, R211) -/

namespace Sys2Proof.Machine
open Sys2Proof.Machine.State

/-! #### Instructions that pass -/

theorem Issues.slot_lt {s : State} {sh : Shape} {mi : Mi} {i : Iss} (h : Issues s sh mi i) : i.k < 32 := h.2.1 ▸ mi.slot.isLt

/-- An operation without a result has written it as soon as it has issued. -/
theorem wrote_none (s : State) {sh : Shape} (hd : sh.d = 0) (hp : sh.pd = false) (mi : Mi) (i : Iss) (f : Nat → Nat) : WroteResults s s sh mi i f where
  keeps := .refl s
  gen l r _ _ := by
    have hnone : ¬ (mi.dst.toNat ≤ r ∧ r < mi.dst.toNat) := by omega
    simp [genAfter, hd, and_assoc, hnone]
  uni r _ := by
    have hnone : ¬ (mi.dst.toNat ≤ r ∧ r < mi.dst.toNat) := by omega
    simp [uniAfter, hd, and_assoc, hnone]
  pred l n _ _ := by simp [predAfter, hp]
  pc _ := rfl
  others _ _ _ := .refl _

/-- An instruction without a result and without an effect moves the PC and changes no register. -/
theorem passes_of {c : Mi → Instr} {sh : Shape} {ok : State → Mi → Iss → Prop} {ready : State → Iss → Bool} {f : Mi → Iss → State → State}
    (hd : sh.d = 0) (hp : sh.pd = false)
    (hc : ∀ s mi i, ok s mi i → Issues s sh mi i → exec (c mi) s = .next (s.issue sh mi false (ready s) (f mi)))
    (hr : ∀ s mi i, ok s mi i → ready s i = true) (hf : ∀ s mi i, ok s mi i → ∀ s₁, f mi i s₁ = s₁) :
    Results c (fun _ => sh) ok (fun _ _ _ _ => 0) := by
  intro s mi i hok h
  refine ⟨_, hc s mi i hok h, issue_wrote h rfl (hr s mi i hok) fun s₁ _ => ?_⟩
  rw [hf s mi i hok]
  exact wrote_none s₁ hd hp mi i _

/-! #### Which groups a halt stops (R195) -/

/-- The units that a halt caused in unit `u` reaches, by SCOPE. -/
def State.haltUnits (s : State) (u : Nat) : List Nat :=
  if bits (s.reg (unitReg u 0x18)) 1 2 = 2 then (match s.partOfUnit u with
    | some p => (s.unitsOf p).filter (fun u' => s.domOn (u' / 4))
    | none => [u]) else [u]

/-- Whether a halt caused in slot `k` of unit `u` stops slot `k'` of unit `u'`, where it reaches that unit. -/
def State.haltsSlot (s : State) (u : Nat) (k : Option Nat) (u' k' : Nat) : Bool :=
  if bits (s.reg (unitReg u 0x18)) 1 2 = 0 then (match k with | some k => u' == u && k' == k | none => u' == u) else true

/-- From `s` to `t` the resident groups of the units `us` that meet `P` have halted. -/
structure Halted (s t : State) (us : List Nat) (P : Nat → Nat → Bool) : Prop where
  frame : t = { s with groups := t.groups }
  grp : ∀ u k, k < 32 → t.grp u k = if u ∈ us ∧ ((s.grp u k).live && P u k) = true then (s.grp u k).halt else s.grp u k

/-- A halt of one unit's slots. -/
theorem slotsDone_halt (s : State) (u : Nat) (P : Nat → Nat → Bool) :
    SlotsDone s ((List.range 32).foldl (fun (s : State) k => if (s.grp u k).live && P u k then s.setGrp u k (s.grp u k).halt else s) s) u
      ((List.range 32).filter (P u)) Grp.live Grp.halt := by
  have hstep : (fun (s : State) k => if (s.grp u k).live && P u k then s.setGrp u k (s.grp u k).halt else s)
      = fun s k => if P u k then (if (s.grp u k).live then s.setGrp u k (s.grp u k).halt else s) else s := by
    funext t k
    cases P u k <;> simp
  rw [hstep, ← List.foldl_filter]
  exact slotsDone_foldl (List.nodup_range.filter _) (fun k h => List.mem_range.1 (List.mem_filter.1 h).1) fun _ _ _ => rfl

theorem halted_foldl (s : State) (us : List Nat) (P : Nat → Nat → Bool) :
    Halted s (us.foldl (fun s u => (List.range 32).foldl (fun (s : State) k =>
      if (s.grp u k).live && P u k then s.setGrp u k (s.grp u k).halt else s) s) s) us P := by
  induction us using List.reverseRecOn with
  | nil => exact ⟨rfl, fun _ _ _ => by simp⟩
  | append_singleton us v ih =>
    rw [List.foldl_append, List.foldl_cons, List.foldl_nil]
    generalize us.foldl _ s = t at ih ⊢
    obtain ⟨hf, hg⟩ := ih
    obtain ⟨hf', hg'⟩ := slotsDone_halt t v P
    refine ⟨hf'.trans (by rw [hf]), fun u k hk => ?_⟩
    rw [hg' u k hk, hg v k hk, hg u k hk]
    simp only [List.mem_filter, List.mem_range, hk, true_and]
    by_cases huv : u = v
    · subst huv
      by_cases hu : u ∈ us ∧ ((s.grp u k).live && P u k) = true
      · rw [if_pos hu]
        simp only [Bool.and_eq_true] at hu
        simp [hu, Grp.halt]
      · rw [if_neg hu]
        refine if_congr ?_ rfl rfl
        simp [and_comm]
    · simp [huv]

/-- What a halt leaves: the groups it stops have halted, and the state but for groups, unit registers and halts is as before. -/
theorem debugHalt_grp (s : State) (u : Nat) (k₀ : Option Nat) (c b u' : Nat) {k : Nat} (hk : k < 32) :
    (s.debugHalt u k₀ c b).grp u' k
      = if u' ∈ s.haltUnits u ∧ ((s.grp u' k).live && s.haltsSlot u k₀ u' k) = true then (s.grp u' k).halt else s.grp u' k := by
  obtain ⟨-, hg⟩ := halted_foldl s (s.haltUnits u) (s.haltsSlot u k₀)
  rw [← hg u' k hk]
  unfold State.debugHalt
  extract_lets scope us halts s₁ s₂
  have hgroups : s₂.groups = s₁.groups := by
    simp only [s₂]
    split <;> rfl
  refine (grp_congr (s := s₂) ?_ u' k).trans (grp_congr hgroups u' k)
  exact List.foldlRecOn (motive := fun t : State => t.groups = s₂.groups) us _ rfl fun t ht _ _ => ht

/-- A halt reaches thread units alone. -/
theorem haltUnits_lt {s : State} {u u' : Nat} (hu : u < 132) (h : u' ∈ s.haltUnits u) : u' < 132 := by
  unfold State.haltUnits at h
  split at h
  · split at h
    · have hlt := List.mem_range.1 (List.mem_filter.1 (List.mem_filter.1 h).1).1
      omega
    · exact List.mem_singleton.1 h ▸ hu
  · exact List.mem_singleton.1 h ▸ hu

theorem regKey_unitReg_inj {u u' off : Nat} (hu : u < 132) (hu' : u' < 132) (h : regKey (unitReg u off) = regKey (unitReg u' off)) : u = u' := by
  unfold unitReg regKey home at h
  split at h <;> split at h <;> simp only [Kind.code] at h <;> omega

/-- A register written with one value in each of some thread units. -/
theorem reg_foldl_setReg {us : List Nat} {u off : Nat} (hus : ∀ w ∈ us, w < 132) (h : u ∈ us) (v : Nat) (s : State) :
    (us.foldl (fun s w => s.setReg (unitReg w off) v) s).reg (unitReg u off) = v := by
  obtain ⟨l₁, l₂, rfl⟩ := List.append_of_mem h
  rw [List.foldl_append, List.foldl_cons]
  refine List.foldlRecOn (motive := fun t : State => t.reg (unitReg u off) = v) l₂ _ (setReg_reg_same ..) fun t ht w hw => ?_
  by_cases he : w = u
  · rw [he, setReg_reg_same]
  · rw [setReg_reg_ne _ _ _ _ fun e => he (regKey_unitReg_inj (hus w (by simp [hw])) (hus u h) e), ht]

theorem get_foldl_set_true {us : List Nat} {u : Nat} (h : u ∈ us) (m : SMap Bool) : (us.foldl (fun m w => m.set false w true) m).get false u = true := by
  obtain ⟨l₁, l₂, rfl⟩ := List.append_of_mem h
  rw [List.foldl_append, List.foldl_cons]
  refine List.foldlRecOn (motive := fun m : SMap Bool => m.get false u = true) l₂ _ (SMap.get_set_same ..) fun m hm w _ => ?_
  rw [SMap.get_set, hm, ite_self]

/-- A halt caused in a slot records its cause in the status register of every unit that it reaches, and stops those units where SCOPE is not the
group. -/
theorem debugHalt_unitHalted {s : State} {u u' : Nat} (k c b : Nat) (hu : u < 132) (hu' : u' ∈ s.haltUnits u) :
    (s.debugHalt u (some k) c b).reg (unitReg u' 0x1C) = c * 2 + k * 8 + b * 256
      ∧ (bits (s.reg (unitReg u 0x18)) 1 2 ≠ 0 → (s.debugHalt u (some k) c b).halts.get false u' = true) := by
  unfold State.debugHalt
  extract_lets scope us halts s₁ s₂
  refine ⟨reg_foldl_setReg (fun w hw => haltUnits_lt hu hw) hu' _ s₂, fun hs => ?_⟩
  have hsame : (us.foldl (fun s w => s.setReg (unitReg w 0x1C) (c * 2 + (some k).getD 0 * 8 + b * 256)) s₂).halts = s₂.halts :=
    List.foldlRecOn (motive := fun t : State => t.halts = s₂.halts) us _ rfl fun t ht _ _ => ht
  rw [hsame, show s₂ = _ from if_neg hs]
  exact get_foldl_set_true hu' _

theorem mem_haltUnits {s : State} {u : Nat} (h : bits (s.reg (unitReg u 0x18)) 1 2 = 2 → u < 128 → s.domOn (u / 4) = true) : u ∈ s.haltUnits u := by
  unfold State.haltUnits
  split
  · next h2 =>
    unfold State.partOfUnit
    by_cases hu : u < 128
    · rw [if_pos hu]
      simp [State.unitsOf, hu, h h2 hu]
    · rw [if_neg hu]
      exact List.mem_singleton_self u
  · exact List.mem_singleton_self u

/-! #### brk (R195) -/

/-- A brk that would issue halts before it executes where debug halting is enabled and its group was not just resumed and does not step. -/
theorem exec_brk_halts {s : State} {mi : Mi} {i : Iss} (h : Issues s {} mi i) (hen : s.dbgEnabled i.u = true) (hpass : (s.grp i.u i.k).pass = false)
    (hstep : (s.grp i.u i.k).step = false) : exec (.brk mi) s = .next (s.debugHalt i.u (some i.k) 1 0) := by
  obtain ⟨hu, hk, hmay, hturn, hch, hf, -, -, hx, hne, hdef, hleg, -⟩ := h
  obtain ⟨u, k, pc, next, chosen, exec⟩ := i
  simp only at *
  subst hu hk hx
  cases hc : s.choose mi.unit.val mi.slot.val mi.stall.toNat with
  | none => simp [hc] at hch
  | some x =>
    obtain ⟨pc', chosen', forced⟩ := x
    simp only [hc, Option.map_some, Option.some.injEq, Prod.mk.injEq] at hch
    obtain ⟨rfl, rfl⟩ := hch
    show execBrk mi s = _
    unfold execBrk
    simp [hen, hpass, hstep, hmay, hturn, hc, hf, hdef, hleg, hne]

theorem exec_brk_passes {s : State} {mi : Mi} (h : s.dbgEnabled mi.unit.val = false) :
    exec (.brk mi) s = .next (s.issue {} mi false (fun _ => true) (fun _ s => s)) := by
  show execBrk mi s = _
  unfold execBrk
  simp [h]

theorem brk_halts {s : State} {mi : Mi} {i : Iss} (h : Issues s {} mi i) (hen : s.dbgEnabled i.u = true) (hpass : (s.grp i.u i.k).pass = false)
    (hstep : (s.grp i.u i.k).step = false) (hon : bits (s.reg (unitReg i.u 0x18)) 1 2 = 2 → i.u < 128 → s.domOn (i.u / 4) = true) :
    Completes (.brk mi) s (fun t => (t.grp i.u i.k).halted = true ∧ t.reg (unitReg i.u 0x1C) = 1 * 2 + i.k * 8
      ∧ (bits (s.reg (unitReg i.u 0x18)) 1 2 ≠ 0 → t.halts.get false i.u = true
          ∧ ∀ k, k < 32 → (s.grp i.u k).live = true → (t.grp i.u k).halted = true)
      ∧ SameRegs (s.grp i.u i.k) (t.grp i.u i.k) ∧ (∀ l, ((t.grp i.u i.k).thr l).pc = ((s.grp i.u i.k).thr l).pc) ∧ Keeps s t) := by
  have hmem := mem_haltUnits hon
  have hstops : ∀ k, k < 32 → (s.grp i.u k).live = true → s.haltsSlot i.u (some i.k) i.u k = true →
      ((s.debugHalt i.u (some i.k) 1 0).grp i.u k).halted = true := fun k hk hlive hslot => by
    rw [debugHalt_grp _ _ _ _ _ _ hk, if_pos ⟨hmem, by rw [hlive, hslot]; rfl⟩]
    rfl
  obtain ⟨hstatus, hunit⟩ := debugHalt_unitHalted i.k 1 0 h.unit_lt hmem
  obtain ⟨hkeeps, hsame⟩ := debugHalt_spec s i.u (some i.k) 1 0 h.unit_lt
  obtain ⟨hregs, hpc⟩ := hsame i.u i.k
  refine ⟨_, exec_brk_halts h hen hpass hstep, hstops i.k h.slot_lt h.live ?_, hstatus, fun hs => ⟨hunit hs, fun k hk hlive => hstops k hk hlive ?_⟩,
    hregs, hpc, hkeeps⟩
  · simp [State.haltsSlot]
  · simp [State.haltsSlot, hs]

/-- Settles O4: an instruction without a result and an effect moves the PC alone (`passes_of`), and brk halts (`brk_halts`). -/
theorem passingAndBreak : Obligations.PassingAndBreak := by
  unfold Obligations.PassingAndBreak
  refine ⟨⟨?nop, ?tfence, ?vfence, ?join, ?div, ?brk⟩, fun s mi i h hen hpass hstep hon => brk_halts h hen hpass hstep hon⟩
  case nop => exact passes_of rfl rfl (fun _ _ _ _ _ => rfl) (fun _ _ _ _ => rfl) (fun _ _ _ _ _ => rfl)
  case tfence =>
    exact passes_of (ready := fun s i => (s.grp i.u i.k).tiles == 0) rfl rfl (fun _ _ _ _ _ => rfl) (fun _ _ _ hdone => beq_iff_eq.2 hdone)
      (fun _ _ _ _ _ => rfl)
  case vfence =>
    exact passes_of (ready := fun s i => (s.grp i.u i.k).vecs == 0) rfl rfl (fun _ _ _ _ _ => rfl) (fun _ _ _ hdone => beq_iff_eq.2 hdone)
      (fun _ _ _ _ _ => rfl)
  case join => exact passes_of rfl rfl (fun _ _ _ _ _ => rfl) (fun _ _ _ _ => rfl) (fun _ _ _ hu _ => if_pos hu)
  case div => exact passes_of rfl rfl (fun _ _ _ _ _ => rfl) (fun _ _ _ _ => rfl) (fun _ _ _ hu _ => if_pos hu)
  case brk =>
    exact passes_of rfl rfl (fun _ _ _ hen h => exec_brk_passes (h.unit_eq ▸ hen)) (fun _ _ _ _ => rfl) (fun _ _ _ _ _ => rfl)

end Sys2Proof.Machine
end

section
/-! ### Illegal and privileged instructions (R189, R191, R207, R233) -/

namespace Sys2Proof.Machine
open Sys2Proof.Machine.State

/-- A thread fault of a resident group of a compute unit that had no fault record (R189 to R192). -/
theorem threadFault_unit {s : State} {u k kind mask pc : Nat} (hu : u < 128) (hlive : (s.grp u k).live = true) (hk : (s.unit u).fault.kind = 0) :
    let t := s.threadFault u k kind mask pc 0
    ((t.unit u).fault.kind = kind ∧ (t.unit u).fault.code = faultCode kind ∧ (t.unit u).fault.lanes = mask ∧ (t.unit u).fault.pc = pc)
      ∧ t.grp u k = { s.grp u k with faulted := true } ∧ t.mem = s.mem ∧ t.ops = s.ops := by
  have hp : s.partOfUnit u = some (s.partOfCluster (u / 4)) := if_pos hu
  unfold State.threadFault
  simp only [hp, hk, if_true, setUnit_grp, hlive, report_unit, report_grp, setGrp_unit, setUnit_unit_same, setGrp_grp_same, true_and]
  exact ⟨rfl, rfl⟩

/-! #### Illegal encodings -/

section
variable {s : State} {sh : Shape} {mi : Mi} {bad : Bool} {ready : Iss → Bool} {f : Iss → State → State} {pc chosen : Nat} {forced : Bool}
  (hmay : s.mayIssue mi.unit.val mi.slot.val = true) (hturn : s.slotTurn mi.unit.val mi.slot.val mi.busy.toNat = true)
  (hc : s.choose mi.unit.val mi.slot.val mi.stall.toNat = some (pc, chosen, forced)) (hf : s.fetchFaultAt mi.unit.val pc mi.ext.isSome = none)
  (hdbg : s.dbgEnabled mi.unit.val = false)
include hmay hturn hc hf hdbg

/-- An undefined OPCODE in the word at the PC is an ILLEGAL fault of the threads whose guard is true (R207). -/
theorem issue_undefined (hdef : s.undefinedAt mi.unit.val pc = true)
    (hne : (s.grp mi.unit.val mi.slot.val).guarded chosen (bits (s.wordAt mi.unit.val pc) 0 3) (bit (s.wordAt mi.unit.val pc) 3) ≠ 0) :
    s.issue sh mi bad ready f = s.threadFault mi.unit.val mi.slot.val 3
      ((s.grp mi.unit.val mi.slot.val).guarded chosen (bits (s.wordAt mi.unit.val pc) 0 3) (bit (s.wordAt mi.unit.val pc) 3)) pc 0 := by
  unfold State.issue
  simp only [hmay, hturn, hc, hf, hdbg, hdef, Bool.not_true, Bool.or_self, Bool.false_and, Bool.false_eq_true, if_false, if_true]
  exact if_pos hne

/-- An encoding that breaks a rule is an ILLEGAL fault of the threads whose guard is true (R207). -/
theorem issue_illegal (hdef : s.undefinedAt mi.unit.val pc = false)
    (hne : (s.grp mi.unit.val mi.slot.val).guarded chosen mi.pred.toNat mi.pneg ≠ 0)
    (hleg : illegal sh (s.grp mi.unit.val mi.slot.val).alloc mi = true) :
    s.issue sh mi bad ready f
      = s.threadFault mi.unit.val mi.slot.val 3 ((s.grp mi.unit.val mi.slot.val).guarded chosen mi.pred.toNat mi.pneg) pc 0 := by
  unfold State.issue
  simp only [hmay, hturn, hc, hf, hdbg, hdef, hleg, hne, Bool.not_true, Bool.or_self, Bool.or_true, Bool.false_and, Bool.false_eq_true, if_false, if_true,
    ne_eq, not_false_eq_true, decide_true, Bool.and_self]

end

theorem mayIssue_live {s : State} {u k : Nat} (h : s.mayIssue u k = true) : (s.grp u k).live = true := by
  simp only [State.mayIssue, Bool.and_eq_true] at h
  exact h.1.1.1.1

theorem mayIssue_faulted {s : State} {u k : Nat} (h : (s.grp u k).faulted = true) : s.mayIssue u k = false := by simp [State.mayIssue, h]

/-- What an ILLEGAL fault of a group of a compute unit without a fault record does. -/
theorem illegal_threadFault {s : State} {u k mask pc : Nat} (hu : u < 128) (hlive : (s.grp u k).live = true) (hk : (s.unit u).fault.kind = 0) :
    let t := s.threadFault u k 3 mask pc 0
    (t.unit u).fault.kind = 3 ∧ (t.unit u).fault.code = 0x0301 ∧ (t.unit u).fault.pc = pc ∧ (t.grp u k).faulted = true
      ∧ SameRegs (s.grp u k) (t.grp u k) ∧ (∀ l, ((t.grp u k).thr l).pc = ((s.grp u k).thr l).pc) ∧ t.mem = s.mem ∧ t.mayIssue u k = false := by
  intro t
  obtain ⟨⟨hkind, hcode, -, hpc⟩, hg, hmem, -⟩ := threadFault_unit (kind := 3) (mask := mask) (pc := pc) hu hlive hk
  have hfaulted : (t.grp u k).faulted = true := by rw [hg]
  refine ⟨hkind, hcode, hpc, hfaulted, ?_, fun l => ?_, hmem, mayIssue_faulted hfaulted⟩
  · rw [hg]
    exact .refl _
  · rw [hg]
    rfl

/-! #### Privileged instructions on a compute unit -/

/-- The shape under which a privileged instruction is refused on a compute unit, whatever its fields (R233). -/
def refusedShape (mi : Mi) : Shape := { mods := 0xFFF, ext := if mi.ext.isSome then .required else .none }

/-- A PRIVILEGED fault of the executing threads of an issue on a compute unit (R189, R233): no register changes. -/
def PrivilegedAt (s t : State) (i : Iss) : Prop :=
  (t.unit i.u).fault.kind = 4 ∧ (t.unit i.u).fault.code = 0x0301 ∧ (t.unit i.u).fault.lanes = i.exec ∧ (t.unit i.u).fault.pc = i.pc
    ∧ (t.grp i.u i.k).faulted = true ∧ SameRegs (s.grp i.u i.k) (t.grp i.u i.k) ∧ t.mem = s.mem ∧ t.ops = s.ops

/-- A privileged instruction that issues on a compute unit without a fault record is a PRIVILEGED fault of its executing threads. -/
theorem privileged_faults {s : State} {mi : Mi} {i : Iss} (h : Issues s (refusedShape mi) { mi with udst := false } i) (hu : i.u < 128)
    (hk : (s.unit i.u).fault.kind = 0) :
    PrivilegedAt s (s.privileged mi) i := by
  obtain ⟨forced, he⟩ := issue_eq (bad := false) (ready := fun _ => true) (f := fun i s => s.threadFault i.u i.k 4 i.exec i.pc 0) h rfl rfl
  have hp := prepared_atIssue s (refusedShape mi) { mi with udst := false } forced h.unit_lt
  generalize s.atIssue (refusedShape mi) { mi with udst := false } i forced = s₁ at he hp
  have hlive : (s₁.grp i.u i.k).live = true := (congrArg Prod.fst hp.owner).trans h.live
  obtain ⟨⟨hkind, hcode, hlanes, hpc⟩, hg, hmem, hops⟩ :=
    threadFault_unit (kind := 4) (mask := i.exec) (pc := i.pc) hu hlive ((congrArg (·.fault.kind) (hp.keeps.unit i.u)).trans hk)
  have hh := halts_afterStep hu (s₁.threadFault i.u i.k 4 i.exec i.pc 0) i.k (s.grp i.u i.k).step
  generalize ht : s.privileged mi = t
  replace ht : t = (s₁.threadFault i.u i.k 4 i.exec i.pc 0).afterStep i.u i.k (s.grp i.u i.k).step := ht.symm.trans he
  rw [← ht] at hh
  have hunit : t.unit i.u = (s₁.threadFault i.u i.k 4 i.exec i.pc 0).unit i.u := by
    rw [hh.keeps.frame]
    rfl
  unfold PrivilegedAt
  rw [hunit]
  refine ⟨hkind, hcode, hlanes, hpc, ?_, hp.regs.trans ?_, ?_, ?_⟩
  · rw [hh.work, hg]
  · rw [hh.work, hg]
    exact .refl _
  · rw [hh.keeps.frame]
    exact hmem.trans hp.keeps.mem
  · rw [hh.keeps.frame]
    exact hops.trans (by rw [hp.keeps.1])

/-- A privileged instruction is refused on a compute unit. -/
theorem completes_privileged {c : Mi → Instr} (hc : ∀ (s : State) (mi : Mi), mi.unit.val < 128 → exec (c mi) s = .next (s.privileged mi)) (s : State)
    (mi : Mi) (i : Iss) (h : Issues s (refusedShape mi) { mi with udst := false } i) (hu : i.u < 128) (hk : (s.unit i.u).fault.kind = 0) :
    Completes (c mi) s (fun t => PrivilegedAt s t i) :=
  ⟨_, hc s mi (h.unit_eq ▸ hu), privileged_faults h hu hk⟩

theorem privIssue_unit {s : State} {mi : Mi} (hu : mi.unit.val < 128) (sh : Shape) (f : Iss → State → State) : s.privIssue sh mi f = s.privileged mi :=
  if_pos hu

/-- Settles O7: an undefined OPCODE (`issue_undefined`) or a bad encoding (`issue_illegal`) is an ILLEGAL fault, a privileged instruction on a compute
unit a PRIVILEGED one (`privileged_faults`). -/
theorem illegalInstructions : Obligations.IllegalInstructions := by
  unfold Obligations.IllegalInstructions
  refine ⟨fun s sh mi bad ready f pc chosen forced => ?_, ?_⟩
  · intro u k g hmay hturn hc hf hdbg hu hwhy hk
    dsimp only
    by_cases hdef : s.undefinedAt u pc = true
    · rw [if_pos hdef] at hwhy
      rw [issue_undefined hmay hturn hc hf hdbg hdef hwhy]
      exact illegal_threadFault hu (mayIssue_live hmay) hk
    · rw [if_neg hdef] at hwhy
      obtain ⟨hne, hleg⟩ := hwhy
      rw [issue_illegal hmay hturn hc hf hdbg (Bool.eq_false_iff.2 hdef) hne hleg]
      exact illegal_threadFault hu (mayIssue_live hmay) hk
  · refine ⟨?csrr, ?csrw, ?wdkick, ?wfe, ?sev, ?ldp, ?stp⟩
    case ldp => exact completes_privileged fun s mi hu => congrArg Host.Outcome.next (if_pos hu)
    case stp => exact completes_privileged fun s mi hu => congrArg Host.Outcome.next (if_pos hu)
    all_goals exact completes_privileged fun s mi hu => congrArg Host.Outcome.next (privIssue_unit hu _ _)

end Sys2Proof.Machine
end

section
/-! ### Branches, calls and exit (R171, R209, R210) -/

namespace Sys2Proof.Machine
open Sys2Proof.Machine.State

/-! #### Jumps of the executing threads -/

/-- The threads of a mask continue at their targets. -/
def Grp.jump (g : Grp) (mask : Nat) (target : Nat → Nat) : Grp :=
  (lanesOf mask).foldl (fun g l => g.modThr l (fun t => { t with pc := target l })) g

theorem Grp.thr_jump (g : Grp) (mask : Nat) (target : Nat → Nat) (l : Nat) :
    (g.jump mask target).thr l = if l ∈ lanesOf mask then { g.thr l with pc := target l } else g.thr l :=
  Grp.thr_foldl (fun l t => { t with pc := target l }) _ g l (nodup_lanesOf mask)

theorem Grp.pc_jump (g : Grp) (mask : Nat) (target : Nat → Nat) {l : Nat} (hl : l < 32) :
    ((g.jump mask target).thr l).pc = if mask.testBit l then target l else (g.thr l).pc := by
  rw [Grp.thr_jump, apply_ite Thr.pc]
  exact if_congr (by simp [hl]) rfl rfl

theorem Grp.alive_jump (g : Grp) (mask : Nat) (target : Nat → Nat) (l : Nat) : ((g.jump mask target).thr l).alive = (g.thr l).alive := by
  rw [Grp.thr_jump, apply_ite Thr.alive, ite_self]

theorem Grp.sameRegs_jump (g : Grp) (mask : Nat) (target : Nat → Nat) : SameRegs g (g.jump mask target) := by
  refine ⟨fun l r => ?_, fun l r => ?_, Grp.getU_foldl (fun l t => { t with pc := target l }) _ g⟩ <;>
  · rw [Grp.thr_jump]
    split <;> rfl

/-- The executing threads of an issue continue at their targets. -/
def State.jump (s : State) (i : Iss) (target : Nat → Nat) : State := s.setGrp i.u i.k ((s.grp i.u i.k).jump i.exec target)

/-- An effect `s₂` that moves no PC and touches registers of the issuing group only, and then a jump: the PCs, the registers, and what is left alone. -/
theorem jump_afterStep {s s₁ s₂ : State} {i : Iss} (ha : AtEffect s s₁ i) (hu : i.u < 132) (hk : Keeps s₁ s₂)
    (hpc : ∀ l, ((s₂.grp i.u i.k).thr l).pc = ((s₁.grp i.u i.k).thr l).pc)
    (ho : ∀ u k, u * 32 + k ≠ i.u * 32 + i.k → SameRegs (s₁.grp u k) (s₂.grp u k)) (target : Nat → Nat) (b : Bool) :
    let t := (s₂.jump i target).afterStep i.u i.k b
    (∀ l, l < 32 → ((t.grp i.u i.k).thr l).pc
        = if i.exec.testBit l then target l else if i.chosen.testBit l then i.next else ((s.grp i.u i.k).thr l).pc)
      ∧ SameRegs (s₂.grp i.u i.k) (t.grp i.u i.k) ∧ RegistersOnly s t i.u i.k := by
  intro t
  obtain ⟨hkeeps, hafter⟩ := afterStep_spec (s₂.jump i target) i.u i.k b hu
  obtain ⟨hregs, hpcs⟩ := hafter i.u i.k
  have hg : (s₂.jump i target).grp i.u i.k = (s₂.grp i.u i.k).jump i.exec target := setGrp_grp_same ..
  rw [hg] at hregs hpcs
  have hall : Keeps s t := ((ha.keeps.trans hk).trans (Keeps.setGrp ..)).trans hkeeps
  refine ⟨fun l hl => ?_, (Grp.sameRegs_jump ..).trans hregs, hall.peek, hall, fun u k hk' hk0 hne l r => ?_⟩
  · rw [hpcs, Grp.pc_jump _ _ _ hl, hpc, ha.pc l hl]
  · have hkey : u * 32 + k ≠ i.u * 32 + i.k := fun e => hne (by ext <;> simp only <;> omega)
    have hother := (ho u k hkey).trans (setGrp_grp_ne s₂ i.u i.k u k _ (Ne.symm hkey) ▸ (hafter u k).1)
    rw [ha.others u k hkey] at hother
    obtain ⟨hgen, hpred, huni⟩ := hother
    exact ⟨hgen l r, hpred l r, huni r⟩

/-- An instruction whose effect is a jump alone is a branch. -/
theorem issue_branched {s : State} {sh : Shape} {mi : Mi} {i : Iss} {f : Iss → State → State} {target : Nat → Nat} (h : Issues s sh mi i)
    (hf : ∀ s₁, AtEffect s s₁ i → f i s₁ = s₁.jump i target) : Branched s (s.issue sh mi false (fun _ => true) f) i target := by
  obtain ⟨forced, he⟩ := issue_eq (bad := false) (ready := fun _ => true) (f := f) h rfl rfl
  have ha := atEffect_atIssue s sh mi forced h.unit_lt
  rw [he, hf _ ha]
  obtain ⟨hpc, hregs, hrest⟩ := jump_afterStep ha h.unit_lt (.refl _) (fun _ => rfl) (fun _ _ _ => .refl _) target (s.grp i.u i.k).step
  exact ⟨hpc, ha.regs.trans hregs, hrest⟩

/-- Threads of a compute unit, or all chosen threads together, do not diverge (R176, R210). -/
theorem divergent_eq_false {i : Iss} (h : i.u < 128 ∨ i.exec = i.chosen) (s : State) : s.divergent i = false := by
  unfold State.divergent
  rcases h with h | h <;> simp [h]

theorem bra_branches {s : State} {mi : Mi} {i : Iss} (h : Issues s {} mi i) (hone : i.u < 128 ∨ i.exec = i.chosen) :
    Completes (.bra mi) s (fun t => Branched s t i (fun _ => State.branchTarget i.pc 24 (branchOff mi))) := by
  refine ⟨_, rfl, issue_branched h fun s₁ _ => ?_⟩
  rw [divergent_eq_false hone]
  rfl

/-- The lowest lane of the executing threads is one of them. -/
theorem Issues.lowLane_mem {s : State} {sh : Shape} {mi : Mi} {i : Iss} (h : Issues s sh mi i) : lowLane i.exec ∈ lanesOf i.exec := by
  obtain ⟨l, hl⟩ := List.exists_mem_of_ne_nil _ h.lanes_ne
  rw [mem_lanesOf] at hl
  obtain ⟨m, hm⟩ := Option.isSome_iff_exists.1 (List.find?_isSome.2 ⟨l, List.mem_range.2 hl.1, hl.2⟩)
  rw [lowLane, hm, Option.getD_some, mem_lanesOf]
  exact ⟨List.mem_range.1 (List.mem_of_find?_eq_some hm), List.find?_some hm⟩

/-- The target of brx in a lane: its operand a. -/
def brxTarget (s : State) (mi : Mi) (i : Iss) (l : Nat) : Nat := opA shapeBrx mi (s.grp i.u i.k) ((s.grp i.u i.k).thr l)

theorem brx_branches {s : State} {mi : Mi} {i : Iss} (h : Issues s shapeBrx mi i)
    (halign : ∀ l, l < 32 → i.exec.testBit l = true → brxTarget s mi i l % 8 = 0)
    (hone : i.u < 128 ∨ (i.exec = i.chosen ∧ ∀ l m, l < 32 → m < 32 → i.exec.testBit l = true → i.exec.testBit m = true →
      brxTarget s mi i l = brxTarget s mi i m)) :
    Completes (.brx mi) s (fun t => Branched s t i (fun l => brxTarget s mi i l % 2 ^ 44)) := by
  refine ⟨_, rfl, issue_branched h fun s₁ ha => ?_⟩
  have htarget : ∀ l, opA shapeBrx mi (s₁.grp i.u i.k) ((s₁.grp i.u i.k).thr l) = brxTarget s mi i l := opA_same ha.regs shapeBrx mi
  have hdiffer : (decide (128 ≤ i.u) && (s₁.divergent i
      || (lanesOf i.exec).any fun l => brxTarget s mi i l != brxTarget s mi i (lowLane i.exec))) = false := by
    rcases hone with hu | ⟨hall, hsame⟩
    · simp [hu]
    · obtain ⟨hlow, hbit⟩ := (mem_lanesOf _ _).1 h.lowLane_mem
      have hnone : ((lanesOf i.exec).any fun l => brxTarget s mi i l != brxTarget s mi i (lowLane i.exec)) = false :=
        List.any_eq_false.2 fun l hl => by
          obtain ⟨hl, hx⟩ := (mem_lanesOf _ _).1 hl
          simp [hsame l _ hl hlow hx hbit]
      rw [hnone, divergent_eq_false (.inr hall), Bool.or_self, Bool.and_false]
  have hbad : (lanesOf i.exec).foldl (fun a l => if brxTarget s mi i l % 8 = 0 then a else a + 2 ^ l) 0 = 0 :=
    List.foldlRecOn (motive := fun a : Nat => a = 0) _ _ rfl fun a h0 l hl => by
      obtain ⟨hl, hx⟩ := (mem_lanesOf _ _).1 hl
      rw [if_pos (halign l hl hx), h0]
  simp only [htarget, hdiffer, hbad, Bool.false_eq_true, if_false, ne_eq, not_true_eq_false]
  rfl

/-- call writes the address behind it and branches (R209). -/
theorem call_branches {s : State} {mi : Mi} {i : Iss} (h : Issues s shapeCall mi i) (hone : i.u < 128 ∨ i.exec = i.chosen) :
    Completes (.call mi) s (fun t =>
      (∀ l, l < 32 → ((t.grp i.u i.k).thr l).pc = if i.exec.testBit l then State.branchTarget i.pc 24 (branchOff mi)
        else if i.chosen.testBit l then i.next else ((s.grp i.u i.k).thr l).pc)
      ∧ (∀ l r, l < 32 → r < 255 → ((t.grp i.u i.k).thr l).getG r = genAfter (s.grp i.u i.k) shapeCall mi i.exec (fun _ => i.pc + 8) l r)
      ∧ (∀ r, r < 63 → (t.grp i.u i.k).getU r = uniAfter (s.grp i.u i.k) shapeCall mi i.exec (fun _ => i.pc + 8) r)
      ∧ RegistersOnly s t i.u i.k) := by
  obtain ⟨forced, he⟩ := issue_eq (bad := false) (ready := fun _ => true) (f := fun i s =>
    if s.divergent i then s.threadFault i.u i.k 0x0C i.chosen i.pc 0
    else (s.writeResults shapeCall mi i (fun _ _ => (i.pc + 8, 0))).setPcs i i.exec (State.branchTarget i.pc 24 (branchOff mi))) h rfl rfl
  have ha := atEffect_atIssue s shapeCall mi forced h.unit_lt
  rw [divergent_eq_false hone] at he
  have hw := wrote_writeResults (s.atIssue shapeCall mi i forced) shapeCall mi h.exec_eq.2 (fun _ _ => (i.pc + 8, 0))
  obtain ⟨hpc, hregs, hrest⟩ := jump_afterStep ha h.unit_lt hw.keeps hw.pc hw.others (fun _ => State.branchTarget i.pc 24 (branchOff mi))
    (s.grp i.u i.k).step
  refine ⟨_, congrArg Host.Outcome.next he, hpc, fun l r hl hr => ?_, fun r hr => ?_, hrest⟩
  · exact (hregs.1 l r).trans ((hw.gen l r hl hr).trans (genAfter_same ha.regs ..))
  · exact (hregs.2.2 r).trans ((hw.uni r hr).trans (uniAfter_same ha.regs ..))

/-! #### What exit reads of its group -/

/-- A property of a group that holds through any change of a thread's PC, age and register cache and of the passage of a breakpoint holds through the
bookkeeping of an issue. -/
theorem grp_atIssue {P : Grp → Prop}
    (hthr : ∀ g l (f : Thr → Thr), (∀ t, ∃ pc age rc, f t = { t with pc := pc, age := age, rcache := rc }) → P g → P (g.modThr l f))
    (hpass : ∀ g, P g → P { g with pass := false }) (s : State) (sh : Shape) (mi : Mi) (i : Iss) (forced : Bool) (h : P (s.grp i.u i.k)) :
    P ((s.atIssue sh mi i forced).grp i.u i.k) := by
  have hbook : P ((s.bookIssue i (s.readyLanes i.u i.k mi.stall.toNat) forced).grp i.u i.k) := by
    unfold State.bookIssue
    extract_lets g g' s1 s2 s3
    have hg : P g' := by
      refine List.foldlRecOn (motive := P) _ _ h fun x hx l _ => ?_
      split
      · exact hthr _ _ _ (fun t => ⟨_, _, t.rcache, rfl⟩) hx
      · split
        · exact hthr _ _ _ (fun t => ⟨t.pc, _, t.rcache, rfl⟩) hx
        · exact hx
    have hgroups : (if forced then s3.bumpUnit i.u 0x140 1 else s3).groups = s1.groups := by split <;> simp [s3, s2]
    rw [grp_congr hgroups, show s1.grp i.u i.k = _ from setGrp_grp_same s i.u i.k { g' with pass := false }]
    exact hpass _ hg
  show P (((s.bookIssue i (s.readyLanes i.u i.k mi.stall.toNat) forced).delivery sh mi i).grp i.u i.k)
  generalize s.bookIssue i (s.readyLanes i.u i.k mi.stall.toNat) forced = s' at hbook ⊢
  unfold State.delivery
  extract_lets srcs rc g hit missed s1 s2 s3 place
  split
  · rwa [grp_congr (bumpUnit_groups ..)]
  · rw [setGrp_grp_same]
    refine List.foldlRecOn (motive := P) _ _ hbook fun x hx l _ => hthr _ _ _ (fun t => ?_) hx
    refine List.foldlRecOn (motive := fun y : Thr => ∃ pc age rc, y = { t with pc := pc, age := age, rcache := rc }) _ _ ⟨t.pc, t.age, t.rcache, rfl⟩ ?_
    rintro y ⟨pc, age, rc, rfl⟩ x _
    dsimp only
    split
    · exact ⟨pc, age, rc, rfl⟩
    · exact ⟨pc, age, _, rfl⟩

/-- What exit reads of a group: its active mask, its mask stack, and which threads are alive. -/
def Grp.standing (g : Grp) : Nat × List (Nat × Nat) × (Nat → Bool) := (g.active, g.stack, fun l => (g.thr l).alive)

theorem Grp.alive_modThr {f : Thr → Thr} (hf : ∀ t, (f t).alive = t.alive) (g : Grp) (l m : Nat) : ((g.modThr l f).thr m).alive = (g.thr m).alive := by
  rw [Grp.thr_modThr, apply_ite Thr.alive, hf, ite_self]

theorem standing_atIssue (s : State) (sh : Shape) (mi : Mi) (i : Iss) (forced : Bool) :
    ((s.atIssue sh mi i forced).grp i.u i.k).standing = (s.grp i.u i.k).standing := by
  refine grp_atIssue (P := fun g => g.standing = (s.grp i.u i.k).standing) (fun g l f hf hg => ?_) (fun _ hg => hg) s sh mi i forced rfl
  rw [← hg]
  have halive : ∀ t, (f t).alive = t.alive := fun t => by
    obtain ⟨_, _, _, ht⟩ := hf t
    rw [ht]
  simp only [Grp.standing, Grp.alive_modThr halive]
  rfl

/-! #### The threads that have ended -/

theorem Grp.testBit_ended (g : Grp) (l : Nat) : g.ended.testBit l = (decide (l < 32) && !(g.thr l).alive) := by
  rw [← testBit_packed (fun l => !(g.thr l).alive)]
  have hstep : (fun a l => if (g.thr l).alive then a else a + 2 ^ l) = fun a l => a + b2n (!(g.thr l).alive) * 2 ^ l := by
    funext a l
    cases (g.thr l).alive <;> simp [b2n]
  rw [Grp.ended, hstep]

/-- No thread is alive where all have ended. -/
theorem Grp.aliveMask_eq_zero (g : Grp) : g.aliveMask = 0 ↔ ∀ l, l < 32 → (g.thr l).alive = false := by
  have hlt : g.ended < 2 ^ 32 := Nat.lt_pow_two_of_testBit _ fun l hl => by simp [Grp.testBit_ended, Nat.not_lt.2 hl]
  have hfull : g.aliveMask = 0 ↔ g.ended = 2 ^ 32 - 1 := by
    unfold Grp.aliveMask
    omega
  rw [hfull]
  refine ⟨fun h l hl => ?_, fun h => Nat.eq_of_testBit_eq fun l => ?_⟩
  · have hbit := g.testBit_ended l
    rw [h, Nat.testBit_two_pow_sub_one] at hbit
    simpa [hl] using hbit
  · rw [Grp.testBit_ended, Nat.testBit_two_pow_sub_one]
    by_cases hl : l < 32 <;> simp [hl, h]

/-- A barrier that completes ends no thread. -/
theorem Grp.standing_checkBar (g : Grp) : g.checkBar.standing = g.standing := by
  unfold Grp.checkBar
  split
  · rfl
  · split
    · refine List.foldlRecOn (motive := fun x : Grp => x.standing = g.standing) _ _ rfl fun x hx l _ => ?_
      rw [← hx]
      simp only [Grp.standing, Grp.alive_modThr (f := fun t => { t with atBar := false }) fun _ => rfl]
      rfl
    · rfl

/-- The threads of a mask end and leave the active mask and the mask stack (R171, R175). -/
def Grp.endThreads (g : Grp) (mask : Nat) : Grp :=
  let g := (lanesOf mask).foldl (fun g l => g.modThr l (fun t => { t with alive := false })) g
  let keep := 0xFFFFFFFF ^^^ (mask % 2 ^ 32)
  { g with active := g.active &&& keep, stack := g.stack.map (fun e => (e.1, e.2 &&& keep)) }

/-- A group after exit: a barrier that waited for the ended threads alone completes (R181). -/
def Grp.exit (g : Grp) (mask : Nat) : Grp := (g.endThreads mask).checkBar

theorem Grp.exit_spec (g : Grp) (mask : Nat) : (g.exit mask).active = g.active &&& (0xFFFFFFFF ^^^ (mask % 2 ^ 32))
    ∧ (g.exit mask).stack = g.stack.map (fun e => (e.1, e.2 &&& (0xFFFFFFFF ^^^ (mask % 2 ^ 32))))
    ∧ ∀ l, l < 32 → ((g.exit mask).thr l).alive = ((g.thr l).alive && !mask.testBit l) := by
  have hstanding := Grp.standing_checkBar (g.endThreads mask)
  simp only [Grp.standing, Prod.mk.injEq] at hstanding
  obtain ⟨hactive, hstack, halive⟩ := hstanding
  have hmasks := List.foldlRecOn (motive := fun x : Grp => x.active = g.active ∧ x.stack = g.stack) (lanesOf mask)
    (fun g l => g.modThr l (fun t => { t with alive := false })) ⟨rfl, rfl⟩ fun _ hx _ _ => hx
  refine ⟨hactive.trans (congrArg (· &&& _) hmasks.1), hstack.trans (congrArg (List.map _) hmasks.2), fun l hl => (congrFun halive l).trans ?_⟩
  refine (congrArg Thr.alive (Grp.thr_foldl (fun _ t => { t with alive := false }) (lanesOf mask) g l (nodup_lanesOf mask))).trans ?_
  by_cases hx : mask.testBit l = true <;> simp [hl, hx]

/-! #### What exit leaves alone -/

/-- From `s` to `t` no byte reads differently, no counter has another value, and no fence has changed. -/
structure Spares (s t : State) : Prop where
  peek : ∀ a, t.peek a = s.peek a
  ctr : ∀ r n, (t.ctr r n).value = (s.ctr r n).value
  fences : t.fences = s.fences

theorem Spares.trans {s t v : State} (h : Spares s t) (h' : Spares t v) : Spares s v where
  peek a := (h'.peek a).trans (h.peek a)
  ctr r n := (h'.ctr r n).trans (h.ctr r n)
  fences := h'.fences.trans h.fences

theorem spares_of_fields {s t : State} (hl : t.lines = s.lines) (hm : t.mem = s.mem) (hc : t.ctrs = s.ctrs) (hf : t.fences = s.fences) : Spares s t where
  peek a := peek_congr hl (by simp only [State.memByte, hm])
  ctr r n := by simp only [State.ctr, hc]
  fences := hf

theorem Keeps.spares {s t : State} (h : Keeps s t) : Spares s t := by
  rw [h.1]
  exact spares_of_fields rfl rfl rfl rfl

/-- The waits that leave the counters with a group are no part of their values. -/
theorem spares_retire (s : State) (u k : Nat) : Spares s (s.retire u k) where
  peek a := peek_congr rfl rfl
  ctr r n := by
    unfold State.retire State.ctr
    dsimp only
    refine List.foldlRecOn (motive := fun m : SMap Ctr => (m.get {} (r * 4096 + n)).value = (s.ctrs.get {} (r * 4096 + n)).value) _ _ rfl
      fun m hm e _ => ?_
    by_cases he : e.1 = r * 4096 + n
    · rw [he, SMap.get_modify_same]
      exact hm
    · rw [SMap.get_modify_ne _ _ _ _ he]
      exact hm
  fences := rfl

theorem spares_checkTeam (s : State) (c : Nat) : Spares s (s.checkTeam c) := by
  unfold State.checkTeam
  split
  · exact spares_of_fields rfl rfl rfl rfl
  · dsimp only
    split
    · exact spares_of_fields rfl rfl rfl rfl
    · split <;> exact spares_of_fields rfl rfl rfl rfl

/-- A group that ends leaves an empty slot. -/
theorem endGroup_spec (s : State) (u k : Nat) : Spares s (s.endGroup u k) ∧ (s.endGroup u k).grp u k = {} := by
  have hempty : ((s.setGrp u k {}).retire u k).grp u k = {} :=
    (grp_congr (s := s.setGrp u k {}) rfl u k).trans (setGrp_grp_same ..)
  have hspares : Spares s ((s.setGrp u k {}).retire u k) :=
    (spares_of_fields (s := s) (t := s.setGrp u k {}) rfl rfl rfl rfl).trans (spares_retire ..)
  unfold State.endGroup
  dsimp only
  split
  · generalize (s.setGrp u k {}).retire u k = t at hempty hspares ⊢
    have hteam : Spares t (t.modTeam (u / 4) fun y => { y with live := y.live - 1 }) := spares_of_fields rfl rfl rfl rfl
    exact ⟨(hspares.trans hteam).trans (spares_checkTeam ..), (grp_congr (checkTeam_keeps ..).2 u k).trans hempty⟩
  · exact ⟨hspares, hempty⟩

/-- A pop that finds an entry with threads ends no thread. -/
theorem hkuJoin_spec {s : State} {u k : Nat} (h : (popStack (s.grp u k).stack).isSome = true) (pc mask : Nat) :
    Spares s (s.hkuJoin u k pc mask) ∧ ∀ l, (((s.hkuJoin u k pc mask).grp u k).thr l).alive = ((s.grp u k).thr l).alive := by
  obtain ⟨⟨target, m, rest⟩, hp⟩ := Option.isSome_iff_exists.1 h
  unfold State.hkuJoin
  simp only [hp]
  refine ⟨spares_of_fields rfl rfl rfl rfl, fun l => ?_⟩
  rw [setGrp_grp_same]
  exact Grp.alive_jump _ m (fun _ => target) l

/-! #### exit -/

/-- The effect of exit: the executing threads end, the group with its last thread; a housekeeping group left without active threads continues as
join. -/
def exitEffect (i : Iss) (s : State) : State :=
  let g := (s.grp i.u i.k).exit i.exec
  let t := s.setGrp i.u i.k g
  if g.aliveMask = 0 then t.endGroup i.u i.k
  else if 128 ≤ i.u ∧ g.active = 0 then t.hkuJoin i.u i.k i.pc i.exec else t

theorem exec_exit (s : State) (mi : Mi) : exec (.exit mi) s = .next (s.issue {} mi false (fun _ => true) exitEffect) := rfl

/-- Where exit does not empty the mask stack of a group that lives on, it ends the executing threads and spares everything else. -/
theorem exitEffect_spec {s : State} {i : Iss}
    (h : i.u < 128 ∨ ((s.grp i.u i.k).exit i.exec).active ≠ 0 ∨ (popStack ((s.grp i.u i.k).exit i.exec).stack).isSome = true
      ∨ ∀ l, l < 32 → (((s.grp i.u i.k).exit i.exec).thr l).alive = false) :
    Spares s (exitEffect i s)
      ∧ ∀ l, l < 32 → (((exitEffect i s).grp i.u i.k).thr l).alive = (((s.grp i.u i.k).thr l).alive && !i.exec.testBit l) := by
  obtain ⟨-, -, halive⟩ := (s.grp i.u i.k).exit_spec i.exec
  unfold exitEffect
  extract_lets g t
  change i.u < 128 ∨ g.active ≠ 0 ∨ (popStack g.stack).isSome = true ∨ ∀ l, l < 32 → (g.thr l).alive = false at h
  change ∀ l, l < 32 → (g.thr l).alive = _ at halive
  have ht : Spares s t := spares_of_fields rfl rfl rfl rfl
  have hg : t.grp i.u i.k = g := setGrp_grp_same ..
  split
  · next hend =>
    obtain ⟨hspares, hempty⟩ := endGroup_spec t i.u i.k
    refine ⟨ht.trans hspares, fun l hl => ?_⟩
    rw [hempty, ← halive l hl, g.aliveMask_eq_zero.1 hend l hl]
    rfl
  · next hlives =>
    split
    · next hjoin =>
      have hpop : (popStack (t.grp i.u i.k).stack).isSome = true := by
        rw [hg]
        rcases h with h | h | h | h
        · omega
        · exact absurd hjoin.2 h
        · exact h
        · exact absurd (g.aliveMask_eq_zero.2 h) hlives
      obtain ⟨hspares, hsame⟩ := hkuJoin_spec hpop i.pc i.exec
      exact ⟨ht.trans hspares, fun l hl => by rw [hsame, hg, halive l hl]⟩
    · exact ⟨ht, fun l hl => by rw [hg, halive l hl]⟩

/-- A halt behind a step ends no thread. -/
theorem alive_afterStep (s : State) {k : Nat} (hk : k < 32) (u : Nat) (b : Bool) (l : Nat) :
    (((s.afterStep u k b).grp u k).thr l).alive = ((s.grp u k).thr l).alive := by
  unfold State.afterStep
  extract_lets g
  split
  · rfl
  · split
    · rfl
    · rw [debugHalt_grp _ _ _ _ _ _ hk, setGrp_grp_same]
      split <;> rfl

theorem exit_ends {s : State} {mi : Mi} {i : Iss} (h : Issues s {} mi i)
    (hrest : i.u < 128 ∨ (s.grp i.u i.k).active &&& (0xFFFFFFFF ^^^ (i.exec % 2 ^ 32)) ≠ 0
      ∨ (popStack ((s.grp i.u i.k).stack.map (fun e => (e.1, e.2 &&& (0xFFFFFFFF ^^^ (i.exec % 2 ^ 32)))))).isSome = true
      ∨ ∀ l, l < 32 → ((s.grp i.u i.k).thr l).alive = true → i.exec.testBit l = true) :
    Completes (.exit mi) s (fun t => (∀ l, l < 32 → ((t.grp i.u i.k).thr l).alive = (((s.grp i.u i.k).thr l).alive && !i.exec.testBit l))
      ∧ (∀ a, t.peek a = s.peek a) ∧ (∀ r n, (t.ctr r n).value = (s.ctr r n).value) ∧ t.fences = s.fences) := by
  obtain ⟨forced, he⟩ := issue_eq (bad := false) (ready := fun _ => true) (f := exitEffect) h rfl rfl
  obtain ⟨hkeeps, -⟩ := atIssue_spec s {} mi i forced h.unit_lt
  have hstanding := standing_atIssue s {} mi i forced
  generalize s.atIssue {} mi i forced = s₁ at he hkeeps hstanding
  simp only [Grp.standing, Prod.mk.injEq] at hstanding
  obtain ⟨hactive, hstack, halive⟩ := hstanding
  obtain ⟨hexitActive, hexitStack, hexitAlive⟩ := (s₁.grp i.u i.k).exit_spec i.exec
  obtain ⟨hspares, hends⟩ := exitEffect_spec (s := s₁) (i := i) (by
    rw [hexitActive, hexitStack, hactive, hstack]
    refine hrest.imp_right (.imp_right (.imp_right fun hall l hl => ?_))
    rw [hexitAlive l hl, congrFun halive l]
    cases hal : ((s.grp i.u i.k).thr l).alive with
    | false => rfl
    | true => rw [hall l hl hal]; rfl)
  have hafter := (afterStep_spec (exitEffect i s₁) i.u i.k (s.grp i.u i.k).step h.unit_lt).1.spares
  obtain ⟨hpeek, hctr, hfences⟩ := (hkeeps.spares.trans hspares).trans hafter
  refine ⟨_, (exec_exit s mi).trans (congrArg Host.Outcome.next he), fun l hl => ?_, hpeek, hctr, hfences⟩
  rw [alive_afterStep _ h.slot_lt, hends l hl, congrFun halive l]

/-- Settles O5: a branch is a jump of the executing threads (`issue_branched`), a call writes its result first, and exit ends them. -/
theorem controlFlow : Obligations.ControlFlow := by
  unfold Obligations.ControlFlow
  exact ⟨⟨fun s mi i h hone => bra_branches h hone, fun s mi i h halign hone => brx_branches h halign hone,
    fun s mi i h hone => call_branches h hone⟩, fun s mi i h hrest => exit_ends h hrest⟩

end Sys2Proof.Machine
end

section
/-! ### Integer, logic and floating-point results (R212, R213) -/

namespace Sys2Proof.Machine
open Sys2Proof.Machine.State

/-- An instruction that computes each lane's result from its operands, whatever its modifiers. -/
theorem computes_alu {c : Mi → Instr} {sh : Shape} {F : Nat → Nat → Nat → Nat × Nat} {f : Nat → Nat → Nat → Nat}
    (hc : ∀ mi s, exec (c mi) s = .next (s.alu sh mi false F)) (hf : ∀ a b c, (F a b c).1 = f a b c) :
    Computes c (fun _ => sh) (fun _ => True) (fun _ => f) :=
  computes_of (bad := fun _ => false) (F := fun _ => F) hc (fun _ _ => rfl) (fun _ => hf)

theorem ofSigned_lt (w : Nat) (i : Int) : ofSigned w i < 2 ^ w :=
  (Int.toNat_lt' (Nat.two_pow_pos w)).2 (Int.emod_lt_of_pos i (Int.natCast_pos.2 (Nat.two_pow_pos w)))

/-- A left shift by 32 or more gives 0. -/
theorem shiftLeft_word (a n : Nat) : shiftLeft 32 a n % 2 ^ 32 = if 32 ≤ n then 0 else a * 2 ^ n % 2 ^ 32 := by
  unfold shiftLeft
  split
  · rfl
  · rw [Nat.mod_mod, Nat.shiftLeft_eq]

/-- A logical right shift by 32 or more gives 0. -/
theorem shiftRight_word (a n : Nat) : shiftRight 32 a n % 2 ^ 32 = if 32 ≤ n then 0 else a % 2 ^ 32 / 2 ^ n := by
  unfold shiftRight
  split
  · rfl
  · rw [Nat.shiftRight_eq_div_pow]
    exact Nat.mod_eq_of_lt ((Nat.div_le_self _ _).trans_lt (Nat.mod_lt _ (Nat.two_pow_pos 32)))

theorem shiftArith_word (a n : Nat) : shiftArith 32 a n % 2 ^ 32 = ofSigned 32 (toSigned 32 a / (2 ^ min n 32 : Nat)) :=
  Nat.mod_eq_of_lt (ofSigned_lt 32 _)

/-- Settles O1: each instruction of these families is `State.alu` of an operation on the lane's operands (`computes_alu`). -/
theorem integerResults : Obligations.IntegerResults := by
  unfold Obligations.IntegerResults
  refine ⟨⟨?add, ?sub, ?mul, ?mulhiS, ?mulhiU, ?minS, ?maxS, ?minU, ?maxU⟩, ⟨?mad, ?abs, ?popc, ?clz, ?add64, ?sub64⟩,
    ?and, ?or, ?xor, ?andn, ?not, ?shl, ?shr, ?sar, ?bfeU, ?bfeS, ?bfi⟩
  case mulhiS => exact computes_alu (fun _ _ => rfl) fun _ _ _ => congrArg (· % 2 ^ 32) (Nat.shiftRight_eq_div_pow _ 32)
  case mulhiU => exact computes_alu (fun _ _ => rfl) fun _ _ _ => congrArg (· % 2 ^ 32) (Nat.shiftRight_eq_div_pow _ 32)
  case shl => exact computes_alu (fun _ _ => rfl) fun a b _ => shiftLeft_word a b
  case shr => exact computes_alu (fun _ _ => rfl) fun a b _ => shiftRight_word a b
  case sar => exact computes_alu (fun _ _ => rfl) fun a b _ => shiftArith_word a b
  case bfeS =>
    exact computes_alu (fun _ _ => rfl) fun a b c => apply_ite Prod.fst (fieldWidth (bits b 0 5) (bits c 0 6) = 0) _ _
  all_goals exact computes_alu (fun _ _ => rfl) fun _ _ _ => rfl

/-- A FLOAT operation on a lane's operands, with the negations and the rounding that the word names (R213). -/
def floatOp (op : FpFmt → Rm → Nat → Nat → Nat → Nat) (mi : Mi) : Nat → Nat → Nat → Nat :=
  perHalf (modf mi 52 2) fun f x y z => op f (rmOf (bit mi.mod.toNat 2)) (negIf f (bit mi.mod.toNat 3) x) y (negIf f (bit mi.mod.toNat 4) z)

/-- As `floatOp`, for a DOUBLE operation. -/
def doubleOp (op : Rm → Nat → Nat → Nat → Nat) (mi : Mi) (a b c : Nat) : Nat :=
  op (rmOf (bit mi.mod.toNat 2)) (negIf fp64 (bit mi.mod.toNat 3) a) b (negIf fp64 (bit mi.mod.toNat 4) c)

theorem computes_float {c : Mi → Instr} {sh : Shape} (op : FpFmt → Rm → Nat → Nat → Nat → Nat)
    (hc : ∀ mi s, exec (c mi) s = .next (s.float sh mi op)) : Computes c (fun _ => sh.float) (fun mi => modf mi 52 2 ≠ 3) (floatOp op) :=
  computes_of (bad := fun mi => modf mi 52 2 == 3) (F := fun mi a b c => (floatOp op mi a b c, 0)) hc
    (fun _ hfmt => beq_eq_false_iff_ne.2 hfmt) (fun _ _ _ _ => rfl)

theorem computes_double {c : Mi → Instr} {sh : Shape} (op : Rm → Nat → Nat → Nat → Nat)
    (hc : ∀ mi s, exec (c mi) s = .next (s.double sh mi op)) : Computes c (fun _ => sh.float) (fun mi => modf mi 52 2 = 0) (doubleOp op) :=
  computes_of (bad := fun mi => modf mi 52 2 != 0) (F := fun mi a b c => (doubleOp op mi a b c, 0)) hc
    (fun _ hfmt => bne_eq_false_iff_eq.2 hfmt) (fun _ _ _ _ => rfl)

/-- Settles O2: each instruction is `State.float` or `State.double` of its operation (`computes_float`, `computes_double`). -/
theorem floatResults : Obligations.FloatResults := by
  unfold Obligations.FloatResults
  refine ⟨⟨?fadd, ?fsub, ?fmul, ?ffma, ?fmin, ?fmax, ?fabs, ?fneg⟩, ?dadd, ?dsub, ?dmul, ?dfma, ?dmin, ?dmax⟩
  case fadd => exact computes_float (fun f rm a b _ => (fAdd f rm a b).1) fun _ _ => rfl
  case fsub => exact computes_float (fun f rm a b _ => (fSub f rm a b).1) fun _ _ => rfl
  case fmul => exact computes_float (fun f rm a b _ => (fMul f rm a b).1) fun _ _ => rfl
  case ffma => exact computes_float (fun f rm a b c => (fFma f rm a b c).1) fun _ _ => rfl
  case fmin => exact computes_float (fun f _ a b _ => fMin f a b) fun _ _ => rfl
  case fmax => exact computes_float (fun f _ a b _ => fMax f a b) fun _ _ => rfl
  case fabs => exact computes_float (fun f _ a _ _ => fAbs f a) fun _ _ => rfl
  case fneg => exact computes_float (fun f _ a _ _ => fNeg f a) fun _ _ => rfl
  case dadd => exact computes_double (fun rm a b _ => (fAdd fp64 rm a b).1) fun _ _ => rfl
  case dsub => exact computes_double (fun rm a b _ => (fSub fp64 rm a b).1) fun _ _ => rfl
  case dmul => exact computes_double (fun rm a b _ => (fMul fp64 rm a b).1) fun _ _ => rfl
  case dfma => exact computes_double (fun rm a b c => (fFma fp64 rm a b c).1) fun _ _ => rfl
  case dmin => exact computes_double (fun _ a b _ => fMin fp64 a b) fun _ _ => rfl
  case dmax => exact computes_double (fun _ a b _ => fMax fp64 a b) fun _ _ => rfl

end Sys2Proof.Machine
end

section
/-! ### Fences (R226, R263) -/

namespace Sys2Proof.Machine
open Sys2Proof.Machine.State

/-- An instruction that issues has its effect in a state that is `Arrived` and `Prepared`. -/
theorem issue_arrives {s : State} {sh : Shape} {mi : Mi} {i : Iss} {bad : Bool} {ready : Iss → Bool} {f : Iss → State → State}
    (h : Issues s sh mi i) (hb : bad = false) (hr : ready i = true) :
    ∃ s₁, Arrived s s₁ i ∧ Prepared s s₁ i ∧ s.issue sh mi bad ready f = (f i s₁).afterStep i.u i.k (s.grp i.u i.k).step := by
  obtain ⟨forced, he⟩ := issue_eq (f := f) h hb hr
  obtain ⟨hkeeps, hregs, hpc, -⟩ := atIssue_spec s sh mi i forced h.unit_lt
  exact ⟨_, ⟨hkeeps, hregs, hpc, sameStatus_atIssue ..⟩, prepared_atIssue s sh mi forced h.unit_lt, he⟩

/-- An acquire at a scope empties the L1 of its unit beyond unit scope and keeps its constant cache. -/
theorem acquire_unit (s : State) (u scope : Nat) :
    ((s.acquire u scope).unit u).l1 = (if scope = 0 then (s.unit u).l1 else []) ∧ ((s.acquire u scope).unit u).cc = (s.unit u).cc := by
  unfold State.acquire
  split
  · exact ⟨rfl, rfl⟩
  · have hunit : (s.dropL1 u).unit u = { s.unit u with l1 := [] } := setUnit_unit_same s u _
    rw [hunit]
    exact ⟨rfl, rfl⟩

theorem acquire_groups (s : State) (u scope : Nat) : (s.acquire u scope).groups = s.groups := by
  unfold State.acquire
  split <;> rfl

/-- Whether the operations that a fence at a scope orders have been performed, and at system scope every remote write of the unit accepted. -/
def State.fenceReady (s : State) (scope : Nat) (i : Iss) : Bool :=
  (s.busyLanes i.u i.k (fun o => o.hasResult || (scope != 0 && o.kind != .prefetch && (o.remote.isNone || scope == 5))) &&& i.exec) == 0
    && !(scope == 5 && s.opList.any (fun e => e.2.unit == i.u && e.2.remote.isSome && e.2.writes))

theorem exec_fence (s : State) (mi : Mi) :
    exec (.fenceInstruction mi) s = .next (s.issue shapeFence mi (decide (5 < memScope mi)) (s.fenceReady (memScope mi)) fun i s =>
      s.acquire i.u (memScope mi)) := rfl

theorem fenceReady_eq_true {s : State} {scope : Nat} {i : Iss}
    (hdone : (s.busyLanes i.u i.k (fun o => o.hasResult || (scope != 0 && o.kind != .prefetch && (o.remote.isNone || scope == 5))) &&& i.exec) = 0)
    (haccepted : scope = 5 → ∀ e ∈ s.opList, e.2.unit = i.u → e.2.remote.isSome = true → e.2.writes = false) : s.fenceReady scope i = true := by
  unfold State.fenceReady
  rw [hdone, beq_self_eq_true, Bool.true_and, Bool.not_eq_true', Bool.and_eq_false_imp]
  intro hscope
  refine List.any_eq_false.2 fun e he hwrites => ?_
  simp only [Bool.and_eq_true, beq_iff_eq] at hscope hwrites
  obtain ⟨⟨hunit, hremote⟩, hwrites⟩ := hwrites
  rw [haccepted hscope e he hunit hremote] at hwrites
  cases hwrites

/-- Settles O11: a fence that is ready is an acquire at its scope. -/
theorem fenceInstruction : Obligations.FenceInstruction := by
  unfold Obligations.FenceInstruction
  intro s mi i h hscope hdone haccepted
  obtain ⟨s₁, ha, -, he⟩ := issue_arrives (f := fun i s => s.acquire i.u (memScope mi)) h (decide_eq_false (Nat.not_lt.2 hscope))
    (fenceReady_eq_true hdone haccepted)
  refine ⟨_, (exec_fence s mi).trans (congrArg Host.Outcome.next he), ?_⟩
  have hframe : s₁.acquire i.u (memScope mi) = _ := wakes_acquire s₁ i.u (memScope mi)
  obtain ⟨hl1, hcc⟩ := acquire_unit s₁ i.u (memScope mi)
  have hafter := (afterStep_spec (s₁.acquire i.u (memScope mi)) i.u i.k (s.grp i.u i.k).step h.unit_lt).1
  refine ⟨advanced_of_groups ha h.unit_lt (acquire_groups ..) (fun a => ?_) _, ?_, ?_, ?_⟩
  · rw [hframe]
    rfl
  · rw [hafter.unit, hl1, ha.unit]
  · rw [hafter.unit, hcc, ha.unit]
  · rw [hafter.1, hframe, ha.keeps.1]
    exact ⟨rfl, rfl, rfl, rfl⟩

end Sys2Proof.Machine
end

section
/-! ### Counter instructions (R227) -/

namespace Sys2Proof.Machine
open Sys2Proof.Machine.State

/-! #### The issue of a counter instruction -/

/-- The counter that an instruction names in a lane. -/
def State.counterAt (s : State) (sh : Shape) (mi : Mi) (i : Iss) (l : Nat) : Nat := counterOf (opA sh mi (s.grp i.u i.k) ((s.grp i.u i.k).thr l))

/-- Operand b of an instruction in a lane. -/
def State.operandB (s : State) (sh : Shape) (mi : Mi) (i : Iss) (l : Nat) : Nat := opB sh mi (s.grp i.u i.k) ((s.grp i.u i.k).thr l)

/-- Whether some executing lane names a counter that its command may not use (R98). -/
def State.barred (s : State) (sh : Shape) (mi : Mi) (i : Iss) : Bool :=
  let g := s.grp i.u i.k
  (lanesOf i.exec).any (fun l => !s.mayCount g.part g.stream g.cmd (s.counterAt sh mi i l))

section
variable {s s₁ : State} {sh : Shape} {mi : Mi} {i : Iss}

theorem counterAt_same (h : SameRegs (s.grp i.u i.k) (s₁.grp i.u i.k)) : s₁.counterAt sh mi i = s.counterAt sh mi i :=
  funext fun l => congrArg counterOf (opA_same h sh mi l)

theorem operandB_same (h : SameRegs (s.grp i.u i.k) (s₁.grp i.u i.k)) : s₁.operandB sh mi i = s.operandB sh mi i :=
  funext fun l => opB_same h sh mi l

theorem counterFault_same (hk : Keeps s s₁) (h : SameRegs (s.grp i.u i.k) (s₁.grp i.u i.k)) :
    s₁.counterFault sh mi i = s.counterFault sh mi i := by
  have hreach : ∀ u c, s₁.reachesCounter u c = s.reachesCounter u c := fun u c => by
    rw [hk.1]
    rfl
  simp only [State.counterFault, opA_same h, hreach]

theorem barred_eq_false (hp : Prepared s s₁ i) (hmay : ∀ l, l < 32 → i.exec.testBit l = true →
      s.mayCount (s.grp i.u i.k).part (s.grp i.u i.k).stream (s.grp i.u i.k).cmd (s.counterAt sh mi i l) = true) :
    s₁.barred sh mi i = false := by
  have howner := hp.owner
  simp only [Grp.owner, Prod.mk.injEq] at howner
  obtain ⟨-, hpart, hstream, hcmd⟩ := howner
  refine List.any_eq_false.2 fun l hl => ?_
  obtain ⟨hl, hx⟩ := (mem_lanesOf _ _).1 hl
  rw [hpart, hstream, hcmd, mayCount_congr hp.strs, counterAt_same hp.regs, hmay l hl hx]
  exact Bool.false_ne_true

/-- A counter instruction whose operands pass their checks has its effect. -/
theorem counterIssue_arrives {bad : Bool} {f : Iss → State → State} (h : Issues s sh mi i) (hb : bad = false) (hacq : s.acquired i = true)
    (hfault : s.counterFault sh mi i = none) :
    ∃ s₁, Arrived s s₁ i ∧ Prepared s s₁ i ∧ s.counterIssue sh mi bad f = (f i s₁).afterStep i.u i.k (s.grp i.u i.k).step := by
  refine (issue_arrives h hb hacq).imp fun s₁ ⟨ha, hp, he⟩ => ⟨ha, hp, Eq.trans he ?_⟩
  rw [counterFault_same hp.keeps hp.regs, hfault]

end

/-! #### Each value once, in the order of its first lane -/

/-- The values of `f` on a list, each once. -/
def firstsOf {α β : Type} [BEq β] (f : α → β) (l : List α) : List β :=
  l.foldl (fun acc x => if acc.contains (f x) then acc else acc ++ [f x]) []

theorem firstsOf_concat {α β : Type} [BEq β] (f : α → β) (l : List α) (x : α) :
    firstsOf f (l ++ [x]) = if (firstsOf f l).contains (f x) then firstsOf f l else firstsOf f l ++ [f x] :=
  List.foldl_append ..

theorem mem_firstsOf {α β : Type} [BEq β] [LawfulBEq β] {f : α → β} {l : List α} {b : β} : b ∈ firstsOf f l ↔ ∃ x ∈ l, f x = b := by
  induction l using List.reverseRecOn generalizing b with
  | nil => simp [firstsOf]
  | append_singleton l x ih =>
    have hsplit : (∃ y ∈ l ++ [x], f y = b) ↔ b ∈ firstsOf f l ∨ b = f x := by simp [ih, or_and_right, exists_or, eq_comm]
    rw [hsplit, firstsOf_concat]
    split
    · next hx => exact ⟨.inl, fun hb => hb.elim id fun e => e ▸ List.contains_iff_mem.1 hx⟩
    · rw [List.mem_append, List.mem_singleton]

theorem nodup_firstsOf {α β : Type} [BEq β] [LawfulBEq β] (f : α → β) (l : List α) : (firstsOf f l).Nodup := by
  induction l using List.reverseRecOn with
  | nil => exact List.nodup_nil
  | append_singleton l x ih =>
    rw [firstsOf_concat]
    split
    · exact ih
    · next hx =>
      rw [← List.concat_eq_append, List.nodup_concat]
      exact ⟨fun hmem => hx (List.contains_iff_mem.2 hmem), ih⟩

/-! #### csig -/

/-- For each counter that lanes of a mask name, the amounts of those lanes in ascending order (R227). -/
def sigsOf (mask : Nat) (ctr : Nat → Nat) (amount : Nat → Int) : List (Nat × List (Nat × Int)) :=
  (firstsOf ctr (lanesOf mask)).map (fun c => (c, ((lanesOf mask).filter (fun l => ctr l == c)).map (fun l => (l, amount l))))

theorem pairwise_lanesOf (mask : Nat) : (lanesOf mask).Pairwise (· < ·) := List.pairwise_lt_range.filter _

theorem sigsOf_spec (mask : Nat) (ctr : Nat → Nat) (amount : Nat → Int) :
    ((sigsOf mask ctr amount).map Prod.fst).Nodup
      ∧ (∀ l, l < 32 → mask.testBit l = true → ∃ e ∈ sigsOf mask ctr amount, e.1 = ctr l ∧ (l, amount l) ∈ e.2)
      ∧ ∀ e ∈ sigsOf mask ctr amount, (e.2.map Prod.fst).Pairwise (· < ·)
          ∧ ∀ x ∈ e.2, mask.testBit x.1 = true ∧ ctr x.1 = e.1 ∧ x.2 = amount x.1 := by
  refine ⟨?_, fun l hl hx => ?_, fun e he => ?_⟩
  · rw [sigsOf, List.map_map]
    exact (List.map_id _).symm ▸ nodup_firstsOf ctr (lanesOf mask)
  · have hl : l ∈ lanesOf mask := (mem_lanesOf _ _).2 ⟨hl, hx⟩
    exact ⟨_, List.mem_map_of_mem (mem_firstsOf.2 ⟨l, hl, rfl⟩), rfl,
      List.mem_map_of_mem (List.mem_filter.2 ⟨hl, beq_self_eq_true _⟩)⟩
  · obtain ⟨c, -, rfl⟩ := List.mem_map.1 he
    refine ⟨?_, fun x hx => ?_⟩
    · rw [List.map_map]
      exact (List.map_id _).symm ▸ (pairwise_lanesOf mask).filter _
    · obtain ⟨l, hl, rfl⟩ := List.mem_map.1 hx
      obtain ⟨hl, hc⟩ := List.mem_filter.1 hl
      exact ⟨((mem_lanesOf _ _).1 hl).2, beq_iff_eq.1 hc, rfl⟩

/-- The message of a csig. -/
def State.csigMsg (s : State) (mi : Mi) (i : Iss) : CtrMsg :=
  let g := s.grp i.u i.k
  { sigs := sigsOf i.exec (s.counterAt shapeCsig mi i) (fun l => toSigned 32 (s.operandB shapeCsig mi i l)), wait := none, agent := i.u
    part := g.part, stream := g.stream, cmd := g.cmd, unit := i.u, slot := i.k, pc := i.pc, scope := memScope mi, seq := s.nextOp }

/-- The bank that a csig's message is sent to: that of its first counter. -/
def State.csigBank (s : State) (mi : Mi) (i : Iss) : Nat := (firstsOf (s.counterAt shapeCsig mi i) (lanesOf i.exec)).headD 0 / 4096

theorem exec_csig (s : State) (mi : Mi) :
    exec (.csig mi) s = .next (s.counterIssue shapeCsig mi (decide (4 < memScope mi)) fun i s =>
      let g := s.grp i.u i.k
      if s.barred shapeCsig mi i then s.stopLaunch g.part g.stream g.cmd 0x0102 else s.sendCtr (s.csigBank mi i) (s.csigMsg mi i)) := rfl

section
variable {s s₁ : State} {mi : Mi} {i : Iss}

theorem csigBank_same (h : SameRegs (s.grp i.u i.k) (s₁.grp i.u i.k)) : s₁.csigBank mi i = s.csigBank mi i := by
  rw [State.csigBank, counterAt_same h]
  rfl

theorem csigMsg_same (hp : Prepared s s₁ i) : s₁.csigMsg mi i = s.csigMsg mi i := by
  have howner := hp.owner
  simp only [Grp.owner, Prod.mk.injEq] at howner
  obtain ⟨-, hpart, hstream, hcmd⟩ := howner
  simp only [State.csigMsg, counterAt_same hp.regs, operandB_same hp.regs, hp.keeps.nextOp, hpart, hstream, hcmd]

theorem csig_sends (h : Issues s shapeCsig mi i) (hscope : memScope mi ≤ 4) (hacq : s.acquired i = true)
    (hfault : s.counterFault shapeCsig mi i = none) (hmay : ∀ l, l < 32 → i.exec.testBit l = true →
      s.mayCount (s.grp i.u i.k).part (s.grp i.u i.k).stream (s.grp i.u i.k).cmd (s.counterAt shapeCsig mi i l) = true) :
    Completes (.csig mi) s (fun t => Advanced s t i ∧ t.ctrs = s.ctrs ∧ t.fences = s.fences
      ∧ t.ctrQ = s.ctrQ.set [] (s.csigBank mi i) (s.ctrQ.get [] (s.csigBank mi i) ++ [s.csigMsg mi i])) := by
  rw [Completes, exec_csig]
  obtain ⟨s₁, ha, hp, he⟩ := counterIssue_arrives (f := _) h (decide_eq_false (Nat.not_lt.2 hscope)) hacq hfault
  refine ⟨_, congrArg Host.Outcome.next he, ?_⟩
  rw [barred_eq_false hp hmay, if_neg Bool.false_ne_true, csigBank_same hp.regs, csigMsg_same hp]
  have hafter := (afterStep_spec (s₁.sendCtr (s.csigBank mi i) (s.csigMsg mi i)) i.u i.k (s.grp i.u i.k).step h.unit_lt).1
  refine ⟨advanced_of_groups ha h.unit_lt (by rfl) (fun _ => by rfl) _, ?_⟩
  rw [hafter.1, hp.keeps.1]
  exact ⟨rfl, rfl, rfl⟩

end

/-! #### cwait -/

/-- What a lane of a cwait waits for: its counter and target. -/
def State.waitKey (s : State) (mi : Mi) (i : Iss) (l : Nat) : Nat × Nat := (s.counterAt shapeCwait mi i l, s.operandB shapeCwait mi i l)

/-- The wait of a lane: only the lowest one's result goes to a uniform destination (R206). -/
def State.laneWait (s : State) (mi : Mi) (i : Iss) (l : Nat) : CWait :=
  { region := (s.waitKey mi i l).1 / 4096, counter := (s.waitKey mi i l).1 % 4096, target := (s.waitKey mi i l).2, scope := memScope mi
    dst := if mi.udst && l != lowLane i.exec then 255 else mi.dst.toNat, udst := mi.udst && l == lowLane i.exec }

/-- The threads of a mask wait. -/
def Grp.await (g : Grp) (mask : Nat) (w : Nat → CWait) : Grp :=
  (lanesOf mask).foldl (fun g l => g.modThr l (fun t => { t with wait := some (w l) })) g

/-- The lanes of a mask where `f` is `k`. -/
def lanesWhere {β : Type} [BEq β] (mask : Nat) (f : Nat → β) (k : β) : Nat :=
  ((lanesOf mask).filter (fun l => f l == k)).foldl (fun a l => a ||| 2 ^ l) 0

/-- The message of the lanes of a cwait with one counter and target. -/
def State.waitMsg (s : State) (mi : Mi) (i : Iss) (k : Nat × Nat) (seq : Nat) : CtrMsg :=
  let g := s.grp i.u i.k
  let mask := lanesWhere i.exec (s.waitKey mi i) k
  { sigs := [], wait := some (k.1, { agent := i.u, detail := i.k + lowLane mask * 32, target := k.2, cmd := g.cmd, who := .thread i.u i.k mask })
    agent := i.u, part := g.part, stream := g.stream, cmd := g.cmd, unit := i.u, slot := i.k, pc := i.pc, scope := 0, seq := seq }

/-- The effect of a cwait: its threads wait, and one message leaves for each counter and target. -/
def State.awaitCounters (s : State) (mi : Mi) (i : Iss) : State :=
  (firstsOf (s.waitKey mi i) (lanesOf i.exec)).foldl (fun t k => t.sendCtr (k.1 / 4096) (s.waitMsg mi i k t.nextOp))
    (s.setGrp i.u i.k ((s.grp i.u i.k).await i.exec (s.laneWait mi i)))

theorem exec_cwait (s : State) (mi : Mi) :
    exec (.cwait mi) s = .next (s.counterIssue shapeCwait mi (decide (4 < memScope mi)) fun i s =>
      let g := s.grp i.u i.k
      if s.barred shapeCwait mi i then s.stopLaunch g.part g.stream g.cmd 0x0102 else s.awaitCounters mi i) := rfl

theorem Grp.thr_await (g : Grp) (mask : Nat) (w : Nat → CWait) (l : Nat) :
    (g.await mask w).thr l = if l ∈ lanesOf mask then { g.thr l with wait := some (w l) } else g.thr l :=
  Grp.thr_foldl (fun l t => { t with wait := some (w l) }) _ g l (nodup_lanesOf mask)

theorem Grp.pc_await (g : Grp) (mask : Nat) (w : Nat → CWait) (l : Nat) : ((g.await mask w).thr l).pc = (g.thr l).pc := by
  rw [Grp.thr_await]
  split <;> rfl

theorem Grp.sameRegs_await (g : Grp) (mask : Nat) (w : Nat → CWait) : SameRegs g (g.await mask w) := by
  refine ⟨fun l r => ?_, fun l r => ?_, Grp.getU_foldl (fun l t => { t with wait := some (w l) }) _ g⟩ <;>
  · rw [Grp.thr_await]
    split <;> rfl

theorem testBit_foldl_or (ls : List Nat) (n : Nat) : (ls.foldl (fun a l => a ||| 2 ^ l) 0).testBit n = true ↔ n ∈ ls := by
  induction ls using List.reverseRecOn with
  | nil => simp
  | append_singleton ls l ih =>
    rw [List.foldl_append, List.foldl_cons, List.foldl_nil, Nat.testBit_or, Nat.testBit_two_pow, Bool.or_eq_true, ih, decide_eq_true_eq, List.mem_append,
      List.mem_singleton, eq_comm (a := l)]

theorem testBit_lanesWhere {β : Type} [BEq β] [LawfulBEq β] (mask : Nat) (f : Nat → β) (k : β) {l : Nat} (hl : l < 32) :
    (lanesWhere mask f k).testBit l = true ↔ mask.testBit l = true ∧ f l = k := by
  rw [lanesWhere, testBit_foldl_or, List.mem_filter, mem_lanesOf, beq_iff_eq, and_iff_right hl]

/-- Messages sent one after the other change nothing but the queues, and each stands in its own. -/
theorem foldl_sendCtr {α : Type} (r : α → Nat) (m : State → α → CtrMsg) (l : List α) (s : State) :
    let t := l.foldl (fun s a => s.sendCtr (r a) (m s a)) s
    t = { s with ctrQ := t.ctrQ } ∧ ∀ a ∈ l, ∃ v, m v a ∈ t.ctrQ.get [] (r a) := by
  induction l using List.reverseRecOn with
  | nil => exact ⟨rfl, fun a ha => absurd ha List.not_mem_nil⟩
  | append_singleton l b ih =>
    rw [List.foldl_append]
    generalize l.foldl (fun s a => s.sendCtr (r a) (m s a)) s = t at ih
    obtain ⟨hframe, hsent⟩ := ih
    have hq : ∀ n, ((t.sendCtr (r b) (m t b)).ctrQ).get [] n = if r b = n then t.ctrQ.get [] (r b) ++ [m t b] else t.ctrQ.get [] n :=
      SMap.get_set [] t.ctrQ (r b) _
    refine ⟨by rw [List.foldl_cons, List.foldl_nil, State.sendCtr, hframe], fun a ha => ?_⟩
    rw [List.foldl_cons, List.foldl_nil, hq]
    rcases List.mem_append.1 ha with ha | ha
    · obtain ⟨v, hv⟩ := hsent a ha
      refine ⟨v, ?_⟩
      split
      · next e => exact List.mem_append_left _ (e ▸ hv)
      · exact hv
    · rw [List.mem_singleton.1 ha, if_pos rfl]
      exact ⟨t, List.mem_append_right _ (List.mem_singleton.2 rfl)⟩

/-- A halt behind a step leaves the threads of its group. -/
theorem thr_afterStep (s : State) {k : Nat} (hk : k < 32) (u : Nat) (b : Bool) (l : Nat) :
    ((s.afterStep u k b).grp u k).thr l = (s.grp u k).thr l := by
  unfold State.afterStep
  extract_lets g
  split
  · rfl
  · split
    · rfl
    · rw [debugHalt_grp _ _ _ _ _ _ hk, setGrp_grp_same]
      split <;> rfl

/-- As `advanced_of_groups`, for an effect that writes no register of its group and moves no PC. -/
theorem advanced_of_sameRegs {s s₁ t : State} {i : Iss} (h : Arrived s s₁ i) (hu : i.u < 132) (hr : SameRegs (s₁.grp i.u i.k) (t.grp i.u i.k))
    (hpc : ∀ l, ((t.grp i.u i.k).thr l).pc = ((s₁.grp i.u i.k).thr l).pc) (hpeek : ∀ a, t.peek a = s₁.peek a) (b : Bool) :
    Advanced s (t.afterStep i.u i.k b) i := by
  obtain ⟨hkeeps, hafter⟩ := afterStep_spec t i.u i.k b hu
  obtain ⟨hr', hpc'⟩ := hafter i.u i.k
  exact ⟨fun l hl => (hpc' l).trans ((hpc l).trans (h.pc l hl)), (h.regs.trans hr).trans hr',
    fun a => (hkeeps.peek a).trans ((hpeek a).trans (h.keeps.peek a))⟩

theorem waitKey_same {s s₁ : State} {mi : Mi} {i : Iss} (h : SameRegs (s.grp i.u i.k) (s₁.grp i.u i.k)) : s₁.waitKey mi i = s.waitKey mi i := by
  funext l
  rw [State.waitKey, counterAt_same h, operandB_same h]
  rfl

/-- Each executing lane waits for its counter and target, and a message for all lanes with both is under way. -/
theorem awaitCounters_spec (s : State) (mi : Mi) (i : Iss) :
    let t := s.awaitCounters mi i
    t = { s with groups := t.groups, ctrQ := t.ctrQ } ∧ t.grp i.u i.k = (s.grp i.u i.k).await i.exec (s.laneWait mi i)
      ∧ ∀ l ∈ lanesOf i.exec, ∃ seq, s.waitMsg mi i (s.waitKey mi i l) seq ∈ t.ctrQ.get [] ((s.waitKey mi i l).1 / 4096) := by
  intro t
  obtain ⟨hframe, hsent⟩ := foldl_sendCtr (fun k : Nat × Nat => k.1 / 4096) (fun t k => s.waitMsg mi i k t.nextOp)
    (firstsOf (s.waitKey mi i) (lanesOf i.exec)) (s.setGrp i.u i.k ((s.grp i.u i.k).await i.exec (s.laneWait mi i)))
  change t = _ at hframe
  refine ⟨by rw [hframe]; rfl, by rw [hframe]; exact setGrp_grp_same .., fun l hl => ?_⟩
  obtain ⟨v, hv⟩ := hsent _ (mem_firstsOf.2 ⟨l, hl, rfl⟩)
  exact ⟨_, hv⟩

theorem cwait_awaits {s : State} {mi : Mi} {i : Iss} (h : Issues s shapeCwait mi i) (hscope : memScope mi ≤ 4) (hacq : s.acquired i = true)
    (hfault : s.counterFault shapeCwait mi i = none) (hmay : ∀ l, l < 32 → i.exec.testBit l = true →
      s.mayCount (s.grp i.u i.k).part (s.grp i.u i.k).stream (s.grp i.u i.k).cmd (s.counterAt shapeCwait mi i l) = true) :
    Completes (.cwait mi) s (fun t => Advanced s t i ∧ t.ctrs = s.ctrs ∧ ∀ l, l < 32 → i.exec.testBit l = true →
      (∃ w, ((t.grp i.u i.k).thr l).wait = some w ∧ w.region = (s.waitKey mi i l).1 / 4096 ∧ w.counter = (s.waitKey mi i l).1 % 4096
        ∧ w.target = (s.waitKey mi i l).2)
      ∧ ∃ m ∈ t.ctrQ.get [] ((s.waitKey mi i l).1 / 4096), ∃ w lanes, m.wait = some ((s.waitKey mi i l).1, w) ∧ w.target = (s.waitKey mi i l).2
          ∧ w.who = .thread i.u i.k lanes
          ∧ ∀ l', l' < 32 → (lanes.testBit l' = true ↔ i.exec.testBit l' = true ∧ s.waitKey mi i l' = s.waitKey mi i l)) := by
  rw [Completes, exec_cwait]
  obtain ⟨s₁, ha, hp, he⟩ := counterIssue_arrives (f := _) h (decide_eq_false (Nat.not_lt.2 hscope)) hacq hfault
  refine ⟨_, congrArg Host.Outcome.next he, ?_⟩
  rw [barred_eq_false hp hmay, if_neg Bool.false_ne_true]
  obtain ⟨hframe, hgrp, hsent⟩ := awaitCounters_spec s₁ mi i
  have hafter := (afterStep_spec (s₁.awaitCounters mi i) i.u i.k (s.grp i.u i.k).step h.unit_lt).1
  have hkey := waitKey_same (mi := mi) hp.regs
  refine ⟨advanced_of_sameRegs ha h.unit_lt (hgrp ▸ Grp.sameRegs_await ..) (fun l => hgrp ▸ Grp.pc_await ..) (fun a => ?_) _, ?_, fun l hl hx => ?_⟩
  · rw [hframe]
    rfl
  · rw [hafter.1, hframe, hp.keeps.1]
  · have hmem : l ∈ lanesOf i.exec := (mem_lanesOf _ _).2 ⟨hl, hx⟩
    obtain ⟨seq, hseq⟩ := hsent l hmem
    have hq : ((s₁.awaitCounters mi i).afterStep i.u i.k (s.grp i.u i.k).step).ctrQ = (s₁.awaitCounters mi i).ctrQ := by rw [hafter.1]
    rw [thr_afterStep _ h.slot_lt, hgrp, Grp.thr_await, if_pos hmem, hq, ← hkey]
    exact ⟨⟨s₁.laneWait mi i l, rfl, rfl, rfl, rfl⟩,
      _, hseq, _, _, rfl, rfl, rfl, fun l' hl' => testBit_lanesWhere i.exec (s₁.waitKey mi i) _ hl'⟩

/-! #### cget -/

theorem cget_results : Results .cget (fun _ => shapeCget)
    (fun s mi i => memScope mi ≤ 4 ∧ s.acquired i = true ∧ s.counterFault shapeCget mi i = none) (fun s mi i l =>
      (s.ctr (s.counterAt shapeCget mi i l / 4096) (s.counterAt shapeCget mi i l % 4096)).value) := by
  rintro s mi i ⟨hscope, hacq, hfault⟩ h
  refine ⟨_, rfl, issue_wrote h (decide_eq_false (Nat.not_lt.2 hscope)) hacq fun s₁ ha => ?_⟩
  have hw := wrote_writeResults s₁ shapeCget mi h.exec_eq.2 fun g l =>
    ((s₁.ctr (counterOf (opA shapeCget mi g (g.thr l)) / 4096) (counterOf (opA shapeCget mi g (g.thr l)) % 4096)).value, 0)
  have hctr : ∀ r n, s₁.ctr r n = s.ctr r n := fun r n => by
    rw [ha.keeps.1]
    rfl
  dsimp only
  rw [counterFault_same ha.keeps ha.regs, hfault]
  rw [← counterAt_same ha.regs]
  simp only [← hctr]
  exact hw

/-- Settles O12: csig sends one message (`csig_sends`, `sigsOf_spec`), cwait one for each counter and target (`cwait_awaits`), and cget writes its
result (`cget_results`). -/
theorem counterInstructions : Obligations.CounterInstructions := by
  unfold Obligations.CounterInstructions
  refine ⟨fun s mi i h hscope hacq hfault hmay => ?_, fun s mi i h hscope hacq hfault hmay => cwait_awaits h hscope hacq hfault hmay, cget_results⟩
  obtain ⟨t, ht, hadv, hctrs, hfences, hq⟩ := csig_sends h hscope hacq hfault hmay
  exact ⟨t, ht, hadv, hctrs, hfences, _, _, hq, rfl, rfl, rfl, rfl, sigsOf_spec ..⟩

end Sys2Proof.Machine
end

section
/-! ### Arrivals at a counter bank (R271 to R274, R278) -/

namespace Sys2Proof.Machine
open Sys2Proof.Machine.State

/-! #### Signals -/

/-- A counter that a signal of amounts `l` has moved to `v`: one that leaves the value names no signaller (R278). -/
def Ctr.signalled (x : Ctr) (m : CtrMsg) (l : List (Nat × Int)) (v : Nat) : Ctr :=
  if v = x.value then x else { x with
    value := v, lastAgent := m.agent, lastAmount := ofSigned 32 (l.foldl (fun a y => a + y.2) 0), lastCmd := m.cmd }

theorem Ctr.signalled_eq (x : Ctr) (m : CtrMsg) (l : List (Nat × Int)) (v : Nat) : x.signalled m l v = { x with
    value := v
    lastAgent := if v = x.value then x.lastAgent else m.agent
    lastAmount := if v = x.value then x.lastAmount else ofSigned 32 (l.foldl (fun a y => a + y.2) 0)
    lastCmd := if v = x.value then x.lastCmd else m.cmd } := by
  unfold Ctr.signalled
  split
  · next h => rw [h]
  · rfl

section
variable {s : State} {m : CtrMsg} {c : Nat} {l : List (Nat × Int)} (hm : m.sigs = [(c, l)])
include hm

/-- A signal on one counter within its limits. -/
theorem applySigs_ok {v : Nat} (hv : applyAmounts (s.ctr (c / 4096) (c % 4096)).floor (s.ctr (c / 4096) (c % 4096)).ceil
      (s.ctr (c / 4096) (c % 4096)).value l = .ok v) :
    s.applySigs m = .ok (((s.setCtr (c / 4096) (c % 4096) ((s.ctr (c / 4096) (c % 4096)).signalled m l v)).bump
      (home .ctr (c / 4096) 0x200) 1).releaseCtr (c / 4096) (c % 4096)) := by
  simp [State.applySigs, hm, hv, Ctr.signalled]

/-- A signal on one counter that breaks a limit. -/
theorem applySigs_error {lane : Nat} {above : Bool} (hv : applyAmounts (s.ctr (c / 4096) (c % 4096)).floor (s.ctr (c / 4096) (c % 4096)).ceil
      (s.ctr (c / 4096) (c % 4096)).value l = .error (lane, above)) : s.applySigs m = .error (lane, above, c) := by
  simp [State.applySigs, hm, hv]

end

section
variable {s : State} {r : Fin 4} {k : Nat} {m : CtrMsg} (hq : (s.ctrQ.get [] r.val)[k]? = some m)
  (harrive : s.ctrMayArrive (s.ctrQ.get [] r.val) k m = true) (hkept : s.ctrDiscards m.part = false)
include hq harrive hkept

theorem exec_signal_applied {t : State} (hwait : m.wait = none) (ht : (s.dropCtr r.val k).applySigs m = .ok t) :
    exec (.counterSignalArrival r k) s = .next t := by
  have hkept' : (s.dropCtr r.val k).ctrDiscards m.part = false := hkept
  show execCounterSignalArrival r k s = _
  simp [execCounterSignalArrival, hq, hwait, harrive, hkept', ht]

theorem exec_signal_faults {lane c : Nat} {above : Bool} (hwait : m.wait = none)
    (herr : (s.dropCtr r.val k).applySigs m = .error (lane, above, c)) (hu : m.unit < 128) (hlive : (s.grp m.unit m.slot).live = true) :
    exec (.counterSignalArrival r k) s
      = .next ((s.dropCtr r.val k).threadFault m.unit m.slot (if above then 6 else 5) (2 ^ lane) m.pc 0 (c % 4096) (c / 4096)) := by
  have hkept' : (s.dropCtr r.val k).ctrDiscards m.part = false := hkept
  have hmay : (s.dropCtr r.val k).mayFault m.unit m.slot m.part m.cmd = true := Bool.or_eq_true_iff.2 (.inl hlive)
  show execCounterSignalArrival r k s = _
  simp [execCounterSignalArrival, hq, hwait, harrive, hkept', herr, hu, hmay]

omit hkept in
theorem exec_waitArrival {c : Nat} {w : Waiter} (hwait : m.wait = some (c, w)) :
    exec (.counterWaitArrival r k) s = .next ((s.dropCtr r.val k).ctrWait (c / 4096) (c % 4096) m.part w) := by
  show execCounterWaitArrival r k s = _
  simp [execCounterWaitArrival, hq, hwait, harrive]

end

theorem bump_setCtr (s : State) (r n : Nat) (c : Ctr) (a : RegAddr) (k : Nat) : (s.setCtr r n c).bump a k = (s.bump a k).setCtr r n c := by
  unfold State.bump
  split <;> rfl

theorem bump_ctr (s : State) (a : RegAddr) (k r n : Nat) : (s.bump a k).ctr r n = s.ctr r n := by rw [State.ctr, bump_ctrs, State.ctr]

/-- A counter's place is its own number. -/
theorem ctr_place (c : Nat) : c / 4096 * 4096 + c % 4096 = c := Nat.div_add_mod' c 4096

/-- A counter fault of a resident thread of a compute unit that had no fault record changes no counter (R191, R273). -/
theorem threadFault_counter {s : State} {u k kind mask pc n r : Nat} (hu : u < 128) (hlive : (s.grp u k).live = true) (hk : (s.unit u).fault.kind = 0) :
    let t := s.threadFault u k kind mask pc 0 n r
    t.ctrs = s.ctrs ∧ (t.unit u).fault.kind = kind ∧ (t.unit u).fault.code = faultCode kind ∧ (t.unit u).fault.lanes = mask
      ∧ (t.unit u).fault.counter = n ∧ (t.unit u).fault.region = r ∧ (t.grp u k).faulted = true := by
  have hp : s.partOfUnit u = some (s.partOfCluster (u / 4)) := if_pos hu
  unfold State.threadFault
  simp only [hp, hk, if_true, setUnit_grp, hlive, report_unit, report_grp, setGrp_unit, setUnit_unit_same, setGrp_grp_same, true_and]
  exact ⟨rfl, trivial⟩

/-! #### Waits -/

section
variable {s : State} {r n p : Nat} {w : Waiter} (hkept : s.ctrDiscards p = false)
include hkept

theorem ctrWait_joins (h : (s.ctr r n).value < w.target) : s.ctrWait r n p w
    = (s.bump (home .ctr r 0x208) 1).setCtr r n { s.ctr r n with waiters := (s.ctr r n).waiters ++ [w] } := by
  simp [State.ctrWait, hkept, Nat.not_le.2 h]

theorem ctrWait_released (h : w.target ≤ (s.ctr r n).value) :
    s.ctrWait r n p w = (s.bump (home .ctr r 0x208) 1).releaseWaiter p (s.ctr r n).value w := by
  simp [State.ctrWait, hkept, h]

end

/-- A waiting thread goes on with the value observed: unless its destination is uniform, the value is in its register. -/
def Thr.wake (value : Nat) (t : Thr) : Thr :=
  match t.wait with
  | none => t
  | some cw => { (if cw.udst then t else t.setG cw.dst value) with wait := none }

theorem Thr.wake_of_waits {t : Thr} {cw : CWait} (value : Nat) (hw : t.wait = some cw) (hud : cw.udst = false) (hd : cw.dst < 255) :
    (t.wake value).wait = none ∧ (t.wake value).getG cw.dst = value % 2 ^ 32 := by
  unfold Thr.wake
  rw [hw]
  refine ⟨rfl, ?_⟩
  dsimp only
  rw [hud, if_neg Bool.false_ne_true]
  exact (Thr.getG_setG t cw.dst value cw.dst hd).trans (if_pos rfl)

/-- The release of one lane of a group: its thread goes on and performs its acquire. -/
def State.wakeLane (u k lanes value : Nat) (s : State) (lane : Nat) : State :=
  let g := s.grp u k
  match (g.thr lane).wait with
  | none => s
  | some cw =>
    if !lanes.testBit lane then s else
    let g := if cw.udst then (g.setU cw.dst value).modThr lane (fun t => { t with wait := none })
             else g.modThr lane (fun t => { (t.setG cw.dst value) with wait := none })
    (s.setGrp u k g).acquire u cw.scope

theorem releaseWaiter_thread {s : State} {w : Waiter} {u k lanes : Nat} (h : w.who = .thread u k lanes) (p value : Nat) :
    s.releaseWaiter p value w = (List.range 32).foldl (State.wakeLane u k lanes value) s := by
  unfold State.releaseWaiter
  rw [h]
  rfl

theorem wakeLane_thr (u k lanes value : Nat) (s : State) (lane l : Nat) :
    ((s.wakeLane u k lanes value lane).grp u k).thr l
      = if lane = l ∧ lanes.testBit lane = true then ((s.grp u k).thr l).wake value else (s.grp u k).thr l := by
  unfold State.wakeLane
  extract_lets g
  split
  · next hw =>
    split
    · next h => rw [← h.1, Thr.wake, show ((s.grp u k).thr lane).wait = none from hw]
    · rfl
  · next cw hw =>
    by_cases hb : lanes.testBit lane = true
    · have hwake : (g.thr lane).wake value = { (if cw.udst then g.thr lane else (g.thr lane).setG cw.dst value) with wait := none } := by
        rw [Thr.wake, hw]
      simp only [hb, Bool.not_true, Bool.false_eq_true, if_false, and_true]
      rw [grp_congr (acquire_groups ..), setGrp_grp_same]
      by_cases hl : lane = l
      · subst hl
        rw [if_pos rfl, hwake]
        split <;> simp [Grp.thr_modThr]
      · rw [if_neg hl]
        split <;> simp [Grp.thr_modThr, hl, g]
    · simp [hb]

theorem wakeLanes_thr (u k lanes value : Nat) {ls : List Nat} (hn : ls.Nodup) (s : State) (l : Nat) :
    ((ls.foldl (State.wakeLane u k lanes value) s).grp u k).thr l
      = if l ∈ ls ∧ lanes.testBit l = true then ((s.grp u k).thr l).wake value else (s.grp u k).thr l := by
  induction ls generalizing s with
  | nil => simp
  | cons lane ls ih =>
    obtain ⟨hout, hn⟩ := List.nodup_cons.1 hn
    rw [List.foldl_cons, ih hn, wakeLane_thr]
    by_cases hl : lane = l
    · subst hl
      simp [hout]
    · simp [hl, Ne.symm hl]

/-- Settles O13: a message that arrives is applied (`applySigs_ok`, `ctrWait_joins`), faults its sender (`applySigs_error`), or is answered at once
(`ctrWait_released`). -/
theorem counterArrivals : Obligations.CounterArrivals := by
  unfold Obligations.CounterArrivals
  refine ⟨⟨?applied, ?faults⟩, ?joins, ?released⟩
  case applied =>
    intro s r k m c v l x hq hwait harrive hkept hm hv
    have hexec := exec_signal_applied hq harrive hkept hwait (applySigs_ok hm hv)
    rw [bump_setCtr] at hexec
    generalize hs' : (s.dropCtr r.val k).bump (home .ctr (c / 4096) 0x200) 1 = s' at hexec
    obtain ⟨t, ht, hctr, hothers, hfences, hmem⟩ := releaseCtr_setCtr s' (c / 4096) (c % 4096) (x.signalled m l v)
    have hwakes := wakes_releaseCtr (s'.setCtr (c / 4096) (c % 4096) (x.signalled m l v)) (c / 4096) (c % 4096)
    rw [ht] at hwakes
    refine ⟨t, hexec.trans (congrArg _ ht), ?_, ?_, fun a n hne => ?_, ?_, ?_, ?_⟩
    · rw [hctr, Ctr.signalled_eq]
    · rw [congrArg State.ctrQ hwakes, ← hs']
      exact (congrArg (SMap.get [] · r.val) (bump_ctrQ ..)).trans (SMap.get_set_same ..)
    · rw [hothers a n (by rwa [ctr_place]), ← hs', bump_ctr]
      rfl
    · rw [hfences, ← hs', bump_fences]
      rfl
    · rw [hmem, ← hs', bump_mem]
      rfl
    · rw [congrArg State.lines hwakes, ← hs']
      exact bump_lines ..
  case faults =>
    intro s r k m c lane above l x hq hwait harrive hkept hm hv hu hlive hk
    refine ⟨_, exec_signal_faults hq harrive hkept hwait (applySigs_error hm hv) hu hlive, ?_⟩
    obtain ⟨hctrs, hkind, hcode, hrest⟩ := threadFault_counter (s := s.dropCtr r.val k) (kind := if above then 6 else 5) (mask := 2 ^ lane)
      (pc := m.pc) (n := c % 4096) (r := c / 4096) hu hlive hk
    exact ⟨hctrs, hkind, hcode.trans (by cases above <;> rfl), hrest⟩
  case joins =>
    intro s r k m c w x hq hwait harrive hkept hlt
    have hjoins := ctrWait_joins (s := s.dropCtr r.val k) (r := c / 4096) (n := c % 4096) (w := w) hkept hlt
    refine ⟨_, (exec_waitArrival hq harrive hwait).trans (congrArg _ hjoins), setCtr_ctr_same .., fun a n hne => ?_, ?_, ?_⟩
    · rw [setCtr_ctr, ctr_place, if_neg hne.symm, bump_ctr]
      rfl
    · exact bump_groups ..
    · exact bump_mem ..
  case released =>
    intro s r k m c w u g lanes x hq hwait harrive hkept hle hwho
    have hreleased := ctrWait_released (s := s.dropCtr r.val k) (r := c / 4096) (n := c % 4096) (w := w) hkept hle
    have hwakes := wakes_releaseWaiter ((s.dropCtr r.val k).bump (home .ctr (c / 4096) 0x208) 1) m.part x.value w
    refine ⟨_, (exec_waitArrival hq harrive hwait).trans (congrArg _ hreleased), (congrArg State.ctrs hwakes).trans (bump_ctrs ..),
      (congrArg State.mem hwakes).trans (bump_mem ..), fun l cw hl hx hw hud hd => ?_⟩
    rw [releaseWaiter_thread hwho, wakeLanes_thr _ _ _ _ List.nodup_range, if_pos ⟨List.mem_range.2 hl, hx⟩, grp_congr (bump_groups ..)]
    exact Thr.wake_of_waits x.value hw hud hd

end Sys2Proof.Machine
end

section
/-! ### What a slice does with an operation that arrives (R237 to R244) -/

namespace Sys2Proof.Machine
open Sys2Proof.Machine.State

variable {s t u : State} {id : Nat} {o : MemOp}

/-! #### Bytes at a line of HBM -/

theorem SameHbm.peek (h : SameHbm s t) (a : Nat) : t.peek a = s.peek a := peek_congr h.lines (by rw [State.memByte, h.mem, State.memByte])

theorem SameHbm.peekNat (h : SameHbm s t) (a n : Nat) : t.peekNat a n = s.peekNat a n := by
  unfold State.peekNat State.peekBytes
  simp only [h.peek]

theorem sameHbm_bump (s : State) (a : RegAddr) (n : Nat) : SameHbm s (s.bump a n) := ⟨bump_lines .., bump_mem ..⟩

theorem line_congr (h : t.lines = s.lines) (a : Nat) : t.line a = s.line a := by rw [State.line, h, State.line]

/-- The line of an address after another line has been put in place. -/
theorem line_setLine (s : State) (a : Nat) (l : L2Line) (b : Nat) : (s.setLine a l).line b = if a / 128 = b / 128 then l else s.line b :=
  SMap.get_set ..

/-- A line that reads as before is put in place: no byte of memory reads differently. -/
theorem setLine_peek {a : Nat} {l : L2Line} (h : ∀ b, b / 128 = a / 128 → place b = .hbm →
      (if l.present && l.valid.testBit (b % 128) then (l.data[b % 128]?).getD 0 else s.memByte b) = s.peek b)
    (hp : place a = .hbm) (b : Nat) : (s.setLine a l).peek b = s.peek b := by
  by_cases hb : a / 128 = b / 128
  · have hbp : place b = .hbm := by rw [← place_line_hbm, ← hb, place_line_hbm, hp]
    rw [peek_hbm _ hbp, line_setLine, if_pos hb]
    exact h b hb.symm hbp
  · unfold State.peek
    simp only [line_setLine, if_neg hb]
    rfl

/-- The bits of a byte mask are its bytes. -/
theorem testBit_byteMask (a n i : Nat) : (byteMask a n).testBit i = (decide (a ≤ i) && decide (i < a + n)) := by
  rw [byteMask, Nat.testBit_shiftLeft, Nat.testBit_two_pow_sub_one]
  by_cases h : a ≤ i
  · simp only [h, decide_true, Bool.true_and, decide_eq_decide]
    omega
  · simp [h]

/-- Bytes written into a present line of HBM: they read as written, and every other byte as before (R237, R244). -/
theorem writeLine_peek {a : Nat} {l : List Byte} (hp : place a = .hbm) (hpres : (s.line a).present = true) (hfit : a % 128 + l.length ≤ 128) (b : Nat) :
    (s.writeLine a l).peek b = if a ≤ b ∧ b < a + l.length then (l[b - a]?).getD 0 else s.peek b := by
  by_cases hb : a / 128 = b / 128
  · have hbp : place b = .hbm := by rw [← place_line_hbm, ← hb, place_line_hbm, hp]
    have hline : s.line a = s.line b := by rw [State.line, State.line, hb]
    have hmem : (s.writeLine a l).memByte b = s.memByte b := rfl
    have hlt : b % 128 < 128 := Nat.mod_lt _ (by decide)
    rw [peek_hbm _ hbp, peek_hbm _ hbp, State.writeLine, line_setLine, if_pos hb, ← hline]
    simp only [hpres, Bool.true_and, Nat.testBit_or, testBit_byteMask, List.getElem?_map, List.getElem?_range hlt, Option.map_some, Option.getD_some,
      Bool.and_eq_true, decide_eq_true_eq, Bool.or_eq_true]
    by_cases hin : a ≤ b ∧ b < a + l.length
    · have hin' : a % 128 ≤ b % 128 ∧ b % 128 < a % 128 + l.length := by omega
      rw [if_pos (.inr hin'), if_pos hin', if_pos hin, show b % 128 - a % 128 = b - a by omega]
    · have hin' : ¬ (a % 128 ≤ b % 128 ∧ b % 128 < a % 128 + l.length) := by omega
      simp only [hin', or_false, if_neg hin, if_false]
      rfl
  · rw [if_neg (by omega)]
    unfold State.peek
    simp only [State.writeLine, line_setLine, if_neg hb]
    rfl

/-- Lanes' bytes written at their line of HBM, least significant first; beyond that no byte reads differently, and nothing else has changed but
lines, parked sequencers and the drawn values. -/
structure LineWritten (s t : State) (line : Nat) (ls : List LaneOp) (n : Nat) : Prop where
  frame : t = { s with free := t.free, strs := t.strs, lines := t.lines }
  present : (t.line line).present = true
  byte : ∀ x ∈ ls, ∀ j, j < n → t.peek (x.lpa + j) = BitVec.ofNat 8 (x.data >>> (8 * j))
  other : ∀ a, (∀ x ∈ ls, a < x.lpa ∨ x.lpa + n ≤ a) → t.peek a = s.peek a

theorem pokeLine_present {p a : Nat} (hp : place a = .hbm) (hpres : (s.line a).present = true) (l : List Byte) :
    s.pokeLine p a l = (s.wake a).writeLine a l := by
  have halloc : (s.wake a).allocLine p a = some (s.wake a) := if_pos hpres
  unfold State.pokeLine
  simp only [hp, halloc]

theorem lineWritten_putPoint {p line n : Nat} {x : LaneOp} (hp : place line = .hbm) (hpres : (s.line line).present = true)
    (hline : x.lpa / 128 * 128 = line) (hfit : x.lpa % 128 + n ≤ 128) : LineWritten s (s.putPoint p x.lpa (leBytes n x.data)) line [x] n := by
  have hxp : place x.lpa = .hbm := by rw [← place_line_hbm, hline, hp]
  have hxl : s.line x.lpa = s.line line := by rw [State.line, State.line, ← hline, Nat.mul_div_cancel _ (by decide)]
  have hxpres : (s.line x.lpa).present = true := hxl ▸ hpres
  have hpeek := writeLine_peek (s := s.wake x.lpa) (l := leBytes n x.data) hxp hxpres (by rwa [length_leBytes])
  rw [State.putPoint, pokeLine_present hxp hxpres]
  refine ⟨rfl, ?_, fun y hy j hj => ?_, fun a ha => ?_⟩
  · rw [← hline, State.writeLine, line_setLine, if_pos (by omega)]
    exact hxpres
  · obtain rfl := List.mem_singleton.1 hy
    rw [hpeek, if_pos (by rw [length_leBytes]; omega), Nat.add_sub_cancel_left, getElem?_leBytes hj, Option.getD_some]
  · have := ha x (List.mem_singleton_self x)
    rw [hpeek, if_neg (by rw [length_leBytes]; omega), wake_peek]

theorem LineWritten.append {line n : Nat} {ls ls' : List LaneOp} (h : LineWritten s t line ls n) (h' : LineWritten t u line ls' n)
    (hne : ∀ x ∈ ls, ∀ y ∈ ls', x.lpa + n ≤ y.lpa ∨ y.lpa + n ≤ x.lpa) : LineWritten s u line (ls ++ ls') n where
  frame := by
    have hf := h'.frame
    rw [h.frame] at hf
    exact hf
  present := h'.present
  byte x hx j hj := by
    rcases List.mem_append.1 hx with hx | hx
    · refine (h'.other _ fun y hy => ?_).trans (h.byte x hx j hj)
      have := hne x hx y hy
      omega
    · exact h'.byte x hx j hj
  other a ha := (h'.other a fun x hx => ha x (List.mem_append_right _ hx)).trans (h.other a fun x hx => ha x (List.mem_append_left _ hx))

/-- The lanes of a store to a present line of HBM, none of which meet, in any order. -/
theorem lineWritten_lanes {line n : Nat} (p : Nat) {ls : List LaneOp} (hp : place line = .hbm)
    (hin : ∀ x ∈ ls, x.lpa / 128 * 128 = line ∧ x.lpa % 128 + n ≤ 128)
    (hd : ls.Pairwise fun x y => x.lpa + n ≤ y.lpa ∨ y.lpa + n ≤ x.lpa) {s : State} (hpres : (s.line line).present = true) :
    LineWritten s (ls.foldl (fun s x => s.putPoint p x.lpa (leBytes n x.data)) s) line ls n := by
  induction ls generalizing s with
  | nil => exact ⟨rfl, hpres, fun x hx => absurd hx List.not_mem_nil, fun _ _ => rfl⟩
  | cons x ls ih =>
    obtain ⟨hx, hd⟩ := List.pairwise_cons.1 hd
    obtain ⟨hline, hfit⟩ := hin x List.mem_cons_self
    have h₁ := lineWritten_putPoint (p := p) hp hpres hline hfit
    exact h₁.append (ih (fun y hy => hin y (List.mem_cons_of_mem _ hy)) hd h₁.present) fun y hy z hz => List.mem_singleton.1 hy ▸ hx z hz

theorem doStore_eq (s : State) (id : Nat) (o : MemOp) : s.doStore id o =
    (((s.delOp id).storeLanes o).1.foldl (fun s x => s.putPoint o.part x.lpa (leBytes o.bytes x.data)) ((s.delOp id).storeLanes o).2).ownWrite
      o.unit o.line := rfl

/-- A store whose lanes lie apart in a present line of HBM (R244). -/
theorem doStore_hbm (id : Nat) (hd : DisjointLanes o) (hp : place o.line = .hbm) (hpres : (s.line o.line).present = true) :
    Stored s (s.doStore id o) o ∧ (s.doStore id o).op id = none := by
  obtain ⟨hperm, hframe⟩ := storeLanes_perm (s.delOp id) o
  have hpres' : (((s.delOp id).storeLanes o).2.line o.line).present = true := by rw [hframe]; exact hpres
  have h := lineWritten_lanes o.part hp (fun x hx => hd.1 x (hperm.mem_iff.1 hx)) (hperm.symm.pairwise hd.2 Or.symm) hpres'
  rw [doStore_eq]
  refine ⟨⟨fun x hx => h.byte x (hperm.mem_iff.2 hx), fun a ha => (h.other a fun x hx => ha x (hperm.mem_iff.1 hx)).trans ?_⟩, op_ownWrite ?_ _ _⟩
  · rw [hframe]; rfl
  · rw [h.frame, hframe]
    exact op_delOp s id

/-! #### Answers to loads -/

/-- What a cache keeps of a line changes units and drawn values alone (R187, R188). -/
theorem keepLine_frame (s : State) (o : MemOp) : s.keepLine o = { s with units := (s.keepLine o).units, free := (s.keepLine o).free } := by
  unfold State.keepLine State.installConst State.installL1
  dsimp only
  repeat' split
  all_goals rfl

/-- What ends an instruction leaves: one operation has gone, and no line and no byte has changed. -/
structure Served (s t : State) (id : Nat) : Prop extends SameHbm s t where
  op : t.op id = none

theorem served_threadFault {x : Nat} (h : x < 128) (k kind mask pc addr : Nat) (hop : s.op id = none) :
    Served s (s.threadFault x k kind mask pc addr) id := by
  unfold State.threadFault State.partOfUnit
  simp only [if_pos h]
  constructor
  · constructor <;> repeat' split
    all_goals rfl
  · repeat' split
    all_goals exact hop

theorem served_deliverOp (hop : s.op id = none) (o : MemOp) : Served s (s.deliverOp o) id := by
  rw [deliverOp_frame]
  exact ⟨⟨rfl, rfl⟩, hop⟩

theorem served_acquire (hop : s.op id = none) (x scope : Nat) : Served s (s.acquire x scope) id := by
  refine ⟨?_, op_acquire hop x scope⟩
  unfold State.acquire
  split <;> exact ⟨rfl, rfl⟩

theorem Served.trans (h : Served s t id) (h' : Served t u id) : Served s u id := ⟨h.toSameHbm.trans h'.toSameHbm, h'.op⟩

/-- The only operation of an instruction is answered: the instruction ends, whether it faults or not (R190). -/
theorem endInstr_served (hr : o.hasResult = true) (ha : o.answered = true) (hu : o.unit < 128)
    (honly : ∀ e ∈ s.opList, e.2.instr = o.instr → e.1 = id) : Served s ((s.setOp id o).endInstr o.instr) id := by
  obtain ⟨l, r, hl, hrest⟩ := opList_setOp s id o
  have hother : ∀ e ∈ l ++ r, ¬ (e.2.instr == o.instr && e.2.hasResult) = true := fun e he => by
    obtain ⟨hin, hne⟩ := hrest e he
    simp [mt (honly e hin) hne]
  have hmine : (s.setOp id o).opList.filter (fun e => e.2.instr == o.instr && e.2.hasResult) = [(id, o)] := by
    rw [hl, List.filter_append, List.filter_cons_of_pos (by simp [hr]),
      List.filter_eq_nil_iff.2 fun e he => hother e (List.mem_append_left _ he),
      List.filter_eq_nil_iff.2 fun e he => hother e (List.mem_append_right _ he)]
    rfl
  have hgone : Served s ((s.setOp id o).delOp id) id := ⟨⟨rfl, rfl⟩, op_delOp ..⟩
  unfold State.endInstr
  simp only [hmine, List.any_cons, List.any_nil, ha, Bool.not_true, Bool.or_false, Bool.false_eq_true, if_false, List.foldl_cons, List.foldl_nil,
    List.head?_cons]
  split
  next hn => exact absurd hn (Option.some_ne_none _)
  next h _ =>
    cases h
    split
    · exact hgone.trans (served_threadFault hu _ _ _ _ _ hgone.op)
    · exact hgone
  next h _ =>
    cases h
    have hdel := hgone.trans (served_deliverOp hgone.op o)
    split
    · exact hdel.trans (served_acquire hdel.op ..)
    · exact hdel

/-- A load is answered: it ends, from a line with poison or without (R190, R239). -/
theorem answerLoad_served (hr : o.hasResult = true) (hu : o.unit < 128) (honly : ∀ e ∈ s.opList, e.2.instr = o.instr → e.1 = id) :
    Served s (s.answerLoad id o) id := by
  have hend : ∀ t, SameHbm s t → t.ops = s.ops → ∀ f bad, Served s (t.performed id o f bad) id := fun t hst hops f bad => by
    have hlist : t.opList = s.opList := by rw [State.opList, hops, State.opList]
    have hserved : Served t (t.performed id o f bad) id := endInstr_served (by exact hr) rfl (by exact hu) (by rw [hlist]; exact honly)
    exact ⟨hst.trans hserved.toSameHbm, hserved.op⟩
  unfold State.answerLoad
  dsimp only
  split
  · exact hend _ ⟨by rw [keepLine_frame], by rw [keepLine_frame]⟩ (by rw [keepLine_frame]) ..
  · exact hend _ (sameHbm_bump ..) (bump_ops ..) ..
  · exact hend _ (sameHbm_bump ..) (bump_ops ..) ..
  · exact hend _ ⟨rfl, rfl⟩ rfl ..

/-- The conditions under which the answer of operation `o` ends its instruction and reaches its lanes' registers (R190). -/
structure Delivers (s : State) (id : Nat) (o : MemOp) : Prop where
  result : o.hasResult = true
  only : ∀ e ∈ s.opList, e.2.instr = o.instr → e.1 = id
  faults : o.faults = []
  live : (s.grp o.unit o.slot).live = true
  lanewise : o.udst = false
  dst : o.dst + (o.bytes + 3) / 4 ≤ 255
  lanes : (o.lanes.map LaneOp.lane).Nodup

theorem Answerable.delivers (h : Answerable s id o) (hr : o.hasResult = true) : Delivers s id o := by
  obtain ⟨-, honly, hfaults, hlive, hud, hd, hn, -⟩ := h
  exact ⟨hr, honly, hfaults, hlive, hud, hd, hn⟩

theorem Delivers.congr (h : Delivers s id o) (honly : ∀ e ∈ t.opList, e.2.instr = o.instr → e.1 = id) (hg : t.groups = s.groups) :
    Delivers t id o := { h with only := honly, live := by rw [grp_congr hg]; exact h.live }

/-- The values of an operation without faults reach its lanes' registers as it is performed; no line and no byte changes. -/
theorem Delivers.performed (h : Delivers s id o) (f : LaneOp → Nat) : Served s (s.performed id o f []) id
    ∧ ∀ x ∈ o.lanes, ∀ j, j < (o.bytes + 3) / 4 →
      (((s.performed id o f []).grp o.unit o.slot).thr x.lane).getG (o.dst + j) = bits (f x) (32 * j) 32 := by
  let o' : MemOp := { o with lanes := o.lanes.map (fun x => { x with data := f x }), answered := true, filling := false, queued := false }
  have he : s.performed id o f [] = (s.setOp id o').endInstr o'.instr := by
    unfold State.performed
    simp only [List.map_nil, List.append_nil]
    rfl
  have hend := endInstr_setOp_ended (s := s) (id := id) (o := o') h.result rfl h.faults h.only
  rw [he]
  refine ⟨⟨⟨by rw [hend.frame], by rw [hend.frame]⟩, hend.op⟩, fun x hx j hj => ?_⟩
  have hdst := h.dst
  have hdel := endInstr_setOp_delivered (s := s) (id := id) (o := o') h.result rfl h.faults h.only h.lanewise (by show o.dst ≠ 255; omega)
    (by simpa [o', List.map_map, Function.comp_def] using h.lanes) h.live
  have hlane := hdel.lane _ (List.mem_map_of_mem hx)
  rw [show o.unit = o'.unit from rfl, show o.slot = o'.slot from rfl, hlane, Thr.getG_setRegs _ _ _ _ _ (by show o.dst + j < 255; omega),
    if_pos (by show o.dst ≤ o.dst + j ∧ o.dst + j < o.dst + (o.bytes + 3) / 4; omega), show o'.dst = o.dst from rfl, Nat.add_sub_cancel_left]

/-- A load whose words hold no poison is answered with what its point holds, and ends (R239). -/
theorem answerLoad_loaded (h : Answerable s id o) (hr : o.hasResult = true) :
    Loaded s (s.answerLoad id o) o ∧ (s.answerLoad id o).op id = none := by
  have hd := h.delivers hr
  obtain ⟨-, -, -, -, -, -, -, hclean⟩ := h
  have hbad : s.poisonedLanes o = [] := List.filter_eq_nil_iff.2 fun x hx => by simp [hclean x hx]
  obtain ⟨t, ht, he⟩ : ∃ t : State, t = { s with units := t.units, free := t.free } ∧
      s.answerLoad id o = t.performed id o (fun x => extendLoad o.bytes o.signed (t.peekNat x.lpa o.bytes)) [] := by
    unfold State.answerLoad
    simp only [hbad]
    cases place o.line
    case hbm => exact ⟨_, keepLine_frame .., rfl⟩
    all_goals exact ⟨s, rfl, rfl⟩
  have hhbm : SameHbm s t := ⟨by rw [ht], by rw [ht]⟩
  have hlist : t.opList = s.opList := by rw [ht]; rfl
  obtain ⟨hserved, hregs⟩ := (hd.congr (t := t) (hlist ▸ hd.only) (by rw [ht])).performed
    (fun x => extendLoad o.bytes o.signed (t.peekNat x.lpa o.bytes))
  rw [he]
  refine ⟨⟨fun x hx j hj => ?_, (hhbm.trans hserved.toSameHbm).peek⟩, hserved.op⟩
  rw [hregs x hx j hj, hhbm.peekNat]

/-! #### Read-modify-writes -/

theorem present_of_hits (h : s.hits o = true) : (s.line o.line).present = true := (Bool.and_eq_true_iff.1 h).1

/-- An operation of one lane writes a number at its line of HBM. -/
theorem putPoint_number {p line n lpa : Nat} (v : Nat) (hp : place line = .hbm) (hpres : (s.line line).present = true)
    (hline : lpa / 128 * 128 = line) (hfit : lpa % 128 + n ≤ 128) :
    let t := s.putPoint p lpa (leBytes n v)
    t = { s with free := t.free, strs := t.strs, lines := t.lines } ∧ t.peekNat lpa n = v % 2 ^ (8 * n)
      ∧ ∀ a, a < lpa ∨ lpa + n ≤ a → t.peek a = s.peek a := by
  have h := lineWritten_putPoint (p := p) (x := { lane := 0, lpa := lpa, pa := 0, data := v, data2 := 0 }) hp hpres hline hfit
  exact ⟨h.frame, peekNat_of_bytes fun j hj => h.byte _ (List.mem_singleton_self _) j hj,
    fun a ha => h.other a fun x hx => List.mem_singleton.1 hx ▸ ha⟩

/-- The operations in flight after some have been changed. -/
theorem opList_mapOps (s : State) (f : MemOp → MemOp) :
    ({ s with ops := s.ops.map (fun e => (e.1, e.2.map f)) } : State).opList = s.opList.map (fun e => (e.1, f e.2)) := by
  unfold State.opList
  simp only [List.filterMap_map, List.map_filterMap]
  refine List.filterMap_congr fun e _ => ?_
  cases h : e.2 <;> simp [h]

theorem only_ownWrite {n : Nat} (h : ∀ e ∈ s.opList, e.2.instr = n → e.1 = id) (x line : Nat) :
    ∀ e ∈ (s.ownWrite x line).opList, e.2.instr = n → e.1 = id := by
  intro e he hn
  rw [State.ownWrite, opList_mapOps] at he
  obtain ⟨y, hy, rfl⟩ := List.mem_map.1 he
  refine h y hy (Eq.trans ?_ hn)
  dsimp only
  split <;> rfl

theorem sameHbm_ownWrite (s : State) (x line : Nat) : SameHbm s (s.ownWrite x line) := ⟨rfl, rfl⟩

/-- An atomic of one lane at a present line of HBM without poison (R186, R240). -/
theorem doAtomic_one {x : LaneOp} (hl : o.lanes = [x]) (hd : DisjointLanes o) (hdel : Delivers s id o) (hclean : s.poisonedIn x.lpa o.bytes = false)
    (hp : place o.line = .hbm) (hpres : (s.line o.line).present = true) :
    let found := s.peekNat x.lpa o.bytes
    let t := s.doAtomic id o
    t.peekNat x.lpa o.bytes = atomicStep o.aop o.aty found x.data x.data2 % 2 ^ (8 * o.bytes)
      ∧ (∀ j, j < (o.bytes + 3) / 4 → ((t.grp o.unit o.slot).thr x.lane).getG (o.dst + j) = bits found (32 * j) 32)
      ∧ (∀ a, a < x.lpa ∨ x.lpa + o.bytes ≤ a → t.peek a = s.peek a) ∧ t.op id = none := by
  intro found t
  have hx : x ∈ o.lanes := by rw [hl]; exact List.mem_singleton_self x
  obtain ⟨hline, hfit⟩ := hd.1 x hx
  obtain ⟨hframe, hnum, hother⟩ := putPoint_number (p := o.part) (atomicStep o.aop o.aty found x.data x.data2) hp hpres hline hfit
  have hbad : s.poisonedLanes o = [] := by simp [State.poisonedLanes, hl, hclean]
  have ht : t = (((s.putPoint o.part x.lpa (leBytes o.bytes (atomicStep o.aop o.aty found x.data x.data2))).ownWrite o.unit o.line).performed id o
      (fun y => ((([(x.lane, found)] : List (Nat × Nat)).find? (fun e => e.1 == y.lane)).map Prod.snd).getD 0) []) := by
    show s.doAtomic id o = _
    unfold State.doAtomic
    simp only [hbad, List.isEmpty_nil, Bool.not_true, Bool.false_eq_true, if_false]
    simp only [hl, List.foldl_cons, List.foldl_nil, List.nil_append]
    rfl
  generalize s.putPoint o.part x.lpa (leBytes o.bytes (atomicStep o.aop o.aty found x.data x.data2)) = u at hframe hnum hother ht
  have honly : ∀ e ∈ u.opList, e.2.instr = o.instr → e.1 = id := by rw [hframe]; exact hdel.only
  obtain ⟨hserved, hregs⟩ := (hdel.congr (t := u.ownWrite o.unit o.line) (only_ownWrite honly _ _)
    (by rw [hframe]; rfl)).performed (fun y => ((([(x.lane, found)] : List (Nat × Nat)).find? (fun e => e.1 == y.lane)).map Prod.snd).getD 0)
  have hsame := (sameHbm_ownWrite u o.unit o.line).trans hserved.toSameHbm
  rw [ht]
  refine ⟨(hsame.peekNat ..).trans hnum, fun j hj => ?_, fun a ha => (hsame.peek a).trans (hother a ha), hserved.op⟩
  rw [hregs x hx j hj]
  simp

theorem doAccum_lane {x : LaneOp} (hl : o.lanes = [x]) (hclean : s.poisonedIn x.lpa 4 = false) (hp : place o.line = .hbm) :
    ∃ v, SameHbm ((s.delOp id).putPoint o.part x.lpa (leBytes 4 (fAdd fp32 .rne (s.peekNat x.lpa 4) x.data).1)) v
      ∧ v.ops = ((s.delOp id).putPoint o.part x.lpa (leBytes 4 (fAdd fp32 .rne (s.peekNat x.lpa 4) x.data).1)).ops
      ∧ s.doAccum id o = v.ownWrite o.unit o.line := by
  have hclean' : (s.delOp id).poisonedIn x.lpa 4 = false := hclean
  have hfound : (s.delOp id).peekNat x.lpa 4 = s.peekNat x.lpa 4 := rfl
  unfold State.doAccum
  simp only [hl, List.foldl_cons, List.foldl_nil, List.any_cons, List.any_nil, hclean', Bool.or_false, Bool.false_eq_true, if_false, hp, if_true,
    hfound]
  refine ⟨_, ?_, ?_, rfl⟩
  · split
    · exact (sameHbm_bump ..).trans (sameHbm_bump ..)
    · exact sameHbm_bump ..
  · split
    · rw [bump_ops, bump_ops]
    · rw [bump_ops]

/-- An accumulate of one lane at a present line of HBM without poison (R241). -/
theorem doAccum_one {x : LaneOp} (hl : o.lanes = [x]) (hb : o.bytes = 4) (hd : DisjointLanes o) (hclean : s.poisonedIn x.lpa 4 = false)
    (hp : place o.line = .hbm) (hpres : (s.line o.line).present = true) :
    let t := s.doAccum id o
    t.peekNat x.lpa 4 = (fAdd fp32 .rne (s.peekNat x.lpa 4) x.data).1 % 2 ^ 32
      ∧ (∀ a, a < x.lpa ∨ x.lpa + 4 ≤ a → t.peek a = s.peek a) ∧ t.op id = none := by
  intro t
  obtain ⟨hline, hfit⟩ := hd.1 x (by rw [hl]; exact List.mem_singleton_self x)
  rw [hb] at hfit
  obtain ⟨hframe, hnum, hother⟩ := putPoint_number (s := s.delOp id) (p := o.part) (fAdd fp32 .rne (s.peekNat x.lpa 4) x.data).1 hp hpres hline hfit
  obtain ⟨v, hsame, hops, ht⟩ := doAccum_lane (s := s) (id := id) hl hclean hp
  generalize (s.delOp id).putPoint o.part x.lpa (leBytes 4 (fAdd fp32 .rne (s.peekNat x.lpa 4) x.data).1) = u at hframe hnum hother hsame hops
  have hend := hsame.trans (sameHbm_ownWrite v o.unit o.line)
  have hgone : v.op id = none := by
    rw [State.op, hops, hframe]
    exact op_delOp s id
  show (s.doAccum id o).peekNat x.lpa 4 = _ ∧ (∀ a, _ → (s.doAccum id o).peek a = s.peek a) ∧ (s.doAccum id o).op id = none
  rw [ht]
  exact ⟨(hend.peekNat ..).trans hnum, fun a ha => (hend.peek a).trans (hother a ha), op_ownWrite hgone ..⟩

/-! #### Allocation of a line -/

theorem sliceOf_congr (h : t.pkg = s.pkg) (a : Nat) : t.sliceOf a = s.sliceOf a := by
  unfold State.sliceOf State.nParts
  rw [h]

theorem setLines_congr (hl : t.lines = s.lines) (hp : t.pkg = s.pkg) (slice set : Nat) : t.setLines slice set = s.setLines slice set := by
  unfold State.setLines
  simp only [hl, sliceOf_congr hp]

theorem victims_congr (hl : t.lines = s.lines) (hs : t.slices = s.slices) (slice p : Nat) (l : List Nat) :
    t.victims slice p l = s.victims slice p l := by
  unfold State.victims State.wayTarget
  simp only [hl, hs]

/-- A step that leaves the lines of the slices and the slices' own records. -/
structure KeepsLines (s t : State) : Prop where
  lines : t.lines = s.lines
  slices : t.slices = s.slices

theorem KeepsLines.refl (s : State) : KeepsLines s s := ⟨rfl, rfl⟩

theorem KeepsLines.trans (h : KeepsLines s t) (h' : KeepsLines t u) : KeepsLines s u := ⟨h'.lines.trans h.lines, h'.slices.trans h.slices⟩

theorem KeepsLines.foldl {α : Type} {f : State → α → State} (hf : ∀ s a, KeepsLines s (f s a)) (l : List α) (s : State) : KeepsLines s (l.foldl f s) :=
  State.foldl_keeps (KeepsLines s) f (fun t a h => h.trans (hf t a)) l s (.refl s)

theorem keepsLines_bump (s : State) (a : RegAddr) (n : Nat) : KeepsLines s (s.bump a n) := ⟨bump_lines .., bump_slices ..⟩

/-- What the reads of memory's words find (R250): poison, counts and events; no line and no byte changes. -/
structure Found (s t : State) : Prop extends KeepsLines s t where
  mem : t.mem = s.mem

theorem Found.refl (s : State) : Found s s := ⟨.refl s, rfl⟩

theorem Found.trans (h : Found s t) (h' : Found t u) : Found s u := ⟨h.toKeepsLines.trans h'.toKeepsLines, h'.mem.trans h.mem⟩

theorem Found.foldl {α : Type} {f : State → α → State} (hf : ∀ s a, Found s (f s a)) (l : List α) (s : State) : Found s (l.foldl f s) :=
  State.foldl_keeps (Found s) f (fun t a h => h.trans (hf t a)) l s (.refl s)

theorem Found.hbm (h : Found s t) : SameHbm s t := ⟨h.lines, h.mem⟩

theorem found_bump (s : State) (a : RegAddr) (n : Nat) : Found s (s.bump a n) := ⟨keepsLines_bump .., bump_mem ..⟩

theorem found_setReg (s : State) (a : RegAddr) (v : Nat) : Found s (s.setReg a v) := ⟨⟨rfl, rfl⟩, rfl⟩

theorem found_poison (s : State) (m : SMap Bool) : Found s { s with poison := m } := ⟨⟨rfl, rfl⟩, rfl⟩

theorem found_free (s : State) (n : Nat) : Found s { s with free := n } := ⟨⟨rfl, rfl⟩, rfl⟩

theorem found_post (s : State) (p c code st i d0 d1 : Nat) (w : Bool) : Found s (s.post p c code st i d0 d1 w) := by
  have h := (noted_post (p := 0) s p c code st i d0 d1 w).frame
  exact ⟨⟨by rw [h], by rw [h]⟩, by rw [h]⟩

theorem found_hbmFound (s : State) (lpa : Nat) (e : Ecc) : Found s (s.hbmFound lpa e) := by
  unfold State.hbmFound
  refine (found_bump s _ _).trans (.foldl (fun t w => ?_) _ _)
  split
  · exact ((found_poison t _).trans (found_bump ..)).trans (found_setReg ..)
  · exact .refl t

theorem found_postPoison (s : State) (line : Nat) (ws : List Nat) : Found s (s.postPoison line ws) := .foldl (fun _ _ => found_post ..) _ _

theorem found_rmwFound (s : State) (lpa words : Nat) : Found s (s.rmwFound lpa words) := by
  unfold State.rmwFound
  split
  · exact .refl s
  · exact (found_free s _).trans ((found_hbmFound ..).trans (found_postPoison ..))

/-- A write-back changes memory, not the line (R237). -/
theorem writeBack_keepsLines (s : State) (a : Nat) : KeepsLines s (s.writeBack a) := by
  unfold State.writeBack
  extract_lets b l slice drop touched inPart s₁ s₂ s₃ s₄
  have h₁ : KeepsLines s s₁ := by
    simp only [s₁]
    split
    · exact (found_rmwFound ..).toKeepsLines
    · exact .refl s
  have h₂ : KeepsLines s₁ s₂ := .foldl (fun t i => by split <;> exact ⟨rfl, rfl⟩) _ _
  have h₃ : KeepsLines s₂ s₃ := .foldl (fun t w => by split <;> exact ⟨rfl, rfl⟩) _ _
  have h₄ : KeepsLines s₃ s₄ := by
    simp only [s₄]
    split
    · exact (keepsLines_bump ..).trans (keepsLines_bump ..)
    · exact keepsLines_bump ..
    · exact .refl s₃
  split
  · exact .refl s
  · split
    · exact keepsLines_bump ..
    · exact (((h₁.trans h₂).trans h₃).trans h₄).trans (keepsLines_bump ..)

theorem evict_lines (s : State) (a : Nat) : (s.evict a).lines = s.lines.set {} (a / 128) {} := by
  rw [State.evict, State.setLine, (writeBack_keepsLines s a).lines]

theorem evict_slices (s : State) (a : Nat) : (s.evict a).slices = s.slices := (writeBack_keepsLines s a).slices

theorem evict_pkg (s : State) (a : Nat) : (s.evict a).pkg = s.pkg := by
  have h := loads_evict s a
  rw [Loads] at h
  rw [h]

/-- The lines with a fresh one depend on the lines, the slices and the layout alone. -/
theorem freshLine_lines_congr (hl : t.lines = s.lines) (hs : t.slices = s.slices) (hp : t.pkg = s.pkg) (p a : Nat) :
    (t.freshLine p a).lines = (s.freshLine p a).lines := by
  unfold State.freshLine State.setLine
  simp only [hl, hs, sliceOf_congr hp]

/-- What is allocated depends on the lines, the slices, the layout and the drawn value alone. -/
theorem allocLine_congr {p a : Nat} {s' : State} (hl : t.lines = s.lines) (hs : t.slices = s.slices) (hp : t.pkg = s.pkg) (hf : t.free = s.free)
    (h : s.allocLine p a = some s') : ∃ t', t.allocLine p a = some t' ∧ t'.lines = s'.lines := by
  unfold State.allocLine at h ⊢
  simp only [line_congr hl, sliceOf_congr hp, setLines_congr hl hp, victims_congr hl hs, State.draw, hf] at h ⊢
  split at h
  next hpres =>
    rw [if_pos hpres]
    exact ⟨t, rfl, by rw [← Option.some.inj h, hl]⟩
  next habsent =>
    rw [if_neg habsent]
    split at h
    next hroom =>
      rw [if_pos hroom]
      exact ⟨_, rfl, by rw [← Option.some.inj h, freshLine_lines_congr hl hs hp]⟩
    next hfull =>
      rw [if_neg hfull]
      generalize s.victims (s.sliceOf a).1 p (s.setLines (s.sliceOf a).1 (s.sliceOf a).2) = vs at h
      cases vs with
      | nil => cases h
      | cons v vs =>
        refine ⟨_, rfl, ?_⟩
        rw [← Option.some.inj h]
        refine freshLine_lines_congr ?_ ?_ ?_ ..
        · rw [evict_lines, evict_lines, hl]
        · rw [evict_slices, evict_slices]
          exact hs
        · rw [evict_pkg, evict_pkg]
          exact hp

/-- A line may be allocated where it is present, its set has room or one of its lines may leave (R240). -/
theorem allocLine_isSome (s : State) (p a : Nat) : (s.allocLine p a).isSome = ((s.line a).present
    || decide ((s.setLines (s.sliceOf a).1 (s.sliceOf a).2).length < 16)
    || !(s.victims (s.sliceOf a).1 p (s.setLines (s.sliceOf a).1 (s.sliceOf a).2)).isEmpty) := by
  unfold State.allocLine
  by_cases hpres : (s.line a).present = true
  · simp [hpres]
  by_cases hroom : (s.setLines (s.sliceOf a).1 (s.sliceOf a).2).length < 16
  · simp [hpres, hroom]
  simp only [hpres, hroom, if_false, Bool.false_or, decide_false]
  cases s.victims (s.sliceOf a).1 p (s.setLines (s.sliceOf a).1 (s.sliceOf a).2) <;> simp

theorem allocLine_isSome_congr (hl : t.lines = s.lines) (hs : t.slices = s.slices) (hp : t.pkg = s.pkg) (p a : Nat) :
    (t.allocLine p a).isSome = (s.allocLine p a).isSome := by
  rw [allocLine_isSome, allocLine_isSome, line_congr hl, sliceOf_congr hp, setLines_congr hl hp, victims_congr hl hs]

theorem noteMiss_lines (s : State) (p line : Nat) : (s.noteMiss p line).lines = s.lines := by
  unfold State.noteMiss
  extract_lets slice s₁ x
  split
  · exact bump_lines ..
  · rfl

/-! #### Fills -/

/-- A fill of a line of HBM: the line is whole, keeps its lock, and no byte reads differently (R239). -/
theorem fillLine_spec {a : Nat} (hp : place a = .hbm) (hpres : (s.line a).present = true) :
    ((s.fillLine a).line a).valid = 2 ^ 128 - 1 ∧ ((s.fillLine a).line a).present = true ∧ ((s.fillLine a).line a).lock = (s.line a).lock
      ∧ (s.fillLine a).ops = s.ops ∧ ∀ b, (s.fillLine a).peek b = s.peek b := by
  have hbase : place (a / 128 * 128) = .hbm := (place_line_hbm a).2 hp
  have hline : s.line (a / 128 * 128) = s.line a := by rw [State.line, State.line, Nat.mul_div_cancel _ (by decide)]
  obtain ⟨poison, n, h⟩ : ∃ poison n, s.fillLine a = (s.setLine (a / 128 * 128) { s.line a with
      valid := 2 ^ 128 - 1, poison := poison
      data := (List.range 128).map fun i => if (s.line a).valid.testBit i then ((s.line a).data[i]?).getD 0 else s.memByte (a / 128 * 128 + i) }).bump
        (home .hbm n 0x110) 128 := by
    unfold State.fillLine
    simp only [hbase, hline, hpres, Bool.not_true, Bool.false_eq_true, if_false]
    exact ⟨_, _, rfl⟩
  rw [h]
  simp only [line_congr (bump_lines ..), bump_ops, setLine_ops, bump_peek]
  have hsame : a / 128 * 128 / 128 = a / 128 := Nat.mul_div_cancel _ (by decide)
  simp only [line_setLine, hsame, if_true, hpres, true_and]
  refine fun b => setLine_peek (fun c hc hcp => ?_) hbase b
  rw [hsame] at hc
  have hlt : c % 128 < 128 := Nat.mod_lt _ (by decide)
  have hcline : s.line c = s.line a := by rw [State.line, State.line, hc]
  rw [peek_hbm _ hcp, hcline, hpres]
  simp only [Nat.testBit_two_pow_sub_one, hlt, decide_true, Bool.and_self, if_true, List.getElem?_map, List.getElem?_range hlt, Option.map_some,
    Option.getD_some, Bool.true_and]
  rw [show a / 128 * 128 + c % 128 = c by omega]

/-- What the ECC of HBM finds changes no line and no byte. -/
theorem found_eccFound {line : Nat} (hp : place line = .hbm) (e : Ecc) : Found s (s.eccFound line e) := by
  unfold State.eccFound
  simp only [hp]
  exact (found_hbmFound ..).trans (found_postPoison ..)

theorem eccFound_ops (s : State) (line : Nat) (e : Ecc) : (s.eccFound line e).ops = s.ops := by
  have h := loads_eccFound s line e
  rw [Loads] at h
  rw [h]

/-- A fill returns to a load at an unlocked line of HBM: the line is whole and the load ends (R239). -/
theorem fillReturn_load (hk : o.kind = .load) (hu : o.unit < 128) (hpres : (s.line o.line).present = true) (hlock : (s.line o.line).lock = none)
    (hp : place o.line = .hbm) (honly : ∀ x ∈ s.opList, x.2.instr = o.instr → x.1 = id) (e : Ecc) :
    let t := s.fillReturn id o e
    (t.line o.line).valid = 2 ^ 128 - 1 ∧ t.op id = none ∧ ∀ a, t.peek a = s.peek a := by
  intro t
  have hfound := found_eccFound (s := s) hp e
  have hops := eccFound_ops s o.line e
  have hline := line_congr hfound.lines o.line
  obtain ⟨hvalid, -, hunlocked, hfops, hpeek⟩ := fillLine_spec (s := s.eccFound o.line e) hp (by rw [hline]; exact hpres)
  have ht : t = (((s.eccFound o.line e).fillLine o.line).answerLoad id { o with filling := false }) := by
    have halloc : s.allocLine o.part o.line = some s := if_pos hpres
    have hfree : ¬ (((s.eccFound o.line e).fillLine o.line).line o.line).lock = some id := by simp [hunlocked, hline, hlock]
    show s.fillReturn id o e = _
    unfold State.fillReturn State.performAtLine
    simp only [halloc, hfree, if_false, hk]
  have hserved := answerLoad_served (s := (s.eccFound o.line e).fillLine o.line) (id := id) (o := { o with filling := false })
    (by simp [MemOp.hasResult, hk]) hu (by rw [State.opList, hfops, hops]; exact honly)
  rw [ht]
  refine ⟨?_, hserved.op, fun a => (hserved.toSameHbm.peek a).trans ((hpeek a).trans (hfound.hbm.peek a))⟩
  rw [line_congr hserved.lines]
  exact hvalid

/-! #### The operation whose turn it is -/

theorem arriving_kind {f : OpKind → Bool} (h : s.arriving id f = some o) : f o.kind = true := by
  unfold State.arriving at h
  split at h
  · split at h
    next hc =>
      cases h
      exact (Bool.and_eq_true_iff.1 (Bool.and_eq_true_iff.1 hc).1).1
    next => cases h
  · cases h

/-- What the service of a request by its slice leaves (R427): all but the shares. -/
structure Queued (s u : State) : Prop where
  frame : u = { s with shares := u.shares }

theorem memServed_queued (s : State) (slice : Nat) : Queued s (s.memServed slice) := by
  unfold State.memServed
  split <;> exact ⟨rfl⟩

theorem Queued.hbm (h : Queued s u) : SameHbm s u := ⟨by rw [h.frame], by rw [h.frame]⟩

theorem Queued.line (h : Queued s u) (a : Nat) : u.line a = s.line a := line_congr h.hbm.lines a

theorem Queued.hits (h : Queued s u) (o : MemOp) : u.hits o = s.hits o := by
  unfold State.hits
  rw [h.line]

theorem Queued.pkg (h : Queued s u) : u.pkg = s.pkg := by rw [h.frame]

theorem Queued.opList (h : Queued s u) : u.opList = s.opList := by
  rw [h.frame]
  rfl

theorem Queued.missBusy (h : Queued s u) (o : MemOp) : u.missBusy (u.sliceOf o.line).1 = s.missBusy (s.sliceOf o.line).1 := by
  unfold State.missBusy
  simp only [h.opList, sliceOf_congr h.pkg]

theorem Queued.poisonedAt (h : Queued s u) (a : Nat) : u.poisonedAt a = s.poisonedAt a := by
  rw [h.frame]
  rfl

theorem Queued.answerable (h : Queued s u) (hans : Answerable s id o) : Answerable u id o := by
  obtain ⟨hop, honly, hf, hlive, hud, hd, hn, hclean⟩ := hans
  refine ⟨by rw [h.frame]; exact hop, by rw [h.opList]; exact honly, hf, by rw [grp_congr (by rw [h.frame])]; exact hlive, hud, hd, hn, fun x hx => ?_⟩
  simpa only [State.poisonedIn, h.poisonedAt] using hclean x hx

theorem Queued.alloc (h : Queued s u) {s' : State} (halloc : s.allocLine o.part o.line = some s') :
    ∃ u', u.allocLine o.part o.line = some u' ∧ u'.lines = s'.lines :=
  allocLine_congr h.hbm.lines (by rw [h.frame]) h.pkg (by rw [h.frame]) halloc

/-- The operation whose turn it is meets the slice behind its queue. -/
theorem atSlices_arriving {f : OpKind → Bool} (h : s.arriving id f = some o) (g : MemOp → State → State) :
    ∃ u, Queued s u ∧ s.atSlices id f g = g o u := by
  refine ⟨_, memServed_queued s (s.sliceOf o.line).1, ?_⟩
  unfold State.atSlices
  rw [h]

theorem sliceLoad_hit (hlock : (s.line o.line).lock = none) (hhit : s.hits o = true) :
    s.sliceLoad id o = (s.bump (pages .slc o.part (s.sliceOf o.line).1 0x100) 1).answerLoad id o := by
  unfold State.sliceLoad
  simp [hlock, hhit]

theorem op_setOp (s : State) (id : Nat) (o : MemOp) : (s.setOp id o).op id = some o := SMap.get_set_same none s.ops id (some o)

/-- A load that misses allocates its line and waits for the fill (R239). -/
theorem sliceLoad_miss {s' : State} (hlock : (s.line o.line).lock = none) (hhit : s.hits o = false) (hfree : s.missBusy (s.sliceOf o.line).1 < 64)
    (halloc : s.allocLine o.part o.line = some s') :
    (s.sliceLoad id o).op id = some { o with filling := true } ∧ (s.sliceLoad id o).lines = s'.lines := by
  unfold State.sliceLoad
  simp only [hlock, Option.isSome_none, Bool.false_eq_true, if_false, hhit, if_neg (Nat.not_le.2 hfree), halloc]
  refine ⟨op_setOp .., ?_⟩
  show State.lines (if _ then _ else _) = _
  split
  · rw [bump_lines, noteMiss_lines, bump_lines]
  · rw [noteMiss_lines, bump_lines]

/-- A load's answer does not depend on the hit that was counted. -/
theorem Answerable.bump (h : Answerable s id o) {a : RegAddr} (ha : a.off % 2 ^ 24 ≠ 0x10) (n : Nat) : Answerable (s.bump a n) id o := by
  obtain ⟨hop, honly, hf, hlive, hud, hd, hn, hclean⟩ := h
  refine ⟨by rw [State.op, bump_ops]; exact hop, by rw [State.opList, bump_ops]; exact honly, hf, by rw [grp_congr (bump_groups ..)]; exact hlive, hud,
    hd, hn, fun x hx => Eq.trans ?_ (hclean x hx)⟩
  have hup (c : Nat) : (s.bump a n).cxlUp c = s.cxlUp c := by
    unfold State.cxlUp
    rw [bump_reg_ne s a (home .pcx c 0x10) n (regKey_ne_of_off ha)]
  unfold State.poisonedIn State.poisonedAt State.cxlDown
  simp only [line_congr (bump_lines ..), bump_poison, bump_cpoison, hup]

/-- A store that finds its line present and unlocked is performed (R244). -/
theorem sliceStore_present (hlock : (s.line o.line).lock = none) (hpres : (s.line o.line).present = true) : s.sliceStore id o = s.doStore id o := by
  have halloc : s.allocLine o.part o.line = some s := if_pos hpres
  unfold State.sliceStore
  simp [hlock, halloc]

/-- A read-modify-write that finds what it needs is performed at once (R240). -/
theorem sliceRmw_hit (hlock : (s.line o.line).lock = none) (hhit : s.hits o = true) : s.sliceRmw id o = s.performAtLine id o := by
  unfold State.sliceRmw
  simp [hlock, hhit]

theorem performAtLine_atomic (hk : o.kind = .atomic) :
    s.performAtLine id o = (s.bump (pages .slc o.part (s.sliceOf o.line).1 0x120) 1).doAtomic id o := by
  unfold State.performAtLine
  rw [hk]

theorem performAtLine_accum (hk : o.kind = .accum) : s.performAtLine id o = s.doAccum id o := by
  unfold State.performAtLine
  rw [hk]

theorem exec_sliceLoad (id : Nat) (s : State) :
    exec (.sliceLoad (.op id)) s = .next (s.atSlices id (fun k => k == .load || k == .const) (fun o s => s.sliceLoad id o)) := rfl

theorem exec_sliceStore (id : Nat) (s : State) :
    exec (.sliceStore id) s = .next (s.atSlices id (fun k => k == .store) (fun o s => s.sliceStore id o)) := rfl

theorem exec_sliceAtomic (id : Nat) (s : State) :
    exec (.sliceAtomic id) s = .next (s.atSlices id (fun k => k == .atomic) (fun o s => s.sliceRmw id o)) := rfl

theorem exec_sliceAccumulate (id : Nat) (s : State) :
    exec (.sliceAccumulate id) s = .next (s.atSlices id (fun k => k == .accum) (fun o s => s.sliceRmw id o)) := rfl

theorem exec_sliceDeadHint (id : Nat) (s : State) :
    exec (.sliceDeadHint id) s = .next (s.atSlices id (fun k => k == .dead)
      (fun o s => if (s.line o.line).lock.isSome then s.waitLock id o else s.doDead id o)) := rfl

/-- What a prefetch that arrives at its slice does (R243). -/
def State.prefetchArrives (s : State) (id : Nat) (o : MemOp) : State :=
  let slice := (s.sliceOf o.line).1
  if (s.line o.line).present then s.delOp id
  else if 48 < s.missBusy slice then (s.delOp id).bump (pages .slc o.part slice 0x150) 1
  else match s.allocLine o.part o.line with
    | none => s.noteMissed o.part slice
    | some s => (s.noteMiss o.part o.line).setOp id { o with filling := true }

theorem exec_slicePrefetch (id : Nat) (s : State) :
    exec (.slicePrefetch id) s = .next (s.atSlices id (fun k => k == .prefetch) (fun o s => s.prefetchArrives id o)) := rfl

theorem prefetchArrives_present (hpres : (s.line o.line).present = true) : s.prefetchArrives id o = s.delOp id := if_pos hpres

theorem prefetchArrives_absent {s' : State} (habsent : (s.line o.line).present = false) (hfree : s.missBusy (s.sliceOf o.line).1 ≤ 48)
    (halloc : s.allocLine o.part o.line = some s') :
    s.prefetchArrives id o = (s'.noteMiss o.part o.line).setOp id { o with filling := true } := by
  unfold State.prefetchArrives
  simp only [habsent, Bool.false_eq_true, if_false, if_neg (Nat.not_lt.2 hfree), halloc]

/-- A dead hint at a line of HBM (R242). -/
theorem doDead_hbm (hp : place o.line = .hbm) :
    ((s.doDead id o).line o.line).present = false ∧ (s.doDead id o).mem = s.mem ∧ (s.doDead id o).op id = none := by
  unfold State.doDead
  simp only [hp]
  refine ⟨?_, by rw [bump_mem]; rfl, ?_⟩
  · rw [line_congr (bump_lines ..)]
    show L2Line.present (SMap.get {} (SMap.set {} s.lines (o.line / 128) {}) (o.line / 128)) = false
    rw [SMap.get_set_same]
  · rw [State.op, bump_ops]
    exact op_delOp s id

/-- Settles O9: each operation whose turn it is meets its line as the clause says, and is performed there (`answerLoad_loaded`, `doStore_hbm`,
`doAtomic_one`, `doAccum_one`, `doDead_hbm`), dropped, or waits for the fill of the line that was allocated; a fill makes its line whole
(`fillReturn_load`). -/
theorem sliceOperations : Obligations.SliceOperations := by
  unfold Obligations.SliceOperations
  refine ⟨⟨?hit, ?miss, ?store⟩, ⟨?atomic, ?accum⟩, ?dead, ?drop, ?prefetch, ?fill⟩
  case hit =>
    intro s id o h hlock hhit hans
    have hk : o.hasResult = true := by
      have hkind := arriving_kind h
      unfold MemOp.hasResult
      cases hc : o.kind <;> simp [hc] at hkind ⊢
    obtain ⟨u, hq, hu⟩ := atSlices_arriving h (fun o s => s.sliceLoad id o)
    refine ⟨_, (exec_sliceLoad id s).trans (congrArg _ hu), ?_⟩
    rw [sliceLoad_hit (by rw [hq.line, hlock]) (by rw [hq.hits, hhit])]
    obtain ⟨⟨hregs, hpeek⟩, hop⟩ :=
      answerLoad_loaded ((hq.answerable hans).bump (a := pages .slc o.part (u.sliceOf o.line).1 0x100) (by simp [pages]) 1) hk
    have hsame := hq.hbm.trans (sameHbm_bump u (pages .slc o.part (u.sliceOf o.line).1 0x100) 1)
    exact ⟨⟨fun x hx j hj => by rw [← hsame.peekNat]; exact hregs x hx j hj, fun a => (hpeek a).trans (hsame.peek a)⟩, hop⟩
  case miss =>
    intro s s' id o h hlock hhit hfree halloc
    obtain ⟨u, hq, hu⟩ := atSlices_arriving h (fun o s => s.sliceLoad id o)
    obtain ⟨u', hu', hl⟩ := hq.alloc halloc
    obtain ⟨hop, hlines⟩ := sliceLoad_miss (s := u) (id := id) (by rw [hq.line, hlock]) (by rw [hq.hits, hhit]) (by rw [hq.missBusy]; exact hfree) hu'
    exact ⟨_, (exec_sliceLoad id s).trans (congrArg _ hu), hop, hlines.trans hl⟩
  case store =>
    intro s id o h hlock hpres hp hd
    obtain ⟨u, hq, hu⟩ := atSlices_arriving h (fun o s => s.sliceStore id o)
    have hpres' : (u.line o.line).present = true := by rw [hq.line, hpres]
    refine ⟨_, (exec_sliceStore id s).trans (congrArg _ hu), ?_⟩
    rw [sliceStore_present (by rw [hq.line, hlock]) hpres']
    obtain ⟨⟨hbyte, hother⟩, hop⟩ := doStore_hbm id hd hp hpres'
    exact ⟨⟨hbyte, fun a ha => (hother a ha).trans (hq.hbm.peek a)⟩, hop⟩
  case atomic =>
    intro s id o x h hl hlock hhit hp hd hans hb found
    have hk : o.kind = .atomic := by simpa using arriving_kind h
    have hx : x ∈ o.lanes := by rw [hl]; exact List.mem_singleton_self x
    obtain ⟨u, hq, hu⟩ := atSlices_arriving h (fun o s => s.sliceRmw id o)
    refine ⟨_, (exec_sliceAtomic id s).trans (congrArg _ hu), ?_⟩
    rw [sliceRmw_hit (by rw [hq.line, hlock]) (by rw [hq.hits, hhit]), performAtLine_atomic hk]
    have hans' := (hq.answerable hans).bump (a := pages .slc o.part (u.sliceOf o.line).1 0x120) (by simp [pages]) 1
    have hsame := hq.hbm.trans (sameHbm_bump u (pages .slc o.part (u.sliceOf o.line).1 0x120) 1)
    obtain ⟨hnum, hregs, hpeek, hop⟩ := doAtomic_one hl hd (hans'.delivers (by simp [MemOp.hasResult, hk]))
      (by obtain ⟨-, -, -, -, -, -, -, hclean⟩ := hans'; exact hclean x hx) hp (by rw [line_congr hsame.lines]; exact present_of_hits hhit)
    rw [hsame.peekNat] at hnum hregs
    exact ⟨hnum, fun j hj => hregs j (by omega), fun a ha => (hpeek a ha).trans (hsame.peek a), hop⟩
  case accum =>
    intro s id o x h hl hb hlock hhit hp hd hclean
    have hk : o.kind = .accum := by simpa using arriving_kind h
    obtain ⟨u, hq, hu⟩ := atSlices_arriving h (fun o s => s.sliceRmw id o)
    refine ⟨_, (exec_sliceAccumulate id s).trans (congrArg _ hu), ?_⟩
    rw [sliceRmw_hit (by rw [hq.line, hlock]) (by rw [hq.hits, hhit]), performAtLine_accum hk]
    obtain ⟨hnum, hpeek, hop⟩ := doAccum_one (s := u) (id := id) hl hb hd (by simpa only [State.poisonedIn, hq.poisonedAt] using hclean) hp
      (by rw [hq.line]; exact present_of_hits hhit)
    rw [hq.hbm.peekNat] at hnum
    exact ⟨hnum, fun a ha => (hpeek a ha).trans (hq.hbm.peek a), hop⟩
  case dead =>
    intro s id o h hlock hp
    obtain ⟨u, hq, hu⟩ := atSlices_arriving h (fun o s => if (s.line o.line).lock.isSome then s.waitLock id o else s.doDead id o)
    refine ⟨_, (exec_sliceDeadHint id s).trans (congrArg _ hu), ?_⟩
    rw [if_neg (by rw [hq.line, hlock]; exact Bool.false_ne_true)]
    obtain ⟨hgone, hmem, hop⟩ := doDead_hbm (s := u) (id := id) hp
    exact ⟨hgone, hmem.trans hq.hbm.mem, hop⟩
  case drop =>
    intro s id o h hpres
    obtain ⟨u, hq, hu⟩ := atSlices_arriving h (fun o s => s.prefetchArrives id o)
    refine ⟨_, (exec_slicePrefetch id s).trans (congrArg _ hu), ?_⟩
    rw [prefetchArrives_present (by rw [hq.line, hpres])]
    exact ⟨op_delOp .., hq.hbm.lines, hq.hbm.mem⟩
  case prefetch =>
    intro s s' id o h habsent hfree halloc
    obtain ⟨u, hq, hu⟩ := atSlices_arriving h (fun o s => s.prefetchArrives id o)
    obtain ⟨u', hu', hl⟩ := hq.alloc halloc
    refine ⟨_, (exec_slicePrefetch id s).trans (congrArg _ hu), ?_⟩
    rw [prefetchArrives_absent (by rw [hq.line, habsent]) (by rw [hq.missBusy]; exact hfree) hu']
    exact ⟨op_setOp .., (noteMiss_lines ..).trans hl⟩
  case fill =>
    intro s id o e hop hfill hk hu hpres hlock hp _ _ honly
    refine ⟨_, ?_, fillReturn_load hk hu hpres hlock hp honly e⟩
    show execHbmFillReturn (.op id) e s = _
    unfold execHbmFillReturn
    simp only [hop, hfill, if_true]

end Sys2Proof.Machine
end

section
/-! ### A stream reads its next command slot (R298, R302, R303, R305) -/

namespace Sys2Proof.Machine
open Sys2Proof.Machine.State

variable {s t u : State} {p st : Nat} {c d : Cmd}

/-! #### What depends on a command's slot alone -/

theorem malformed_slot (h : c.slot = d.slot) (st n : Nat) : c.malformed st n = d.malformed st n := by
  cases c; cases d; cases h; rfl

theorem cmdRefs_slot (h : c.slot = d.slot) : State.cmdRefs c = State.cmdRefs d := by
  cases c; cases d; cases h; rfl

theorem signal_slot (h : c.slot = d.slot) : c.signal = d.signal ∧ c.fence = d.fence ∧ c.recover = d.recover := by
  cases c; cases d; cases h; exact ⟨rfl, rfl, rfl⟩

theorem parseCheck_slot (h : c.slot = d.slot) (s : State) (p st : Nat) : s.parseCheck p st c = s.parseCheck p st d := by
  cases c; cases d; cases h; rfl

/-- The checks at parse depend on the streams through the command's own stream alone. -/
theorem parseCheck_strs {m : SMap Str} (h : ({ s with strs := m } : State).str p st = s.str p st) (c : Cmd) :
    ({ s with strs := m } : State).parseCheck p st c = s.parseCheck p st c := by
  unfold State.parseCheck State.bodyCheck State.willGovern
  rw [h]
  rfl

/-! #### What joins the stream -/

/-- The address of the slot that the sequencer of a stream reads next. -/
def State.slotAt (s : State) (p st : Nat) : Nat := (s.str p st).block.getD 0 + 64 * (s.str p st).next

/-- The command that a slot holds, as it is parsed (R302). -/
def State.slotCmd (s : State) (p st : Nat) (l : List Byte) : Cmd :=
  { idx := nextIndex (s.str p st).index, pa := s.slotAt p st, slot := BitVec.ofNat 512 (ofLeBytes l), started := false, refs := [], flags := 0,
    done := none, engine := none, borrowed := [], errFence := false, span := false, owes := false, issued := false, ledSkip := false, notes := [] }

/-- The stream as the checks of a command find it: RECOVER has ended its skipping (R305). -/
def State.recovered (u : State) (p st : Nat) (c : Cmd) : State :=
  if c.recover then u.setStr p st { u.str p st with skipping := false } else u

/-- What a command that passed its checks does as it joins its stream (R302, R305, R315). -/
def State.accepted (u : State) (p st : Nat) (c : Cmd) (ledSkip : Bool) : State :=
  let s := (cmdRefs c).foldl (fun s h => s.addRef p (bits h 0 16) 1) u
  let s := if c.signal then s.setFence c.fence { s.fence c.fence with owed := (s.fence c.fence).owed + 1 } else s
  let inside := inSpan (s.str p st) && c.op != 0x11
  ((s.spanParsed p st c).ilvParsed p st c).joinCmd p st { c with refs := cmdRefs c, owes := c.signal, span := inside, ledSkip := ledSkip }

/-- A command that failed at parse: it has started and ended with its code. -/
def Cmd.fallen (c : Cmd) (code : Nat) (err fell : Bool) : Cmd :=
  { c with started := true, done := some code, errFence := err, span := false, fell := fell }

theorem fetched_str (s : State) (p pa n q st : Nat) : (s.fetched p pa n).str q st = s.str q st := by
  have h := loads_fetched s p pa n
  rw [Loads] at h
  rw [h]
  rfl

theorem fetched_extents (s : State) (p pa n : Nat) : (s.fetched p pa n).extents = s.extents := by
  have h := loads_fetched s p pa n
  rw [Loads] at h
  rw [h]

theorem fetched_ctxOf (s : State) (p pa n q : Nat) : (s.fetched p pa n).ctxOf q = s.ctxOf q := by
  have h := loads_fetched s p pa n
  rw [Loads] at h
  rw [h]
  rfl

/-- A span's part of a parsed command changes the stream's span alone (R311). -/
theorem spanParsed_spec (s : State) (p st : Nat) (c : Cmd) : s.spanParsed p st c = { s with strs := (s.spanParsed p st c).strs }
    ∧ ∃ z, (s.spanParsed p st c).str p st = { s.str p st with span := z } := by
  unfold State.spanParsed State.modSpan
  dsimp only
  split
  · exact ⟨rfl, _, State.setStr_str_same ..⟩
  · exact ⟨rfl, _, State.setStr_str_same ..⟩
  · exact ⟨rfl, _, State.setStr_str_same ..⟩
  · exact ⟨rfl, _, rfl⟩

theorem ilvParsed_frame (s : State) (p st : Nat) (c : Cmd) : s.ilvParsed p st c = { s with ctx := (s.ilvParsed p st c).ctx } := by
  unfold State.ilvParsed
  split <;> rfl

theorem ilvAdvance_frame (n p : Nat) (s : State) : ilvAdvance n p s = { s with ctx := (ilvAdvance n p s).ctx, regs := (ilvAdvance n p s).regs } := by
  induction n generalizing s with
  | zero => rfl
  | succ n ih =>
    have hset (k : Ctx) : ilvAdvance n p (s.setCtx p k)
        = { s with ctx := (ilvAdvance n p (s.setCtx p k)).ctx, regs := (ilvAdvance n p (s.setCtx p k)).regs } := ih (s.setCtx p k)
    have hbump (k : Ctx) (a : RegAddr) : ilvAdvance n p ((s.setCtx p k).bump a 1)
        = { s with ctx := (ilvAdvance n p ((s.setCtx p k).bump a 1)).ctx, regs := (ilvAdvance n p ((s.setCtx p k).bump a 1)).regs } := ih _
    unfold ilvAdvance
    dsimp only
    split
    · rfl
    split
    · rfl
    split
    · exact hset _
    split
    · exact hbump ..
    split
    · exact hbump ..
    · rfl

/-- The interleave table moves on: contexts and counts (R329). -/
theorem ilvMove_frame (s : State) (p : Nat) : s.ilvMove p = { s with ctx := (s.ilvMove p).ctx, regs := (s.ilvMove p).regs } := by
  unfold State.ilvMove
  split
  · rfl
  · exact ilvAdvance_frame ..

theorem addRefs_frame (s : State) (p : Nat) (l : List Nat) : l.foldl (fun s h => s.addRef p (bits h 0 16) 1) s
    = { s with objs := (l.foldl (fun s h => s.addRef p (bits h 0 16) 1) s).objs } := by
  induction l using List.reverseRecOn with
  | nil => rfl
  | append_singleton l h ih =>
    rw [List.foldl_append, List.foldl_cons, List.foldl_nil]
    generalize l.foldl (fun s h => s.addRef p (bits h 0 16) 1) s = t at ih ⊢
    rw [ih]
    rfl

/-- The object of an index after references have been added to objects of distinct indices (R315). -/
theorem addRefs_obj {l : List Nat} (hl : l.Pairwise fun h k => bits h 0 16 ≠ bits k 0 16) (s : State) (p i : Nat) :
    (l.foldl (fun s h => s.addRef p (bits h 0 16) 1) s).obj p i
      = if ∃ h ∈ l, bits h 0 16 = i then { s.obj p i with refs := (s.obj p i).refs + 1 } else s.obj p i := by
  induction l generalizing s with
  | nil => simp
  | cons h l ih =>
    obtain ⟨hh, hl⟩ := List.pairwise_cons.1 hl
    have hset : (s.addRef p (bits h 0 16) 1).obj p i
        = if bits h 0 16 = i then { s.obj p i with refs := (s.obj p i).refs + 1 } else s.obj p i := by
      rw [State.addRef, State.setObj, State.obj, SMap.get_set]
      by_cases hi : bits h 0 16 = i
      · rw [if_pos (by rw [hi]), if_pos hi, hi]
      · rw [if_neg (by omega), if_neg hi]
        rfl
    rw [List.foldl_cons, ih hl, hset]
    by_cases hi : bits h 0 16 = i
    · have hnone : ¬ ∃ k ∈ l, bits k 0 16 = i := fun ⟨k, hk, he⟩ => hh k hk (hi.trans he.symm)
      simp [hi, hnone]
    · simp [hi]

/-- What a parsed command leaves of its stream: it has joined the commands in flight, and the stream's index is its own (R302). -/
structure Joined (u t : State) (p st : Nat) (c d : Cmd) : Prop where
  frame : t = { u with strs := t.strs, ctx := t.ctx, fences := t.fences, objs := t.objs }
  str : ∃ z, t.str p st = { u.str p st with cmds := (u.str p st).cmds ++ [d], index := c.idx, span := z }

theorem accepted_joined (u : State) (p st : Nat) (c : Cmd) (b : Bool) : ∃ d : Cmd, Joined u (u.accepted p st c b) p st c d
    ∧ d = { c with refs := cmdRefs c, owes := c.signal, span := d.span, ledSkip := b }
    ∧ (u.accepted p st c b).fences
        = (if c.signal then u.fences.set {} c.fence { u.fence c.fence with owed := (u.fence c.fence).owed + 1 } else u.fences)
    ∧ (u.accepted p st c b).objs = ((cmdRefs c).foldl (fun s h => s.addRef p (bits h 0 16) 1) u).objs := by
  unfold State.accepted
  have hrefs := addRefs_frame u p (cmdRefs c)
  generalize (cmdRefs c).foldl (fun s h => s.addRef p (bits h 0 16) 1) u = v at hrefs ⊢
  obtain ⟨w, hw, hwstr, hwf⟩ : ∃ w : State, w = { v with fences := w.fences } ∧
      (if c.signal then v.setFence c.fence { v.fence c.fence with owed := (v.fence c.fence).owed + 1 } else v) = w ∧
      w.fences = if c.signal then u.fences.set {} c.fence { u.fence c.fence with owed := (u.fence c.fence).owed + 1 } else u.fences := by
    refine ⟨_, ?_, rfl, ?_⟩
    · split <;> rfl
    · rw [hrefs]
      split <;> rfl
  dsimp only
  rw [hwstr]
  obtain ⟨hspan, z, hz⟩ := spanParsed_spec w p st c
  have hilv := ilvParsed_frame (w.spanParsed p st c) p st c
  generalize w.spanParsed p st c = x at hspan hz hilv ⊢
  generalize x.ilvParsed p st c = y at hilv ⊢
  have hframe : y = { u with strs := y.strs, ctx := y.ctx, fences := w.fences, objs := v.objs } := by
    rw [hilv, hspan, hw, hrefs]
  have hustr : y.str p st = { u.str p st with span := z } := by
    have hy : y.str p st = x.str p st := by rw [hilv]; rfl
    rw [hy, hz, hw, hrefs]
    rfl
  refine ⟨{ c with refs := cmdRefs c, owes := c.signal, span := inSpan (w.str p st) && c.op != 0x11, ledSkip := b }, ⟨?_, z, ?_⟩, rfl, ?_, ?_⟩
  · rw [State.joinCmd, hframe]
    rfl
  · rw [State.joinCmd, State.setStr_str_same, hustr]
  · rw [State.joinCmd, State.setStr_fences, hframe, hwf]
  · rw [State.joinCmd, State.setStr_objs, hframe]

/-! #### What a command that fails at parse does -/

/-- A step that leaves streams, fences, memory and its lines, counters and objects. -/
structure Aside (s t : State) : Prop where
  strs : t.strs = s.strs
  fences : t.fences = s.fences
  mem : t.mem = s.mem
  lines : t.lines = s.lines
  ctrs : t.ctrs = s.ctrs
  objs : t.objs = s.objs

theorem Aside.refl (s : State) : Aside s s := ⟨rfl, rfl, rfl, rfl, rfl, rfl⟩

theorem Aside.trans (h : Aside s t) (h' : Aside t u) : Aside s u where
  strs := h'.strs.trans h.strs
  fences := h'.fences.trans h.fences
  mem := h'.mem.trans h.mem
  lines := h'.lines.trans h.lines
  ctrs := h'.ctrs.trans h.ctrs
  objs := h'.objs.trans h.objs

theorem Aside.foldl {α : Type} {f : State → α → State} (hf : ∀ s a, Aside s (f s a)) (l : List α) (s : State) : Aside s (l.foldl f s) :=
  State.foldl_keeps (Aside s) f (fun t a h => h.trans (hf t a)) l s (.refl s)

theorem Noted.aside {p : Nat} (h : Noted p s t) : Aside s t := by
  have hf := h.frame
  constructor <;> rw [hf]

theorem aside_setReg (s : State) (a : RegAddr) (v : Nat) : Aside s (s.setReg a v) := ⟨rfl, rfl, rfl, rfl, rfl, rfl⟩

theorem aside_setCtx (s : State) (p : Nat) (c : Ctx) : Aside s (s.setCtx p c) := ⟨rfl, rfl, rfl, rfl, rfl, rfl⟩

theorem aside_ilvFellParse (s : State) (p st : Nat) (c : Cmd) : Aside s (s.ilvFellParse p st c) := by
  have h : Aside s (s.ilvParsed p st c) := by
    unfold State.ilvParsed
    split
    · exact .refl s
    · exact aside_setCtx ..
  unfold State.ilvFellParse State.ilvFell
  dsimp only
  split
  · exact h
  · exact h.trans (aside_setCtx ..)

theorem aside_ilvLate (s : State) (p st : Nat) (c : Cmd) : Aside s (s.ilvLate p st c) := by
  unfold State.ilvLate
  split
  · exact .refl s
  · exact aside_setCtx ..

theorem aside_exchSend (s : State) (p g kind stage dir bucket block : Nat) (data : List Byte) :
    Aside s (s.exchSend p g kind stage dir bucket block data) := by
  unfold State.exchSend
  dsimp only
  split
  · exact .refl s
  · exact ⟨rfl, rfl, rfl, rfl, rfl, rfl⟩

/-- The neighbours of a collective that fails at parse are told, and the failure is recorded (R390, R402). -/
theorem aside_exchFellParse (s : State) (p : Nat) (c : Cmd) (code : Nat) : Aside s (s.exchFellParse p c code) := by
  have hfell (dims : List Nat) (command slot : Nat) : Aside s (s.collectiveFell p c dims command slot code) :=
    Aside.trans (t := s.sendAbort p (portsOf dims) code s.self command slot) (.foldl (fun _ _ => aside_exchSend ..) _ _)
      (noted_noteAbort (p := 0) ..).aside
  unfold State.exchFellParse
  split
  · exact hfell ..
  · exact hfell ..
  · exact .foldl (fun _ _ => aside_setReg ..) _ _
  · exact .refl s

/-! #### The parse of a slot -/

section
variable {l : List Byte} (hspan : (s.str p st).span = none)
include hspan

theorem spanFailedParse_none (c : Cmd) (seen : Bool) :
    (s.fetched p (s.slotAt p st) 64).spanFailedParse p st c seen = s.fetched p (s.slotAt p st) 64 := by
  have h : ((s.fetched p (s.slotAt p st) 64).str p st).span = none := by rw [fetched_str, hspan]
  unfold State.spanFailedParse inSpan
  simp [h]

variable (hread : (s.fetched p (s.slotAt p st) 64).readRecord p (s.slotAt p st) 64 = .ok l)
include hread

/-- A malformed command (R303). -/
theorem parseSlot_malformed (hbad : (s.slotCmd p st l).malformed st (s.ctxOf p).num = true) :
    ∃ v, Aside (s.fetched p (s.slotAt p st) 64) v ∧ s.parseSlot p st = v.joinCmd p st ((s.slotCmd p st l).fallen 0x0102 true false) := by
  have hin : inSpan (s.str p st) = false := by simp [inSpan, hspan]
  have hs (c : Cmd) (seen : Bool) := spanFailedParse_none hspan c seen
  have hread' := hread
  have hbad' : (s.slotCmd p st l).malformed st ((s.fetched p (s.slotAt p st) 64).ctxOf p).num = true := by rw [fetched_ctxOf, hbad]
  unfold State.slotAt at hread' hs
  unfold State.slotCmd State.slotAt at hbad'
  refine ⟨((((s.fetched p (s.slotAt p st) 64).ilvFellParse p st (s.slotCmd p st l)).ilvLate p st (s.slotCmd p st l)).exchFellParse p
    (s.slotCmd p st l) 0x0102), ((aside_ilvFellParse ..).trans (aside_ilvLate ..)).trans (aside_exchFellParse ..), ?_⟩
  unfold State.parseSlot
  simp only [hread', hs, hbad', hin, if_true]
  rfl

/-- A command behind a failed WAIT (R305). -/
theorem parseSlot_skipped (hgood : (s.slotCmd p st l).malformed st (s.ctxOf p).num = false) (hskip : (s.str p st).skipping = true)
    (hrec : (s.slotCmd p st l).recover = false) :
    ∃ v err, Aside (s.fetched p (s.slotAt p st) 64) v ∧ s.parseSlot p st = v.joinCmd p st ((s.slotCmd p st l).fallen 0x0101 err true) := by
  have hin : inSpan (s.str p st) = false := by simp [inSpan, hspan]
  have hs (c : Cmd) (seen : Bool) := spanFailedParse_none hspan c seen
  have hread' := hread
  have hgood' : (s.slotCmd p st l).malformed st ((s.fetched p (s.slotAt p st) 64).ctxOf p).num = false := by rw [fetched_ctxOf, hgood]
  unfold State.slotAt at hread' hs
  unfold State.slotCmd State.slotAt at hgood' hrec
  refine ⟨(s.fetched p (s.slotAt p st) 64).ilvFellParse p st (s.slotCmd p st l),
    (s.slotCmd p st l).signal && !(s.fetched p (s.slotAt p st) 64).ownsRegion p ((s.slotCmd p st l).fence / 1024), aside_ilvFellParse .., ?_⟩
  unfold State.parseSlot
  simp only [hread', hs, hgood', hin, hskip, hrec, Bool.not_false, Bool.and_self, if_true, Bool.false_eq_true, if_false]
  rfl

/-- A command that passes its checks (R302). -/
theorem parseSlot_accepted (hgood : (s.slotCmd p st l).malformed st (s.ctxOf p).num = false) (hskip : (s.str p st).skipping = false)
    (hcheck : (s.fetched p (s.slotAt p st) 64).parseCheck p st (s.slotCmd p st l) = 0) :
    s.parseSlot p st = ((s.fetched p (s.slotAt p st) 64).recovered p st (s.slotCmd p st l)).accepted p st (s.slotCmd p st l) false := by
  have hs (c : Cmd) (seen : Bool) := spanFailedParse_none hspan c seen
  have hread' := hread
  have hgood' : (s.slotCmd p st l).malformed st ((s.fetched p (s.slotAt p st) 64).ctxOf p).num = false := by rw [fetched_ctxOf, hgood]
  have hstr := fetched_str s p (s.slotAt p st) 64 p st
  have hnone (f : Span → Bool) : (s.str p st).span.any f = false := by rw [hspan, Option.any_none]
  have hcheck' : ((s.fetched p (s.slotAt p st) 64).recovered p st (s.slotCmd p st l)).parseCheck p st (s.slotCmd p st l) = 0 := by
    unfold State.recovered
    split
    · refine (parseCheck_strs ?_ _).trans hcheck
      rw [← State.setStr, State.setStr_str_same, hstr, ← hskip]
    · exact hcheck
  unfold State.slotAt at hread' hs
  unfold State.recovered State.slotCmd State.slotAt at hcheck'
  unfold State.slotAt at hstr
  unfold State.slotCmd State.slotAt at hgood'
  rw [hstr] at hcheck'
  unfold State.parseSlot
  simp only [hread', hs, hgood', hskip, hnone, Bool.false_and, Bool.false_eq_true, if_false]
  refine (if_neg (not_not.2 hcheck')).trans ?_
  unfold State.recovered State.slotCmd State.slotAt
  rw [hstr]
  rfl

end

/-- The sequencer moves past a slot that is not the last of its block (R298). -/
theorem nextSlot_inside (hlt : (s.str p st).next < (s.str p st).last) : let t := (s.nextSlot p st).ilvMove p
    t = { s with strs := t.strs, ctx := t.ctx, regs := t.regs } ∧ t.str p st = { s.str p st with next := (s.str p st).next + 1 } := by
  have hnext : s.nextSlot p st = s.setStr p st { s.str p st with next := (s.str p st).next + 1 } := if_pos hlt
  have hmove := ilvMove_frame (s.nextSlot p st) p
  refine ⟨?_, ?_⟩
  · generalize (s.nextSlot p st).ilvMove p = t at hmove ⊢
    rw [hmove, hnext]
    rfl
  · rw [hmove, hnext]
    exact State.setStr_str_same ..

theorem recovered_spec (u : State) (p st : Nat) (c : Cmd) : u.recovered p st c = { u with strs := (u.recovered p st c).strs }
    ∧ ∃ b, (u.recovered p st c).str p st = { u.str p st with skipping := b } := by
  unfold State.recovered
  split
  · exact ⟨rfl, _, State.setStr_str_same ..⟩
  · exact ⟨rfl, _, rfl⟩

/-- The parse of a slot: what the sequencer's stream and its slot are before it. -/
structure Slot (s : State) (p st : Nat) (l : List Byte) (c₀ : Cmd) : Prop where
  may : (s.noteReady p).mayParse p st = true
  inside : (s.str p st).next < (s.str p st).last
  span : (s.str p st).span = none
  read : ((s.noteReady p).fetched p (s.slotAt p st) 64).readRecord p (s.slotAt p st) 64 = .ok l
  idx : c₀.idx = nextIndex (s.str p st).index
  pa : c₀.pa = s.slotAt p st
  slot : c₀.slot = BitVec.ofNat 512 (ofLeBytes l)

/-- The stream as the parse finds it, and its context. -/
structure Noticed (s r : State) (p st : Nat) : Prop where
  frame : r = { s with ctx := r.ctx }
  str : r.str p st = s.str p st
  num : (r.ctxOf p).num = (s.ctxOf p).num

theorem noticed_noteReady (s : State) (p st : Nat) : Noticed s (s.noteReady p) p st := by
  have h := moreReady_noteReady s p
  exact ⟨h.frame, h.str p st, by rw [h.ctx]⟩

theorem Noticed.slotAt {r : State} (h : Noticed s r p st) : r.slotAt p st = s.slotAt p st := by rw [State.slotAt, h.str, State.slotAt]

theorem Noticed.slotCmd {r : State} (h : Noticed s r p st) (l : List Byte) : r.slotCmd p st l = s.slotCmd p st l := by
  rw [State.slotCmd, h.slotAt, h.str, State.slotCmd]

theorem exec_commandParse {p st : Fin 4} (h : (s.noteReady p.val).mayParse p.val st.val = true) : exec (.commandParse p st) s
    = .next ((((s.noteReady p.val).parseSlot p.val st.val).nextSlot p.val st.val).ilvMove p.val) := by
  show execCommandParse p st s = _
  unfold execCommandParse
  simp only [h, if_true]

/-- A command that failed at parse has joined its stream, ended, and the sequencer has moved on. -/
theorem Slot.falls {p st : Fin 4} {l : List Byte} {c₀ : Cmd} (h : Slot s p.val st.val l c₀) {v : State} {code : Nat} {err fell : Bool}
    (hv : Aside ((s.noteReady p.val).fetched p.val (s.slotAt p.val st.val) 64) v)
    (hp : (s.noteReady p.val).parseSlot p.val st.val = v.joinCmd p.val st.val ((s.slotCmd p.val st.val l).fallen code err fell)) :
    let u := (s.noteReady p.val).fetched p.val (s.slotAt p.val st.val) 64
    Completes (.commandParse p st) s (fun t => (t.str p.val st.val).next = (s.str p.val st.val).next + 1
      ∧ (∃ c, (t.str p.val st.val).cmds = (s.str p.val st.val).cmds ++ [c]
          ∧ (c.idx = nextIndex (s.str p.val st.val).index ∧ c.pa = s.slotAt p.val st.val ∧ c.slot = BitVec.ofNat 512 (ofLeBytes l))
          ∧ c.started = true ∧ c.done = some code)
      ∧ t.fences = s.fences ∧ t.mem = u.mem ∧ t.lines = u.lines ∧ t.ctrs = s.ctrs ∧ t.objs = s.objs) := by
  intro u
  have hn := noticed_noteReady s p.val st.val
  have hload : Loads (s.noteReady p.val) u := loads_fetched ..
  have hu : u.str p.val st.val = s.str p.val st.val := (fetched_str ..).trans hn.str
  have hvstr : v.str p.val st.val = s.str p.val st.val := by rw [State.str, hv.strs]; exact hu
  have hother : u.fences = s.fences ∧ u.ctrs = s.ctrs ∧ u.objs = s.objs := by
    rw [Loads] at hload
    rw [hload, hn.frame]
    exact ⟨rfl, rfl, rfl⟩
  obtain ⟨hf, hc, ho⟩ := hother
  refine ⟨_, exec_commandParse h.may, ?_⟩
  rw [hp]
  have hjoined : (v.joinCmd p.val st.val ((s.slotCmd p.val st.val l).fallen code err fell)).str p.val st.val = { s.str p.val st.val with
      cmds := (s.str p.val st.val).cmds ++ [(s.slotCmd p.val st.val l).fallen code err fell], index := nextIndex (s.str p.val st.val).index } := by
    rw [State.joinCmd, State.setStr_str_same, hvstr]
    rfl
  obtain ⟨hframe, hstr⟩ := nextSlot_inside (s := v.joinCmd p.val st.val ((s.slotCmd p.val st.val l).fallen code err fell)) (p := p.val) (st := st.val)
    (by rw [hjoined]; exact h.inside)
  refine ⟨by rw [hstr, hjoined], ⟨(s.slotCmd p.val st.val l).fallen code err fell, by rw [hstr, hjoined], ⟨rfl, rfl, rfl⟩, rfl, rfl⟩, ?_, ?_, ?_, ?_, ?_⟩
  · rw [hframe]; exact hv.fences.trans hf
  · rw [hframe]; exact hv.mem
  · rw [hframe]; exact hv.lines
  · rw [hframe]; exact hv.ctrs.trans hc
  · rw [hframe]; exact hv.objs.trans ho

/-- A command `d` parsed from the slot of `c₀` has joined its stream unstarted, its fence owes a signal where it names one, its handles' objects
have one more reference, and the sequencer has moved on. -/
structure Entered (s u t : State) (p st : Nat) (c₀ d : Cmd) : Prop where
  frame : t = { u with strs := t.strs, ctx := t.ctx, regs := t.regs, fences := t.fences, objs := t.objs }
  next : (t.str p st).next = (s.str p st).next + 1
  index : (t.str p st).index = c₀.idx
  cmds : (t.str p st).cmds = (s.str p st).cmds ++ [d]
  cmd : ∃ c : Cmd, c.idx = c₀.idx ∧ c.pa = c₀.pa ∧ c.slot = c₀.slot ∧ c.started = false ∧ c.done = none
    ∧ d = { c with owes := c₀.signal, refs := cmdRefs c₀, span := d.span }
  fences : t.fences = if c₀.signal then s.fences.set {} c₀.fence { s.fence c₀.fence with owed := (s.fence c₀.fence).owed + 1 } else s.fences
  objs : ∃ v : State, v.objs = s.objs ∧ t.objs = ((cmdRefs c₀).foldl (fun (s : State) h => s.addRef p (bits h 0 16) 1) v).objs

theorem Slot.accepts {p st : Fin 4} {l : List Byte} {c₀ : Cmd} (h : Slot s p.val st.val l c₀) (hskip : (s.str p.val st.val).skipping = false)
    (hgood : c₀.malformed st.val (s.ctxOf p.val).num = false)
    (hcheck : ((s.noteReady p.val).fetched p.val (s.slotAt p.val st.val) 64).parseCheck p.val st.val c₀ = 0) :
    Completes (.commandParse p st) s fun t => ∃ d : Cmd, Entered s ((s.noteReady p.val).fetched p.val (s.slotAt p.val st.val) 64) t p.val st.val c₀ d := by
  have hn := noticed_noteReady s p.val st.val
  have hload := loads_fetched (s.noteReady p.val) p.val (s.slotAt p.val st.val) 64
  have hslot : (s.slotCmd p.val st.val l).slot = c₀.slot := h.slot.symm
  obtain ⟨hsig, hfence, -⟩ := signal_slot hslot
  have hp := parseSlot_accepted (s := s.noteReady p.val) (p := p.val) (st := st.val) (l := l) (by rw [hn.str, h.span]) (by rw [hn.slotAt, h.read])
    (by rw [hn.slotCmd, hn.num, malformed_slot hslot, hgood]) (by rw [hn.str, hskip]) (by rw [hn.slotAt, hn.slotCmd, parseCheck_slot hslot]; exact hcheck)
  rw [hn.slotAt, hn.slotCmd] at hp
  have hu : ((s.noteReady p.val).fetched p.val (s.slotAt p.val st.val) 64).str p.val st.val = s.str p.val st.val := (fetched_str ..).trans hn.str
  generalize (s.noteReady p.val).fetched p.val (s.slotAt p.val st.val) 64 = u at hload hp hu ⊢
  have hother : u.fences = s.fences ∧ u.objs = s.objs := by
    rw [Loads] at hload
    rw [hload, hn.frame]
    exact ⟨rfl, rfl⟩
  obtain ⟨hrec, b, hrecstr⟩ := recovered_spec u p.val st.val (s.slotCmd p.val st.val l)
  generalize u.recovered p.val st.val (s.slotCmd p.val st.val l) = v at hp hrec hrecstr
  obtain ⟨d, ⟨hjf, z, hjs⟩, hd, hfences, hobjs⟩ := accepted_joined v p.val st.val (s.slotCmd p.val st.val l) false
  rw [← hp] at hjf hjs hfences hobjs
  rw [hrecstr, hu] at hjs
  obtain ⟨hframe, hstr⟩ := nextSlot_inside (s := (s.noteReady p.val).parseSlot p.val st.val) (p := p.val) (st := st.val) (by rw [hjs]; exact h.inside)
  rw [hjs] at hstr
  refine ⟨_, exec_commandParse h.may, d, ?_⟩
  generalize (((s.noteReady p.val).parseSlot p.val st.val).nextSlot p.val st.val).ilvMove p.val = t at hframe hstr ⊢
  generalize (s.noteReady p.val).parseSlot p.val st.val = w at hframe hjf hfences hobjs
  constructor
  case frame => rw [hframe, hjf, hrec]
  case next => rw [hstr]
  case index => rw [hstr, h.idx]; rfl
  case cmds => rw [hstr]
  case cmd => exact ⟨s.slotCmd p.val st.val l, h.idx.symm, h.pa.symm, hslot, rfl, rfl, by rw [hd, cmdRefs_slot hslot, hsig]; rfl⟩
  case fences =>
    rw [hframe, ← hsig, ← hfence]
    have hv : v.fences = s.fences := by rw [hrec]; exact hother.1
    rw [hfences, State.fence, hv, State.fence]
  case objs => exact ⟨v, by rw [hrec]; exact hother.2, by rw [hframe, ← cmdRefs_slot hslot]; exact hobjs⟩

/-! #### A parked sequencer -/

theorem translate_congr (he : t.extents = s.extents) (p a perm : Nat) : t.translate p a perm = s.translate p a perm := by
  unfold State.translate State.coverOf State.extent
  rw [he]

/-- Whether an agent's access to a line must wait does not depend on streams, registers or the launches that are ready. -/
theorem recordWaits_congr (hl : t.lines = s.lines) (hs : t.slices = s.slices) (hp : t.pkg = s.pkg) (he : t.extents = s.extents)
    (hc : t.hasCtx p = s.hasCtx p) (pa n : Nat) : t.recordWaits p pa n = s.recordWaits p pa n := by
  have htr (a perm : Nat) : t.translate p a perm = s.translate p a perm := translate_congr he ..
  have hfree (a : Nat) : t.lineFree p a = s.lineFree p a := by
    unfold State.lineFree
    simp only [line_congr hl, allocLine_isSome_congr hl hs hp]
  have hdom (c : Nat) : t.domOn c = s.domOn c := by rw [State.domOn, hp, State.domOn]
  unfold State.recordWaits State.paWaits State.lineWaits State.translatesAll
  simp only [htr, hfree, hdom, hc]

/-- The state in which a sequencer that was woken reads its slot. -/
def State.awake (s : State) (p st : Nat) : State :=
  ((s.noteReady p).setStr p st { s.str p st with woken := false }).bump (home .str p (0x120 + 0x40 * st)) 1

theorem recordWaits_noteReady (s : State) (p pa n : Nat) : (s.noteReady p).recordWaits p pa n = s.recordWaits p pa n := by
  have h := moreReady_noteReady s p
  have hc : (s.noteReady p).hasCtx p = s.hasCtx p := by rw [State.hasCtx, h.ctx, State.hasCtx]
  generalize s.noteReady p = t at h hc ⊢
  exact recordWaits_congr (by rw [h.frame]) (by rw [h.frame]) (by rw [h.frame]) (by rw [h.frame]) hc ..

theorem recordWaits_awake (s : State) (p st pa n : Nat) : (s.awake p st).recordWaits p pa n = s.recordWaits p pa n := by
  refine Eq.trans ?_ (recordWaits_noteReady ..)
  unfold State.awake
  exact recordWaits_congr (by rw [bump_lines, setStr_lines]) (by rw [bump_slices, setStr_slices]) (by rw [bump_pkg, setStr_pkg])
    (by rw [bump_extents, setStr_extents]) (by rw [State.hasCtx, State.ctxOf, bump_ctx, setStr_ctx, State.hasCtx, State.ctxOf]) ..

theorem awake_extents (s : State) (p st : Nat) : (s.awake p st).extents = s.extents := by
  rw [State.awake, bump_extents, setStr_extents, (moreReady_noteReady s p).frame]

theorem awake_str (s : State) (p st : Nat) : (s.awake p st).str p st = { s.str p st with woken := false } := by
  rw [State.awake, State.str, bump_strs]
  exact State.setStr_str_same ..

/-- A sequencer that was woken: its stream is parked and runs, its context is ACTIVE, and its slot's line need not wait. -/
structure Woken (s : State) (p st : Nat) (l : List Byte) : Prop where
  woken : (s.str p st).woken = true
  parked : (s.str p st).block = none
  runs : (s.str p st).stopped = false ∧ (s.str p st).draining = false
  active : (s.ctxOf p).state = 1
  free : s.recordWaits p (s.str p st).park 64 = false
  read : ((s.awake p st).fetched p (s.str p st).park 64).readRecord p (s.str p st).park 64 = .ok l

theorem exec_linkSlotWake {p st : Fin 4} {l : List Byte} (h : Woken s p.val st.val l) :
    exec (.linkSlotWake p st) s = .next (((s.awake p.val st.val).readLink p.val st.val).ilvMove p.val) := by
  have hm := moreReady_noteReady s p.val
  have hactive : ((s.noteReady p.val).ctxOf p.val).state = 1 := by rw [hm.ctx]; exact h.active
  show execLinkSlotWake p st s = _
  refine congrArg _ (if_pos ?_)
  simp [h.woken, h.parked, h.runs, hactive, recordWaits_noteReady, h.free]

theorem exec_linkSlotWake_waits {p st : Fin 4} (h : s.recordWaits p.val (s.str p.val st.val).park 64 = true) :
    exec (.linkSlotWake p st) s = .next (s.noteReady p.val) := by
  show execLinkSlotWake p st s = _
  refine congrArg _ (if_neg ?_)
  simp [recordWaits_noteReady, h]

/-- What the read of a link slot leads to. -/
theorem Woken.readLink_eq {l : List Byte} (h : Woken s p st l) :
    (bits (ofLeBytes l) 64 32 ≠ (s.str p st).seq → (s.awake p st).readLink p st = (s.awake p st).fetched p (s.str p st).park 64)
    ∧ ∀ next first count, bits (ofLeBytes l) 64 32 = (s.str p st).seq → State.linkFields (ofLeBytes l) = some (next, first, count) →
      ((s.awake p st).fetched p (s.str p st).park 64).translatesAll p next 4096 1 = true →
      (((s.awake p st).fetched p (s.str p st).park 64).translate p next 1).map place = some .hbm →
      (s.awake p st).readLink p st = ((s.awake p st).fetched p (s.str p st).park 64).setStr p st
        { s.str p st with block := some next, next := first, last := first + count - 1, woken := false } := by
  have hm := moreReady_noteReady s p
  have hactive : ((s.awake p st).ctxOf p).state = 1 := by
    rw [State.awake, State.ctxOf, bump_ctx, setStr_ctx, ← State.ctxOf, hm.ctx]
    exact h.active
  have hruns : ¬ (((s.awake p st).ctxOf p).state ≠ 1 || ((s.awake p st).str p st).stopped || ((s.awake p st).str p st).draining
      || ((s.awake p st).str p st).block.isSome) = true := by simp [awake_str, hactive, h.runs, h.parked]
  have hfree : ¬ (s.awake p st).recordWaits p ((s.awake p st).str p st).park 64 = true := by simp [awake_str, recordWaits_awake, h.free]
  unfold State.readLink
  dsimp only
  rw [if_neg hruns, if_neg hfree]
  simp only [awake_str, h.read]
  refine ⟨fun hseq => if_pos hseq, fun next first count hseq hfields hall hplace => ?_⟩
  simp only [hseq, ne_eq, not_true_eq_false, if_false, hfields, hall, hplace, beq_self_eq_true, Bool.and_self, if_true]

theorem setFence_owed (s t : State) (c : Cmd)
    (h : t.fences = if c.signal then s.fences.set {} c.fence { s.fence c.fence with owed := (s.fence c.fence).owed + 1 } else s.fences) :
    (c.signal = true → (t.fence c.fence).owed = (s.fence c.fence).owed + 1) ∧ (c.signal = false → t.fences = s.fences) := by
  refine ⟨fun hs => ?_, fun hs => ?_⟩
  · rw [State.fence, h, if_pos hs, SMap.get_set_same]
  · rw [h, if_neg (by rw [hs]; exact Bool.false_ne_true)]

/-- After the sequencer has looked at its link slot: the table moves on, and the stream is as the look left it. -/
theorem moved_on {v r : State} {x : Str} (hv : v = { r with strs := v.strs }) (hx : v.str p st = x) :
    (v.ilvMove p).str p st = x ∧ v.ilvMove p = { r with strs := (v.ilvMove p).strs, regs := (v.ilvMove p).regs, ctx := (v.ilvMove p).ctx } := by
  have hmove := ilvMove_frame v p
  generalize v.ilvMove p = t at hmove ⊢
  refine ⟨?_, ?_⟩
  · rw [← hx, hmove]
    rfl
  · rw [hmove, hv]

/-- Settles O25: a slot whose command passes its checks is `Entered`, one that fails at parse `falls`; a woken sequencer follows its link slot or
stays parked (`Woken.readLink_eq`), or does nothing while the slot's line waits. -/
theorem commandParsing : Obligations.CommandParsing := by
  unfold Obligations.CommandParsing
  refine ⟨⟨fun s p st => loads_fetched .., ?accepted, ?references, ?malformed, ?skipped⟩, ?follows, ?parked, ?waits⟩
  case accepted =>
    rintro s p st l c₀ ⟨hmay, hlt, hspan, hread⟩ ⟨hidx, hpa, hslot⟩ hskip hgood hcheck - hrefs
    obtain ⟨t, hexec, d, he⟩ := (Slot.mk hmay hlt hspan hread hidx hpa hslot).accepts hskip hgood hcheck
    obtain ⟨c, hci, hcp, hcs, hstarted, hdone, hd⟩ := he.cmd
    obtain ⟨v, hv, hobjs⟩ := he.objs
    obtain ⟨howed, hkept⟩ := setFence_owed s t c₀ he.fences
    refine ⟨t, hexec, he.next, he.index, ⟨d, he.cmds, ⟨?_, ?_, ?_⟩, ?_, ?_, ?_, ?_⟩, howed, hkept, ?_⟩
    · rw [hd]; exact hci.trans hidx
    · rw [hd]; exact hcp.trans hpa
    · rw [hd]; exact hcs.trans hslot
    · rw [hd]; exact hstarted
    · rw [hd]; exact hdone
    · rw [hd]
    · rw [hd]; exact hrefs
    · have hframe := he.frame
      have hload := loads_fetched (s.noteReady p.val) p.val (s.slotAt p.val st.val) 64
      rw [hrefs, List.foldl_nil, hv] at hobjs
      have hu : s.objs = ((s.noteReady p.val).fetched p.val (s.slotAt p.val st.val) 64).objs := by
        rw [Loads] at hload
        rw [hload, (moreReady_noteReady s p.val).frame]
      rw [hobjs, hu] at hframe
      exact hframe
  case references =>
    rintro s p st l c₀ ⟨hmay, hlt, hspan, hread⟩ ⟨hidx, hpa, hslot⟩ hskip hgood hcheck - hdistinct
    obtain ⟨t, hexec, d, he⟩ := (Slot.mk hmay hlt hspan hread hidx hpa hslot).accepts hskip hgood hcheck
    obtain ⟨c, hci, hcp, hcs, -, -, hd⟩ := he.cmd
    obtain ⟨v, hv, hobjs⟩ := he.objs
    have hobj (i : Nat) := addRefs_obj hdistinct v p.val i
    have hvobj (i : Nat) : v.obj p.val i = s.obj p.val i := by rw [State.obj, hv, State.obj]
    have htobj (i : Nat) : t.obj p.val i = ((cmdRefs c₀).foldl (fun (s : State) h => s.addRef p.val (bits h 0 16) 1) v).obj p.val i := by
      rw [State.obj, hobjs, State.obj]
    refine ⟨t, hexec, ⟨d, ?_, ⟨?_, ?_, ?_⟩, ?_⟩, fun h hh => ?_, fun i hi _ => ?_, ?_⟩
    · rw [he.cmds]
      simp
    · rw [hd]; exact hci.trans hidx
    · rw [hd]; exact hcp.trans hpa
    · rw [hd]; exact hcs.trans hslot
    · rw [hd]
    · rw [htobj, hobj, if_pos ⟨h, hh, rfl⟩, hvobj]
    · rw [htobj, hobj, if_neg fun ⟨h, hh, he⟩ => hi h hh he, hvobj]
    · rw [he.frame]
      rfl
  case malformed =>
    rintro s p st l c₀ ⟨hmay, hlt, hspan, hread⟩ ⟨hidx, hpa, hslot⟩ hbad
    have hn := noticed_noteReady s p.val st.val
    have hbad' : (s.slotCmd p.val st.val l).malformed st.val (s.ctxOf p.val).num = true := (malformed_slot hslot.symm ..).trans hbad
    obtain ⟨v, hv, hp⟩ := parseSlot_malformed (s := s.noteReady p.val) (p := p.val) (st := st.val) (l := l) (by rw [hn.str, hspan])
      (by rw [hn.slotAt]; exact hread) (by rw [hn.slotCmd, hn.num, hbad'])
    rw [hn.slotAt] at hv
    rw [hn.slotCmd] at hp
    exact (Slot.mk hmay hlt hspan hread hidx hpa hslot).falls hv hp
  case skipped =>
    rintro s p st l c₀ ⟨hmay, hlt, hspan, hread⟩ ⟨hidx, hpa, hslot⟩ hskip hgood hrec
    have hn := noticed_noteReady s p.val st.val
    have hgood' : (s.slotCmd p.val st.val l).malformed st.val (s.ctxOf p.val).num = false := (malformed_slot hslot.symm ..).trans hgood
    obtain ⟨v, err, hv, hp⟩ := parseSlot_skipped (s := s.noteReady p.val) (p := p.val) (st := st.val) (l := l) (by rw [hn.str, hspan])
      (by rw [hn.slotAt]; exact hread) (by rw [hn.slotCmd, hn.num, hgood']) (by rw [hn.str, hskip])
      (by rw [hn.slotCmd]; exact (signal_slot hslot.symm).2.2.trans hrec)
    rw [hn.slotAt] at hv
    rw [hn.slotCmd] at hp
    exact (Slot.mk hmay hlt hspan hread hidx hpa hslot).falls hv hp
  case follows =>
    rintro s p st l next first count ⟨hwoken, hblock, hstop, hdrain, hstate, hfree, hread⟩ hseq hfields hall hplace
    have h : Woken s p.val st.val l := ⟨hwoken, hblock, ⟨hstop, hdrain⟩, hstate, hfree, hread⟩
    have htr : ((s.awake p.val st.val).fetched p.val (s.str p.val st.val).park 64).translate p.val next 1 = s.translate p.val next 1 :=
      translate_congr (by rw [fetched_extents, awake_extents]) ..
    have hlink := h.readLink_eq.2 next first count hseq hfields hall (by rw [htr]; exact hplace)
    obtain ⟨hstr, hframe⟩ := moved_on (p := p.val) (st := st.val) (v := (s.awake p.val st.val).readLink p.val st.val)
      (r := (s.awake p.val st.val).fetched p.val (s.str p.val st.val).park 64) (by rw [hlink]; rfl) (by rw [hlink, State.setStr_str_same])
    exact ⟨_, exec_linkSlotWake h, by rw [hstr], by rw [hstr], by rw [hstr], by rw [hstr], by rw [hstr], hframe⟩
  case parked =>
    rintro s p st l ⟨hwoken, hblock, hstop, hdrain, hstate, hfree, hread⟩ hseq
    have h : Woken s p.val st.val l := ⟨hwoken, hblock, ⟨hstop, hdrain⟩, hstate, hfree, hread⟩
    have hlink := h.readLink_eq.1 hseq
    obtain ⟨hstr, hframe⟩ := moved_on (p := p.val) (st := st.val) (v := (s.awake p.val st.val).readLink p.val st.val)
      (r := (s.awake p.val st.val).fetched p.val (s.str p.val st.val).park 64) (by rw [hlink]) (by rw [hlink, fetched_str, awake_str])
    exact ⟨_, exec_linkSlotWake h, by rw [hstr, hblock], by rw [hstr], by rw [hstr], hframe⟩
  case waits =>
    intro s p st hwait
    exact ⟨_, exec_linkSlotWake_waits hwait, rfl⟩

end Sys2Proof.Machine
end

section
/-! ### A copy from a line that its slice holds in part (R239, R247, R251) -/

namespace Sys2Proof.Machine

/-- A COPY of 8 bytes from PA 28 to PA 256, started on engine 0. -/
def partCopy : Cmd :=
  { idx := 1, pa := 0, slot := BitVec.ofNat 512 (0x03 + 28 * 2 ^ 128 + 256 * 2 ^ 192 + 8 * 2 ^ 256), started := true, refs := [], flags := 0, done := none,
    engine := some 0, borrowed := [], errFence := false, span := false, owes := false, issued := false, ledSkip := false, notes := [] }

/-- Stream 0 of partition 0 copies from a line of HBM of which its slice holds the last four bytes of the first word, without poison; that word
is poisoned in memory. The next word is not. -/
def partHeld : State := { State.reset with
  extents := [(0, { base := 0, limit := 0, target := 0, perm := 3, valid := true })]
  strs := [(0, { cmds := [partCopy] })]
  poison := [(0, true)]
  lines := [(0, { present := true, valid := 0xF0000000, data := List.replicate 128 0 }), (2, { present := true, data := List.replicate 128 0 })] }

theorem partHeld_clean : partHeld.poisonedIn 28 (partCopy.w32 0x20) = false := by decide +kernel

theorem partHeld_ends : ((partHeld.xfeRun 0).cmdOf 0 0 1).bind Cmd.done = some 0x0801 := by decide +kernel

theorem exec_xfeComplete (e : Fin 16) (s : State) : exec (.xfeComplete e) s = .next (s.xfeRun e.val) := rfl

/-- Refutes O32: the fill of the source line, which a COPY reads, brings memory's poison to a word that the slice held in part, so that a read which
met no poison before it meets it after it. The COPY of `partHeld` ends with POISON. -/
theorem not_transfers : ¬ Obligations.Transfers := by
  unfold Obligations.Transfers
  rintro ⟨-, -, hcopy⟩
  obtain ⟨t, hexec, ⟨y, hy, -, hdone⟩, -⟩ := hcopy partHeld 0 0 0 28 256 28 256 partCopy
    ⟨by decide +kernel, by decide +kernel, rfl, rfl, rfl, rfl, by decide +kernel, by decide +kernel⟩ (by decide +kernel) (by decide +kernel)
    (by decide +kernel) (by decide +kernel) (by decide +kernel) (by decide +kernel) (by decide +kernel) (by decide +kernel) (by decide +kernel)
    (by decide +kernel) (by decide +kernel) (by decide +kernel) (by decide +kernel) (by decide +kernel) partHeld_clean
  have ht : partHeld.xfeRun 0 = t := Host.Outcome.next.inj ((exec_xfeComplete 0 partHeld).symm.trans hexec)
  have hends := partHeld_ends
  rw [ht, show t.cmdOf 0 0 1 = some y from hy] at hends
  exact absurd (hdone.symm.trans hends) (by decide)

end Sys2Proof.Machine
end

section
/-! ### The stages of the gradient exchange (R376 to R383) -/

namespace Sys2Proof.Machine
open Sys2Proof.Machine.State

variable {s t u : State} {k kind p g stage dir bucket block d : Nat} {x : InTxn} {e : Exch} {j : XJob}

/-! #### Sending -/

theorem exchSend_frame (s : State) (p g kind stage dir bucket block : Nat) (l : List Byte) :
    s.exchSend p g kind stage dir bucket block l = { s with ports := (s.exchSend p g kind stage dir bucket block l).ports } := by
  unfold State.exchSend
  dsimp only
  split <;> rfl

/-- A port that is UP has one more message to send. -/
theorem exchSend_sent (hup : (s.port g).state = 3) (p kind stage dir bucket block : Nat) (l : List Byte) :
    ExchSent s (s.exchSend p g kind stage dir bucket block l) p g kind stage dir bucket block l := by
  unfold ExchSent State.exchSend
  dsimp only
  rw [if_neg (not_not.2 hup), State.enqueue, setPort_port_same, SMap.modify, SMap.get_set_same]
  rfl

theorem ExchSent.congr {s' t' : State} {l : List Byte} (h : ExchSent s' t' p g kind stage dir bucket block l) (hs : s'.ports = s.ports)
    (hpkg : s'.pkg = s.pkg) (ht : t.ports = t'.ports) : ExchSent s t p g kind stage dir bucket block l := by
  have hport (g : Nat) : s.port g = s'.port g := by rw [State.port, State.port, hs]
  have hport' (g : Nat) : t.port g = t'.port g := by rw [State.port, State.port, ht]
  have hself : s.self = s'.self := by rw [State.self, State.self, hpkg]
  unfold ExchSent at h ⊢
  rw [hport, hport', hself]
  exact h

/-- A step that changes ports and registers alone. -/
def Sends (s t : State) : Prop := t = { s with ports := t.ports, regs := t.regs }

theorem Sends.refl (s : State) : Sends s s := rfl

theorem Sends.trans (h : Sends s t) (h' : Sends t u) : Sends s u := by
  unfold Sends at *
  rw [h'] at ⊢
  rw [h]

theorem Sends.foldl {α : Type} {f : State → α → State} (hf : ∀ s a, Sends s (f s a)) (l : List α) (s : State) : Sends s (l.foldl f s) :=
  State.foldl_keeps (Sends s) f (fun t a h => h.trans (hf t a)) l s (.refl s)

theorem sends_exchSend (s : State) (p g kind stage dir bucket block : Nat) (l : List Byte) :
    Sends s (s.exchSend p g kind stage dir bucket block l) := by
  have h := exchSend_frame s p g kind stage dir bucket block l
  unfold Sends
  rw [h]

theorem Sends.setExch (h : Sends s t) (p : Nat) (e : Option Exch) : Sends (s.setExch p e) (t.setExch p e) := by
  unfold Sends at *
  rw [h]
  rfl

theorem sends_bump (s : State) (a : RegAddr) (n : Nat) : Sends s (s.bump a n) := by
  unfold Sends State.bump
  split <;> rfl

theorem sends_sendData (s : State) (p d : Nat) (j : XJob) (dir : Nat) (blocks : List Nat) : Sends s (s.sendData p d j dir blocks) := by
  unfold State.sendData State.bumpX
  refine Sends.trans (.foldl (fun s l => ?_) _ _) (sends_bump ..)
  exact Sends.trans (.foldl (fun _ _ => sends_exchSend ..) _ _) (sends_exchSend ..)

/-- At most 512 exponents go in one message (R384). -/
theorem sendExps_one {l : List Nat} (hpos : 0 < l.length) (hmax : l.length ≤ 512) (s : State) (p d : Nat) (j : XJob) (dir block : Nat) :
    s.sendExps p d j dir block l = s.exchSend p (outPort d dir) 1 j.stage dir j.bucket block (l.map (BitVec.ofNat 8)) := by
  have hone : pieces 512 (l.length + 1) l = [l] := by
    obtain ⟨n, hn⟩ := Nat.exists_eq_succ_of_ne_zero hpos.ne'
    have hne : l.isEmpty = false := by
      rw [List.isEmpty_eq_false_iff]
      exact List.ne_nil_of_length_pos hpos
    rw [pieces, hne, hn, pieces, List.drop_eq_nil_of_le hmax, List.take_of_length_le hmax]
    rfl
  rw [State.sendExps, hone]
  rfl

/-! #### A message of a job that has begun -/

/-- The state once an arrived transaction that holds no buffer has been taken. -/
def State.messageTaken (s : State) (k : Nat) : State := { s with inTxn := s.inTxn.eraseIdx k }

theorem dropTxn_messageTaken (hx : x.held = none) (s : State) (k : Nat) : s.dropTxn k x = s.messageTaken k := by
  rw [State.dropTxn, hx]
  rfl

theorem JobArrives.withJob (h : JobArrives s k kind x e j d stage dir bucket block) (f : State → InTxn → Nat → Exch → XJob → State) :
    s.withJob k kind f = f s x d e j := by
  obtain ⟨⟨harr, -, hexch, -⟩, haddr, hjob, -, -, hlo, hhi, hdim, hport, -⟩ := h
  unfold State.withJob
  simp only [harr, haddr, hexch, hjob, hdim, hport]
  rw [if_neg (by simp; omega)]

/-- A message moves on by a port of its dimension, which is UP. -/
theorem JobArrives.port_up (h : JobArrives s k kind x e j d stage dir bucket block) {n : Nat} (hn : n < 2) : (s.port (2 * d + n)).state = 3 := by
  obtain ⟨⟨-, -, -, hup⟩, -, -, -, -, -, -, hdim, -, -⟩ := h
  refine hup _ (List.mem_flatten.2 ⟨[2 * d, 2 * d + 1], List.mem_map.2 ⟨d, List.mem_of_getElem? hdim, rfl⟩, ?_⟩)
  obtain rfl | rfl : n = 0 ∨ n = 1 := by omega
  · exact List.mem_cons_self
  · exact List.mem_cons_of_mem _ List.mem_cons_self

/-- The job of a bucket and stage once it has been put back. -/
theorem jobOf_putJob {y : XJob} (h : jobOf e bucket stage = some j) (hb : y.bucket = bucket) (hs : y.stage = stage) :
    jobOf (putJob e y) bucket stage = some y := by
  rw [jobOf] at h
  simp only [jobOf, putJob, hb, hs]
  generalize e.jobs = l at h ⊢
  induction l with
  | nil => simp at h
  | cons z l ih =>
    rw [List.find?_cons] at h
    rw [List.map_cons, List.find?_cons]
    by_cases hz : z.bucket = bucket ∧ z.stage = stage
    · simp [hz, hb, hs]
    · have hz' : (z.bucket == bucket && z.stage == stage) = false := by simpa using hz
      have hz'' : (decide (z.bucket = bucket) && decide (z.stage = stage)) = false := by simpa using hz
      rw [hz'] at h
      simp only [hz'', Bool.false_eq_true, if_false, hz']
      exact ih h

theorem setExch_exch (s : State) (p : Nat) (e : Option Exch) : ((s.setExch p e).xchOf p).exch = e := by
  rw [State.setExch, State.setXch, State.xchOf, SMap.get_set_same]

/-- A message that changes its job to `y`: what else it does concerns ports and registers. -/
theorem jobAfter_put {e' : Exch} {y : XJob} {P : XJob → Prop}
    (ht : Sends ((s.messageTaken k).setExch x.t.part (some e')) t) (hj : jobOf e' bucket stage = some y) (hP : P y) : JobAfter s t k x stage bucket P := by
  have hx : t.xchOf x.t.part = ((s.messageTaken k).setExch x.t.part (some e')).xchOf x.t.part := by rw [ht]; rfl
  refine ⟨by rw [ht]; rfl, by rw [ht]; rfl, e', y, ?_, hj, hP⟩
  rw [hx, setExch_exch]

/-- A message that leaves its job. -/
theorem JobArrives.passes (h : JobArrives s k kind x e j d stage dir bucket block) (ht : Sends (s.messageTaken k) t) :
    JobAfter s t k x stage bucket (fun y => y = j) := by
  obtain ⟨⟨-, -, hexch, -⟩, -, hjob, -⟩ := h
  have hx : t.xchOf x.t.part = s.xchOf x.t.part := by rw [ht]; rfl
  exact ⟨by rw [ht]; rfl, by rw [ht]; rfl, e, j, by rw [hx, hexch], hjob, rfl⟩

/-- A message for which nothing but a message to a neighbour is sent. -/
theorem JobArrives.sent (h : JobArrives s k kind x e j d stage dir bucket block) {n : Nat} (hn : n < 2) (p kind' st dr b bl : Nat) (l : List Byte)
    {r : State} (ht : t = r.exchSend p (2 * d + n) kind' st dr b bl l) (hs : r.ports = s.ports) (hpkg : r.pkg = s.pkg) :
    ExchSent s t p (2 * d + n) kind' st dr b bl l := by
  have hup : (r.port (2 * d + n)).state = 3 := by
    rw [State.port, hs]
    exact h.port_up hn
  exact (exchSend_sent hup p kind' st dr b bl l).congr hs hpkg (congrArg State.ports ht)

/-! #### EXPONENT (R379) -/

/-- One block's agreed exponent is kept and the block is quantised (R379, R380). -/
def State.agreeBlock (h p d block : Nat) (j : XJob) (a : State × XJob × Exch) (x : Nat × Nat) : State × XJob × Exch :=
  let b := block + x.2
  let v := (a.2.1.vals[b - j.first]?).getD { held := none, vals := [] }
  let r := v.vals.map (fun y => quantise (v.value y) x.1 h)
  let q := r.map Prod.fst
  let e := if j.stage = 0 then { a.2.2 with asq := a.2.2.asq.set none (j.bucket * a.2.2.bucket + b) (some (sumSquares q, x.1)) } else a.2.2
  (a.1.bumpX p d 0x120 ((r.filter (fun y => y.2)).length),
   { a.2.1 with agreed := a.2.1.agreed.set none b (some x.1), q := a.2.1.q.set [] b q }, { e with void := e.void || x.1 == 0xFF })

/-- What the agreed exponents `l` of consecutive blocks, taken into the job `j`, leave of it (R379, R380). -/
structure Agreed (h block : Nat) (l : List Nat) (s : State) (j : XJob) (e : Exch) (r : State × XJob × Exch) : Prop where
  sends : Sends s r.1
  ports : r.1.ports = s.ports
  frame : r.2.1 = { j with agreed := r.2.1.agreed, q := r.2.1.q }
  jobs : r.2.2.jobs = e.jobs
  agreed : ∀ i v, l[i]? = some v → r.2.1.agreed.get none (block + i) = some v
  q : ∀ i v, l[i]? = some v → r.2.1.q.get [] (block + i) = (let b := (j.vals[block + i - j.first]?).getD ⟨none, []⟩
    b.vals.map (fun n => (quantise (b.value n) v h).1))

theorem agreeBlock_agreed {h block : Nat} {l : List Nat} {r : State × XJob × Exch} (p d v : Nat) (hr : Agreed h block l s j e r) :
    Agreed h block (l ++ [v]) s j e (agreeBlock h p d block j r (v, l.length)) := by
  obtain ⟨r, y, e'⟩ := r
  obtain ⟨hsends, hports, hframe, hjobs, hagreed, hq⟩ := hr
  have hlt {i w : Nat} (hi : l[i]? = some w) : i < l.length := (List.getElem?_eq_some_iff.1 hi).1
  have hcase {i w : Nat} (hi : (l ++ [v])[i]? = some w) : l[i]? = some w ∧ i ≠ l.length ∨ i = l.length ∧ w = v := by
    rcases lt_or_ge i l.length with h | h
    · exact .inl ⟨by rwa [List.getElem?_append_left h] at hi, h.ne⟩
    · obtain ⟨hlen, hw⟩ := List.getElem?_eq_some_iff.1 hi
      rw [List.length_append, List.length_singleton] at hlen
      obtain rfl : i = l.length := by omega
      exact .inr ⟨rfl, by simpa using hw.symm⟩
  have hvals : y.vals = j.vals := (congrArg XJob.vals hframe :)
  refine ⟨hsends.trans (sends_bump ..), (bump_ports ..).trans hports, ?_, ?_, fun i w hi => ?_, fun i w hi => ?_⟩
  · dsimp only [agreeBlock] at hframe ⊢
    rw [hframe]
  · dsimp only [agreeBlock]
    split <;> exact hjobs
  · dsimp only [agreeBlock]
    rw [SMap.get_set]
    rcases hcase hi with ⟨hi, hne⟩ | ⟨rfl, rfl⟩
    · rw [if_neg (by omega)]
      exact hagreed i w hi
    · rw [if_pos rfl]
  · dsimp only [agreeBlock]
    rw [SMap.get_set]
    rcases hcase hi with ⟨hi, hne⟩ | ⟨rfl, rfl⟩
    · rw [if_neg (by omega)]
      exact hq i w hi
    · rw [if_pos rfl, hvals, List.map_map]
      rfl

theorem takeAgreed_agreed (s : State) (p d : Nat) (e : Exch) (j : XJob) (block : Nat) (l : List Nat) :
    ∃ r : State × XJob × Exch, s.takeAgreed p d e j block l = (r.1, putJob r.2.2 r.2.1, r.2.1) ∧ Agreed (headroom (s.torus d)) block l s j e r := by
  refine ⟨l.zipIdx.foldl (agreeBlock (headroom (s.torus d)) p d block j) (s, j, e), rfl, ?_⟩
  induction l using List.reverseRecOn with
  | nil => exact ⟨.refl s, rfl, rfl, rfl, by simp, by simp⟩
  | append_singleton l v ih =>
    rw [List.zipIdx_append, List.foldl_append]
    simpa using agreeBlock_agreed p d v ih

/-- The exponents of a message, each joined to the local exponent of its block (R379). -/
def XJob.joined (j : XJob) (block : Nat) (l : List Byte) : List Nat :=
  l.zipIdx.map (fun v => max v.1.toNat ((j.exps[block + v.2 - j.first]?).getD 0))

/-- An EXPONENT's first passing: the exponents sent on, or agreed by the owner (R379). -/
theorem takeExponent_first (h : JobArrives s k 1 x e j d stage dir bucket block) (hp : j.passed.contains block = false) :
    s.takeExponent k = (
      let u := s.messageTaken k
      let m := j.joined block x.t.data
      let y := { j with passed := j.passed ++ (List.range x.t.data.length).map (block + ·) }
      if s.pos d ≠ (halfOf j (s.torus d) block).1 then (u.setExch x.t.part (some (putJob e y))).sendExps x.t.part d y dir block m
      else
        let a := m.map (fun v => agreeExp v (headroom (s.torus d)))
        let bad := (a.filter (· == 0xFF)).length
        let r := u.takeAgreed x.t.part d { e with nonfinite := e.nonfinite + bad } y block a
        ((r.1.bumpX x.t.part d 0x128 bad).setExch x.t.part (some r.2.1)).sendExps x.t.part d r.2.2 dir block a) := by
  rw [State.takeExponent, h.withJob]
  obtain ⟨⟨-, hheld, -⟩, haddr, -⟩ := h
  simp only [haddr, dropTxn_messageTaken hheld, hp, XJob.joined, List.zipIdx_map, List.map_map, List.length_map]
  rfl

theorem exponent_sent_on (h : JobArrives s k 1 x e j d stage dir bucket block) (hp : j.passed.contains block = false)
    (hpos : 0 < x.t.data.length) (hmax : x.t.data.length ≤ 512) (hdir : dir < 2) (ho : s.pos d ≠ (halfOf j (s.torus d) block).1) :
    Completes (.exponent k) s (fun t =>
      JobAfter s t k x stage bucket (fun y => y = { j with passed := j.passed ++ (List.range x.t.data.length).map (block + ·) })
      ∧ ExchSent s t x.t.part (2 * d + dir) 1 stage dir bucket block ((j.joined block x.t.data).map (BitVec.ofNat 8))) := by
  refine ⟨_, congrArg Host.Outcome.next (takeExponent_first h hp), ?_⟩
  have hm : (j.joined block x.t.data).length = x.t.data.length := by simp [XJob.joined]
  dsimp only
  rw [if_pos ho, sendExps_one (hm ▸ hpos) (hm ▸ hmax)]
  obtain ⟨-, -, hjob, hb, hst, -⟩ := id h
  subst hb hst
  exact ⟨jobAfter_put (sends_exchSend ..) (jobOf_putJob hjob rfl rfl) rfl, h.sent hdir _ _ _ _ _ _ _ rfl rfl rfl⟩

theorem exponent_agreed (h : JobArrives s k 1 x e j d stage dir bucket block) (hp : j.passed.contains block = false)
    (hpos : 0 < x.t.data.length) (hmax : x.t.data.length ≤ 512) (hdir : dir < 2) (ho : s.pos d = (halfOf j (s.torus d) block).1) :
    let a := (j.joined block x.t.data).map (fun v => agreeExp v (headroom (s.torus d)))
    Completes (.exponent k) s (fun t =>
      JobAfter s t k x stage bucket (fun y => ∀ i v, a[i]? = some v → y.agreed.get none (block + i) = some v
        ∧ y.q.get [] (block + i) = (let b := (j.vals[block + i - j.first]?).getD ⟨none, []⟩
            b.vals.map (fun n => (quantise (b.value n) v (headroom (s.torus d))).1)))
      ∧ ExchSent s t x.t.part (2 * d + dir) 1 stage dir bucket block (a.map (BitVec.ofNat 8))) := by
  intro a
  refine ⟨_, congrArg Host.Outcome.next (takeExponent_first h hp), ?_⟩
  have ha : a.length = x.t.data.length := by simp [a, XJob.joined]
  dsimp only
  rw [if_neg (not_not.2 ho)]
  obtain ⟨r, hr, hagreed⟩ := takeAgreed_agreed (s.messageTaken k) x.t.part d
    { e with nonfinite := e.nonfinite + (a.filter (· == 0xFF)).length }
    { j with passed := j.passed ++ (List.range x.t.data.length).map (block + ·) } block a
  obtain ⟨r, y, e'⟩ := r
  obtain ⟨hsends, hports, hframe, hjobs, hget, hq⟩ := hagreed
  dsimp only at hr hsends hports hframe hjobs hget hq
  rw [hr, sendExps_one (ha ▸ hpos) (ha ▸ hmax)]
  obtain ⟨-, -, hjob, hb, hst, -⟩ := id h
  have hjob' : jobOf e' bucket stage = some j := by
    rw [jobOf, hjobs]
    exact hjob
  have hyb : y.bucket = bucket := (congrArg XJob.bucket hframe).trans hb
  have hys : y.stage = stage := (congrArg XJob.stage hframe).trans hst
  have hbump := (hsends.trans (sends_bump r (pages .xch x.t.part d 0x128) (a.filter (· == 0xFF)).length)).setExch x.t.part (some (putJob e' y))
  have hpkg : r.pkg = s.pkg := by rw [hsends]; rfl
  rw [← hyb, ← hys]
  refine ⟨jobAfter_put (hbump.trans (sends_exchSend ..)) (jobOf_putJob (hyb ▸ hys ▸ hjob') rfl rfl) fun i v hi => ⟨hget i v hi, hq i v hi⟩,
    h.sent hdir _ _ _ _ _ _ _ rfl ?_ ?_⟩
  · exact (bump_ports ..).trans hports
  · exact (bump_pkg ..).trans hpkg

/-! #### DATA and CHECKSUM (R381, R382) -/

/-- The owner has nothing to compare while every block lacks its sums or its carried checksums (R382). -/
theorem ownerCheck_incomplete {y : XJob} (hhalf : 2 ≤ y.n / s.torus d) (hmiss : ∀ b, ((y.carried.get none b).isNone || (y.sums.get [] b).isEmpty) = true)
    (hok : y.okHalf = []) (hres : y.res = []) (hmism : e.mism = []) : s.ownerCheck p d e y = s.setExch p (some (putJob e y)) := by
  have hany (dir : Nat) : ((halfBlocks y (s.torus d) (s.pos d) dir).any fun b => (y.carried.get none b).isNone || (y.sums.get [] b).isEmpty) = true := by
    refine List.any_eq_true.2 ⟨_, List.mem_map.2 ⟨0, List.mem_range.2 ?_, rfl⟩, hmiss _⟩
    omega
  have hget (n : Nat) : e.mism.get 0 n = 0 := by
    rw [hmism]
    rfl
  unfold State.ownerCheck
  simp only [List.foldl_cons, List.foldl_nil, hany, Bool.or_true, if_true, hget, hok, hres]
  rfl

/-- A block's values with this device's own added (R381). -/
def XJob.dataSum (j : XJob) (block : Nat) (l : List Byte) : List Int :=
  (j.q.get [] block).zipIdx.map (fun v => wrap16 (v.1 + toSigned 16 (ofLeBytes ((l.drop (2 * v.2)).take 2))))

theorem takeData_eq (h : JobArrives s k 2 x e j d stage dir bucket block) (ha : (j.agreed.get none block).isSome = true) :
    s.takeData k = (
      let u := s.messageTaken k
      let sum := j.dataSum block x.t.data
      if s.pos d = (halfOf j (s.torus d) block).1 then u.ownerCheck x.t.part d e { j with sums := j.sums.set [] block sum }
      else ((u.exchSend x.t.part (2 * d + dir) 2 j.stage dir j.bucket block ((sum.map (fun v => leBytes 2 (ofSigned 16 v))).flatten)).bumpX
        x.t.part d 0x100 1).bumpX x.t.part d 0x108 1) := by
  have hnone : (j.agreed.get none block).isNone = false := by rw [← Option.not_isSome, ha]; rfl
  rw [State.takeData, h.withJob]
  obtain ⟨⟨-, hheld, -⟩, haddr, -⟩ := h
  simp only [haddr, dropTxn_messageTaken hheld, hnone, Bool.false_eq_true, if_false]
  rfl

theorem data_sent_on (h : JobArrives s k 2 x e j d stage dir bucket block) (ha : (j.agreed.get none block).isSome = true) (hdir : dir < 2)
    (ho : s.pos d ≠ (halfOf j (s.torus d) block).1) :
    Completes (.data k) s (fun t => JobAfter s t k x stage bucket (fun y => y = j)
      ∧ ExchSent s t x.t.part (2 * d + dir) 2 stage dir bucket block
          (((j.dataSum block x.t.data).map (fun v => leBytes 2 (ofSigned 16 v))).flatten)) := by
  refine ⟨_, congrArg Host.Outcome.next (takeData_eq h ha), ?_⟩
  dsimp only
  rw [if_neg ho]
  refine ⟨h.passes (((sends_exchSend ..).trans (sends_bump ..)).trans (sends_bump ..)), ?_⟩
  obtain ⟨-, -, -, hb, hst, -⟩ := id h
  rw [← hb, ← hst]
  exact (h.sent hdir _ _ _ _ _ _ _ (r := s.messageTaken k) rfl rfl rfl).congr rfl rfl ((bump_ports ..).trans (bump_ports ..))

theorem data_kept (h : JobArrives s k 2 x e j d stage dir bucket block) (ha : (j.agreed.get none block).isSome = true) (hcar : j.carried = [])
    (hok : j.okHalf = []) (hres : j.res = []) (hmism : e.mism = []) (hhalf : 2 ≤ j.n / s.torus d) (ho : s.pos d = (halfOf j (s.torus d) block).1) :
    Completes (.data k) s (fun t =>
      JobAfter s t k x stage bucket (fun y => y = { j with sums := j.sums.set [] block (j.dataSum block x.t.data) }) ∧ t.ports = s.ports) := by
  refine ⟨_, congrArg Host.Outcome.next (takeData_eq h ha), ?_⟩
  dsimp only
  rw [if_pos ho, ownerCheck_incomplete (s := s.messageTaken k) (y := { j with sums := j.sums.set [] block (j.dataSum block x.t.data) }) hhalf
    (fun _ => by simp [hcar]) hok hres hmism]
  obtain ⟨-, -, hjob, hb, hst, -⟩ := h
  exact ⟨jobAfter_put (.refl _) (jobOf_putJob hjob hb hst) rfl, rfl⟩

/-- A pair of checksums with this device's own added (R382). -/
def XJob.checkSum (j : XJob) (block : Nat) (l : List Byte) : Nat × Nat :=
  addChecksums (rec32 l 0, rec32 l 4) (checksums (j.q.get [] block))

theorem takeChecksum_one (h : JobArrives s k 3 x e j d stage dir bucket block) (hlen : x.t.data.length = 8)
    (ha : (j.agreed.get none block).isSome = true) :
    s.takeChecksum k = (
      let u := s.messageTaken k
      let sum := j.checkSum block x.t.data
      if s.pos d = (halfOf j (s.torus d) block).1 then u.ownerCheck x.t.part d e { j with carried := j.carried.set none block (some sum) }
      else u.exchSend x.t.part (2 * d + dir) 3 j.stage dir j.bucket block (leBytes 4 sum.1 ++ leBytes 4 sum.2)) := by
  have hnone : (j.agreed.get none block).isNone = false := by rw [← Option.not_isSome, ha]; rfl
  rw [State.takeChecksum, h.withJob]
  obtain ⟨⟨-, hheld, -⟩, haddr, -⟩ := h
  simp only [haddr, dropTxn_messageTaken hheld, hlen, Nat.div_self (show 0 < 8 by decide), List.range_one, List.any_cons, List.any_nil, Nat.add_zero,
    hnone, Bool.or_false, Bool.false_eq_true, if_false, List.map_cons, List.map_nil, Nat.mul_zero, Nat.zero_add, List.flatten_cons, List.flatten_nil,
    List.append_nil]
  rfl

theorem checksum_sent_on (h : JobArrives s k 3 x e j d stage dir bucket block) (hlen : x.t.data.length = 8)
    (ha : (j.agreed.get none block).isSome = true) (hdir : dir < 2) (ho : s.pos d ≠ (halfOf j (s.torus d) block).1) :
    Completes (.checksum k) s (fun t => JobAfter s t k x stage bucket (fun y => y = j)
      ∧ ExchSent s t x.t.part (2 * d + dir) 3 stage dir bucket block
          (leBytes 4 (j.checkSum block x.t.data).1 ++ leBytes 4 (j.checkSum block x.t.data).2)) := by
  refine ⟨_, congrArg Host.Outcome.next (takeChecksum_one h hlen ha), ?_⟩
  dsimp only
  rw [if_neg ho]
  refine ⟨h.passes (sends_exchSend ..), ?_⟩
  obtain ⟨-, -, -, hb, hst, -⟩ := id h
  rw [← hb, ← hst]
  exact h.sent hdir _ _ _ _ _ _ _ rfl rfl rfl

theorem checksum_kept (h : JobArrives s k 3 x e j d stage dir bucket block) (hlen : x.t.data.length = 8)
    (ha : (j.agreed.get none block).isSome = true) (hsums : j.sums = []) (hok : j.okHalf = []) (hres : j.res = []) (hmism : e.mism = [])
    (hhalf : 2 ≤ j.n / s.torus d) (ho : s.pos d = (halfOf j (s.torus d) block).1) :
    Completes (.checksum k) s (fun t =>
      JobAfter s t k x stage bucket (fun y => y = { j with carried := j.carried.set none block (some (j.checkSum block x.t.data)) })
      ∧ t.ports = s.ports) := by
  refine ⟨_, congrArg Host.Outcome.next (takeChecksum_one h hlen ha), ?_⟩
  dsimp only
  rw [if_pos ho, ownerCheck_incomplete (s := s.messageTaken k)
    (y := { j with carried := j.carried.set none block (some (j.checkSum block x.t.data)) }) hhalf (fun _ => by simp [hsums]) hok hres hmism]
  obtain ⟨-, -, hjob, hb, hst, -⟩ := h
  exact ⟨jobAfter_put (.refl _) (jobOf_putJob hjob hb hst) rfl, rfl⟩

/-! #### VERDICT (R383) -/

/-- A verdict goes on around the ring until it has passed every device (R383). -/
def State.verdictOn (s : State) (k d o : Nat) (x : InTxn) (j : XJob) : State :=
  let u := s.messageTaken k
  if after (s.torus d) 0 (s.pos d) = o then u else u.exchSend x.t.part (2 * d) 4 j.stage 0 j.bucket j.first x.t.data

theorem verdictOn_sends (s : State) (k d o : Nat) (x : InTxn) (j : XJob) : Sends (s.messageTaken k) (s.verdictOn k d o x j) := by
  unfold State.verdictOn
  dsimp only
  split
  · exact .refl _
  · exact sends_exchSend ..

theorem testBit_of_bits {v i n lo w : Nat} (h : bits v lo w = n) (hi : i < w) : v.testBit (lo + i) = n.testBit i := by
  rw [← h, bits, Nat.testBit_mod_two_pow, Nat.testBit_shiftRight]
  simp [hi]

theorem takeVerdict_eq (h : JobArrives s k 4 x e j d stage dir bucket block) :
    s.takeVerdict k = (
      let v := ofLeBytes x.t.data
      let o := bits v 0 8
      let l := s.torus d
      let u := [0, 1].foldl (fun u dir =>
        if v.testBit (8 + dir) && after l dir o = s.pos d then (u.sendData x.t.part d j dir (halfBlocks j l o dir)).bumpX x.t.part d 0x118 1 else u)
        (s.verdictOn k d o x j)
      if bits v 8 2 = 0 && !j.clean.contains o then u.stageEnd x.t.part d e { j with clean := j.clean ++ [o] } else u) := by
  rw [State.takeVerdict, h.withJob]
  obtain ⟨⟨-, hheld, -⟩, -⟩ := h
  simp only [dropTxn_messageTaken hheld]
  rfl

theorem verdict_counted (h : JobArrives s k 4 x e j d stage dir bucket block) (hv : bits (ofLeBytes x.t.data) 8 2 = 0)
    (hnew : j.clean.contains (bits (ofLeBytes x.t.data) 0 8) = false) (hlast : j.clean.length + 1 < s.torus d) :
    Completes (.verdict k) s (fun t =>
      JobAfter s t k x stage bucket (fun y => y = { j with clean := j.clean ++ [bits (ofLeBytes x.t.data) 0 8] })
      ∧ if after (s.torus d) 0 (s.pos d) = bits (ofLeBytes x.t.data) 0 8 then t.ports = s.ports
        else ExchSent s t x.t.part (2 * d) 4 stage 0 bucket j.first x.t.data) := by
  refine ⟨_, congrArg Host.Outcome.next (takeVerdict_eq h), ?_⟩
  have h8 : (ofLeBytes x.t.data).testBit 8 = false := testBit_of_bits (i := 0) hv (by decide)
  have h9 : (ofLeBytes x.t.data).testBit 9 = false := testBit_of_bits (i := 1) hv (by decide)
  have hsends := verdictOn_sends s k d (bits (ofLeBytes x.t.data) 0 8) x j
  simp only [List.foldl_cons, List.foldl_nil, Nat.add_zero, Nat.reduceAdd, h8, h9, Bool.false_and, Bool.false_eq_true, if_false, hv, hnew,
    decide_true, Bool.not_false, Bool.and_true, if_true]
  have hend : (s.verdictOn k d (bits (ofLeBytes x.t.data) 0 8) x j).stageEnd x.t.part d e { j with clean := j.clean ++ [bits (ofLeBytes x.t.data) 0 8] }
      = (s.verdictOn k d (bits (ofLeBytes x.t.data) 0 8) x j).setExch x.t.part
          (some (putJob e { j with clean := j.clean ++ [bits (ofLeBytes x.t.data) 0 8] })) := by
    have htorus : (s.verdictOn k d (bits (ofLeBytes x.t.data) 0 8) x j).torus d = s.torus d := by rw [hsends]; rfl
    unfold State.stageEnd
    simp only [htorus, List.length_append, List.length_singleton, if_pos hlast]
  rw [hend]
  obtain ⟨-, -, hjob, hb, hst, -⟩ := id h
  refine ⟨jobAfter_put (hsends.setExch ..) (jobOf_putJob hjob hb hst) rfl, ?_⟩
  unfold State.verdictOn
  dsimp only
  split
  · rfl
  · subst hb hst
    exact (h.sent (n := 0) (by decide) _ _ _ _ _ _ _ (r := s.messageTaken k) rfl rfl rfl).congr rfl rfl rfl

theorem verdict_repeats (h : JobArrives s k 4 x e j d stage dir bucket block) (hv : bits (ofLeBytes x.t.data) 8 2 = 1)
    (hmine : after (s.torus d) 0 (bits (ofLeBytes x.t.data) 0 8) = s.pos d) (hend : after (s.torus d) 0 (s.pos d) = bits (ofLeBytes x.t.data) 0 8) :
    Completes (.verdict k) s (fun t => JobAfter s t k x stage bucket (fun y => y = j)
      ∧ t.ports = ((s.dropTxn k x).sendData x.t.part d j 0 (halfBlocks j (s.torus d) (bits (ofLeBytes x.t.data) 0 8) 0)).ports) := by
  refine ⟨_, congrArg Host.Outcome.next (takeVerdict_eq h), ?_⟩
  have h8 : (ofLeBytes x.t.data).testBit 8 = true := testBit_of_bits (i := 0) hv (by decide)
  have h9 : (ofLeBytes x.t.data).testBit 9 = false := testBit_of_bits (i := 1) hv (by decide)
  have hon : s.verdictOn k d (bits (ofLeBytes x.t.data) 0 8) x j = s.messageTaken k := if_pos hend
  simp only [List.foldl_cons, List.foldl_nil, Nat.add_zero, Nat.reduceAdd, h8, h9, Bool.false_and, Bool.false_eq_true, if_false, hv, hmine, hon,
    decide_true, Bool.and_self, if_true, Nat.one_ne_zero, decide_false]
  refine ⟨h.passes ((sends_sendData ..).trans (sends_bump ..)), ?_⟩
  obtain ⟨⟨-, hheld, -⟩, -⟩ := h
  rw [dropTxn_messageTaken hheld]
  exact bump_ports ..

/-! #### What is read and staged (R374, R377) -/

/-- A step that leaves the exchanges and the translations. -/
structure WorkKept (s t : State) : Prop where
  xch : t.xch = s.xch
  extents : t.extents = s.extents

theorem WorkKept.refl (s : State) : WorkKept s s := ⟨rfl, rfl⟩

theorem WorkKept.trans (h : WorkKept s t) (h' : WorkKept t u) : WorkKept s u := ⟨h'.xch.trans h.xch, h'.extents.trans h.extents⟩

theorem WorkKept.foldl {α : Type} {f : State → α → State} (hf : ∀ s a, WorkKept s (f s a)) (l : List α) (s : State) : WorkKept s (l.foldl f s) :=
  State.foldl_keeps (WorkKept s) f (fun t a h => h.trans (hf t a)) l s (.refl s)

theorem WorkKept.foldl_snd {α β : Type} {f : β × State → α → β × State} (hf : ∀ x a, WorkKept x.2 (f x a).2) (l : List α) (x : β × State) :
    WorkKept x.2 (l.foldl f x).2 := by
  induction l generalizing x with
  | nil => exact .refl _
  | cons a l ih => exact (hf x a).trans (ih _)

theorem Loads.workKept (h : Loads s t) : WorkKept s t := by
  rw [Loads] at h
  constructor <;> rw [h]

theorem LatchedOnly.workKept (h : LatchedOnly s t) : WorkKept s t := by
  rw [LatchedOnly] at h
  constructor <;> rw [h]

theorem Sends.workKept (h : Sends s t) : WorkKept s t := by
  rw [Sends] at h
  constructor <;> rw [h]

theorem Sends.peek (h : Sends s t) (a : Nat) : t.peek a = s.peek a := by
  rw [Sends] at h
  exact peek_congr (by rw [h]) (by rw [h]; rfl)

theorem workKept_busRead (s : State) (lpa n : Nat) : WorkKept s (s.busRead lpa n).2 := by
  unfold State.busRead
  split
  · refine WorkKept.foldl_snd (x := ([], s)) (fun x i => ?_) _
    split
    · exact (latchedOnly_regRead ..).workKept
    · exact .refl _
  · exact .refl s

theorem workKept_loadPa (s : State) (p pa n : Nat) : WorkKept s (s.loadPa p pa n).2 := by
  unfold State.loadPa
  split
  · exact .refl s
  refine (loads_readPa s p pa n).workKept.trans (WorkKept.foldl_snd (x := ([], s.readPa p pa n)) (fun x i => ?_) _)
  dsimp only
  split
  · exact workKept_busRead ..
  · exact .refl _

theorem workKept_setMemBytes (s : State) (a : Nat) (l : List Byte) : WorkKept s (s.setMemBytes a l) := by
  rw [setMemBytes_frame]
  exact ⟨rfl, rfl⟩

theorem workKept_pokeLine (s : State) (p a : Nat) (l : List Byte) : WorkKept s (s.pokeLine p a l) := by
  have hmem (s : State) : WorkKept s (s.putMemory a l) := by
    unfold State.putMemory
    refine (workKept_setMemBytes s a l).trans (.foldl (fun s w => ?_) _ _)
    split
    · exact ⟨rfl, rfl⟩
    · exact .refl s
  have halloc {s t : State} (h : s.allocLine p a = some t) : WorkKept s (t.writeLine a l) := (loads_allocLine h).workKept.trans ⟨rfl, rfl⟩
  unfold State.pokeLine
  refine .trans (t := s.wake a) ⟨rfl, rfl⟩ ?_
  generalize s.wake a = r
  dsimp only
  split
  · split
    · exact .refl r
    · refine (workKept_setMemBytes r a l).trans (.foldl (fun s w => ?_) _ _)
      split
      · exact ⟨rfl, rfl⟩
      · exact .refl s
  · split
    · next h => exact halloc h
    · exact hmem r
  · split
    · exact (loads_bump ..).workKept
    · split
      · next h => exact halloc h
      · exact hmem r
  · exact .refl r

theorem workKept_pokePa (s : State) (p pa : Nat) (l : List Byte) : WorkKept s (s.pokePa p pa l) := by
  unfold State.pokePa
  split
  · exact .refl s
  · refine .foldl (fun s i => ?_) _ _
    dsimp only
    split
    · exact workKept_pokeLine ..
    · exact .refl s

theorem loads_xchBytes (s : State) (p pa n : Nat) : Loads s (s.xchBytes p pa n) := by
  unfold State.xchBytes
  refine State.foldl_keeps (Loads s) _ (fun t a h => h.trans (.trans (t := t.draw.2) rfl (loads_bump ..))) _ s rfl

theorem xchBytes_peek (s : State) (p pa n a : Nat) : (s.xchBytes p pa n).peek a = s.peek a := by
  unfold State.xchBytes
  refine State.foldl_keeps (fun t => t.peek a = s.peek a) _ (fun t c h => ?_) _ s rfl
  rw [bump_peek]
  exact h

/-- An address in the line of a translated one is translated alike (R56). -/
theorem translate_add {pa perm a n : Nat} (h : s.translate p pa perm = some a) (hn : pa % 128 + n < 128) : s.translate p (pa + n) perm = some (a + n) := by
  have hshift : (pa + n) >>> 16 = pa >>> 16 := by
    rw [Nat.shiftRight_eq_div_pow, Nat.shiftRight_eq_div_pow]
    omega
  have hor (b c : Nat) (hc : c < 65536) : b <<< 16 ||| c = b * 65536 + c := by
    rw [← Nat.shiftLeft_add_eq_or_of_lt (i := 16) hc, Nat.shiftLeft_eq]
  have hcover : s.coverOf p (pa + n) = s.coverOf p pa := by rw [State.coverOf, State.coverOf, hshift]
  unfold State.translate at h ⊢
  rw [hcover]
  split at h
  · exact absurd h (by simp)
  rw [if_neg (by omega)]
  split at h
  · exact absurd h (by simp)
  · split at h
    · rw [hor _ _ (Nat.mod_lt _ (by decide))] at h
      rw [hshift, hor _ _ (Nat.mod_lt _ (by decide))]
      have := Option.some.inj h
      rw [if_pos ‹_›]
      congr 1
      omega
    · exact absurd h (by simp)

/-- A step after which address `b` reads as before and every present line is still present. -/
structure ByteKept (b : Nat) (s t : State) : Prop where
  peek : t.peek b = s.peek b
  extents : t.extents = s.extents
  present : ∀ a, (s.line a).present = true → (t.line a).present = true

/-- Bytes written to present lines of HBM: no byte elsewhere reads differently. -/
theorem pokePa_byteKept {p pa b : Nat} {l : List Byte}
    (hat : ∀ i a, i < l.length → s.translate p (pa + i) 0 = some a → (s.line a).present = true ∧ place a = .hbm)
    (hb : ∀ i, i < l.length → s.translate p (pa + i) 0 ≠ some b) : ByteKept b s (s.pokePa p pa l) := by
  unfold State.pokePa
  split
  · exact ⟨rfl, rfl, fun _ => id⟩
  next hne =>
  have hlen : 0 < l.length := List.length_pos_iff.2 fun h => hne (by rw [h]; rfl)
  refine List.foldlRecOn (motive := ByteKept b s) _ _ ⟨rfl, rfl, fun _ => id⟩ fun t ht i hi => ?_
  have hi := List.mem_range.1 hi
  generalize hlo : max pa ((pa / 128 + i) * 128) = lo
  generalize hhi : min (pa + l.length) ((pa / 128 + i + 1) * 128) = hi'
  have hin : pa ≤ lo ∧ lo < pa + l.length := by omega
  dsimp only
  rw [translate_congr ht.extents]
  split
  · next a htr =>
    obtain ⟨hpres, hhbm⟩ := hat (lo - pa) a (by omega) (by rwa [Nat.add_sub_cancel' hin.1])
    have hmod := translate_mod htr
    have hpiece : ((l.drop (lo - pa)).take (hi' - lo)).length ≤ hi' - lo := List.length_take_le ..
    have hfit : lo % 128 + (hi' - lo) ≤ 128 := by omega
    rw [pokeLine_present hhbm (ht.present a hpres)]
    refine ⟨?_, ht.extents, fun c hc => ?_⟩
    · rw [writeLine_peek hhbm (s := t.wake a) (ht.present a hpres) (by omega), if_neg, wake_peek, ht.peek]
      rintro ⟨hab, hba⟩
      refine hb (lo - pa + (b - a)) (by omega) ?_
      have := translate_add htr (n := b - a) (by omega)
      rwa [show pa + (lo - pa + (b - a)) = lo + (b - a) by omega, this, Nat.add_sub_cancel']
    · rw [State.writeLine, line_setLine]
      split
      · exact ht.present a hpres
      · exact ht.present c hc
  · exact ht

/-- What blocks leave in the staging area changes no byte outside it, where its lines are present (R374). -/
theorem stageBytes_kept (s : State) (p : Nat) (e : Exch) (n r : Nat) :
    WorkKept s (s.stageBytes p e n (e.stg + r % (e.stgSize + 1 - 1024 * n)))
    ∧ ((∀ i a, i < e.stgSize → s.translate p (e.stg + i) 0 = some a → (s.line a).present = true ∧ place a = .hbm) →
      ∀ b, (∀ i, i < e.stgSize → s.translate p (e.stg + i) 0 ≠ some b) →
        (s.stageBytes p e n (e.stg + r % (e.stgSize + 1 - 1024 * n))).peek b = s.peek b) := by
  unfold State.stageBytes
  split
  · exact ⟨.refl s, fun _ _ _ => rfl⟩
  next hsize =>
  dsimp only
  have hlen : (s.draw.2.drawBytes (1024 * n)).1.length = 1024 * n := length_leBytes ..
  have hr : r % (e.stgSize + 1 - 1024 * n) < e.stgSize + 1 - 1024 * n := Nat.mod_lt _ (by omega)
  have hdraw : WorkKept s (s.draw.2.drawBytes (1024 * n)).2 := ⟨rfl, rfl⟩
  have htr (a : Nat) : (s.draw.2.drawBytes (1024 * n)).2.translate p a 0 = s.translate p a 0 := translate_congr rfl ..
  have hline (a : Nat) : (s.draw.2.drawBytes (1024 * n)).2.line a = s.line a := line_congr rfl a
  have hpeek (a : Nat) : (s.draw.2.drawBytes (1024 * n)).2.peek a = s.peek a := peek_congr rfl rfl
  generalize s.draw.2.drawBytes (1024 * n) = v at hlen hdraw htr hline hpeek
  obtain ⟨l, v⟩ := v
  dsimp only at hlen hdraw htr hline hpeek ⊢
  refine ⟨(hdraw.trans (workKept_pokePa ..)).trans (loads_xchBytes ..).workKept, fun hat b hb => ?_⟩
  rw [State.xchWrite, xchBytes_peek, (pokePa_byteKept (fun i a hi h => ?_) fun i hi h => ?_).peek, hpeek]
  · rw [hline]
    rw [htr, Nat.add_assoc] at h
    exact hat _ a (by omega) h
  · rw [htr, Nat.add_assoc] at h
    exact hb _ (by omega) h

/-! #### A bucket enters its first stage (R377) -/

/-- What a bucket's blocks load, as bytes, and the state after (R377). -/
def State.bucketLoads (s : State) (p : Nat) (pa : Nat → Nat) (n : Nat) : List (List Byte) × State :=
  (List.range n).foldl (fun (a : List (List Byte) × State) i => (a.1 ++ [(a.2.loadPa p (pa i) 1024).1], (a.2.loadPa p (pa i) 1024).2)) ([], s)

/-- 256 FP32 values in the bytes of a block. -/
def fp32Block (l : List Byte) : BlockVals := { held := none, vals := (List.range 256).map (fun k => (rec32 l (4 * k) : Int)) }

theorem bucketLoads_vals (s : State) (p : Nat) (pa : Nat → Nat) (n : Nat) :
    (List.range n).foldl (fun (x : List BlockVals × State) i =>
        let (l, s) := x.2.loadPa p (pa i) 1024
        (x.1 ++ [{ held := none, vals := (List.range 256).map (fun k => (rec32 l (4 * k) : Int)) }], s)) ([], s)
      = ((s.bucketLoads p pa n).1.map fp32Block, (s.bucketLoads p pa n).2) := by
  unfold State.bucketLoads
  generalize List.range n = l
  induction l using List.reverseRecOn with
  | nil => rfl
  | append_singleton l i ih =>
    rw [List.foldl_append, List.foldl_append, ih]
    simp only [List.foldl_cons, List.foldl_nil, List.map_append]
    rfl

theorem bucketLoads_length (s : State) (p : Nat) (pa : Nat → Nat) (n : Nat) : (s.bucketLoads p pa n).1.length = n := by
  unfold State.bucketLoads
  suffices h : ∀ l : List Nat, (l.foldl (fun (a : List (List Byte) × State) i =>
      (a.1 ++ [(a.2.loadPa p (pa i) 1024).1], (a.2.loadPa p (pa i) 1024).2)) ([], s)).1.length = l.length by
    rw [h, List.length_range]
  intro l
  induction l using List.reverseRecOn with
  | nil => rfl
  | append_singleton l i ih => simp [ih]

theorem workKept_bucketLoads (s : State) (p : Nat) (pa : Nat → Nat) (n : Nat) : WorkKept s (s.bucketLoads p pa n).2 :=
  WorkKept.foldl_snd (x := ([], s)) (f := fun a i => (a.1 ++ [(a.2.loadPa p (pa i) 1024).1], (a.2.loadPa p (pa i) 1024).2))
    (fun _ _ => workKept_loadPa ..) _

theorem sends_sendExps (s : State) (p d : Nat) (j : XJob) (dir block : Nat) (l : List Nat) : Sends s (s.sendExps p d j dir block l) := by
  unfold State.sendExps
  generalize pieces 512 (l.length + 1) l = ls
  suffices h : ∀ x : State × Nat, Sends x.1 (ls.foldl (fun (a : State × Nat) x =>
      (a.1.exchSend p (outPort d dir) 1 j.stage dir j.bucket a.2 (x.map (BitVec.ofNat 8)), a.2 + x.length)) x).1 from h (s, block)
  induction ls with
  | nil => exact fun x => .refl _
  | cons y ls ih => exact fun x => (sends_exchSend ..).trans (ih _)

/-- The PA of block `i` of a bucket of SRC. -/
def Exch.blockPa (e : Exch) (b i : Nat) : Nat := e.src + (b * e.bucket + i) * 1024

/-- The local exponents of a bucket's blocks, where none of them is lost (R378). -/
theorem localExps_get {vals : List BlockVals} {lost : Nat → Bool} {i : Nat} {b : BlockVals} (hb : vals[i]? = some b) (hl : lost i = false) :
    (vals.zipIdx.map (fun v => if lost v.2 then 0xFF else v.1.localExp.1))[i]? = some b.localExp.1 := by
  simp [List.getElem?_zipIdx, hb, hl]

/-- The next bucket of an exchange whose neighbours are ready, and whose lines need not wait, enters its first stage. -/
theorem stageStart_first {p : Nat} (hdim : e.dims.head? = some d) (hnext : e.next < e.blocks / e.bucket) (hjobs : e.jobs = [])
    (hheld : e.held.get {} e.next = {}) (hr0 : e.ready.contains (2 * d) = true) (hr1 : e.ready.contains (2 * d + 1) = true)
    (hmark : e.marked = false) (hsrc : s.paWaits p (e.blockPa e.next 0) (e.bucket * 1024) = false)
    (hstg : 1024 * e.bucket ≤ e.stgSize → s.paWaits p (s.stagePlace e e.bucket) (1024 * e.bucket) = false)
    (hclean : ∀ i, i < e.bucket → (s.bucketLoads p (e.blockPa e.next) e.bucket).2.poisonedPa p (e.blockPa e.next i) 1024 = false) :
    ∃ (j : XJob) (m : Nat) (u : State),
      u = (((s.bucketLoads p (e.blockPa e.next) e.bucket).2.setExch p (some { e with jobs := [j], next := e.next + 1 })).bumpX p d 0x130 m).stageBytes
          p e e.bucket (s.stagePlace e e.bucket)
      ∧ (∃ l : List (Nat × List Nat), s.stageStart p e e.next = l.foldl (fun s m => s.sendExps p d j m.1 (m.2.headD 0) (m.2.map fun b => (j.exps[b - 0]?).getD 0)) u)
      ∧ j.bucket = e.next ∧ j.stage = 0 ∧ j.first = 0 ∧ j.n = e.bucket
      ∧ j.vals = (s.bucketLoads p (e.blockPa e.next) e.bucket).1.map fp32Block
      ∧ ∀ i b, i < e.bucket → j.vals[i]? = some b → j.exps[i]? = some b.localExp.1 := by
  have hpos : e.bucket ≠ 0 := fun h => by simp [h] at hnext
  have hmax : max 1 e.bucket = e.bucket := by omega
  have hdim' : e.dims[0]? = some d := by rw [← List.head?_eq_getElem?, hdim]
  have hwait : (decide (1024 * e.bucket ≤ e.stgSize) && s.paWaits p (s.stagePlace e e.bucket) (1024 * e.bucket)) = false := by
    by_cases h : 1024 * e.bucket ≤ e.stgSize
    · rw [hstg h, Bool.and_false]
    · rw [decide_eq_false h, Bool.false_and]
  have hvals := bucketLoads_vals s p (e.blockPa e.next) e.bucket
  generalize s.bucketLoads p (e.blockPa e.next) e.bucket = r at hvals hclean ⊢
  unfold Exch.blockPa at hvals hclean hsrc
  unfold State.stageStart
  simp only [hheld, hdim', hmax, hnext, hjobs, hr0, hr1, hmark, hsrc, hwait, decide_true, List.any_nil, Bool.not_false, Bool.and_self, if_true, beq_self_eq_true,
    List.filter_nil, List.length_nil, Nat.zero_lt_succ, Bool.not_true, Bool.false_eq_true, if_false, Bool.or_self, hvals, Bool.true_and, Bool.false_or,
    List.nil_append]
  refine ⟨_, _, _, rfl, ⟨_, rfl⟩, rfl, rfl, rfl, rfl, rfl, fun i b hi hb => ?_⟩
  exact localExps_get (lost := fun i => r.2.poisonedPa p (e.src + (e.next * e.bucket + i) * 1024) 1024) hb (hclean i hi)

theorem bucket_enters {p : Fin 4} (hexch : (s.xchOf p.val).exch = some e) (hdim : e.dims.head? = some d) (hnext : e.next < e.blocks / e.bucket)
    (hjobs : e.jobs = []) (hheld : e.held.get {} e.next = {}) (hr0 : e.ready.contains (2 * d) = true) (hr1 : e.ready.contains (2 * d + 1) = true)
    (hmark : e.marked = false) (hsrc : s.paWaits p.val (e.blockPa e.next 0) (e.bucket * 1024) = false)
    (hstg : 1024 * e.bucket ≤ e.stgSize → s.paWaits p.val (s.stagePlace e e.bucket) (1024 * e.bucket) = false)
    (hclean : ∀ i, i < e.bucket →
      (s.bucketLoads p.val (e.blockPa e.next) e.bucket).2.poisonedPa p.val (e.blockPa e.next i) 1024 = false) :
    let r := s.bucketLoads p.val (e.blockPa e.next) e.bucket
    Completes (.bucketStageStart p e.next) s (fun t =>
      ((∀ i a, i < e.stgSize → s.translate p.val (e.stg + i) 0 = some a → (r.2.line a).present = true ∧ place a = .hbm) →
        ∀ a, (∀ i, i < e.stgSize → s.translate p.val (e.stg + i) 0 ≠ some a) → t.peek a = r.2.peek a) ∧ ∃ j : XJob,
      (t.xchOf p.val).exch = some { e with jobs := [j], next := e.next + 1 }
      ∧ j.bucket = e.next ∧ j.stage = 0 ∧ j.first = 0 ∧ j.n = e.bucket ∧ j.vals.length = e.bucket
      ∧ ∀ i, i < e.bucket → ∃ v, j.vals[i]? = some ⟨none, v⟩ ∧ j.exps[i]? = some (localExpFp32 (v.map Int.toNat)).1
          ∧ v = (List.range 256).map (fun n => (rec32 ((r.1[i]?).getD []) (4 * n) : Int))) := by
  intro r
  obtain ⟨j, m, u, hu, ⟨l, hstart⟩, hb, hst, hfirst, hn, hvals, hexps⟩ :=
    stageStart_first hdim hnext hjobs hheld hr0 hr1 hmark hsrc hstg hclean
  have hexec : exec (.bucketStageStart p e.next) s = .next (s.stageStart p.val e e.next) := by
    show execBucketStageStart p e.next s = _
    rw [execBucketStageStart, hexch]
  have hloads : WorkKept s r.2 := workKept_bucketLoads ..
  have hlen : r.1.length = e.bucket := bucketLoads_length ..
  change u = ((r.2.setExch _ _).bumpX _ _ _ _).stageBytes _ _ _ _ at hu
  change j.vals = r.1.map fp32Block at hvals
  generalize r = r' at hloads hlen hu hvals ⊢
  have hsends : Sends u (s.stageStart p.val e e.next) := by
    rw [hstart]
    exact .foldl (fun _ _ => sends_sendExps ..) _ _
  have hset := setExch_exch r'.2 p.val (some { e with jobs := [j], next := e.next + 1 })
  have hsetPeek (a : Nat) : (r'.2.setExch p.val (some { e with jobs := [j], next := e.next + 1 })).peek a = r'.2.peek a := peek_congr rfl rfl
  have hsetTr (a : Nat) : (r'.2.setExch p.val (some { e with jobs := [j], next := e.next + 1 })).translate p.val a 0 = s.translate p.val a 0 :=
    translate_congr hloads.extents ..
  have hsetLine (a : Nat) : (r'.2.setExch p.val (some { e with jobs := [j], next := e.next + 1 })).line a = r'.2.line a := line_congr rfl a
  generalize r'.2.setExch p.val (some { e with jobs := [j], next := e.next + 1 }) = v at hu hset hsetPeek hsetTr hsetLine
  obtain ⟨hwork, hpeek⟩ := stageBytes_kept (v.bumpX p.val d 0x130 m) p.val e e.bucket s.draw.1
  change WorkKept _ (State.stageBytes _ _ _ _ (s.stagePlace e e.bucket)) at hwork
  change _ → ∀ b, _ → (State.stageBytes _ _ _ _ (s.stagePlace e e.bucket)).peek b = _ at hpeek
  rw [← hu] at hwork hpeek
  have hv : WorkKept v u := .trans (t := v.bumpX p.val d 0x130 m) (sends_bump ..).workKept hwork
  refine ⟨_, hexec, fun hat a ha => ?_, j, ?_, hb, hst, hfirst, hn, by rw [hvals, List.length_map, hlen], fun i hi => ?_⟩
  · have htr (a : Nat) : (v.bumpX p.val d 0x130 m).translate p.val a 0 = s.translate p.val a 0 :=
      (translate_congr (sends_bump ..).workKept.extents ..).trans (hsetTr a)
    rw [hsends.peek, hpeek (fun i b hi h => ?_) a fun i hi h => ha i hi (htr _ ▸ h)]
    · exact (bump_peek ..).trans (hsetPeek a)
    · rw [htr] at h
      obtain ⟨hpres, hp⟩ := hat i b hi h
      refine ⟨?_, hp⟩
      rw [← hsetLine] at hpres
      rwa [State.bumpX, line_congr (bump_lines ..)]
  · rw [State.xchOf, hsends.workKept.xch, hv.xch]
    exact hset
  · have hget : j.vals[i]? = some (fp32Block ((r'.1[i]?).getD [])) := by
      rw [hvals, List.getElem?_map, List.getElem?_eq_getElem (hlen.symm ▸ hi)]
      rfl
    exact ⟨_, hget, hexps i _ hi hget, rfl⟩

/-- A bucket whose lines must wait does not enter its first stage (R244). -/
theorem bucket_waits {p : Fin 4} (hexch : (s.xchOf p.val).exch = some e) (hheld : e.held.get {} e.next = {})
    (hwait : s.paWaits p.val (e.src + e.next * e.bucket * 1024) (e.bucket * 1024) = true) :
    Completes (.bucketStageStart p e.next) s (fun t => t = s) := by
  refine ⟨s, ?_, rfl⟩
  show execBucketStageStart p e.next s = _
  rw [execBucketStageStart, hexch]
  refine congrArg Host.Outcome.next ?_
  unfold State.stageStart
  simp only [hheld, hwait, Nat.add_zero, decide_true, Bool.true_and, Bool.true_or, if_true, beq_self_eq_true]
  split
  · rfl
  · exact ite_self s

/-- Settles O38, a clause for each kind of message and two for a bucket's start. -/
theorem exchangeStages : Obligations.ExchangeStages := by
  unfold Obligations.ExchangeStages
  refine ⟨fun s p e d hexch hdim _ hnext hjobs hheld hr0 hr1 hmark => ?_, fun s p e hexch _ hheld hwait => bucket_waits hexch hheld hwait,
    fun s k x e j d stage dir bucket block h hp hpos hmax hdir => ?_, fun s k x e j d stage dir bucket block h ha hdir hcar hok hres hmism hhalf => ?_,
    fun s k x e j d stage dir bucket block h hlen ha hdir hsums hok hres hmism hhalf => ?_, fun s k x e j d stage dir bucket block h => ?_⟩
  · exact bucket_enters hexch hdim hnext hjobs hheld hr0 hr1 hmark
  · exact ⟨fun ho => exponent_sent_on h hp hpos hmax hdir ho, fun ho => exponent_agreed h hp hpos hmax hdir ho⟩
  · exact ⟨fun ho => data_sent_on h ha hdir ho, fun ho => data_kept h ha hcar hok hres hmism hhalf ho⟩
  · exact ⟨fun ho => checksum_sent_on h hlen ha hdir ho, fun ho => checksum_kept h hlen ha hsums hok hres hmism hhalf ho⟩
  · exact ⟨fun hv hnew hlast => verdict_counted h hv hnew hlast, fun hv hmine hend => verdict_repeats h hv hmine hend⟩

end Sys2Proof.Machine
end

section
/-! ### A slice sheds a clean line that memory does not repeat (R237, R430) -/

namespace Sys2Proof.Machine

/-- Slice 0 sheds, and the one line that it holds is beyond its owner's way target of 0. The line's byte is valid and not dirty, and memory does not
hold it. -/
def shedStale : State := { State.reset with
  slices := [(0, { targets := [0], shedding := true })]
  lines := [(0, staleLine)] }

theorem exec_l2Shed (sl : Fin 192) (s : State) : exec (.l2Shed sl) s = .next (s.shed sl.val) := rfl

theorem shedStale_peek : shedStale.peek 0 = 5 := by decide +kernel

theorem shedStale_shed_peek : (shedStale.shed 0).peek 0 = 0 := by decide +kernel

/-- Refutes O44: the line that a slice sheds is written back where it is dirty, so a byte that is valid and clean in it is lost where memory holds another
one. The clause on the oldest line beyond a target says that no byte of HBM reads differently, and does not ask that a line's clean bytes are memory's: in
`shedStale` byte 0 reads 5 before the slice sheds and 0 after. -/
theorem not_sharesAndScrub : ¬ Obligations.SharesAndScrub := by
  unfold Obligations.SharesAndScrub
  rintro ⟨⟨-, -, -, hshed⟩, -⟩
  obtain ⟨-, -, hline⟩ := hshed shedStale 0
  obtain ⟨t, hexec, -, -, hpeek, -⟩ := hline 0 staleLine (by decide +kernel) (by decide +kernel) (by decide +kernel) fun j m hj hne => by
    obtain ⟨hmem, -⟩ := hj
    have hkey : j = 0 := congrArg Prod.fst (List.mem_singleton.1 hmem)
    exact absurd hkey hne
  have ht : shedStale.shed 0 = t := Host.Outcome.next.inj ((exec_l2Shed 0 shedStale).symm.trans hexec)
  have hkept : t.peek 0 = shedStale.peek 0 := hpeek (by decide +kernel) 0
  rw [← ht, shedStale_shed_peek, shedStale_peek] at hkept
  exact absurd hkept (by decide)

end Sys2Proof.Machine
end

section
/-! ### Answers of drives and stores, and the PCIe and CXL links (R254, R412, R413, R454 to R458, R540) -/

namespace Sys2Proof.Machine
open Sys2Proof.Machine.State

variable {s t u : State} {p l drive n : Nat} {v : Save} {x : SaveLayer}

/-! #### Events, counters and packets -/

/-- A step that posts, counts and sends: rings, registers, outputs, Ethernet ports and shares alone have changed. -/
def Posts (s t : State) : Prop := t = { s with out := t.out, regs := t.regs, eth := t.eth, shares := t.shares, rings := t.rings }

theorem Posts.refl (s : State) : Posts s s := rfl

theorem Posts.trans (h : Posts s t) (h' : Posts t u) : Posts s u := by
  unfold Posts at *
  generalize u.out = a, u.regs = b, u.eth = c, u.shares = d, u.rings = e at h' ⊢
  rw [h'] at ⊢
  rw [h]

theorem Posts.snaps (h : Posts s t) : t.snaps = s.snaps := by
  rw [Posts] at h
  rw [h]

theorem posts_setReg (s : State) (a : RegAddr) (m : Nat) : Posts s (s.setReg a m) := rfl

theorem posts_bump (s : State) (a : RegAddr) (m : Nat) : Posts s (s.bump a m) := by
  unfold Posts State.bump
  split <;> rfl

theorem posts_post (s : State) (p type code stream index d0 d1 : Nat) (w : Bool) : Posts s (s.post p type code stream index d0 d1 w) := by
  have hf := (noted_post (p := 0) s p type code stream index d0 d1 w).frame
  rw [post_dome] at hf
  exact hf

theorem posts_postAll (s : State) (type code d0 d1 : Nat) : Posts s (s.postAll type code d0 d1) :=
  State.foldl_keeps (Posts s) _ (fun _ _ h => h.trans (posts_post ..)) _ s (.refl s)

/-- A packet that leaves, or waits at its port, changes no register but the port's count of bytes. -/
theorem sendFrom_reg {a : RegAddr} (h : a.off % 2 ^ 24 ≠ 0x108) (s : State) (port : Nat) (f : EthFrame) : (s.sendFrom port f).reg a = s.reg a := by
  unfold State.sendFrom
  split
  · unfold State.transmit State.bumpEth
    rw [bump_reg_ne _ _ _ _ (regKey_ne_of_off (by simpa [pages] using h.symm))]
    rfl
  · rfl

/-- An event changes no register but the counts of dropped events and of the bytes sent. -/
theorem post_reg {a : RegAddr} (h : a.off % 2 ^ 24 ≠ 0x108) {p : Nat} (hp : regKey (home .str p 0x20) ≠ regKey a) (s : State)
    (type code stream index d0 d1 : Nat) (w : Bool) : (s.post p type code stream index d0 d1 w).reg a = s.reg a := by
  unfold State.post State.flushRing
  dsimp only
  refine State.foldl_keeps (fun t => t.reg a = s.reg a) _ (fun t f ht => (sendFrom_reg h ..).trans ht) _ _ ?_
  show State.reg (if _ then _ else _) a = _
  split
  · exact bump_reg_ne _ _ _ _ hp
  · rfl

theorem postAll_reg {a : RegAddr} (h : a.off % 2 ^ 24 ≠ 0x108) (h' : a.off % 2 ^ 24 ≠ 0x20) (s : State) (type code d0 d1 : Nat) :
    (s.postAll type code d0 d1).reg a = s.reg a :=
  State.foldl_keeps (fun t => t.reg a = s.reg a) _ (fun _ _ ht => (post_reg h (regKey_ne_of_off (by simpa [home] using h'.symm)) ..).trans ht) _ s rfl

/-- A step that sends: outputs, registers, Ethernet ports and shares alone have changed. -/
def Transmits (s t : State) : Prop := t = { s with out := t.out, regs := t.regs, eth := t.eth, shares := t.shares }

theorem Transmits.trans (h : Transmits s t) (h' : Transmits t u) : Transmits s u := by
  unfold Transmits at *
  generalize u.out = a, u.regs = b, u.eth = c, u.shares = d at h' ⊢
  rw [h'] at ⊢
  rw [h]

theorem transmits_bump (s : State) (a : RegAddr) (m : Nat) : Transmits s (s.bump a m) := by
  unfold Transmits State.bump
  split <;> rfl

theorem transmits_emit (s : State) (o : Output) : Transmits s (s.emit o) := rfl

theorem transmits_setEth (s : State) (port : Nat) (y : EthPort) : Transmits s (s.setEth port y) := rfl

theorem transmits_charge (s : State) (key m : Nat) : Transmits s (s.charge key m) := rfl

theorem transmits_sendFrom (s : State) (port : Nat) (f : EthFrame) : Transmits s (s.sendFrom port f) := by
  unfold State.sendFrom State.transmit State.bumpEth
  split
  · exact (((transmits_setEth ..).trans (transmits_charge ..)).trans (transmits_emit ..)).trans (transmits_bump ..)
  · exact transmits_setEth ..

theorem Transmits.posts (h : Transmits s t) : Posts s t := by
  unfold Transmits at h
  unfold Posts
  generalize t.out = a, t.regs = b, t.eth = c, t.shares = d at h ⊢
  rw [h]

/-! #### The layer that waits for a drive -/

/-- The one SAVE of a partition has one layer, which waits for the answer of a drive or a store. -/
structure LayerAt (s : State) (p l drive : Nat) (v : Save) (x : SaveLayer) : Prop where
  saves : (s.snapOf p).saves = [v]
  running : v.running = true
  parts : v.parts = [x]
  layer : x.layer = l
  busy : x.busy = true
  res : x.res = none
  drives : driveOf v.r l = drive
  deep : l = if drive < 16 then 1 else 2

theorem snapOf_congr (h : t.snaps = s.snaps) (p : Nat) : t.snapOf p = s.snapOf p := by rw [State.snapOf, h, State.snapOf]

theorem LayerAt.congr (h : LayerAt s p l drive v x) (hs : t.snaps = s.snaps) : LayerAt t p l drive v x :=
  { h with saves := (congrArg SnapSt.saves (snapOf_congr hs p)).trans h.saves }

theorem LayerAt.user (h : LayerAt s p l drive v x) : s.driveUser p drive = some (true, v.idx, l) := by
  unfold State.driveUser
  have hd := h.deep
  simp only [← hd, h.saves, List.find?_cons, h.running, h.drives, h.parts, List.any_cons, List.any_nil, h.layer, h.busy, h.res, beq_self_eq_true,
    Option.isNone_none, Bool.and_self, Bool.or_false]

theorem saveOf_only (hs : (s.snapOf p).saves = [v]) : s.saveOf p v.idx = some v := by
  unfold State.saveOf
  simp only [hs, List.find?_cons, beq_self_eq_true]

theorem saveLayer_only (hs : (s.snapOf p).saves = [v]) (hp : v.parts = [x]) (hl : x.layer = l) : s.saveLayer p v.idx l = some x := by
  unfold State.saveLayer
  simp only [saveOf_only hs, Option.bind_some, hp, List.find?_cons, hl, beq_self_eq_true]

theorem LayerAt.save (h : LayerAt s p l drive v x) : s.saveOf p v.idx = some v := saveOf_only h.saves

theorem LayerAt.free (h : LayerAt s p l drive v x) (hw : s.sourceWaits p v.r l = false) : s.driveWaits p drive = false := by
  unfold State.driveWaits
  simp only [h.user, h.save, Option.any_some, hw]

/-- The layer of a partition's one SAVE is changed: it is put back as `f` leaves it. -/
theorem modLayer_saves {f : SaveLayer → SaveLayer} (hs : (s.snapOf p).saves = [v]) (hp : v.parts = [x]) (hl : x.layer = l) :
    ((s.modLayer p v.idx l f).snapOf p).saves = [{ v with parts := [f x] }]
      ∧ s.modLayer p v.idx l f = { s with snaps := (s.modLayer p v.idx l f).snaps } := by
  refine ⟨?_, rfl⟩
  unfold State.modLayer State.modSave
  rw [State.setSnap, State.snapOf, SMap.get_set_same]
  simp only [hs, List.map_cons, List.map_nil, if_true, hp, hl]

/-- The layer has failed with a code, and nothing but registers and events beside it. -/
structure LayerFailed (s t : State) (p : Nat) (v : Save) (x : SaveLayer) (code : Nat) : Prop where
  saves : (t.snapOf p).saves = [{ v with parts := [{ x with busy := false, res := some (.failed code) }] }]
  frame : t = { s with snaps := t.snaps, out := t.out, regs := t.regs, eth := t.eth, shares := t.shares, rings := t.rings }

theorem LayerAt.fails (h : LayerAt s p l drive v x) (hu : Posts s u) {code : Nat} (ht : Posts (u.layerRes p v.idx l (.failed code)) t) :
    LayerFailed s t p v x code := by
  obtain ⟨hsaves, hframe⟩ := modLayer_saves (f := fun x => { x with busy := false, res := x.res <|> some (.failed code) })
    (h.congr hu.snaps).saves h.parts h.layer
  change u.layerRes p v.idx l (.failed code) = _ at hframe
  change ((u.layerRes p v.idx l (.failed code)).snapOf p).saves = _ at hsaves
  generalize u.layerRes p v.idx l (.failed code) = r at hsaves hframe ht
  refine ⟨?_, ?_⟩
  · rw [snapOf_congr ht.snaps, hsaves, h.res]
    rfl
  · rw [Posts] at hu ht
    generalize t.out = a, t.regs = b, t.eth = c, t.shares = d, t.rings = e at ht ⊢
    rw [ht, hframe, hu]

theorem LayerAt.driveDone (h : LayerAt s p l drive v x) (data : List Byte) :
    s.driveDone p drive data = s.layerStep p v.idx l (ofLeBytes (data.take 64)) := by
  unfold State.driveDone
  simp only [h.user]

theorem LayerAt.driveFails (h : LayerAt s p l drive v x) : s.driveFails p drive = (s.layerRes p v.idx l (.failed 0x0701), true) := by
  unfold State.driveFails
  simp only [h.user]
  rfl

/-! #### A flushed layer writes its COMPLETE header (R412) -/

/-- A step that changes registers alone. -/
def Counts (s t : State) : Prop := t = { s with regs := t.regs }

theorem Counts.trans (h : Counts s t) (h' : Counts t u) : Counts s u := by
  unfold Counts at *
  generalize u.regs = g at h' ⊢
  rw [h', h]

theorem counts_setReg (s : State) (a : RegAddr) (m : Nat) : Counts s (s.setReg a m) := rfl

theorem counts_progress (s : State) (n state operation code done total : Nat) : Counts s (s.progress n state operation code done total) :=
  (((counts_setReg ..).trans (counts_setReg ..)).trans (counts_setReg ..)).trans (counts_setReg ..)

theorem progress_reg (s : State) (n state operation code done total : Nat) :
    (s.progress n state operation code done total).reg (home .prog n 8) = done := by
  unfold State.progress
  rw [setReg_reg_ne _ _ _ _ (regKey_ne_of_off (by simp [home])), setReg_reg_ne _ _ _ _ (regKey_ne_of_off (by simp [home])), setReg_reg_same]

/-- The bytes of a slot's header, COMPLETE (R405). -/
def State.completeHeader (s : State) (v : Save) (x : SaveLayer) : List Byte :=
  leBytes 64 (slotHeader 2 s.self v.r.job v.step v.r.img v.r.blobBytes x.sum)

/-- The layer is in phase 7, whose command is under way, and its progress block shows all of its bytes. -/
structure LayerFlushed (s t : State) (p l : Nat) (v : Save) (x : SaveLayer) : Prop where
  saves : (t.snapOf p).saves = [{ v with parts := [{ x with phase := 7, busy := true }] }]
  frame : t = { s with snaps := t.snaps, out := t.out, regs := t.regs, eth := t.eth, shares := t.shares }
  done : t.reg (home .prog (16 + 16 * p + l) 8) = v.r.blobBytes + v.r.img

theorem LayerFlushed.transmits {r : State} (h : LayerFlushed r u p l v x) (hs : Transmits s r) (ht : Transmits u t)
    (hreg : t.reg (home .prog (16 + 16 * p + l) 8) = u.reg (home .prog (16 + 16 * p + l) 8)) : LayerFlushed s t p l v x := by
  obtain ⟨hsaves, hframe, hdone⟩ := h
  refine ⟨?_, ?_, hreg.trans hdone⟩
  · have hsnaps : t.snaps = u.snaps := by rw [ht]
    rw [snapOf_congr hsnaps, hsaves]
  · rw [Transmits] at hs ht
    generalize t.out = a, t.regs = b, t.eth = c, t.shares = d at ht ⊢
    rw [ht, hframe, hs]

/-- A deep layer enters phase 7: the command that writes its COMPLETE header goes out (R412). -/
theorem layerEnter_complete (hs : (s.snapOf p).saves = [v]) (hp : v.parts = [x]) (hl : x.layer = l) (hl0 : l ≠ 0)
    (hsag : l = 1 → s.dome.sag = false ∧ x.sagged = false) :
    ∃ u : State, s.layerEnter p v.idx l 7 = u.sendNvme p v.r l 1 (x.slot * slotSize v.r) 64 [] (s.completeHeader v x)
      ∧ (u.snapOf p).saves = [{ v with parts := [{ x with phase := 7, busy := true }] }] ∧ u = { s with snaps := u.snaps } := by
  subst hl
  unfold State.layerEnter
  obtain ⟨hsaves₁, hframe₁⟩ := modLayer_saves (f := fun x => { x with phase := 7, busy := false }) hs hp rfl
  generalize s.modLayer p v.idx x.layer (fun x => { x with phase := 7, busy := false }) = r at hsaves₁ hframe₁ ⊢
  have hx : r.saveLayer p v.idx x.layer = some { x with phase := 7, busy := false } :=
    saveLayer_only (v := { v with parts := [{ x with phase := 7, busy := false }] }) hsaves₁ rfl rfl
  have hv : r.saveOf p v.idx = some { v with parts := [{ x with phase := 7, busy := false }] } :=
    saveOf_only (v := { v with parts := [{ x with phase := 7, busy := false }] }) hsaves₁
  have hgo : (decide (x.layer = 1) && (r.dome.sag || (r.saveLayer p v.idx x.layer).any SaveLayer.sagged)) = false := by
    by_cases h1 : x.layer = 1
    · obtain ⟨hdome, hsagged⟩ := hsag h1
      rw [hx, hframe₁, hdome]
      simp [hsagged]
    · simp [h1]
  dsimp only
  rw [hgo, hx, hv]
  simp only [Bool.false_eq_true, if_false]
  unfold State.layerIssue
  obtain ⟨hsaves₂, hframe₂⟩ := modLayer_saves (v := { v with parts := [{ x with phase := 7, busy := false }] }) (f := fun x => { x with busy := true })
    hsaves₁ rfl rfl
  dsimp only at hsaves₂ hframe₂ ⊢
  generalize r.modLayer p v.idx x.layer (fun x => { x with busy := true }) = u at hsaves₂ hframe₂ ⊢
  refine ⟨u, ?_, hsaves₂, by rw [hframe₂, hframe₁]⟩
  have hself : u.self = s.self := by rw [hframe₂, hframe₁]; rfl
  show (if x.layer = 0 then _ else u.sendNvme p v.r x.layer 1 (x.slot * slotSize v.r) 64 []
    (leBytes 64 (slotHeader 2 u.self v.r.job v.step v.r.img v.r.blobBytes x.sum))) = _
  rw [if_neg hl0, hself]
  rfl

theorem LayerAt.flushes (h : LayerAt s p l drive v x) (hphase : x.phase = 6) (hsag : l = 1 → s.dome.sag = false ∧ x.sagged = false) (data : Nat) :
    ∃ u : State, s.layerStep p v.idx l data = u.sendNvme p v.r l 1 (x.slot * slotSize v.r) 64 [] (s.completeHeader v x) ∧ LayerFlushed s u p l v x
      ∧ u = { s with snaps := u.snaps, regs := u.regs } ∧ u.windowKey p = s.windowKey p := by
  have hl0 : l ≠ 0 := by
    rw [h.deep]
    split <;> decide
  have hprog : s.saveProgress p l (v.r.blobBytes + v.r.img) (v.r.blobBytes + v.r.img)
      = s.progress (16 + 16 * p + l) 2 3 0 (v.r.blobBytes + v.r.img) (v.r.blobBytes + v.r.img) := by
    unfold State.saveProgress State.saveBlock
    simp [h.saves, h.running]
  have hkey : (s.progress (16 + 16 * p + l) 2 3 0 (v.r.blobBytes + v.r.img) (v.r.blobBytes + v.r.img)).windowKey p = s.windowKey p := by
    unfold State.windowKey State.progress
    repeat rw [setReg_reg_ne _ _ _ _ (regKey_ne_of_off (by simp [home, pages]))]
  have hdone := progress_reg s (16 + 16 * p + l) 2 3 0 (v.r.blobBytes + v.r.img) (v.r.blobBytes + v.r.img)
  have hr := counts_progress s (16 + 16 * p + l) 2 3 0 (v.r.blobBytes + v.r.img) (v.r.blobBytes + v.r.img)
  unfold Counts at hr
  unfold State.layerStep
  simp only [h.save, saveLayer_only h.saves h.parts h.layer, h.res, hphase, hprog, Option.isSome_none, Bool.false_eq_true, if_false]
  generalize s.progress (16 + 16 * p + l) 2 3 0 (v.r.blobBytes + v.r.img) (v.r.blobBytes + v.r.img) = r at hkey hdone hr ⊢
  have hsaves : (r.snapOf p).saves = [v] := by rw [hr]; exact h.saves
  obtain ⟨u, hu, husaves, huframe⟩ := layerEnter_complete hsaves h.parts h.layer hl0 (fun h1 => by rw [hr]; exact hsag h1)
  have hregs : u.regs = r.regs := by rw [huframe]
  have hframe : u = { s with snaps := u.snaps, regs := u.regs } := by
    rw [hregs]
    generalize u.snaps = m at huframe ⊢
    generalize r.regs = g at hr ⊢
    rw [huframe, hr]
  refine ⟨u, ?_, ⟨husaves, ?_, ?_⟩, hframe, ?_⟩
  · rw [hu, hr]
    rfl
  · generalize u.snaps = m, u.regs = g at hframe ⊢
    rw [hframe]
  · rw [State.reg, hregs]
    exact hdone
  · rw [State.windowKey, State.reg, hregs]
    exact hkey

/-! #### A drive's answer (R412, R458) -/

/-- A SAVE layer waits for a drive or a store, and no line that its answer leads to must wait. -/
theorem layerAt_of (h : (s.snapOf p).saves = [v] ∧ v.running = true ∧ v.parts = [x] ∧ x.layer = l ∧ x.busy = true ∧ x.res = none
    ∧ driveOf v.r l = drive ∧ l = (if drive < 16 then 1 else 2) ∧ s.sourceWaits p v.r l = false) :
    LayerAt s p l drive v x ∧ s.driveWaits p drive = false := by
  obtain ⟨hsaves, hrun, hparts, hlayer, hbusy, hres, hdrive, hdeep, hwait⟩ := h
  have hat : LayerAt s p l drive v x := ⟨hsaves, hrun, hparts, hlayer, hbusy, hres, hdrive, hdeep⟩
  exact ⟨hat, hat.free hwait⟩

/-- The command of a flash layer goes out, and the bytes that it writes are counted (R413, R460). -/
theorem sendNvme_flash (u : State) (p : Nat) (r : SnapRec) (off : Nat) (data : List Byte) :
    u.sendNvme p r 1 1 off 64 [] data = (u.bump (pages .pcx (u.linkPart (driveOf r 1 / 4) (driveOf r 1 % 4)) (driveOf r 1 / 4) 0x108) 64).emit
      (.nvme (driveOf r 1) 1 r.fnsid (r.flba + off / (if Config.lba4k (driveOf r 1) r.fnsid then 4096 else 512)) 64 data) := rfl

section
variable {port link : Fin 4}

theorem exec_nvmeCompletion_answered (h : LayerAt s (s.linkPart port.val link.val) 1 (port.val * 4 + link.val) v x)
    (hfree : s.driveWaits (s.linkPart port.val link.val) (port.val * 4 + link.val) = false) (status : BitVec 16) (data : List Byte) :
    exec (.nvmeCompletion port link status data) s = .next (
      let p := s.linkPart port.val link.val
      if status.toNat = 0 then (s.bump (pages .pcx p port.val 0x100) data.length).driveDone p (port.val * 4 + link.val) data
      else (((s.setReg (home .pcx port.val 0x20) (status.toNat + link.val * 65536)).nvmeError p port.val link.val status.toNat).driveFails p
        (port.val * 4 + link.val)).1) := by
  show execNvmeCompletion port link status data s = _
  rw [execNvmeCompletion]
  simp only [h.user, hfree, Option.isNone_some, Bool.or_self, Bool.false_eq_true, if_false]

theorem completion_flushes (h : LayerAt s (s.linkPart port.val link.val) 1 (port.val * 4 + link.val) v x)
    (hfree : s.driveWaits (s.linkPart port.val link.val) (port.val * 4 + link.val) = false) (hphase : x.phase = 6) (hsag : s.dome.sag = false)
    (hsagged : x.sagged = false) (data : List Byte) :
    Completes (.nvmeCompletion port link 0 data) s fun t => LayerFlushed s t (s.linkPart port.val link.val) 1 v x ∧ t.eth = s.eth
      ∧ t.out = s.out ++ ([.nvme (port.val * 4 + link.val) 1 v.r.fnsid
          (v.r.flba + x.slot * slotSize v.r / (if Config.lba4k (port.val * 4 + link.val) v.r.fnsid then 4096 else 512)) 64 (s.completeHeader v x)] : List Output) := by
  refine ⟨_, exec_nvmeCompletion_answered h hfree 0 data, ?_⟩
  have hb := transmits_bump s (pages .pcx (s.linkPart port.val link.val) port.val 0x100) data.length
  have hout : (s.bump (pages .pcx (s.linkPart port.val link.val) port.val 0x100) data.length).out = s.out := bump_out ..
  have heth : (s.bump (pages .pcx (s.linkPart port.val link.val) port.val 0x100) data.length).eth = s.eth := bump_eth ..
  dsimp only
  rw [if_pos (show BitVec.toNat 0 = 0 from rfl)]
  generalize s.bump (pages .pcx (s.linkPart port.val link.val) port.val 0x100) data.length = r at hb hout heth ⊢
  have hr := h.congr (t := r) (by rw [hb])
  obtain ⟨u, hu, hfl, hframe, -⟩ := hr.flushes hphase (fun _ => ⟨by rw [hb]; exact hsag, hsagged⟩) (ofLeBytes (data.take 64))
  have hheader : r.completeHeader v x = s.completeHeader v x := by rw [hb]; rfl
  rw [hr.driveDone, hu, sendNvme_flash, h.drives, hheader]
  refine ⟨hfl.transmits hb ((transmits_bump ..).trans (transmits_emit ..)) ?_, ?_, ?_⟩
  · exact bump_reg_ne _ _ _ _ (regKey_ne_of_off (by simp [home, pages]))
  · exact (bump_eth ..).trans (by rw [hframe, heth])
  · rw [State.emit, bump_out, hframe, hout]

theorem completion_fails (h : LayerAt s (s.linkPart port.val link.val) 1 (port.val * 4 + link.val) v x)
    (hfree : s.driveWaits (s.linkPart port.val link.val) (port.val * 4 + link.val) = false) {status : BitVec 16} (hstatus : status ≠ 0)
    (data : List Byte) :
    Completes (.nvmeCompletion port link status data) s fun t => LayerFailed s t (s.linkPart port.val link.val) v x 0x0701
      ∧ t.reg (home .pcx port.val 0x20) = status.toNat + link.val * 65536 := by
  refine ⟨_, exec_nvmeCompletion_answered h hfree status data, ?_⟩
  have hp : s.linkPart port.val link.val < 4 := by
    unfold State.linkPart
    split
    · decide
    · exact Nat.mod_lt _ (by decide)
  have hne : ¬ status.toNat = 0 := fun h0 => hstatus (BitVec.eq_of_toNat_eq h0)
  have hkey : regKey (home .str (s.linkPart port.val link.val) 0x20) ≠ regKey (home .pcx port.val 0x20) := by
    have hport := port.isLt
    simp only [regKey, home, Kind.code]
    omega
  have hposts := (posts_setReg s (home .pcx port.val 0x20) (status.toNat + link.val * 65536)).trans
    (posts_post _ (s.linkPart port.val link.val) 0x0607 linkDownCode 0 0 (port.val + link.val * 4) status.toNat false)
  have hreg := (post_reg (by simp [home]) hkey (s.setReg (home .pcx port.val 0x20) (status.toNat + link.val * 65536)) 0x0607 linkDownCode 0 0
    (port.val + link.val * 4) status.toNat false).trans (setReg_reg_same ..)
  dsimp only
  rw [if_neg hne, State.nvmeError]
  generalize State.post _ _ _ _ _ _ _ _ _ = r at hposts hreg ⊢
  rw [(h.congr hposts.snaps).driveFails]
  exact ⟨h.fails hposts (.refl _), hreg⟩

theorem timeout_fails (h : LayerAt s (s.linkPart port.val link.val) 1 (port.val * 4 + link.val) v x) :
    Completes (.nvmeTimeout port link) s fun t => LayerFailed s t (s.linkPart port.val link.val) v x 0x0701 := by
  have hexec : exec (.nvmeTimeout port link) s = .next (
      let r := s.driveFails (s.linkPart port.val link.val) (port.val * 4 + link.val)
      if r.2 then r.1.nvmeError (s.linkPart port.val link.val) port.val link.val 65536 else s) := rfl
  refine ⟨_, hexec, ?_⟩
  rw [h.driveFails]
  dsimp only
  rw [if_pos rfl, State.nvmeError]
  exact h.fails (.refl s) (posts_post ..)

/-! #### The state of a port's links (R460) -/

theorem posts_setLinks (s : State) (port mask : Nat) : Posts s (s.setLinks port mask) := rfl

theorem setLinks_reg (s : State) (port mask : Nat) : (s.setLinks port mask).reg (home .pcx port 0x10)
    = putBits (putBits (s.reg (home .pcx port 0x10)) 8 4 mask) 2 1 (b2n (decide (mask ≠ 0))) := setReg_reg_same ..

theorem setLinks_link {mask i : Nat} (hi : i < 4) (s : State) (port : Nat) :
    bit ((s.setLinks port mask).reg (home .pcx port 0x10)) (8 + i) = mask.testBit i := by
  rw [setLinks_reg, bit, testBit_putBits, if_neg (by omega), if_neg (by omega), testBit_putBits, if_neg (by omega), if_pos (by omega),
    Nat.add_sub_cancel_left]

theorem setLinks_cxlUp (s : State) (port mask : Nat) : (s.setLinks port mask).cxlUp port = decide (mask ≠ 0) := by
  rw [State.cxlUp, setLinks_reg, bit, testBit_putBits, if_neg (by decide), if_pos (by decide)]
  by_cases h : mask ≠ 0 <;> simp [h, b2n]

/-- The bits of the links that are up, one of them cleared. -/
theorem testBit_sub_link {m i : Nat} (h : m.testBit i = true) : (m - 2 ^ i).testBit i = false := by
  have hle : 2 ^ i ≤ m := Nat.ge_two_pow_of_testBit h
  obtain ⟨k, hk⟩ : ∃ k, m = k + 2 ^ i := ⟨m - 2 ^ i, (Nat.sub_add_cancel hle).symm⟩
  rw [hk, Nat.add_sub_cancel]
  rw [hk, Nat.add_comm, Nat.testBit_two_pow_add_eq] at h
  simpa using h

theorem linkDown_fails (h : LayerAt s (s.linkPart port.val link.val) 1 (port.val * 4 + link.val) v x)
    (hrole : bits (s.reg (home .pcx port.val 0x10)) 0 2 = 2) (hup : bit (s.reg (home .pcx port.val 0x10)) (8 + link.val) = true) :
    Completes (.pcieLinkDown port link) s fun t => LayerFailed s t (s.linkPart port.val link.val) v x 0x0701
      ∧ bit (t.reg (home .pcx port.val 0x10)) (8 + link.val) = false := by
  have hexec : exec (.pcieLinkDown port link) s = .next (
      let u := (s.setLinks port.val (bits (s.reg (home .pcx port.val 0x10)) 8 4 - 2 ^ link.val)).bump (home .pcx port.val 0x128) 1
      ((u.driveFails (s.linkPart port.val link.val) (port.val * 4 + link.val)).1).nvmeError (s.linkPart port.val link.val) port.val link.val 0) := by
    show execPcieLinkDown port link s = _
    rw [execPcieLinkDown]
    simp only [hrole, hup, decide_true, Bool.and_self, if_true]
  refine ⟨_, hexec, ?_⟩
  have hlink : (bits (s.reg (home .pcx port.val 0x10)) 8 4).testBit link.val = true := by
    rw [bits, Nat.testBit_mod_two_pow, Nat.testBit_shiftRight, decide_eq_true link.isLt]
    exact hup
  have hposts := (posts_setLinks s port.val (bits (s.reg (home .pcx port.val 0x10)) 8 4 - 2 ^ link.val)).trans (posts_bump _ (home .pcx port.val 0x128) 1)
  have hbit : bit (((s.setLinks port.val (bits (s.reg (home .pcx port.val 0x10)) 8 4 - 2 ^ link.val)).bump (home .pcx port.val 0x128) 1).reg
      (home .pcx port.val 0x10)) (8 + link.val) = false := by
    rw [bump_reg_ne _ _ _ _ (regKey_ne_of_off (by simp [home])), setLinks_link link.isLt, testBit_sub_link hlink]
  dsimp only
  generalize State.bump _ _ _ = u at hposts hbit ⊢
  rw [(h.congr hposts.snaps).driveFails, State.nvmeError]
  refine ⟨h.fails hposts (posts_post ..), ?_⟩
  rw [post_reg (by simp [home]) (regKey_ne_of_off (by simp [home]))]
  exact hbit

end

/-! #### A store's answer (R413, R454, R455) -/

theorem mayLeave_bump (s : State) (a : RegAddr) (m port n : Nat) : (s.bump a m).mayLeave port n = s.mayLeave port n := by
  unfold State.mayLeave State.ethOf State.qp
  rw [bump_eth, bump_qps]

/-- A packet that may leave goes out, with its port's traffic class (R450). -/
theorem sendOn_leaves (h : s.mayLeave (s.qp n).port n = true) (bytes : Nat) (o : Output) :
    Transmits s (s.sendOn n bytes o)
      ∧ (s.sendOn n bytes o).out = s.out ++ ([.packet (s.qp n).port (s.cfg (0x108 + 64 * (s.qp n).port) 0 6 * 4 + 2) o] : List Output)
      ∧ (s.sendOn n bytes o).mayLeave (s.qp n).port n = true := by
  refine ⟨transmits_sendFrom .., ?_⟩
  unfold State.sendOn State.sendFrom
  rw [if_pos h]
  unfold State.transmit State.bumpEth
  refine ⟨bump_out .., ?_⟩
  · rw [mayLeave_bump]
    show State.mayLeave (s.setEth _ _) _ _ = true
    unfold State.mayLeave
    rw [State.ethOf, State.setEth, SMap.get_set_same]
    exact h

theorem posts_sendOn (s : State) (n bytes : Nat) (o : Output) : Posts s (s.sendOn n bytes o) := (transmits_sendFrom ..).posts

/-- The command of a store's layer goes out on its I/O queue pair (R413, R454). -/
theorem sendNvme_store {u : State} {r : SnapRec} (hio : (u.stores.get {} (p * 16 + r.target)).io = n) (hn : n ≠ 0) (off : Nat) (data : List Byte) :
    u.sendNvme p r 2 1 off 64 [] data = u.sendOn n (64 + data.length)
      (.capsule n 1 r.snsid (r.slba + off / (if Config.lba4k (driveOf r 2) r.snsid then 4096 else 512)) 64 (u.windowKey p) [] data) := by
  unfold State.sendNvme
  simp only [hio]
  exact if_neg hn

section
variable (hconn : (s.qp n).conn = true) (hheld : (s.qp n).held = false) (hkind : (s.qp n).kind = 3)
  (h : LayerAt s (s.qp n).part 2 (16 + (s.qp n).target) v x) (hfree : s.driveWaits (s.qp n).part (16 + (s.qp n).target) = false)
include hconn hheld hkind hfree

theorem exec_storeResponse_answered (status : BitVec 16) (data : List Byte) :
    exec (.storeResponseCapsule n status ⟨data, false⟩) s = .next (
      let q := s.qp n
      let u := (s.sendOn n 0 (.roce n none)).bumpEth q.part q.port 0x100 (16 + data.length)
      if status.toNat = 0 then u.driveDone q.part (16 + q.target) data
      else (((u.setReg (home .eth q.port 0x24) (status.toNat + q.target * 65536)).storeError q.part q.target status.toNat).driveFails q.part
        (16 + q.target)).1) := by
  have hmark : s.ceMark n false = s := rfl
  show execStoreResponseCapsule n status ⟨data, false⟩ s = _
  unfold execStoreResponseCapsule State.onQp State.storeCapsule
  simp only [hfree, hconn, hheld, hkind, hmark, Bool.false_eq_true, if_false, Bool.not_false, Bool.and_self, if_true, ne_eq, not_true_eq_false]

include h

theorem response_flushes (hn : n ≠ 0) (hphase : x.phase = 6) (hio : (s.stores.get {} ((s.qp n).part * 16 + (s.qp n).target)).io = n)
    (hleave : s.mayLeave (s.qp n).port n = true) (data : List Byte) :
    Completes (.storeResponseCapsule n 0 ⟨data, false⟩) s fun t => LayerFlushed s t (s.qp n).part 2 v x
      ∧ t.out = s.out ++ ([.roce n none, .capsule n 1 v.r.snsid
          (v.r.slba + x.slot * slotSize v.r / (if Config.lba4k (16 + (s.qp n).target) v.r.snsid then 4096 else 512)) 64 (s.windowKey (s.qp n).part) []
          (s.completeHeader v x)] : List Output).map (fun o => .packet (s.qp n).port (s.cfg (0x108 + 64 * (s.qp n).port) 0 6 * 4 + 2) o) := by
  refine ⟨_, exec_storeResponse_answered hconn hheld hkind hfree 0 data, ?_⟩
  dsimp only
  rw [if_pos (show BitVec.toNat 0 = 0 from rfl)]
  obtain ⟨hsend, hout, hmay⟩ := sendOn_leaves hleave 0 (.roce n none)
  have hsent := hsend.trans (transmits_bump _ (pages .eth (s.qp n).part (s.qp n).port 0x100) (16 + data.length))
  have hout' := (bump_out (s := s.sendOn n 0 (.roce n none)) (pages .eth (s.qp n).part (s.qp n).port 0x100) (16 + data.length)).trans hout
  have hmay' := (mayLeave_bump _ (pages .eth (s.qp n).part (s.qp n).port 0x100) (16 + data.length) ..).trans hmay
  have hkey : ((s.sendOn n 0 (.roce n none)).bump (pages .eth (s.qp n).part (s.qp n).port 0x100) (16 + data.length)).windowKey (s.qp n).part
      = s.windowKey (s.qp n).part := by
    rw [State.windowKey, bump_reg_ne _ _ _ _ (regKey_ne_of_off (by simp [pages])), State.sendOn, sendFrom_reg (by simp [pages]), State.windowKey]
  rw [State.bumpEth]
  generalize State.bump _ _ _ = r at hsent hout' hmay' hkey ⊢
  have hr := h.congr (t := r) (by rw [hsent])
  obtain ⟨u, hu, hfl, hframe, hukey⟩ := hr.flushes hphase (fun h1 => absurd h1 (by decide)) (ofLeBytes (data.take 64))
  have hheader : r.completeHeader v x = s.completeHeader v x := by rw [hsent]; rfl
  have htarget : v.r.target = (s.qp n).target := Nat.add_left_cancel h.drives
  have hstores : u.stores = s.stores := by rw [hframe, hsent]
  have huqp : u.qp n = s.qp n := by rw [hframe, hsent]; rfl
  have humay : u.mayLeave (u.qp n).port n = true := by rw [huqp, hframe]; exact hmay'
  have hucfg : u.cfg = s.cfg := by rw [hframe, hsent]; rfl
  have huout : u.out = r.out := by rw [hframe]
  rw [hr.driveDone, hu, sendNvme_store (by rw [hstores, htarget]; exact hio) hn, h.drives, hheader, hukey, hkey]
  obtain ⟨hsend₂, hout₂, -⟩ := sendOn_leaves humay (64 + (s.completeHeader v x).length) (.capsule n 1 v.r.snsid
    (v.r.slba + x.slot * slotSize v.r / (if Config.lba4k (16 + (s.qp n).target) v.r.snsid then 4096 else 512)) 64 (s.windowKey (s.qp n).part) []
    (s.completeHeader v x))
  refine ⟨hfl.transmits hsent hsend₂ (sendFrom_reg (by simp [home]) ..), ?_⟩
  rw [hout₂, huout, hout', huqp, hucfg, List.append_assoc]
  rfl

theorem response_fails {status : BitVec 16} (hstatus : status ≠ 0) (data : List Byte) :
    Completes (.storeResponseCapsule n status ⟨data, false⟩) s fun t => LayerFailed s t (s.qp n).part v x 0x0701
      ∧ t.reg (home .eth (s.qp n).port 0x24) = status.toNat + (s.qp n).target * 65536 := by
  refine ⟨_, exec_storeResponse_answered hconn hheld hkind hfree status data, ?_⟩
  have hne : ¬ status.toNat = 0 := fun h0 => hstatus (BitVec.eq_of_toNat_eq h0)
  have hsent := (posts_sendOn s n 0 (.roce n none)).trans (posts_bump _ (pages .eth (s.qp n).part (s.qp n).port 0x100) (16 + data.length))
  dsimp only
  rw [if_neg hne, State.bumpEth]
  generalize State.bump _ _ _ = r at hsent ⊢
  have hposts := (hsent.trans (posts_setReg r (home .eth (s.qp n).port 0x24) (status.toNat + (s.qp n).target * 65536))).trans
    (posts_post _ (s.qp n).part 0x0604 linkDownCode 0 0 ((r.setReg (home .eth (s.qp n).port 0x24) (status.toNat + (s.qp n).target * 65536)).storePort
      (s.qp n).target + (s.qp n).target * 16) status.toNat false)
  have hreg := (post_reg (p := (s.qp n).part) (by simp [home]) (regKey_ne_of_off (by simp [home]))
    (r.setReg (home .eth (s.qp n).port 0x24) (status.toNat + (s.qp n).target * 65536)) 0x0604 linkDownCode 0 0
    ((r.setReg (home .eth (s.qp n).port 0x24) (status.toNat + (s.qp n).target * 65536)).storePort (s.qp n).target + (s.qp n).target * 16)
    status.toNat false).trans (setReg_reg_same ..)
  rw [State.storeError]
  generalize State.post _ _ _ _ _ _ _ _ _ = u at hposts hreg ⊢
  rw [(h.congr hposts.snaps).driveFails]
  exact ⟨h.fails hposts (.refl _), hreg⟩

end

theorem storeTimeout_fails {k : Fin 16} {q : Fin 4} (h : LayerAt s q.val 2 (16 + k.val) v x) :
    Completes (.storeTimeout q k) s fun t => LayerFailed s t q.val v x 0x0701 := by
  have hexec : exec (.storeTimeout q k) s = .next (
      let r := s.driveFails q.val (16 + k.val)
      if r.2 then r.1.storeError q.val k.val 65536
      else if (s.qps.any (fun e => e.2.wait && e.2.part == q.val && e.2.target == k.val)) then
        (s.storeError q.val k.val 65536).storeOpened q.val k.val false
      else s) := rfl
  refine ⟨_, hexec, ?_⟩
  rw [h.driveFails]
  dsimp only
  rw [if_pos rfl, State.storeError]
  exact h.fails (.refl s) (posts_post ..)

/-! #### Links that return and links that are lost (R254, R457, R540) -/

section
variable {port link : Fin 4}

theorem retrain_returns (hrole : bits (s.reg (home .pcx port.val 0x10)) 0 2 = 2) (hdown : bit (s.reg (home .pcx port.val 0x10)) (8 + link.val) = false)
    (hon : s.domOn (60 + port.val) = true) (hlinks : link.val < s.pcxLinks port.val) :
    Completes (.pcieLinkRetrain port link) s fun t => bit (t.reg (home .pcx port.val 0x10)) (8 + link.val) = true
      ∧ t = { s with regs := t.regs, out := s.out ++ [.pin (0x100 + port.val * 4 + link.val) 0, .pin (0x100 + port.val * 4 + link.val) 1] } := by
  have hexec : exec (.pcieLinkRetrain port link) s = .next (
      ({ s with out := s.out ++ [.pin (0x100 + port.val * 4 + link.val) 0, .pin (0x100 + port.val * 4 + link.val) 1] } : State).setLinks port.val
        (bits (s.reg (home .pcx port.val 0x10)) 8 4 + 2 ^ link.val)) := by
    show execPcieLinkRetrain port link s = _
    unfold execPcieLinkRetrain State.emit
    simp only [hrole, hdown, hon, hlinks, decide_true, Bool.not_false, Bool.and_self, if_true, List.append_assoc]
    rfl
  have hclear : (bits (s.reg (home .pcx port.val 0x10)) 8 4).testBit link.val = false := by
    rw [bits, Nat.testBit_mod_two_pow, Nat.testBit_shiftRight, decide_eq_true link.isLt]
    exact hdown
  refine ⟨_, hexec, ?_, rfl⟩
  rw [setLinks_link link.isLt, testBit_add_two_pow hclear, decide_eq_true rfl, Bool.true_or]

/-- Lines given up one by one: each is absent, and every other as before. -/
theorem setLines_empty (ks : List Nat) (s : State) :
    (∀ a, (ks.foldl (fun s k => s.setLine (k * 128) {}) s).line a = if a / 128 ∈ ks then {} else s.line a)
      ∧ ks.foldl (fun s k => s.setLine (k * 128) {}) s = { s with lines := (ks.foldl (fun s k => s.setLine (k * 128) {}) s).lines } := by
  induction ks generalizing s with
  | nil => exact ⟨fun a => by simp, rfl⟩
  | cons k ks ih =>
    obtain ⟨hline, hframe⟩ := ih (s.setLine (k * 128) {})
    refine ⟨fun a => ?_, ?_⟩
    · rw [List.foldl_cons, hline, line_setLine, Nat.mul_div_cancel _ (by decide)]
      by_cases ha : a / 128 ∈ ks
      · simp [ha]
      · by_cases hk : k = a / 128
        · simp [hk]
        · simp [ha, hk, Ne.symm hk]
    · rw [List.foldl_cons]
      generalize List.foldl _ _ ks = t at hframe ⊢
      rw [hframe]
      rfl

/-- The lines of a CXL port's window that are dirty. -/
def State.cxlDirty (s : State) (port : Nat) : List Nat :=
  (s.lines.filter (fun l => l.2.present && l.2.dirty != 0 && place (l.1 * 128) == .cxl port)).map Prod.fst

theorem mem_of_get {m : SMap L2Line} {k : Nat} (h : m.get {} k ≠ {}) : (k, m.get {} k) ∈ m := by
  induction m with
  | nil => exact absurd rfl h
  | cons e m ih =>
    obtain ⟨j, y⟩ := e
    rw [SMap.get] at h ⊢
    split at h
    · next hj =>
      rw [if_pos hj, hj]
      exact List.mem_cons_self
    · next hj =>
      rw [if_neg hj]
      exact List.mem_cons_of_mem _ (ih h)

theorem cxlDirty_place {k : Nat} {q : Nat} (h : k ∈ s.cxlDirty q) : place (k * 128) = .cxl q := by
  obtain ⟨e, he, rfl⟩ := List.mem_map.1 h
  have := (List.mem_filter.1 he).2
  simp only [Bool.and_eq_true, beq_iff_eq] at this
  exact this.2

theorem mem_cxlDirty {a q : Nat} (hp : place (a / 128 * 128) = .cxl q) (hpres : (s.line a).present = true) (hd : (s.line a).dirty ≠ 0) :
    a / 128 ∈ s.cxlDirty q := by
  have hmem : (a / 128, s.line a) ∈ s.lines := mem_of_get fun h => by
    rw [State.line, h] at hpres
    exact absurd hpres (by decide)
  refine List.mem_map.2 ⟨_, List.mem_filter.2 ⟨hmem, ?_⟩, rfl⟩
  simp [hpres, hd, hp]

theorem cxl_lost (hrole : bits (s.reg (home .pcx port.val 0x10)) 0 2 = 1) (hup : s.cxlUp port.val = true) :
    Completes (.cxlLinkDown port) s fun t => t.cxlUp port.val = false ∧ t.mem = s.mem
      ∧ (∀ a, place (a / 128 * 128) = .cxl port.val → (s.line a).present = true → (s.line a).dirty ≠ 0 → (t.line a).present = false)
      ∧ ∀ a, place (a / 128 * 128) ≠ .cxl port.val → t.line a = s.line a := by
  have hexec : exec (.cxlLinkDown port) s = .next (
      ((((s.cxlDirty port.val).foldl (fun s k => s.setLine (k * 128) {}) s).setLinks port.val 0).bump (home .pcx port.val 0x128) 1).postAll
        0x0605 0 port.val 0) := by
    show execCxlLinkDown port s = _
    unfold execCxlLinkDown
    simp only [hrole, hup, decide_true, Bool.and_self, if_true]
    rfl
  obtain ⟨hline, hframe⟩ := setLines_empty (s.cxlDirty port.val) s
  refine ⟨_, hexec, ?_⟩
  generalize (s.cxlDirty port.val).foldl (fun s k => s.setLine (k * 128) {}) s = u at hline hframe ⊢
  have hposts := ((posts_setLinks u port.val 0).trans (posts_bump _ (home .pcx port.val 0x128) 1)).trans (posts_postAll _ 0x0605 0 port.val 0)
  have hdown : (((u.setLinks port.val 0).bump (home .pcx port.val 0x128) 1).postAll 0x0605 0 port.val 0).cxlUp port.val = false := by
    rw [State.cxlUp, postAll_reg (by simp [home]) (by simp [home]), bump_reg_ne _ _ _ _ (regKey_ne_of_off (by simp [home]))]
    exact setLinks_cxlUp ..
  generalize State.postAll _ _ _ _ _ = t at hposts hdown ⊢
  have hlines : t.lines = u.lines := by rw [hposts]
  refine ⟨hdown, by rw [hposts, hframe], fun a hp hpres hd => ?_, fun a hp => ?_⟩
  · rw [line_congr hlines, hline, if_pos (mem_cxlDirty hp hpres hd)]
  · rw [line_congr hlines, hline, if_neg fun hmem => hp (cxlDirty_place hmem)]

theorem cxl_returns (hrole : bits (s.reg (home .pcx port.val 0x10)) 0 2 = 1) (hdown : s.cxlUp port.val = false)
    (hon : s.domOn (60 + port.val) = true) :
    Completes (.cxlRetrain port true) s fun t => t.cxlUp port.val = true ∧ t.mem = s.mem ∧ t.lines = s.lines := by
  have hexec : exec (.cxlRetrain port true) s
      = .next ((s.setLinks port.val 1).postAll 0x0606 0 port.val (s.reg (home .pcx port.val 0x18))) := by
    show execCxlRetrain port true s = _
    unfold execCxlRetrain
    simp only [hrole, hdown, hon, decide_true, Bool.not_false, Bool.and_self, if_true]
  have hposts := (posts_setLinks s port.val 1).trans (posts_postAll _ 0x0606 0 port.val (s.reg (home .pcx port.val 0x18)))
  refine ⟨_, hexec, ?_, by rw [hposts], by rw [hposts]⟩
  rw [State.cxlUp, postAll_reg (by simp [home]) (by simp [home])]
  exact setLinks_cxlUp ..

end

/-- Settles O43: the layer that waits for a drive or a store goes on with its answer or fails, and a link's loss and return are read off the status
register of its port. -/
theorem drivesAndMemoryLinks : Obligations.DrivesAndMemoryLinks := by
  unfold Obligations.DrivesAndMemoryLinks
  refine ⟨⟨fun s port link v x h => ?_, fun s port link status data hwait => ?_, fun s n v x hconn hheld hkind hn h => ?_, fun s p k v x h => ?_⟩,
    fun s port link hrole hdown hon hlinks => retrain_returns hrole hdown hon hlinks, fun s port hrole => ⟨fun hup => cxl_lost hrole hup,
      fun hdown hon => cxl_returns hrole hdown hon, ⟨s, rfl, rfl⟩⟩⟩
  · obtain ⟨hat, hfree⟩ := layerAt_of h
    refine ⟨fun hphase hsag hsagged data => ?_, fun status data hstatus => ?_, ?_, fun hrole hup => ?_⟩
    · obtain ⟨t, hexec, ⟨hsaves, hframe, hdone⟩, heth, hout⟩ := completion_flushes hat hfree hphase hsag hsagged data
      exact ⟨t, hexec, ⟨hsaves, hframe, hdone⟩, heth, hout⟩
    · obtain ⟨t, hexec, ⟨hsaves, hframe⟩, hreg⟩ := completion_fails hat hfree hstatus data
      exact ⟨t, hexec, ⟨hsaves, hframe⟩, hreg⟩
    · obtain ⟨t, hexec, hsaves, hframe⟩ := timeout_fails hat
      exact ⟨t, hexec, hsaves, hframe⟩
    · obtain ⟨t, hexec, ⟨hsaves, hframe⟩, hbit⟩ := linkDown_fails hat hrole hup
      exact ⟨t, hexec, ⟨hsaves, hframe⟩, hbit⟩
  · refine ⟨s, ?_, rfl⟩
    show execNvmeCompletion port link status data s = _
    rw [execNvmeCompletion]
    simp only [hwait, Bool.or_true, if_true]
  · obtain ⟨hat, hfree⟩ := layerAt_of h
    refine ⟨fun hphase hio hleave data => ?_, fun status data hstatus => ?_⟩
    · obtain ⟨t, hexec, ⟨hsaves, hframe, hdone⟩, hout⟩ := response_flushes hconn hheld hkind hat hfree hn hphase hio hleave data
      exact ⟨t, hexec, ⟨hsaves, hframe, hdone⟩, hout⟩
    · obtain ⟨t, hexec, ⟨hsaves, hframe⟩, hreg⟩ := response_fails hconn hheld hkind hat hfree hstatus data
      exact ⟨t, hexec, ⟨hsaves, hframe⟩, hreg⟩
  · obtain ⟨hat, -⟩ := layerAt_of h
    obtain ⟨t, hexec, hsaves, hframe⟩ := storeTimeout_fails hat
    exact ⟨t, hexec, hsaves, hframe⟩

end Sys2Proof.Machine
end
